-- ==== Sys2Proof/Word.lean ====
section
/-!
DEFINITION. Sys2Proof/Word.lean: the word types of the block and the sparse tables its state is made of.
-/

namespace Sys2Proof

/-- A byte. -/
abbrev Byte := BitVec 8

/-- A 32-bit register or clause word. -/
abbrev Word := BitVec 32

/-- A 64-bit address or serial number. -/
abbrev DWord := BitVec 64

/-- A sparse table: pairs of a key and a value, keys strictly rising, no entry equal to the default value. -/
abbrev Tab (α : Type) := List (Nat × α)

end Sys2Proof
end

