-- ==== Sys2Proof/Syntax.lean ====
section
/-!
DEFINITION. Sys2Proof/Syntax.lean: the commands of the block, one constructor for each row of spec/opcode_table.json.
A command that the environment causes carries what the environment supplies (an address, data, a reading).
-/

namespace Sys2Proof

/-- What the ECC of a memory finds in one access (R307, R526, R529): the environment's part of a read. -/
inductive Ecc where
  /-- No error. -/
  | clean
  /-- A correctable error. -/
  | corrected
  /-- A double-bit cistern error (R307). -/
  | cisternDouble
  /-- An uncorrectable DDR error in the 64-byte line of this number (R529). -/
  | ddrLine (line : Nat)
deriving DecidableEq, Repr

/-- A fabric packet: the header fields of R494 and its granules as bytes. -/
structure Packet where
  kind : BitVec 4
  len : BitVec 3
  down : Bool
  tenant : BitVec 4
  epoch : BitVec 8
  srcWafer : BitVec 7
  dstWafer : BitVec 7
  srcCluster : BitVec 11
  txn : BitVec 16
  urgent : Bool
  deadline : BitVec 3
  code : BitVec 2
  addr : BitVec 56
  orient : Bool
  data : List Byte
deriving DecidableEq, Repr

/-- One link's state in a LINKS report (R487). -/
structure LinkReport where
  state : BitVec 4
  peerSerial : DWord
  peerLink : BitVec 5
deriving DecidableEq, Repr

/-- One destination of a ROUTES message (R487, R474): 0 SELF, 1 PRESENT, 2 ABSENT, 3 UNNUMBERED (log 6). -/
structure RouteEntry where
  dest : BitVec 7
  state : BitVec 2
  mAny : BitVec 24
  mDown : BitVec 24
deriving DecidableEq, Repr

/-- The contents of a peer message by type (R487). -/
inductive PeerBody where
  | hello (link : Fin 24) (serial : DWord) (peerLink : BitVec 5) (fabricId candidate : DWord) (number : BitVec 8)
      (level : Nat)
  | links (serial : DWord) (part : Fin 4) (reports : List LinkReport)
  | map (fabricId : DWord) (maxWafers waferCount : Nat) (present : BitVec 128) (serials : List (Nat × DWord))
  | routes (generation : Nat) (orient shadow : Bool) (entries : List RouteEntry)
  | status (number : BitVec 7) (installed shadow : Nat) (orient : Bool) (linksUp : BitVec 24)
  | switch (generation : Nat)
  | primary (south : Bool) (failovers : BitVec 8)
  /-- Any other TYPE (discarded, R487). -/
  | other
deriving DecidableEq, Repr

/-- A peer message: its 64 bytes, word 0 of which R385 lays out, and its contents, for which the spec gives no layout (log 79). -/
structure PeerMsg where
  data : List Byte
  body : PeerBody
deriving DecidableEq, Repr

/-- A CONTROL packet, and what the words of its message after word 0 say. -/
structure ControlMsg where
  pkt : Packet
  body : PeerBody
deriving DecidableEq, Repr

/-- The clause that a verb's command carries out, by its tag, and what the ECC finds in the bytes it reads (R307, R529). -/
structure VerbRun where
  tag : BitVec 16
  ecc : Ecc
deriving DecidableEq, Repr

/-- The cluster of a unit's command, and what the ECC finds in the bytes it reads (R307, R529). -/
structure UnitRun where
  k : Fin 1680
  ecc : Ecc
deriving DecidableEq, Repr

/-- One tester's report on one cluster (R593). -/
structure TestReport where
  /-- Physical index y × 35 + x of the cluster tested. -/
  target : Nat
  /-- Physical index of the tester, or none for a rim's test engine (R592). -/
  tester : Option Nat
  router : Bool
  /-- Highest passing array step, or none. -/
  arrayStep : Option Nat
  cistern : Bool
  others : Bool
  /-- Aging reading D in 0.1 %. -/
  aging : Nat
  /-- Paths tested from this end: the ledger's word-0 key of the path (R633, bit 7 zero) and the result. -/
  paths : List (Nat × Bool)
  /-- Spare rows that the tester would assign: bank and row of each failing row; they count from a cistern's first tester only (R594). -/
  spares : List (Nat × Nat) := []
deriving DecidableEq, Repr

/-- What a DDR channel's SPD lists and how its training ends (R519 to R522, R584). -/
structure Dimm where
  /-- RDIMM with ECC and a registering clock driver, neither 3DS nor unbuffered. -/
  accepted : Bool
  capacityGiB : Nat
  ranks : Nat
  deviceWidth : Nat
  speeds : List Nat
  trained : Bool
deriving DecidableEq, Repr

/-- What a patrol scrub or a merge finds in a line (R528). -/
inductive ScrubFinding where
  | clean
  | corrected
  | uncorrectable
deriving DecidableEq, Repr

/-- Why a port cannot write (R508). -/
inductive PortCause where
  | link
  | busMaster
  | d3hot
deriving DecidableEq, Repr

/-- The request kinds that get Unsupported Request (R514). -/
inductive BadRequest where
  | outsideBars
  | atomicOp
  | undefinedMessage
deriving DecidableEq, Repr

/-- Where a register that REGISTER_WRITE writes stands: BAR0, BAR4 (R501), or the port's configuration space. The spec gives no offsets of the
configuration space; its two registers that change what the engine does are named (R506, R512). -/
inductive RegSpace where
  | bar0
  | bar4
  /-- MSI-X Enable. -/
  | msixEnable
  /-- Relaxed Ordering enable in Device Control. -/
  | relaxedOrdering
deriving DecidableEq, Repr

/-- The status of a completion for an engine read (R514). -/
inductive CplStatus where
  | success
  | unsupported
  | completerAbort
deriving DecidableEq, Repr

/-- The neighbour or rim a reference comes from (R555). -/
inductive RefSource where
  | rim
  | cluster (q : Nat)
deriving DecidableEq, Repr

/-- The peer message types that are repeated (R386, R487). -/
inductive PeerType where
  | hello | links | map | routes | status | switch | primary
deriving DecidableEq, Repr

/-- The commands. Constructor names follow the mnemonics of the table. -/
inductive Instr where
  -- mailbox
  | postWrite (p : Fin 4) (t : Fin 16) (off : Nat) (ep : Bool) (data : List Byte)
  | pumphouseVisit
  | clause (t : Fin 16)
  | badType (t : Fin 16)
  | ringSetup (t : Fin 16)
  | planLoad (t : Fin 16)
  | planLoadDone (t : Fin 16)
  | planUnload (t : Fin 16)
  | queueClear (t : Fin 16)
  | resetTenant (t : Fin 16)
  | resetRegion (t : Fin 16)
  | resetField (t : Fin 16)
  | fieldResetOutcome (f : Fin 70)
  | epochIncrement (t : Fin 16)
  | resetReply (t : Fin 16)
  | sessionOpen (t : Fin 16)
  | sessionClose (t : Fin 16)
  | queryTopology (t : Fin 16)
  | queryTenantStatus (t : Fin 16)
  | queryInFlightTags (t : Fin 16)
  | queryLedger (t : Fin 16)
  | queryTelemetry (t : Fin 16)
  | ping (t : Fin 16)
  | tenantConfig (t : Fin 16)
  | tenantConfigDone (t : Fin 16)
  | fwStage (t : Fin 16)
  | fwStageDone (deviceOk : Bool)
  | fwActivate (t : Fin 16)
  | requalify (t : Fin 16)
  | requalifyDone (deviceOk : Bool)
  -- registers
  | overrunClear (p : Fin 4) (t : Fin 16) (ep : Bool)
  | malformedClear (p : Fin 4) (t : Fin 16) (ep : Bool)
  | noticeHeadWrite (p : Fin 4) (t : Fin 16) (value : Word) (ep : Bool)
  | noticeLostClear (p : Fin 4) (t : Fin 16) (ep : Bool)
  | alertStatusClear (p : Fin 4) (value : Word) (ep : Bool)
  | forceFailover (p : Fin 4) (value : Word) (ep : Bool)
  /-- A write of 4 or 8 bytes with its byte enables. -/
  | registerWrite (p : Fin 4) (space : RegSpace) (off : Nat) (ep : Bool) (enables : List Bool) (data : List Byte)
  -- host ports
  | bar2Write (p : Fin 4) (off : Nat) (relaxed ep : Bool) (ecc : ScrubFinding) (data : List Byte)
  | bar2Read (p : Fin 4) (off len : Nat) (ecc : Ecc)
  | unsupportedRequest (p : Fin 4) (what : BadRequest)
  | msixUnmask (p : Fin 4) (v : Fin 17)
  | portLinkUp (p : Fin 4) (receptacle0 : Bool)
  | portLinkDown (p : Fin 4) (cause : PortCause)
  | portResume (p : Fin 4) (cause : PortCause)
  | hotReset (p : Fin 4)
  | perst (receptacle : Fin 8)
  -- cluster control
  | clusterWake (k : Fin 1680)
  | polledWake (k : Fin 1680)
  | clusterDormant (k : Fin 1680)
  | slotTake (k : Fin 1680)
  -- datapath
  | landingComplete (k : Fin 1680) (ecc : Ecc)
  | weightBlockLoad (k : Fin 1680)
  | passIssue (k : Fin 1680)
  | passCommit (k : Fin 1680)
  | settlementEffect (k : Fin 1680)
  | bankCombine (k : Fin 1680) (bank : Fin 32)
  | requantVector (k : UnitRun)
  | hashUpdate (k : Fin 1680)
  | spillRecordWrite (k : Fin 1680)
  | hashDrain (k : Fin 1680)
  | rankAccept (k : Fin 1680)
  | rankFloorUpdate (k : Fin 1680)
  | rankGroupClose (k : Fin 1680)
  | l2TileBoundary (k : Fin 1680)
  | contextRestore (k : UnitRun)
  | outWriteBack (k : Fin 1680) (ecc : Ecc)
  | mergeSlotGrant (k : Fin 1680)
  | mergeStep (k : Fin 1680)
  | clauseComplete (t : Fin 16) (tag : BitVec 16)
  -- verbs
  | contract (t : Fin 16) (tag : BitVec 16)
  | contractSparse (t : Fin 16) (tag : BitVec 16)
  | pointwisePass (t : Fin 16) (run : VerbRun)
  | pointwiseAdd (t : Fin 16) (run : VerbRun)
  | pointwiseSub (t : Fin 16) (run : VerbRun)
  | pointwiseMul (t : Fin 16) (run : VerbRun)
  | pointwiseMax (t : Fin 16) (run : VerbRun)
  | pointwiseMin (t : Fin 16) (run : VerbRun)
  | reduceSum (t : Fin 16) (run : VerbRun)
  | reduceMax (t : Fin 16) (run : VerbRun)
  | reduceMin (t : Fin 16) (run : VerbRun)
  | reduceKeyed (t : Fin 16) (run : VerbRun)
  | rankElements (t : Fin 16) (run : VerbRun)
  | rankListMerge (t : Fin 16) (run : VerbRun)
  | gather (t : Fin 16) (run : VerbRun)
  | scatter (t : Fin 16) (run : VerbRun)
  | pumpMapped (t : Fin 16) (run : VerbRun)
  | pumpBytes (t : Fin 16) (run : VerbRun)
  | compress (t : Fin 16) (run : VerbRun)
  | expand (t : Fin 16) (run : VerbRun)
  | bind (t : Fin 16) (prio : Fin 4)
  | signal (t : Fin 16) (tag : BitVec 16)
  | wait (t : Fin 16) (tag : BitVec 16)
  | waitTimeout (t : Fin 16) (tag : BitVec 16)
  | fence (t : Fin 16) (tag : BitVec 16)
  | save (t : Fin 16) (run : VerbRun)
  | restore (t : Fin 16) (run : VerbRun)
  | maskloadS24 (t : Fin 16) (run : VerbRun)
  | maskloadS24T (t : Fin 16) (run : VerbRun)
  | lutload (t : Fin 16) (run : VerbRun)
  -- requests and answers
  | read (pkt : Packet) (ecc : Ecc)
  | write (pkt : Packet) (ecc : Ecc)
  | readData (pkt : Packet)
  | writeAck (pkt : Packet)
  | nack (pkt : Packet)
  | control (msg : ControlMsg)
  | requestTimeout (txn : Nat)
  | peerInboxPoll
  -- links
  /-- A frame after FEC decoding: the number of corrected symbols, or none when decoding fails (the spec gives no field polynomial), and its
  448 bytes. -/
  | frameReceive (l : Fin 24) (fec : Option Nat) (frame : List Byte)
  | skipFrame (l : Fin 24)
  | laneFailure (l : Fin 24) (lane : Fin 5)
  | linkTrainingDone (l : Fin 24) (ok : Bool)
  | linkRetry (l : Fin 24)
  | linkHoldExpiry (l : Fin 24)
  | qsfpInsert (l : Fin 24) (watts : Nat)
  | qsfpRemove (l : Fin 24)
  -- discovery and routing
  | hello
  | links
  | map
  | routes
  | status
  | switch
  | switchPauseEnd
  | primary
  | peerMessageRepeat (kind : PeerType)
  | linkTrainExit
  | electSettle
  | discoveryWindow
  | mapTimeout
  | waferAbsent (w : Fin 128)
  -- failover
  | heartbeatTick
  | heartbeatWatchdog
  | failover
  -- power
  | inputPowerUp (mV : Nat)
  | powerGoodTimeout (pos : Fin 74)
  | undervoltage (mV : Nat)
  | inputOvervoltage (mV : Nat)
  | overvoltageRecovery (mV : Nat)
  | enable (level : Bool)
  | standbyStart (mV : Nat)
  | lidOpen
  -- sensors and clocks
  | currentSample (dA : Nat) (mV : Nat)
  | thermalSample (k : Fin 1680) (quarterC : Int)
  | vpmFault (f : Fin 70)
  | coolantSample (inletD outletD : Int) (flowD : Nat)
  | avfsAdjust (k : Fin 1680) (slack : List Bool)
  | stepChange (k : Fin 1680)
  | fllWindow (k : Fin 1680) (cycles : Nat)
  | referenceLoss (q : Fin 2100)
  | clusterReparent (q : Fin 2100)
  | agingMeasure (k : Fin 1680) (d : Nat)
  | telemetryRefresh
  | ddrRefresh (ch : Fin 24) (deviceC : Int)
  | patrolScrub (line : Nat) (found : ScrubFinding)
  | ondieScrubRead (ch : Fin 24) (errors : Nat)
  | ddrTraining (r : Fin 4) (dimms : List (Option Dimm))
  -- PMBus
  | statusWord
  | iinOcWarnLimit (write : Option Nat)
  | readVin
  | readIin
  | readPin
  | readTemperature1
  | mfrPolicyCeiling (write : Option Nat)
  | mfrFieldCeiling (write : Option (Nat × Nat))
  | mfrTelemetryPage (page : Nat)
  | mfrTelemetryRead
  | pmbusUnsupported (code : Byte)
  -- management agent
  | agentConnect (cert : List Byte)
  /-- Each agent command carries its session, its TAG and its request payload (R657). -/
  | pmbus (sess : Fin 4) (tag : Word) (payload : List Byte)
  | telemetry (sess : Fin 4) (tag : Word) (payload : List Byte)
  | eepromRead (sess : Fin 4) (tag : Word) (payload : List Byte)
  | statusRead (sess : Fin 4) (tag : Word) (payload : List Byte)
  | fabricConfig (sess : Fin 4) (tag : Word) (payload : List Byte)
  | fabricConfigStore (deviceOk : Bool)
  | powerOff (sess : Fin 4) (tag : Word) (payload : List Byte)
  | powerOn (sess : Fin 4) (tag : Word) (payload : List Byte)
  | powerCycle (sess : Fin 4) (tag : Word) (payload : List Byte)
  | powerCycleResume
  | holdAssert (sess : Fin 4) (tag : Word) (payload : List Byte)
  | holdRelease (sess : Fin 4) (tag : Word) (payload : List Byte)
  | flashRead (sess : Fin 4) (tag : Word) (payload : List Byte)
  | flashErase (sess : Fin 4) (tag : Word) (payload : List Byte)
  | flashProgram (sess : Fin 4) (tag : Word) (payload : List Byte)
  | netConfig (sess : Fin 4) (tag : Word) (payload : List Byte)
  | trustSet (sess : Fin 4) (tag : Word) (payload : List Byte)
  | badCmd (sess : Fin 4) (tag : Word) (code : BitVec 16)
  | serviceHold3s
  | serviceHold15s
  | trustWindowExpiry
  -- bring-up
  | pumphouseBoot
  | firmwareStartTimeout
  | referenceLock (q : Fin 2100) (src : RefSource)
  | referenceLockTimeout
  | coordinateClaim (q : Fin 2100) (x : Int) (y : Int)
  | floodTimeout
  /-- With the round's reports, the number of generation slots that do not read back valid if step 7 follows (R611). -/
  | neighbourTestRound (reports : List TestReport) (slotFails : Nat)
  | ledgerStore (deviceOk : Bool)
  | generationSectorErase (deviceOk : Bool)
  -- test access
  | testLogicReset (r : Fin 4)
  | extest (r : Fin 4) (pins : List Bool)
  | idcode (r : Fin 4)
  | samplePreload (r : Fin 4) (pins : List Bool)
  | clamp (r : Fin 4)
  | highz (r : Fin 4)
  /-- Opcode 0xFF, or any opcode R627 does not list. -/
  | bypass (r : Fin 4) (opcode : Byte)
  -- events listed last in the table
  | powerGood (pos : Fin 74)
  | standbyLoss (mV : Nat)
  | agentDisconnect (sess : Fin 4)
  | engineReadCompletion (st : CplStatus) (ep : Bool) (data : List Byte)
  | completionTimeout
deriving DecidableEq, Repr

end Sys2Proof
end

