-- ==== Sys2Proof/Config.lean ====
section
/-!
DEFINITION. Sys2Proof/Config.lean: what the spec leaves free or to the implementation, as constants without a body.
Nothing in Lean can evaluate one of them, so a statement about them holds whatever they are (log entry 2).
-/

namespace Sys2Proof

/-- FREE VALUE (log 2). A fresh number for each value of the counter `State.freeCtr`. -/
opaque Config.freeNat : Nat → Nat

/-- FREE VALUE (log 2). A fresh byte for each value of the counter: what a word cut by a loss of power is left with (R626). -/
opaque Config.freeByte : Nat → Byte

/-- UNINTERPRETED (log 5). The ECDSA P-384 check of R620 over header and payload under the key that KEY_INDEX names:
the four keys fixed in the ROM are not given. -/
opaque Config.signatureOk : List Byte → Bool

/-- UNINTERPRETED (log 5). Whether a client certificate chains to a stored trust anchor (R655): TLS is not part of the spec. -/
opaque Config.chainsTo : List Byte → List Byte → Bool

/-- UNINTERPRETED (log 5). Gartivan's JEP106 identity, bits [11:1] of IDCODE (R628). -/
opaque Config.jep106 : BitVec 11

/-- UNINTERPRETED (log 5). Gartivan Silicon's PCI-SIG Vendor ID (R500). -/
opaque Config.vendorId : BitVec 16

/-- UNINTERPRETED (log 5). Whether the engine target asserts PMBus ALERT#, from its input overvoltage fault, input warning and temperature
warning bits (R573, R642). -/
opaque Config.pmbusAlert : Bool → Bool → Bool → Bool

/-- UNINTERPRETED (log 5). The measured values of telemetry that no command of the table supplies (rail current of a field in
0.1 A, rim temperature and regulator output, on-board readings), by place. -/
opaque Config.measured : Nat → Nat

/-- UNINTERPRETED (log 5). STATUS_WORD as 16 bits, from its input overvoltage fault, input warning and temperature warning bits: the spec
gives no bit positions (R573). -/
opaque Config.statusWord : Bool → Bool → Bool → Nat

end Sys2Proof
end

