-- ==== Sys2Proof/Machine/State.lean ====
section
/-!
DEFINITION. Sys2Proof/Machine/State.lean: the state of the block as plain data, its stops, and the state after reset.
Each field's docstring names the rule of spec/ that gives it. Log entry 1 names the reset values that the spec does not give.
-/

namespace Sys2Proof.Machine

/-- Why the block stops. -/
inductive Fault where
  /-- An electrical input beyond the absolute maximum ratings of R637, where the spec defines no operation.
  Raised by the power-input commands. Safe: the model stops where the spec says nothing. -/
  | outsideRatings
deriving DecidableEq, Repr

/-- Why a command has no meaning. -/
inductive Refusal where
  /-- The command's meaning is not modelled yet. Raised by arms of exec only. Safe. -/
  | notModelled (mnemonic : String)
deriving DecidableEq, Repr

/-! ## Plans (07) and clauses (06) -/

/-- A noun descriptor (R249), fields as numbers. -/
structure Noun where
  base : DWord := 0
  format : Byte := 0
  layout : Nat := 0
  /-- DIMS: the number of dimensions minus 1. -/
  dims : Nat := 0
  readOnly : Bool := false
  sessionRel : Bool := false
  companion : Nat := 0xFFFF
  ext : List Nat := [0, 0, 0, 0]
  stride : List Nat := [0, 0, 0]
  /-- Bits [191:190], reserved. -/
  reserved : Nat := 0
deriving DecidableEq, Repr, Inhabited

/-- A map entry (R254): loop classes and the raw dimension terms of R256. -/
structure MapEntry where
  loops : Nat := 1
  classes : List Nat := [0, 0, 0, 0, 0, 0]
  out : List DWord := [0, 0, 0, 0]
  a : List DWord := [0, 0, 0, 0]
  b : List DWord := [0, 0, 0, 0]
  /-- True when a reserved byte of the entry is not zero. -/
  reservedSet : Bool := false
deriving DecidableEq, Repr, Inhabited

/-- A tile descriptor (R310). -/
structure TileDesc where
  extent : List Nat := [1, 0, 0, 0, 0, 0]
  t2 : List Nat := [1, 0, 0, 0, 0, 0]
  t1 : List Nat := [1, 0, 0, 0, 0, 0]
  factor : List Nat := [1, 0, 0, 0, 0, 0]
  order2 : List Nat := [0, 15, 15, 15, 15, 15]
  order1 : List Nat := [0, 15, 15, 15, 15, 15]
  order0 : Nat := 0
  region : Nat := 0
  partRequant : Bool := false
  hashOk : Bool := false
  rankable : Nat := 0
  pwMax : Nat := 0
  paMax : Nat := 0
  modes : Nat := 1
  nzCap : Nat := 0
  mcast : List Nat := [0xFFFF, 0xFFFF, 0xFFFF, 0xFFFF]
  /-- Offset and half size of the OUT, TABLE, A, B and X landing buffers, in 64-byte units. -/
  land : List (Nat × Nat) := [(0, 0), (0, 0), (0, 0), (0, 0), (0, 0)]
  reservedSet : Bool := false
deriving DecidableEq, Repr, Inhabited

/-- A region record (R299) with what the loader derives from it: its members in member-index order (R301), and its reset
epoch (R435). -/
structure Region where
  x0 : Nat := 0
  y0 : Nat := 0
  width : Nat := 1
  height : Nat := 1
  memberCount : Nat := 0
  classes : Nat := 0
  wearOk : Bool := false
  holeMask : Nat := 0xFFFFFFFF
  saveOff : Nat := 0
  saveSize : Nat := 0
  mergeOff : Nat := 0
  mergeSlotSize : Nat := 0
  mergeSlots : Nat := 0
  outSlots : Nat := 0
  spillBase : DWord := 0
  spillCapacity : Nat := 0
  reservedSet : Bool := false
  members : List Nat := []
  resetEpoch : Byte := 0
deriving DecidableEq, Repr, Inhabited

/-- A multicast set (R329). -/
structure McastSet where
  region : Nat := 0
  groups : Nat := 0
  groupOf : List Nat := []
  reservedSet : Bool := false
deriving DecidableEq, Repr, Inhabited

/-- A plan (R294), parsed. -/
structure Plan where
  bl : Bool := false
  generation : Nat := 0
  regions : List Region := []
  mcasts : List McastSet := []
  nouns : List Noun := []
  maps : List MapEntry := []
  tiles : List TileDesc := []
deriving DecidableEq, Repr, Inhabited

/-- A clause: its sixteen words (R237). -/
abbrev Clause := List Word

/-- How a clause ended or is about to end (R290, R291, R411). -/
structure Verdict where
  status : Nat := 0
  reason : Nat := 0
  cause : Nat := 0
  l2Tile : Nat := 0xFFFFFFFF
  element : Nat := 0xFFFFFFFF
deriving DecidableEq, Repr, Inhabited

/-- A clause in flight (R405). -/
structure Flight where
  tenant : Nat := 0
  tag : Nat := 0
  prio : Nat := 2
  words : Clause := []
  /-- Admission order over the wafer. -/
  uid : Nat := 0
  /-- Sentence number within the ring (R229), and whether the clause is the sentence's first. -/
  sentence : Nat := 0
  first : Bool := true
  /-- uid of the clause posted immediately before it in its sentence (R232). -/
  before : Option Nat := none
  /-- Run extents of the loops of its map at admission (R280). -/
  extents : List Nat := []
  /-- Started (R409). -/
  started : Bool := false
  /-- Members that have not finished. -/
  waiting : List Nat := []
  /-- Set when every member has finished or the verb has been carried out. -/
  done : Bool := false
  /-- First event that stops the clause (R411). -/
  stop : Option Verdict := none
  sat : Bool := false
  inexact : Bool := false
  clip : Bool := false
  skipped : Nat := 0
  issued : Nat := 0
  /-- Admission time, for a WAIT's timeout (R284). -/
  admittedAt : Nat := 0
deriving DecidableEq, Repr, Inhabited

/-! ## Clusters (01 R50) -/

/-- A doorbell word (R379, R380). -/
structure Doorbell where
  slots : BitVec 8 := 0
  waking : Bool := false
deriving DecidableEq, Repr, Inhabited

/-- A sequencer slot in use: its number, the clause it holds, and where the clause stands in the cluster (R379, R406). -/
structure Slot where
  number : Nat := 0
  uid : Nat := 0
  prio : Nat := 2
  taken : Bool := false
  /-- Index of the next L2 tile in the member's sequence (R318). -/
  l2 : Nat := 0
  yielded : Bool := false
  /-- Every tile of the member is done; its hash drain, merge or write-back may remain. -/
  finished : Bool := false
deriving DecidableEq, Repr, Inhabited

/-- A ranking group open in a cluster (R199 to R203): its key, its list, and how many candidates it has seen. -/
structure RankGroup where
  key : Nat := 0
  list : List (Int × Nat) := []
  seen : Nat := 0
deriving DecidableEq, Repr, Inhabited

/-- An entry of the hash accumulator (R185). -/
structure HashEntry where
  valid : Bool := false
  key : Nat := 0
  value : Int := 0
deriving DecidableEq, Repr, Inhabited

/-- The accumulator state that a clause owns in a cluster (R183, R216): banked accumulators by key 128 × vector + column, the
hash accumulator by key 4 × set + way, NEXT_VICTIM by set, the spill write queue and counts, the open ranking groups, and the
tile's status bits (R80). -/
structure AccUnit where
  acc : Tab Int := []
  hash : Tab HashEntry := []
  victim : Tab Nat := []
  spillQueue : List (Int × Nat) := []
  spillCount : Nat := 0
  evictions : Nat := 0
  ranks : List RankGroup := []
  sat : Bool := false
  inexact : Bool := false
  clip : Bool := false
  /-- Vectors of the output tile, k of the open groups, and whether the clause's TARGET is HASH (R225). -/
  vectors : Nat := 0
  rankK : Nat := 0
  isHash : Bool := false
deriving DecidableEq, Repr, Inhabited

/-- State held after HOLD or RESTORE (R268, R286). -/
structure Held where
  uid : Nat := 0
  tenant : Nat := 0
  prio : Nat := 2
  map : Nat := 0
  target : Nat := 0
  regionIdx : Nat := 0
  l2 : Nat := 0
  /-- True when RESTORE left it: a RESUME then matches on TARGET alone (log 40). -/
  restored : Bool := false
deriving DecidableEq, Repr, Inhabited

/-- One array cell as loaded for a pass: its logical row, its weight code and its weight exponent byte (127 for integers). -/
structure WCell where
  row : Nat
  code : Nat
  exp : Nat := 127
deriving DecidableEq, Repr, Inhabited

/-- One staged activation: its code, its exponent byte and whether its row is active for this vector (R67). -/
structure AElem where
  code : Nat
  exp : Nat := 127
  on : Bool := true
deriving DecidableEq, Repr, Inhabited

/-- A threshold of margin gating (R112, R113). -/
inductive Threshold where
  /-- The channel is open (R110) or the clause is not gated by a threshold. -/
  | openChannel
  /-- No total gives the low outcome. -/
  | never
  /-- Every total gives the low outcome. -/
  | always
  /-- s_c > 0: the largest total that gives the low outcome. -/
  | upTo (t : Int)
  /-- s_c < 0: the smallest total that gives the low outcome. -/
  | downTo (t : Int)
deriving DecidableEq, Repr, Inhabited

/-- An fp32 value (R88, R89): NaN, an infinity, or the exact number m × 2^e. -/
inductive Fp where
  | nan
  | inf (neg : Bool)
  | fin (m : Int) (e : Int)
deriving DecidableEq, Repr, Inhabited

/-- One output on its way to the OUT noun: its indices, channel, accumulator value, a settled code, and t where it is already known
(a LUT gave it, or it waits for the rest of its block, group or 16 × 16 tile). -/
structure OutItem where
  idx : List Int := []
  ch : Nat := 0
  acc : Int := 0
  forced : Option Nat := none
  t : Option Fp := none
deriving DecidableEq, Repr, Inhabited

/-- A weight block as the shadow or the weight register holds it (R64): its number, and the cells of each column; in the unstructured
modes a lane set, with the cells of each lane. -/
structure WBlock where
  block : Nat := 0
  cells : List (List WCell) := []
deriving DecidableEq, Repr, Inhabited

/-- A pass or lane update that has issued and not committed (R74): the cycle of issue, the vector, the weight block, the plane
pair, in the unstructured modes the lane and its segment's column, and what it adds to which entry, with INEXACT: the weight register
is read in the cycle of issue. -/
structure PassRef where
  cycle : Nat := 0
  vec : Nat := 0
  block : Nat := 0
  i : Nat := 0
  j : Nat := 0
  lane : Option (Nat × Nat) := none
  updates : List (Nat × Int) := []
  inexact : Bool := false
deriving DecidableEq, Repr, Inhabited

/-- A lane: the numbers of its segments still to run, its place in the first of them, and the segment that its weight register holds
(R150, R151). -/
structure Lane where
  segs : List Nat := []
  vec : Nat := 0
  pair : Nat := 0
  loaded : Option Nat := none
deriving DecidableEq, Repr, Inhabited

/-- A vector of the issue window: its next pass and the cycle of its last issue (R119). -/
structure WindowVec where
  vec : Nat := 0
  next : Nat := 0
  last : Nat := 0
deriving DecidableEq, Repr, Inhabited

/-- A settled output (R117, R118): its entry key 128 × vector + column, low or high, the cycle at which the settlement takes effect and
whether it has, and the partial sum at the moment of settlement (R129). -/
structure Settlement where
  key : Nat := 0
  high : Bool := false
  effectAt : Nat := 0
  inEffect : Bool := false
  sum : Int := 0
deriving DecidableEq, Repr, Inhabited

/-- The L1 tile that the array works on: what was staged for it and how far it is (02, 03, 04). -/
structure TileRun where
  uid : Nat := 0
  l2 : Nat := 0
  l1 : Nat := 0
  /-- Weight and activation widths and plane kinds: N, M, whether the top plane is negative, BIPOLAR. -/
  n : Nat := 1
  m : Nat := 1
  wNeg : Bool := false
  aNeg : Bool := false
  bipolar : Bool := false
  bfp : Bool := false
  mode : Nat := 0
  eacc : Int := 0
  order0 : Nat := 0
  /-- The weight blocks by block number, the cells of each column; in the unstructured modes the segments by number, each with the
  cells of its one column. -/
  blocks : List WBlock := []
  lanes : List Lane := []
  /-- The column of each segment (R150). -/
  segCols : List Nat := []
  /-- Activations of each vector by logical row. -/
  acts : List (List AElem) := []
  /-- Columns and vectors inside the output extent (R68). -/
  colOn : List Bool := []
  vecOn : List Bool := []
  /-- For the sampled role (R144): the columns each vector updates; empty otherwise. -/
  sampled : List (List Bool) := []
  decision : Nat := 0
  q : Nat := 0
  kg : Nat := 0
  thresholds : List Threshold := []
  /-- For RANK: k, and the group key of each (vector, column) by 128 × vector + column. -/
  rankK : Nat := 0
  /-- The weight block or lane set of this run that the shadow and the weight register hold, and the cycle from which the shadow
  register is free to load (R70). -/
  shadowOf : Option Nat := none
  weightsOf : Option Nat := none
  loadFrom : Nat := 0
  cycle : Nat := 0
  /-- Position in the static pass order, or the window (R119). -/
  pos : Nat := 0
  window : List WindowVec := []
  nextVec : Nat := 0
  inFlight : List PassRef := []
  /-- Passes committed, by vector; in the unstructured modes by 128 × segment + vector. -/
  committed : Tab Nat := []
  /-- Significance boundary last tested, by vector, or by 128 × vector + column in the unstructured modes (R73, R154), plus 1. -/
  boundary : Tab Nat := []
  settled : List Settlement := []
  skipped : Nat := 0
  issued : Nat := 0
  /-- Vectors requantized or otherwise drained so far. -/
  drained : Nat := 0
  /-- Totals still to enter the hash accumulator: key and value (R336). -/
  totals : List (Nat × Int) := []
  /-- True when this is the last L1 tile of its output tile, so that its totals are final. -/
  last : Bool := true
deriving DecidableEq, Repr, Inhabited

/-- An AVFS loop and its sensors (R556 to R567, R618). -/
structure Avfs where
  step : Nat := 0
  millivolts : Nat := 500
  /-- Voltage asked of the field rail for a higher step (R543, R561), 0 for none. -/
  request : Nat := 0
  /-- Voltage last settled by the AVFS loop, by step (R561). -/
  settled : Tab Nat := []
  lastAdjust : Option Nat := none
  thermalCeiling : Nat := 64
  lastRise : Nat := 0
  /-- Last reading in quarters of a degree, and how many consecutive readings were 110 °C or more. -/
  reading : Int := 0
  hot : Nat := 0
  /-- No reading has come since a FIELD reset ramped the field's VPM (R569). -/
  awaitsSample : Bool := false
  trim : Int := 0
  refLost : Bool := false
  sleepStep : Nat := 0
  agingD : Nat := 0
  wear : Bool := false
deriving DecidableEq, Repr, Inhabited

/-- A part's partial tile: clause, part index, output tile, its accumulation exponent E_ACC_p, its SAT and INEXACT bits, its words by
128 × vector + column, and the outbound or merge slot that holds it (R206, R207, R209, R213, R321). -/
structure Partial where
  uid : Nat := 0
  part : Nat := 0
  key : Nat := 0
  eacc : Int := 0
  sat : Bool := false
  inexact : Bool := false
  vals : List (Nat × Int) := []
  slot : Nat := 0
deriving DecidableEq, Repr, Inhabited

/-- The landing halves that one L2 tile of a clause holds (R309, R328): the byte ranges of the cistern that they take, the slots of R310
whose operand has landed, the bytes that have landed by global address (R162), whether every slot has landed, and the fault or NACK
that the landing met, which stops the clause at that tile's turn (R163). -/
structure Landed where
  uid : Nat := 0
  l2 : Nat := 0
  ranges : List (Nat × Nat) := []
  copies : List Nat := []
  whole : Bool := false
  cells : List Host.Cell := []
  bad : Option Verdict := none
deriving DecidableEq, Repr, Inhabited

/-- The OUT half of an L2 tile (R309, R328): its byte range in the cistern, and the writes that wait for the write-back: bit address,
number of bits, value. -/
structure OutHalf where
  uid : Nat := 0
  l2 : Nat := 0
  range : Option (Nat × Nat) := none
  writes : List (Nat × Nat × Nat) := []
deriving DecidableEq, Repr, Inhabited

/-- A saved context (R216, R423): the class of its slot, the clause, its accumulator state, and, at a yield between merge steps or while
waiting for an outbound slot, the tile it has run and the parts merged; for held state saved for a higher class, what holds it (R424). -/
structure Saved where
  prio : Nat := 0
  uid : Nat := 0
  unit : AccUnit := {}
  run : Option TileRun := none
  merged : List Nat := []
  settled : List Settlement := []
  forming : List (Nat × OutItem) := []
  held : Option Held := none
deriving DecidableEq, Repr, Inhabited

/-- A cluster, by logical index (R50). -/
structure Cluster where
  /-- The compute domain is powered (not dormant, not a hole, not shut down). -/
  awake : Bool := false
  wakeAt : Option Nat := none
  idleSince : Nat := 0
  bells : List Doorbell := [⟨0, true⟩, ⟨0, false⟩, ⟨0, false⟩, ⟨0, false⟩]
  slots : List Slot := []
  /-- uid of the clause that owns the accumulators (R183). -/
  owner : Option Nat := none
  unit : AccUnit := {}
  /-- Conflict queues by bank: entry key 128 × vector + column and update value (R179). -/
  queues : Tab (List (Nat × Int)) := []
  held : Option Held := none
  /-- Saved contexts by class: the yielded clause and its accumulator state, whose image stands in the save slot (R216, R423). -/
  saved : List Saved := []
  run : Option TileRun := none
  /-- The weight register and the shadow register of the array's cells (R64). -/
  weights : WBlock := {}
  shadow : WBlock := {}
  /-- Settlements of the running output tile that an earlier L1 tile of it left (R117). -/
  settled : List Settlement := []
  /-- Outputs that wait for the rest of their BFP block, BPK group or 16 × 16 BAM tile (R96, R168), each with its L2 tile. -/
  forming : List (Nat × OutItem) := []
  /-- Candidates accepted by the rank unit and not yet merged: group key, value, position (R201). -/
  rankPending : List (List (Nat × Int × Nat)) := []
  /-- OUT halves not yet written back (R328). -/
  outHalf : List OutHalf := []
  /-- Landing halves in use (R309). -/
  landed : List Landed := []
  /-- Outbound slots: the partial tiles waiting for a merge slot of their home (R321). -/
  outbound : List Partial := []
  /-- Merge slots granted and not yet added, and the parts merged into the current output tile (R207, R321). -/
  merging : List Partial := []
  merged : List Nat := []
  /-- A HASH clause's hash accumulator has been drained (R189). -/
  drainDone : Bool := false
  /-- LUT slots (R287): X0, SH, and the 256 entries, as fp32 codes. -/
  luts : Tab (Word × Int × List Word) := []
  ecc : Nat := 0
  avfs : Avfs := {}
deriving DecidableEq, Repr, Inhabited

/-! ## Tenants (08, 09) -/

/-- BIND of one map in a sentence (R280). -/
structure BindRec where
  map : Nat := 0
  extents : List Nat := []
deriving DecidableEq, Repr, Inhabited

/-- A submission ring (R362) and the sentence state of its class (R229). -/
structure SubRing where
  waiting : List Clause := []
  sentence : Nat := 0
  atStart : Bool := true
  lastUid : Option Nat := none
  binds : List BindRec := []
deriving DecidableEq, Repr, Inhabited

/-- A reset whose REPLY is owed (R438): SEQ, kind, time of the epoch increment, request timeout. -/
structure ResetWait where
  seq : Nat := 0
  incrementAt : Nat := 0
  timeout : Nat := 50
deriving DecidableEq, Repr, Inhabited

/-- A deferred epoch increment (R439): what follows it. -/
inductive Deferred where
  | tenantReset (requester seq : Nat)
  | regionReset (requester seq region : Nat)
  | fieldReset (field : Nat)
  | configReset
deriving DecidableEq, Repr

/-- The settings a TENANT_CONFIG gives (R360). -/
structure Settings where
  enable : Bool := false
  bl : Bool := false
  wakeMask : Nat := 0
  idleDormant : Nat := 0
  timeout : Nat := 0
  granuleFirst : Nat := 0
  granuleCount : Nat := 0
  hostPort : Nat := 0
deriving DecidableEq, Repr, Inhabited

/-- A tenant. -/
structure Tenant where
  requestRing : List (List Byte) := []
  dropCount : Nat := 0
  overrun : Bool := false
  malformed : Bool := false
  copied : List (List Word) := []
  noticeHead : Nat := 0
  tail : Nat := 0
  tailPhase : Bool := true
  /-- Entries the host has not yet passed, 0..4096: it tells a full ring from an empty one (R371, log 10). -/
  ringUsed : Nat := 0
  heldNotices : List (List Byte) := []
  noticeLost : Bool := false
  lostCount : Nat := 0
  /-- The NOTICES_LOST event of R372 is owed. -/
  lostOwed : Bool := false
  discarded : Nat := 0
  expected : BitVec 16 := 0
  gap : Bool := false
  ringSet : Bool := false
  noticeBase : DWord := 0
  alerts : Bool := false
  /-- Halt alerts owed, oldest first: how many held notices are still to be written before each (R415, R508). -/
  owedAlerts : List Nat := []
  /-- QUERY results held with their replies while the port cannot write: DEST and bytes (R366, R508, log 44). -/
  heldResults : List (Nat × List Byte) := []
  enabled : Bool := false
  bl : Bool := false
  halted : BitVec 4 := 0
  epoch : Byte := 0
  lastIncrement : Option Nat := none
  rings : List SubRing := [{}, {}, {}, {}]
  counters : Tab Word := []
  wakeMask : Nat := 0
  idleDormant : Nat := 0
  timeout : Nat := 0
  granuleFirst : Nat := 0
  granuleCount : Nat := 0
  hostPort : Nat := 0
  bound : Bool := false
  plan : Option Plan := none
  /-- Plan images being loaded: SEQ and DDR offset (R293, R357). -/
  loading : List (Nat × Nat) := []
  /-- QUEUE_CLEARs whose REPLY is owed: SEQ, CLASSES, and the clauses still being cancelled (R413). -/
  clears : List (Nat × Nat × List Nat) := []
  resets : List ResetWait := []
  deferred : List Deferred := []
  /-- TENANT_CONFIG in progress for this tenant: SEQ, port and the settings (R534). -/
  configuring : Option (Nat × Settings) := none
  /-- TENANT_CONFIG messages for this tenant that wait for that one (R357, log 66). -/
  configQueue : List (List Word) := []
  /-- Messages started and not yet answered: SEQ and type (R392). -/
  unanswered : List (Nat × Nat) := []
deriving DecidableEq, Repr, Inhabited

/-- What the mirror of R388 holds of a tenant: its configuration, its plan, its event counters, EXPECTED, and the base and tail of its
notice ring. -/
structure Durable where
  enabled : Bool := false
  settings : Settings := {}
  bound : Bool := false
  plan : Option Plan := none
  counters : Tab Word := []
  expected : BitVec 16 := 0
  ringSet : Bool := false
  noticeBase : DWord := 0
  alerts : Bool := false
  tail : Nat := 0
  tailPhase : Bool := true
deriving DecidableEq, Repr, Inhabited

/-- A session context (R416). -/
structure Session where
  openFlag : Bool := false
  tenant : Nat := 0
  deadline : Nat := 4
  stateBase : Nat := 0
  stateSize : Nat := 0
deriving DecidableEq, Repr, Inhabited

/-- An outstanding request of this wafer (R436). -/
structure Outstanding where
  txn : Nat := 0
  epoch : Byte := 0
  tenant : Nat := 0
  uid : Nat := 0
  cluster : Nat := 0
  isWrite : Bool := false
  addr : Nat := 0
  len : Nat := 0
  issuedAt : Nat := 0
deriving DecidableEq, Repr, Inhabited

/-- Who has touched bytes: a clause in flight, or the host through aperture `tenant` on a port. Of the host's access: whether it was a write
with Relaxed Ordering, whether no BAR2 read on the port has come after it (R511), and the SEQs of the tenant's clauses that stood before it
and have not completed (R510, R513). -/
inductive Toucher where
  | clause (uid : Nat)
  | host (port tenant : Nat) (relaxed fresh : Bool) (seqs : List Nat)
deriving DecidableEq, Repr, Inhabited

/-- Bytes that have been read or written: first global address and count (R235, R513). -/
structure Touch where
  who : Toucher := .clause 0
  write : Bool := false
  bytes : List (Nat × Nat) := []
deriving DecidableEq, Repr, Inhabited

/-- Work on the wafer. -/
structure Work where
  flights : List Flight := []
  nextUid : Nat := 0
  sessions : Tab Session := []
  /-- Tenant last served in each class (R403). -/
  lastServed : List Nat := [15, 15, 15, 15]
  outstanding : List Outstanding := []
  nextTxn : Nat := 0
  /-- Bytes that READ_DATA answers have brought, by global address, and the granules brought for each clause and cluster. -/
  fetched : List Host.Cell := []
  landed : List (Nat × Nat × Nat) := []
  /-- What the clauses in flight and the host have touched (R235, R511, R513): the model's own record (log 116). -/
  touches : List Touch := []
deriving DecidableEq, Repr, Inhabited

/-! ## Silicon, flash, boot (13) -/

/-- A physical cluster during bring-up (R555, R590). -/
structure Phys where
  locked : Bool := false
  parent : Option RefSource := none
  depth : Nat := 0
  coord : Option (Int × Int) := none
  conflict : Bool := false
  holdover : Bool := false
  /-- Logical index written at step 8, none at the shift column (R51). -/
  logical : Option Nat := none
deriving DecidableEq, Repr, Inhabited

/-- The router at a logical position (R44, R50): the classes of its north, east, south and west links as they carry traffic, and its route
as bring-up writes it: 1 + the lowest position that routes join it to, 0 before any is written, and the position next on the way there. -/
structure Router where
  links : List Nat := [0, 0, 0, 0]
  reach : Nat := 0
  hop : Option Nat := none
deriving DecidableEq, Repr, Inhabited

/-- A ledger entry (R633). -/
structure LedgerEntry where
  word0 : Nat := 0
  added : Nat := 0
deriving DecidableEq, Repr, Inhabited

/-- The live ledger of a bring-up (R600) and what the topology table is built from (R603). -/
structure Live where
  /-- Merged stored ledger's entries (R612, R616). -/
  stored : List LedgerEntry := []
  routerGood : List Nat := []
  computeGood : List Nat := []
  pathGood : List Nat := []
  defective : List LedgerEntry := []
  transient : List Nat := []
  fmax : Tab Nat := []
  depth : Tab Nat := []
  undecided : Nat := 0
  /-- The topology table has been built (step 8). -/
  mapped : Bool := false
deriving DecidableEq, Repr, Inhabited

/-- A store waiting for the flash, in request order (R609). -/
inductive Store where
  | ledger
  /-- The ledger store of a REQUALIFY (R616). -/
  | requalify
  | firmware (seq : Nat) (image : List Byte)
  | fabricConfig (sess tag : Nat) (record : List Byte)
  | generationErase (sector : Nat)
deriving DecidableEq, Repr

/-- The engine's firmware-side state (13) and the global page (R396). -/
structure Sys where
  state : BitVec 4 := 0
  /-- Cold-boot steps that have ended, bit n − 1 for step n (R580, R583). -/
  stepEnded : BitVec 9 := 0
  /-- Time at which the running step of 3 to 9 began (R580). -/
  stepAt : Nat := 0
  wellhead : BitVec 16 := 0
  belowGuarantee : Bool := false
  primarySouth : Bool := false
  noStandby : Bool := false
  usableCount : Nat := 0
  holeCount : Nat := 0
  generation : Nat := 0
  waferNumber : Nat := 0
  waferCount : Nat := 1
  heartbeat : Word := 0
  lastBeat : Nat := 0
  failovers : Nat := 0
  alertStatus : BitVec 5 := 0
  alertEnable : BitVec 5 := 0x1F
  forceFailover : Bool := false
  serial : DWord := 0
  standbyRung : Bool := false
  /-- The Pumphouse that runs has failed, and the other one is not there (R395). -/
  pumphouseDead : Bool := false
  runningCopy : Nat := 0
  fallback : Bool := false
  fwSequence : Nat := 0
  /-- Firmware copies the ROM may still try, and the time the last one was started (R620). -/
  romTries : List Nat := []
  romStartedAt : Option Nat := none
  stores : List Store := []
  /-- FW_STAGEs whose source is still to be read: SEQ, SOURCE, SIZE (R622), and what the first one's reads have brought. -/
  fwStaging : List (Nat × Nat × Nat) := []
  fwStageBytes : List Byte := []
  storeFailed : Bool := false
  ledgerFull : Bool := false
  ledgerLost : Bool := false
  selected : Nat := 0
  ledgerSequence : Nat := 0
  /-- SEQ of the REQUALIFY in progress, whether its retest has ended, and whether its store has been requested (R616). -/
  requalify : Option Nat := none
  requalTested : Bool := false
  requalStored : Bool := false
  /-- REQUALIFYs that wait for that one, and FW_ACTIVATEs that wait for the stores requested before them: SEQ, and SEQ with the message
  (R357, R609). -/
  requalifyQueue : List Nat := []
  activations : List (List Word) := []
  sample : Nat := 0
  snapshot : List Byte := []
  /-- Peer messages dropped at a full inbox (R384). -/
  peerDrops : Nat := 0
deriving DecidableEq, Repr, Inhabited

/-- Bring-up state of the silicon. -/
structure Silicon where
  phys : Tab Phys := []
  round : Nat := 0
  reports : List TestReport := []
  /-- Spare rows of a cistern as its first tester assigns them, by physical cluster: bank and row of each failing row; none before (R594). -/
  spares : Tab (Option (List (Nat × Nat))) := []
  live : Live := {}
  recorded : List LedgerEntry := []
  wear : List Nat := []
  /-- The routers by logical index (R44, R51). -/
  routers : Tab Router := []
deriving DecidableEq, Repr, Inhabited

/-! ## Power, fields, rims, Casing (12, 14) -/

/-- Power state of a converter (R545, R548). -/
inductive Power where
  | off
  | ramping
  | good
  | failed
deriving DecidableEq, Repr, Inhabited

/-- Field STATE of R576. -/
inductive FieldState where
  | running
  | shutdown
  | vpmFault
  | unpowered
deriving DecidableEq, Repr, Inhabited

/-- A core field. -/
structure Field where
  power : Power := .off
  state : FieldState := .unpowered
  fenced : Bool := false
  ceiling : Nat := 64
  railMv : Nat := 600
  throttleEvents : Nat := 0
  /-- FIELD resets in progress: their SEQs, start of the ramp, time of the lift (R434). -/
  resetSeqs : List Nat := []
  rampAt : Nat := 0
  liftAt : Option Nat := none
  incrementAt : Nat := 0
deriving DecidableEq, Repr, Inhabited

/-- A DDR channel's counts (R526, R527, R531). -/
structure Channel where
  corrected : Nat := 0
  scrubErrors : Nat := 0
  deviceC : Int := 0
  /-- Refresh interval in ns and whether the command rate is halved (R531). -/
  trefi : Nat := 3900
  halved : Bool := false
deriving DecidableEq, Repr, Inhabited

/-- A rim (R52, R577). -/
structure Rim where
  power : Power := .off
  dimms : List (Option Dimm) := []
  trained : Bool := false
  online : Bool := false
  failedChannels : List Nat := []
  speed : Nat := 0
  capacityGiB : Nat := 0
  ranks : Nat := 0
  deviceWidth : Nat := 0
  poisonedLines : Nat := 0
deriving DecidableEq, Repr, Inhabited

/-- An answer of the management agent that waits for an earlier request of its session; `result`, STATUS and payload, is none while its own
request is not done (R657, R658, R664). -/
structure AgentAnswer where
  cmd : Nat := 0
  tag : Nat := 0
  result : Option (Nat × List Byte) := none
deriving DecidableEq, Repr, Inhabited

/-- A management session (R658, R659). -/
structure AgentSession where
  openFlag : Bool := false
  openedAt : Nat := 0
  /-- The answers that wait, in the order of their requests (R658): none while no request of the session waits for a store. -/
  answers : List AgentAnswer := []
deriving DecidableEq, Repr, Inhabited

/-- The Casing (12, 14). -/
structure Casing where
  standby : Bool := false
  enablePin : Bool := true
  powerOffLatch : Bool := false
  cycleAt : Option Nat := none
  hold : Bool := false
  powered : Bool := false
  bankAbove : Bool := false
  powerGood : Bool := false
  /-- Time from which the start times of R545 count. -/
  upAt : Nat := 0
  /-- Input overvoltage fault bit of STATUS_WORD, and the wait for an input below 59 V (R639). -/
  overvoltageBit : Bool := false
  overvoltageOff : Bool := false
  vinMv : Nat := 0
  /-- Input current in 0.1 A as the input stage draws it, and the shortfall that the hold-up bank supplies (R564). -/
  iinDa : Nat := 0
  bankDa : Nat := 0
  inletD : Int := 0
  outletD : Int := 0
  flowD : Nat := 0
  coolantWarn : Bool := false
  coolantCeiling : Nat := 64
  badSamples : Nat := 0
  clearSamples : Nat := 0
  lowFlowSamples : Nat := 0
  iLimit : Nat := 450
  ilimitCeiling : Nat := 64
  lastFall : Nat := 0
  belowSince : Option Nat := none
  lastIlimitRise : Nat := 0
  policyCeiling : Nat := 44
  selectedField : Nat := 0
  telePage : Nat := 0
  teleLatch : List Byte := []
  sessions : Tab AgentSession := []
  lockHolder : Option Nat := none
  anchors : Tab (List Byte) := []
  windowAt : Option Nat := none
  netStatic : Option (List Byte) := none
deriving DecidableEq, Repr, Inhabited

/-- A host port (11). -/
structure Port where
  linkUp : Bool := false
  busMaster : Bool := false
  d3hot : Bool := false
  msixEnable : Bool := false
  relaxed : Bool := false
  /-- Bytes of the MSI-X table that differ from the PCIe default (log 4). -/
  msixTable : List Host.Cell := []
  msixPending : List Nat := []
  /-- AER error bits logged: poisoned TLP, unsupported request, completion timeout (R514). -/
  aerPoisoned : Bool := false
  aerUnsupported : Bool := false
  aerTimeout : Bool := false
deriving DecidableEq, Repr, Inhabited

/-- A module cage (R646). -/
structure Cage where
  present : Bool := false
  watts : Nat := 0
  lowPower : Bool := true
deriving DecidableEq, Repr, Inhabited

/-- One TAP (R627). -/
structure Tap where
  instruction : Byte := 1
  boundary : List Bool := []
  /-- The boundary register drives the rim I/O, or the outputs float (R627, R630). -/
  drives : Bool := false
  floats : Bool := false
deriving DecidableEq, Repr, Inhabited

/-! ## Fabric (10) -/

/-- A fabric link (R446 to R459, R498, R578). -/
structure Link where
  /-- STATE of R498. -/
  status : Nat := 0
  conflictPeer : Bool := false
  spareFor : Nat := 7
  trainFails : Nat := 0
  downTimes : List Nat := []
  downAt : Nat := 0
  fseq : Nat := 0
  lastGood : Nat := 4095
  nakOwed : Bool := false
  nakCount : Nat := 0
  /-- Replay buffer: FSEQ, channel of each slot, and the slots (R455). -/
  replay : List (Nat × List Nat × List Byte) := []
  /-- Packets waiting for credits or for room in the replay buffer (R455, R459). -/
  txq : List Packet := []
  credits : List Nat := [2048, 4096, 256]
  /-- Received slots by channel, as bytes (R458). -/
  streams : List (List Byte) := [[], [], []]
  creditsOwed : List Nat := [0, 0, 0]
  sinceSkip : Nat := 0
  malformed : Nat := 0
  fecCorrected : Nat := 0
  replayed : Nat := 0
  retrains : Nat := 0
  downs : Nat := 0
  peerSerial : DWord := 0
  peerLink : Nat := 0
  peerNumber : Nat := 255
  peerLevel : Nat := 0
  peerFabric : DWord := 0
deriving DecidableEq, Repr, Inhabited

/-- Discovery states (R465). -/
inductive Discovery where
  | linkTrain
  | elect
  | collect
  | number
  | await
  | running
  | excluded
  | conflict
deriving DecidableEq, Repr, Inhabited

/-- A route table entry (R474). -/
structure Route where
  state : Nat := 3
  mAny : BitVec 24 := 0
  mDown : BitVec 24 := 0
deriving DecidableEq, Repr, Inhabited

/-- A route table that is arriving in its sixteen parts (R487). -/
structure Staging where
  generation : Nat := 0
  orient : Bool := false
  shadow : Bool := false
  table : Tab Route := []
  dests : List Nat := []
deriving DecidableEq, Repr, Inhabited

/-- What the coordinator knows of a wafer (R465, R468, R487). -/
structure WaferInfo where
  serial : DWord := 0
  /-- LINKS parts 0 to 3. -/
  reports : Tab (List LinkReport) := []
  installed : Nat := 0
  shadow : Nat := 0
  orient : Bool := false
  linksUp : BitVec 24 := 0
  lastStatus : Nat := 0
  /-- Time since which no link to it has been UP (R490). -/
  cutAt : Option Nat := none
deriving DecidableEq, Repr, Inhabited

/-- The fabric side of the wafer. -/
structure Fabric where
  phase : Discovery := .linkTrain
  /-- Start of the running election: step 9, or a MAP timeout (R465, R488). -/
  stepStart : Nat := 0
  candidate : DWord := 0
  candidateAt : Nat := 0
  linkEnable : BitVec 24 := 0xFFFFFF
  maxWafers : Nat := 128
  minWafers : Nat := 1
  window : Nat := 1000
  settle : Nat := 20
  fabricId : DWord := 0
  number : Option Nat := none
  level : Nat := 0
  coordinator : Bool := false
  /-- The coordinator's levels of the numbered wafers, and those of a shadow set (R468, R479). -/
  levels : Tab Nat := []
  shadowLevels : Tab Nat := []
  serials : Tab DWord := []
  present : List Nat := []
  routes : Tab Route := []
  shadowRoutes : Tab Route := []
  generation : Nat := 0
  shadowGeneration : Nat := 0
  staging : Staging := {}
  orient : Bool := false
  /-- Injection stopped at this time (R479). -/
  pausedAt : Option Nat := none
  lastMap : Nat := 0
  /-- Serial of the coordinator whose MAPs have stopped, in a new election (R488); 0 for none. -/
  lost : DWord := 0
  /-- PRIMARY is sent until this time (R487). -/
  primaryUntil : Nat := 0
  /-- Reports of wafers by serial number (coordinator). -/
  wafers : List WaferInfo := []
  /-- SWITCH is being sent (R479, R487). -/
  switching : Bool := false
  /-- Packets that have arrived for this wafer, until their command takes them up. -/
  arrived : List Packet := []
  links : Tab Link := []
  cages : Tab Cage := []
  inbox : List PeerMsg := []
  /-- SEQ of the next peer message that this wafer sends (R385). -/
  sendSeq : BitVec 16 := 0
  accepted : List PeerMsg := []
  lastSeq : Tab Nat := []
  peerPrimary : Tab Bool := []
deriving DecidableEq, Repr, Inhabited

/-- Memories of the block: DDR by offset (R523), cisterns by 2^21 × logical index + offset (R305), flash by offset (R604),
EEPROM (R665), host memory by 2^64 × port + bus address (R370), poisoned DDR lines by number (R529). -/
structure Mems where
  ddr : List Host.Cell := []
  cistern : List Host.Cell := []
  flash : List Host.Cell := []
  eeprom : List Host.Cell := []
  host : List Host.Cell := []
  poisoned : List Nat := []
deriving DecidableEq, Repr, Inhabited

/-- What the block sends outside itself. -/
inductive Output where
  | msix (port vector : Nat)
  | bar2Completion (port : Nat) (ep : Bool) (data : List Byte)
  | unsupported (port : Nat)
  /-- The 416-byte message of a frame (R452). -/
  | frame (link : Nat) (message : List Byte)
  /-- A peer message, its word 0 and its contents: to a wafer, or (none) to the peer on the link that its contents name. -/
  | peer (dst : Option Nat) (word0 : Nat) (body : PeerBody)
  | hostRead (port addr len : Nat)
  | pmbusData (value : Nat)
  | pmbusBlock (data : List Byte)
  | pmbusNack
  | pmbusStatus (overvoltage inputWarning temperatureWarning : Bool)
  /-- A response of the management agent (R657). -/
  | agent (sess cmd : Nat) (tag : Word) (status : Nat) (payload : List Byte)
  | agentRefused
  | agentAccepted (sess : Nat)
  | pmbusBridge (target code : Byte) (isRead : Bool) (data : List Byte)
  | tapSelected (rim : Nat) (opcode : Byte)
  | idcode (rim : Nat) (value : Word)
  /-- A coordinate claim on its way to a physical cluster, from the West rim or from a neighbour (R590). -/
  | claim (cluster : Nat) (x y : Int)
deriving DecidableEq, Repr

/-- The mirror in the standby's SRAM: durable state, and the live ledger from which the topology table is built (R388, R603). Its CRC is held
as whether it matches (R390). -/
structure Mirror where
  tenants : Tab Durable := []
  sessions : Tab Session := []
  live : Live := {}
  crcOk : Bool := true
deriving DecidableEq, Repr, Inhabited

/-- The state of the block. -/
structure State where
  /-- Commands waiting, first in, first out (the model's own). -/
  pending : List Instr := []
  /-- Time in µs, advanced by an idle step (log 7). -/
  nowUs : Nat := 0
  /-- Counter of the free values (log 2). -/
  freeCtr : Nat := 0
  /-- What the block has sent, newest first (log 8). -/
  out : List Output := []
  casing : Casing := {}
  sys : Sys := {}
  silicon : Silicon := {}
  fields : Tab Field := []
  rims : Tab Rim := []
  channels : Tab Channel := []
  ports : Tab Port := []
  tenants : Tab Tenant := []
  work : Work := {}
  clusters : Tab Cluster := []
  fabric : Fabric := {}
  taps : Tab Tap := []
  mem : Mems := {}
  mirror : Mirror := {}
deriving DecidableEq, Repr, Inhabited

/-- The machine right after reset: every register at the reset value of R346, R396 and the other rules that give one, the rest as
log entry 1 says. An unlisted entry of a table reads as that table's default. -/
def State.reset : State where
  pending := []
  nowUs := 0
  freeCtr := 0
  out := []
  casing := {}
  sys := {}
  silicon := {}
  fields := []
  rims := []
  channels := []
  ports := []
  tenants := []
  work := {}
  clusters := []
  fabric := {}
  taps := []
  mem := {}
  mirror := {}

end Sys2Proof.Machine
end

