-- ==== Sys2Proof/Machine/Bits.lean ====
section
/-!
DEFINITION. Sys2Proof/Machine/Bits.lean: reading and writing sparse tables and byte memories, little-endian byte order (R19),
bit fields, and CRC-32.
-/

namespace Sys2Proof.Machine

/-! ## Sparse tables -/

/-- The value of a key, d where the table lists none. -/
def tget {α : Type} (d : α) : Tab α → Nat → α
  | [], _ => d
  | (a, v) :: rest, k => if a = k then v else tget d rest k

/-- Insert a key that the table does not list. -/
def tins {α : Type} (k : Nat) (v : α) : Tab α → Tab α
  | [] => [(k, v)]
  | e :: rest => if k < e.1 then (k, v) :: e :: rest else e :: tins k v rest

/-- Set a key's value; setting the default removes the entry. -/
def tset {α : Type} [DecidableEq α] (d : α) (m : Tab α) (k : Nat) (v : α) : Tab α :=
  if v = d then m.filter (fun e => e.1 ≠ k) else tins k v (m.filter (fun e => e.1 ≠ k))

/-- Apply a function to a key's value. -/
def tmod {α : Type} [DecidableEq α] (d : α) (m : Tab α) (k : Nat) (f : α → α) : Tab α :=
  tset d m k (f (tget d m k))

/-- The canonical form of a table: keys strictly rising, no entry equal to the default. -/
def Tab.wf {α : Type} [DecidableEq α] (d : α) : Tab α → Bool
  | [] => true
  | e :: rest => decide (e.2 ≠ d) && rest.all (fun x => decide (e.1 < x.1)) && Tab.wf d rest

/-- The canonical form of a byte memory whose unlisted bytes read as d. -/
def Memory.wf (d : Byte) (m : List Host.Cell) : Bool :=
  Tab.wf d m

/-! ## Byte memories -/

/-- Read n bytes from an address up. -/
def readBytes (d : Byte) (m : List Host.Cell) (a : Nat) : Nat → List Byte
  | 0 => []
  | n + 1 => tget d m a :: readBytes d m (a + 1) n

/-- Write bytes from an address up. -/
def writeBytes (d : Byte) (m : List Host.Cell) (a : Nat) : List Byte → List Host.Cell
  | [] => m
  | b :: rest => writeBytes d (tset d m a b) (a + 1) rest

/-- Set a run of n bytes to the memory's default: the listed bytes of the run go. -/
def clearRun (m : List Host.Cell) (a n : Nat) : List Host.Cell :=
  m.filter (fun e => ¬ (a ≤ e.1 ∧ e.1 < a + n))

/-! ## Little-endian numbers (R19) -/

/-- The number of a little-endian byte list. -/
def leNat : List Byte → Nat
  | [] => 0
  | b :: rest => b.toNat + 256 * leNat rest

/-- The n little-endian bytes of a number. -/
def leBytes : Nat → Nat → List Byte
  | 0, _ => []
  | n + 1, v => BitVec.ofNat 8 v :: leBytes n (v / 256)

/-- Split a byte list into words of four bytes, n of them. -/
def leWords : Nat → List Byte → List Word
  | 0, _ => []
  | n + 1, bs => BitVec.ofNat 32 (leNat (bs.take 4)) :: leWords n (bs.drop 4)

/-- The bytes of a word list. -/
def wordBytes (ws : List Word) : List Byte :=
  ws.flatMap (fun w => leBytes 4 w.toNat)

/-- Bits [hi:lo] of a number. -/
def bits (v hi lo : Nat) : Nat :=
  (v / 2 ^ lo) % 2 ^ (hi + 1 - lo)

/-- Bit i of a number. -/
def bit (v i : Nat) : Bool :=
  v / 2 ^ i % 2 = 1

/-- A number of n bits read as two's complement. -/
def signed (n v : Nat) : Int :=
  if v % 2 ^ n < 2 ^ (n - 1) then (v % 2 ^ n : Nat) else (v % 2 ^ n : Nat) - (2 ^ n : Nat)

/-- An integer as n bits of two's complement. -/
def unsignedOf (n : Nat) (v : Int) : Nat :=
  (v % (2 ^ n : Nat)).toNat

/-- 1 for true. -/
def b2n (b : Bool) : Nat :=
  if b then 1 else 0

/-- Word i of a clause or message. -/
def word (ws : List Word) (i : Nat) : Nat :=
  (ws.getD i 0).toNat

/-- Sum of a list. -/
def sumNat (l : List Nat) : Nat :=
  l.foldl (· + ·) 0

/-- Product of a list. -/
def prodNat (l : List Nat) : Nat :=
  l.foldl (· * ·) 1

/-- Ceiling of a quotient. -/
def ceilDiv (a b : Nat) : Nat :=
  (a + b - 1) / b

/-- Saturating increment of a counter with a highest value. -/
def satInc (top v : Nat) : Nat :=
  min top (v + 1)

/-- Apply f to entry i of a list. -/
def modAt {α : Type} (l : List α) (i : Nat) (f : α → α) : List α :=
  l.mapIdx (fun j x => if j = i then f x else x)

/-! ## CRC-32 of IEEE 802.3 (reflected polynomial 0xEDB8_8320, initial and final value 0xFFFF_FFFF) -/

/-- One bit of the CRC register. -/
def crcBit (c : Word) : Word :=
  if c &&& 1 = 1 then (c >>> 1) ^^^ 0xEDB88320 else c >>> 1

/-- One byte of the CRC register. -/
def crcByte (c : Word) (b : Byte) : Word :=
  let x := c ^^^ (b.setWidth 32)
  crcBit (crcBit (crcBit (crcBit (crcBit (crcBit (crcBit (crcBit x)))))))

/-- CRC-32 with the IEEE 802.3 polynomial. -/
def crc32 (bs : List Byte) : Word :=
  ~~~ (bs.foldl crcByte 0xFFFFFFFF)

/-- The bytes with the four at an offset taken as zero. -/
def zeroAt (bs : List Byte) (off : Nat) : List Byte :=
  bs.mapIdx (fun i b => if off ≤ i ∧ i < off + 4 then 0 else b)

/-- Zero bytes. -/
def zeros (n : Nat) : List Byte :=
  List.replicate n 0

/-- Bytes padded with zeros to n. -/
def padTo (n : Nat) (bs : List Byte) : List Byte :=
  bs ++ zeros (n - bs.length)

/-- Pack values of n bits into a little-endian bit stream, padded to whole bytes (R100). -/
def packBits (n : Nat) (vals : List Nat) : List Byte :=
  leBytes (ceilDiv (n * vals.length) 8) (vals.foldr (fun v acc => v % 2 ^ n + 2 ^ n * acc) 0)

end Sys2Proof.Machine
end

