-- ==== Sys2Proof/Machine/Flags.lean ====
section
/-!
DEFINITION. Sys2Proof/Machine/Flags.lean: saturation of the 56-bit accumulators (R79), the alignment shift of BFP terms (R86),
fp32 arithmetic, and the requantizer with its SAT, INEXACT and CLIP bits (R88 to R97).
-/

namespace Sys2Proof.Machine

/-! ## Accumulators -/

/-- Largest accumulator value (R79). -/
def accMax : Int := 2 ^ 55 - 1

/-- Smallest accumulator value (R79). -/
def accMin : Int := -(2 ^ 55)

/-- Saturate to the accumulator range (R79). -/
def satAcc (x : Int) : Int :=
  if x > accMax then accMax else if x < accMin then accMin else x

/-- Whether saturation changes the value, which sets SAT (R80). -/
def satHit (x : Int) : Bool :=
  decide (x > accMax ∨ x < accMin)

/-- Shift by k: left exactly, or right toward minus infinity (R86). -/
def alignShift (x k : Int) : Int :=
  if 0 ≤ k then x * 2 ^ k.toNat else Int.fdiv x (2 ^ (-k).toNat)

/-- Whether a right shift drops a bit that is 1, which sets INEXACT (R86). -/
def alignDrops (x k : Int) : Bool :=
  decide (k < 0) && decide (Int.fmod x (2 ^ (-k).toNat) ≠ 0)

/-- The 64-bit word that stores an accumulator value (R97, R222). -/
def accWord (a : Int) : Nat :=
  unsignedOf 56 a

/-- The value that a stored accumulator word holds (R222). -/
def wordAcc (w : Nat) : Int :=
  signed 56 w

/-! ## fp32 (R88, R89) -/

/-- The value of an fp32 code. -/
def fpOf (w : Word) : Fp :=
  let v := w.toNat
  let neg := bit v 31
  let ex := bits v 30 23
  let fr := bits v 22 0
  let sgn : Int := if neg then -1 else 1
  if ex = 255 then (if fr = 0 then .inf neg else .nan)
  else if ex = 0 then .fin (sgn * fr) (-149)
  else .fin (sgn * (fr + 2 ^ 23 : Nat)) ((ex : Int) - 150)

/-- Whether an fp32 code is subnormal (R110). -/
def fpSubnormal (w : Word) : Bool :=
  bits w.toNat 30 23 = 0 && bits w.toNat 22 0 ≠ 0

/-- Whether an fp32 code is finite. -/
def fpFinite (w : Word) : Bool :=
  bits w.toNat 30 23 ≠ 255

/-- Number of bits of a number. -/
def bitLen (n : Nat) : Nat :=
  if n = 0 then 0 else Nat.log2 n + 1

/-- Divide by 2^k, rounding to nearest, ties to even. -/
def rneShift (m k : Nat) : Nat :=
  let q := m / 2 ^ k
  let r := m % 2 ^ k
  let half := 2 ^ (k - 1)
  if k = 0 then m
  else if r > half ∨ (r = half ∧ q % 2 = 1) then q + 1 else q

/-- Round the exact number m × 2^e to fp32, to nearest even, with subnormals; beyond the range it is an infinity (R89). -/
def fpRound (m e : Int) : Fp :=
  let a := m.natAbs
  let neg := decide (m < 0)
  if a = 0 then .fin 0 0
  else
    let top : Int := (bitLen a : Int) + e
    -- the exponent of the last kept bit: 24 bits of precision, not below the subnormal step
    let lsb : Int := max (top - 24) (-149)
    let k := lsb - e
    let q := if 0 ≤ k then rneShift a k.toNat else a * 2 ^ (-k).toNat
    if (bitLen q : Int) + lsb > 128 then .inf neg
    else .fin (if neg then -(q : Int) else q) lsb

/-- Put an exact number over a smaller exponent. -/
def overExp (m e lo : Int) : Int :=
  m * 2 ^ (e - lo).toNat

/-- Exact sum, then rounding. -/
def fpAddExact (m1 e1 m2 e2 : Int) : Fp :=
  let lo := min e1 e2
  fpRound (overExp m1 e1 lo + overExp m2 e2 lo) lo

/-- fp32 addition. -/
def fpAdd : Fp → Fp → Fp
  | .nan, _ => .nan
  | _, .nan => .nan
  | .inf a, .inf b => if a = b then .inf a else .nan
  | .inf a, .fin _ _ => .inf a
  | .fin _ _, .inf b => .inf b
  | .fin m1 e1, .fin m2 e2 => fpAddExact m1 e1 m2 e2

/-- Negation. -/
def fpNeg : Fp → Fp
  | .nan => .nan
  | .inf n => .inf (!n)
  | .fin m e => .fin (-m) e

/-- fp32 multiplication. -/
def fpMul : Fp → Fp → Fp
  | .nan, _ => .nan
  | _, .nan => .nan
  | .inf a, .inf b => .inf (xor a b)
  | .inf a, .fin m _ => if m = 0 then .nan else .inf (xor a (decide (m < 0)))
  | .fin m _, .inf b => if m = 0 then .nan else .inf (xor b (decide (m < 0)))
  | .fin m1 e1, .fin m2 e2 => fpRound (m1 * m2) (e1 + e2)

/-- One rounding of the exact value x × s + b, with x exact and finite (R88). -/
def fpScale (xm xe : Int) (s b : Fp) : Fp :=
  match s, b with
  | .nan, _ => .nan
  | _, .nan => .nan
  | .inf n, .inf n' =>
    if xm = 0 then .nan else if xor n (decide (xm < 0)) = n' then .inf n' else .nan
  | .inf n, .fin _ _ => if xm = 0 then .nan else .inf (xor n (decide (xm < 0)))
  | .fin _ _, .inf n' => .inf n'
  | .fin ms es, .fin mb eb => fpAddExact (xm * ms) (xe + es) mb eb

/-- Floor of an exact number. -/
def floorExp (m e : Int) : Int :=
  if 0 ≤ e then m * 2 ^ e.toNat else Int.fdiv m (2 ^ (-e).toNat)

/-- Numerator over 2^24 of the fraction above the floor, rounded up when it has more bits: used only in the comparison of R90. -/
def fracGreater (m e : Int) (r : Nat) : Bool :=
  if 0 ≤ e then false
  else
    let d : Int := 2 ^ (-e).toNat
    decide (Int.fmod m d * 2 ^ 24 > r * d)

/-- Rounding modes (R242): 0 RNE, 1 TRUNC, 2 STOCH with the 24-bit value r (R90). -/
def roundInt (mode : Nat) (r : Nat) (m e : Int) : Int :=
  if 0 ≤ e then m * 2 ^ e.toNat
  else
    let d : Int := 2 ^ (-e).toNat
    let fl := Int.fdiv m d
    let fr := Int.fmod m d
    if mode = 1 then Int.tdiv m d
    else if mode = 2 then (if fracGreater m e r then fl + 1 else fl)
    else if 2 * fr > d ∨ (2 * fr = d ∧ fl % 2 = 1) then fl + 1 else fl

/-- The stochastic value r of an output element (R91). -/
def stochR (seed e : Nat) : Nat :=
  let s : Word := BitVec.ofNat 32 seed
  let h := s ^^^ (BitVec.ofNat 32 e * 0x9E3779B9)
  let h := (h ^^^ (h >>> 16)) * 0x85EBCA6B
  let h := (h ^^^ (h >>> 13)) * 0xC2B2AE35
  let h := h ^^^ (h >>> 16)
  (h >>> 8).toNat

/-! ## Formats (R60, R98) -/

/-- KIND of a format code: 0 UINT, 1 SINT, 2 BIPOLAR, 3 BFP, 4 ACC. -/
def fmtKind (f : Byte) : Nat := bits f.toNat 7 5

/-- Width n of a format code; an ACC element is a 64-bit word. -/
def fmtWidth (f : Byte) : Nat := bits f.toNat 3 0 + 1

/-- R98 and R99: a legal format code. -/
def fmtLegal (f : Byte) : Bool :=
  !(bit f.toNat 4) &&
  (match fmtKind f with
   | 0 => true
   | 1 => true
   | 2 => fmtWidth f = 1
   | 3 => decide (2 ≤ fmtWidth f)
   | 4 => fmtWidth f = 16
   | _ => false)

/-- Bits that one element takes in storage. -/
def fmtBits (f : Byte) : Nat :=
  if fmtKind f = 4 then 64 else fmtWidth f

/-- Lower and upper bound of an integer output format (R94). -/
def fmtBounds (kind n : Nat) : Int × Int :=
  if kind = 0 then (0, 2 ^ n - 1) else (-(2 ^ (n - 1)), 2 ^ (n - 1) - 1)

/-- The integer value of a stored code: two's complement for SINT and BFP mantissas, −1 or +1 for BIPOLAR, the accumulator value
for ACC (R60). -/
def codeValue (kind n code : Nat) : Int :=
  match kind with
  | 0 => (code % 2 ^ n : Nat)
  | 1 => signed n code
  | 2 => if code % 2 = 1 then 1 else -1
  | 3 => signed n code
  | _ => wordAcc code

/-! ## The requantizer (R88 to R97) -/

/-- What the requantizer writes for one output: the stored code and whether CLIP is set. -/
structure Quant where
  code : Nat := 0
  clip : Bool := false
deriving DecidableEq, Repr, Inhabited

/-- The value t of R88: A × 2^E scaled and offset, rounded once to fp32. -/
def requantT (a e : Int) (s b : Word) : Fp :=
  fpScale a e (fpOf s) (fpOf b)

/-- Saturation of an integer into UINT or SINT, with CLIP as R94 says. -/
def saturateInt (kind n : Nat) (q : Int) : Quant :=
  let (lo, hi) := fmtBounds kind n
  if q > hi then ⟨unsignedOf n hi, true⟩
  else if q < lo then ⟨unsignedOf n lo, kind = 1⟩
  else ⟨unsignedOf n q, false⟩

/-- The output of t for an integer or BIPOLAR format (R90, R94, R95). -/
def quantize (kind n mode r : Nat) (t : Fp) : Quant :=
  if kind = 2 then
    match t with
    | .nan => ⟨0, true⟩
    | .inf neg => ⟨b2n (!neg), false⟩
    | .fin m _ => ⟨b2n (decide (0 ≤ m)), false⟩
  else
    match t with
    | .nan => ⟨0, true⟩
    | .inf false => ⟨unsignedOf n (fmtBounds kind n).2, true⟩
    | .inf true => ⟨unsignedOf n (fmtBounds kind n).1, kind = 1⟩
    | .fin m e => saturateInt kind n (roundInt mode r m e)

/-- floor(log2 T) of a positive exact number. -/
def floorLog2 (m : Nat) (e : Int) : Int :=
  (bitLen m : Int) - 1 + e

/-- The mantissa of t at block exponent E, before the range check (R96). -/
def bfpRound (mode r : Nat) (big : Int) : Fp → Int
  | .fin m e => roundInt mode r m (e - big)
  | _ => 0

/-- A mantissa saturated into its range (R96). -/
def bfpClamp (n : Nat) (q : Int) : Int :=
  min (2 ^ (n - 1) - 1) (max (-(2 ^ (n - 1))) q)

/-- Larger of two magnitudes given as exact numbers. -/
def magMax (a b : Nat × Int) : Nat × Int :=
  let lo := min a.2 b.2
  if a.1 * 2 ^ (a.2 - lo).toNat ≥ b.1 * 2 ^ (b.2 - lo).toNat then a else b

/-- The BFP block of R96: exponent byte, mantissa codes, CLIP. Each t comes with its stochastic value. -/
def bfpBlock (n mode : Nat) (ts : List (Fp × Nat)) : Nat × List Nat × Bool :=
  let anyNan := ts.any (fun t => t.1 = .nan)
  let anyInf := ts.any (fun t => match t.1 with | .inf _ => true | _ => false)
  let top := ts.foldl (fun acc t => match t.1 with | .fin m e => magMax acc (m.natAbs, e) | _ => acc) (0, 0)
  let lo : Int := -(2 ^ (n - 1))
  let hi : Int := 2 ^ (n - 1) - 1
  let at' := fun (big : Int) => ts.map (fun t => bfpRound mode t.2 big t.1)
  let code := fun (q : Int) => unsignedOf n (bfpClamp n q)
  if anyInf then
    (255, ts.map (fun t => match t.1 with
      | .inf false => unsignedOf n hi
      | .inf true => unsignedOf n lo
      | t' => code (bfpRound mode t.2 128 t')), true)
  else if top.1 = 0 then (0, ts.map (fun _ => 0), anyNan)
  else
    let e0 := max (floorLog2 top.1 top.2 - ((n : Int) - 2)) (-127)
    let out := fun (big : Int) => (at' big).any (fun q => decide (q < lo ∨ q > hi))
    let e1 := if out e0 then e0 + 1 else e0
    if e1 > 128 then (255, (at' 128).map code, true)
    else ((e1 + 127).toNat, (at' e1).map code, anyNan)

end Sys2Proof.Machine
end

