-- ==== Sys2Proof/Machine/Operands.lean ====
section
/-!
DEFINITION. Sys2Proof/Machine/Operands.lean: the operand forms of a clause: the fields of the clause words (R237 to R247), global
and local addresses (R480, R536), nouns and their elements in every layout (R249 to R252, R170 to R176), index maps (R254 to
R262), and the shares and tiles of a map (R310 to R318).
-/

namespace Sys2Proof.Machine

/-! ## Clause fields (R239, R242, R243, R245, R247) -/

/-- VERB. -/
def cVerb (c : Clause) : Nat := bits (word c 0) 7 0
/-- ORD. -/
def cOrd (c : Clause) : Bool := bit (word c 0) 8
/-- END. -/
def cEnd (c : Clause) : Bool := bit (word c 0) 9
/-- QUIET. -/
def cQuiet (c : Clause) : Bool := bit (word c 0) 10
/-- TRAP_SAT. -/
def cTrapSat (c : Clause) : Bool := bit (word c 0) 11
/-- PRIO. -/
def cPrio (c : Clause) : Nat := bits (word c 0) 13 12
/-- TAG, whole. -/
def cTag16 (c : Clause) : Nat := bits (word c 0) 31 16
/-- The tag in force: 12 bits for BL = 1 (R241). -/
def cTag (bl : Bool) (c : Clause) : Nat := if bl then bits (word c 0) 27 16 else cTag16 c
/-- OUT, TABLE, A, B and X noun slots (R237). -/
def cOut (c : Clause) : Nat := bits (word c 1) 15 0
def cTable (c : Clause) : Nat := bits (word c 1) 31 16
def cA (c : Clause) : Nat := bits (word c 2) 15 0
def cB (c : Clause) : Nat := bits (word c 2) 31 16
def cX (c : Clause) : Nat := bits (word c 3) 15 0
/-- Adverb word 1 (R242). -/
def cPw (c : Clause) : Nat := bits (word c 4) 3 0
def cPa (c : Clause) : Nat := bits (word c 4) 7 4
def cDecision (c : Clause) : Nat := bits (word c 4) 9 8
def cQ (c : Clause) : Nat := bits (word c 4) 13 10
def cSparsity (c : Clause) : Nat := bits (word c 4) 16 14
def cTarget (c : Clause) : Nat := bits (word c 4) 17 17
def cPartialGate (c : Clause) : Bool := bit (word c 4) 18
def cRounding (c : Clause) : Nat := bits (word c 4) 20 19
def cCompress (c : Clause) : Bool := bit (word c 4) 21
/-- Adverb word 2 (R243). -/
def cOutFormat (c : Clause) : Nat := bits (word c 5) 7 0
def cEacc (c : Clause) : Int := signed 10 (bits (word c 5) 17 8)
def cOp (c : Clause) : Nat := bits (word c 5) 21 18
def cK (c : Clause) : Nat := bits (word c 5) 26 22
def cRankLoop (c : Clause) : Nat := bits (word c 5) 29 27
/-- SEED (R244). -/
def cSeed (c : Clause) : Nat := word c 6
/-- Word 7 (R245). -/
def cMap (c : Clause) : Nat := bits (word c 7) 15 0
def cRegion (c : Clause) : Nat := bits (word c 7) 23 16
def cLut (c : Clause) : Nat := bits (word c 7) 26 24
def cLutEn (c : Clause) : Bool := bit (word c 7) 27
/-- Word 14 (R247). -/
def cSession (c : Clause) : Nat := bits (word c 14) 7 0
def cSessionEn (c : Clause) : Bool := bit (word c 14) 8
/-- Word 8 of CONTRACT, CONTRACT_SPARSE and REDUCE (R263). -/
def cHold (c : Clause) : Bool := bit (word c 8) 0
def cResume (c : Clause) : Bool := bit (word c 8) 1

/-- Whether the clause's verb uses its map (R246). -/
def usesMap (c : Clause) : Bool :=
  match cVerb c with
  | 0x0C => false
  | 0x0D => false
  | 0x0E => false
  | 0x0F => false
  | 0x10 => false
  | 0x12 => false
  | 0x08 => cOp c ≠ 1
  | _ => true

/-! ## Addresses: a global address without its bit 63 (R480) -/

/-- The address of a DDR byte of a wafer. -/
def gDdr (wafer off : Nat) : Nat := wafer * 2 ^ 56 + off % 2 ^ 52

/-- The address of a cistern byte. -/
def gCis (wafer cluster off : Nat) : Nat := wafer * 2 ^ 56 + 2 ^ 52 + cluster * 2 ^ 41 + off % 2 ^ 41

def gWafer (g : Nat) : Nat := bits g 62 56
def gSpace (g : Nat) : Nat := bits g 55 52
def gCluster (g : Nat) : Nat := bits g 51 41
/-- Offset in DDR. -/
def gOff (g : Nat) : Nat := g % 2 ^ 52
/-- Offset in a cluster's cistern. -/
def gCisOff (g : Nat) : Nat := g % 2 ^ 41

/-- Key of a cistern byte in the state's memory. -/
def cisKey (cluster off : Nat) : Nat := cluster * 2 ^ 21 + off

/-- Size of a cistern's plan area (R305). -/
def planArea : Nat := 0x1F0000

/-- The byte at a global address, as this wafer holds it: its own DDR and cisterns, or what READ_DATA has brought. -/
def byteAt (s : State) (g : Nat) : Byte :=
  if gWafer g = s.sys.waferNumber then
    if gSpace g = 0 then tget 0 s.mem.ddr (gOff g)
    else tget 0 s.mem.cistern (cisKey (gCluster g) (gCisOff g))
  else tget 0 s.work.fetched g

/-- Bytes from a global address up. -/
def bytesAt (s : State) (g n : Nat) : List Byte :=
  (List.range n).map (fun i => byteAt s (g + i))

/-- len bits from a bit address (8 × byte address + bit) up. -/
def bitsAt (s : State) (ba len : Nat) : Nat :=
  let first := ba / 8
  let n := ceilDiv (ba % 8 + len) 8
  leNat (bytesAt s first n) / 2 ^ (ba % 8) % 2 ^ len

/-- One byte after a bit write of len bits of v at bit address ba. -/
def mergeByte (old : Byte) (byteAddr ba len v : Nat) : Byte :=
  BitVec.ofNat 8 ((List.range 8).foldl (fun acc i =>
    let b := byteAddr * 8 + i
    let on := if ba ≤ b ∧ b < ba + len then bit v (b - ba) else bit old.toNat i
    acc + b2n on * 2 ^ i) 0)

/-- Store one byte at a global address of this wafer. -/
def putByte (s : State) (g : Nat) (b : Byte) : State :=
  if gSpace g = 0 then { s with mem := { s.mem with ddr := tset 0 s.mem.ddr (gOff g) b } }
  else { s with mem := { s.mem with cistern := tset 0 s.mem.cistern (cisKey (gCluster g) (gCisOff g)) b } }

/-- Carry out one bit write: bit address, length, value. -/
def putBits (s : State) (w : Nat × Nat × Nat) : State :=
  let first := w.1 / 8
  (List.range (ceilDiv (w.1 % 8 + w.2.1) 8)).foldl (fun s i =>
    putByte s (first + i) (mergeByte (byteAt s (first + i)) (first + i) w.1 w.2.1 w.2.2)) s

/-- The DDR lines of this wafer that a list of bit writes touches. -/
def linesOf (s : State) (ws : List (Nat × Nat × Nat)) : List Nat :=
  (ws.flatMap (fun w => (List.range (ceilDiv (w.1 % 8 + w.2.1) 8)).filterMap (fun i =>
    let g := w.1 / 8 + i
    if gWafer g = s.sys.waferNumber ∧ gSpace g = 0 then some (gOff g / 64) else none))).dedup

/-- Bits of a line that a list of bit writes covers. -/
def coveredBits (s : State) (ws : List (Nat × Nat × Nat)) (line : Nat) : Nat :=
  (List.range 512).countP (fun i =>
    let b := (gDdr s.sys.waferNumber (line * 64)) * 8 + i
    ws.any (fun w => decide (w.1 ≤ b ∧ b < w.1 + w.2.1)))

/-- R530: a write of a whole line clears its poison mark; a partial write leaves it. -/
def clearWholeLines (s : State) (ws : List (Nat × Nat × Nat)) : State :=
  let whole := (linesOf s ws).filter (fun l => coveredBits s ws l = 512)
  { s with mem := { s.mem with poisoned := s.mem.poisoned.filter (fun l => ¬ whole.contains l) } }

/-- Carry out a list of bit writes to this wafer's own memory. -/
def putAll (s : State) (ws : List (Nat × Nat × Nat)) : State :=
  clearWholeLines (ws.foldl putBits s) ws

/-! ## Nouns -/

/-- Extent of dimension d. -/
def nExt (n : Noun) (d : Nat) : Nat := n.ext.getD d 0
/-- Stride of dimension d in bytes. -/
def nStride (n : Noun) (d : Nat) : Nat := n.stride.getD d 0 * 64
/-- Width of an element. -/
def nWidth (n : Noun) : Nat := fmtWidth n.format
def nKind (n : Noun) : Nat := fmtKind n.format

/-- Noun i of a plan. -/
def Plan.noun (p : Plan) (i : Nat) : Noun := p.nouns.getD i default
/-- Map i of a plan and its tile descriptor. -/
def Plan.map (p : Plan) (i : Nat) : MapEntry := p.maps.getD i default
def Plan.tile (p : Plan) (i : Nat) : TileDesc := p.tiles.getD i default
def Plan.region (p : Plan) (i : Nat) : Region := p.regions.getD i default

/-- The base of a noun as a global address, for the cluster that runs the clause and the clause's session (R250, R418, R536). -/
def nounBase (s : State) (n : Noun) (cluster session : Nat) : Nat :=
  let v := n.base.toNat
  if n.sessionRel then
    gDdr s.sys.waferNumber ((tget {} s.work.sessions session).stateBase + v % 2 ^ 52)
  else if bit v 63 then v % 2 ^ 63
  else if bits v 55 52 = 1 then gCis s.sys.waferNumber cluster (v % 2 ^ 41)
  else gDdr s.sys.waferNumber (v % 2 ^ 52)

/-- Bytes that a row of k elements takes (R100, R101). -/
def rowBytes (n : Noun) (k : Nat) : Nat :=
  if nKind n = 3 then ceilDiv k 16 * (1 + 2 * nWidth n)
  else ceilDiv (k * fmtBits n.format) 8

/-- Offset of the row that the outer indices select (R251). -/
def rowOffset (n : Noun) (idx : List Nat) : Nat :=
  sumNat ((List.range n.dims).map (fun d => idx.getD d 0 * nStride n d))

/-- Whether every index lies inside the noun's declared extents. -/
def inExtents (n : Noun) (idx : List Int) : Bool :=
  (List.range (n.dims + 1)).all (fun d => decide (0 ≤ idx.getD d 0 ∧ idx.getD d 0 < nExt n d))

/-- The linear index of an element (R93). -/
def linearIndex (n : Noun) (idx : List Nat) : Nat :=
  ((List.range (n.dims + 1)).foldl (fun acc d => acc * nExt n d + idx.getD d 0) 0) % 2 ^ 32

/-- Fields of a canonical mask byte (R173). -/
structure MaskByte where
  c0 : Nat
  c1 : Nat
  v0 : Bool
  v1 : Bool
  reserved : Nat
deriving DecidableEq, Repr

def maskByte (b : Byte) : MaskByte :=
  ⟨bits b.toNat 1 0, bits b.toNat 3 2, bit b.toNat 4, bit b.toNat 5, bits b.toNat 7 6⟩

/-- Address of the forward-plane byte of group g of column n (R173). -/
def maskForward (m : Noun) (base n g : Nat) : Nat := base + n * nStride m 0 + g

/-- Offset of the transposed plane from BASE (R173). -/
def transposedOffset (m : Noun) : Nat := ceilDiv (nExt m 0 * nStride m 0) 256 * 256

/-- Bytes from one transposed row to the next (R173). -/
def transposedPitch (m : Noun) : Nat := ceilDiv (ceilDiv (nExt m 0) 4) 64 * 64

/-- Address of the transposed-plane byte of group h of reduction row k (R173). -/
def maskTransposed (m : Noun) (base k h : Nat) : Nat :=
  base + transposedOffset m + k * transposedPitch m + h

/-- Where an element is stored: its bit address and, for BFP, the address of its exponent byte; or that it is not stored. -/
inductive Place where
  | absent
  | at (bitAddr : Nat) (expAddr : Option Nat)
deriving DecidableEq, Repr

/-- Slot of a mask group that names position p, if any: 0 or 1 (R171). -/
def maskSlot (m : MaskByte) (p : Nat) : Option Nat :=
  if m.c0 = p then some 0 else if m.c1 = p then some 1 else none

/-- Number of set bits of v below bit e. -/
def onesBelow (v e : Nat) : Nat := (List.range e).countP (fun i => bit v i)

/-- Dense placement of an element (R100, R101, R251). -/
def densePlace (n : Noun) (base : Nat) (idx : List Nat) : Place :=
  let row := base + rowOffset n idx
  let k := idx.getD n.dims 0
  if nKind n = 3 then
    let blk := row + k / 16 * (1 + 2 * nWidth n)
    .at (blk * 8 + 8 + k % 16 * nWidth n) (some blk)
  else .at (row * 8 + k * fmtBits n.format) none

/-- Bit number of an element's tile in a BAM map (R175). -/
def bamBit (n : Noun) (idx : List Nat) : Nat :=
  let rows := ceilDiv (nExt n (n.dims - 1)) 16
  let cols := ceilDiv (nExt n n.dims) 16
  let outer := (List.range (n.dims - 1)).foldl (fun acc d => acc * nExt n d + idx.getD d 0) 0
  outer * (rows * cols) + idx.getD (n.dims - 1) 0 / 16 * cols + idx.getD n.dims 0 / 16

/-- Bit address of bit i of a one-bit-per-element noun whose dimensions are read in row-major order, rows on 64-byte boundaries. -/
def flatBitAddr (m : Noun) (base i : Nat) : Nat :=
  let inner := max 1 (nExt m m.dims)
  let row := i / inner
  let idx := ((List.range m.dims).foldr (fun d (acc : List Nat × Nat) =>
    (acc.2 % max 1 (nExt m d) :: acc.1, acc.2 / max 1 (nExt m d))) (([] : List Nat), row)).1
  (base + rowOffset m idx) * 8 + i % inner

/-- Bit i of such a noun. -/
def flatBit (s : State) (m : Noun) (base i : Nat) : Bool := bitsAt s (flatBitAddr m base i) 1 = 1

/-- COORD chunk of an element: its number, and its local coordinates (R176). -/
def coordChunk (n : Noun) (col row : Nat) : Nat :=
  col / 128 * ceilDiv (nExt n 1) 1024 + row / 1024

/-- ENTRY_CAP of a COORD noun (R252). -/
def entryCap (n : Noun) : Nat := nExt n 2 + nExt n 3 * 2 ^ 20

/-- Number of chunks of a COORD noun (R176). -/
def coordChunks (n : Noun) : Nat := ceilDiv (nExt n 0) 128 * ceilDiv (nExt n 1) 1024

/-- Entry i of a COORD noun's chunk table. -/
def chunkStart (s : State) (base i : Nat) : Nat := leNat (bytesAt s (base + 4 * i) 4)

/-- Entry e of a COORD noun as a 32-bit integer. -/
def coordEntry (s : State) (n : Noun) (base e : Nat) : Nat := leNat (bytesAt s (base + nStride n 0 + 4 * e) 4)

/-- Where an element is stored, by layout (R170 to R176). `plan` resolves META companions. -/
def elemPlace (s : State) (plan : Plan) (cluster session : Nat) (n : Noun) (base : Nat) (idx : List Nat) : Place :=
  match n.layout with
  | 1 =>
    let m := plan.noun n.companion
    let mb := nounBase s m cluster session
    let col := idx.getD 0 0
    let k := idx.getD 1 0
    match maskSlot (maskByte (byteAt s (maskForward m mb col (k / 4)))) (k % 4) with
    | none => .absent
    | some t => .at ((base + col * nStride n 0) * 8 + (2 * (k / 4) + t) * nWidth n) none
  | 5 =>
    let slot := base + rowOffset n idx + idx.getD n.dims 0 / 64 * (8 + 8 * nWidth n)
    let bm := leNat (bytesAt s slot 8)
    let e := idx.getD n.dims 0 % 64
    if bit bm e then .at ((slot + 8) * 8 + onesBelow bm e * nWidth n) none else .absent
  | 6 =>
    let m := plan.noun n.companion
    if flatBit s m (nounBase s m cluster session) (bamBit n idx) then .absent else densePlace n base idx
  | 7 =>
    let col := idx.getD 0 0
    let row := idx.getD 1 0
    let ch := coordChunk n col row
    let lo := chunkStart s base ch
    let hi := chunkStart s base (ch + 1)
    let key := row % 1024 + col % 128 * 2 ^ 16
    match (List.range (hi - lo)).find? (fun i => coordEntry s n base (lo + i) = key) with
    | none => .absent
    | some i => .at ((base + nStride n 1) * 8 + (lo + i) * nWidth n) none
  | _ => densePlace n base idx

/-- One element as read: its code and its exponent byte; `stored` is false for a pruned, absent or out-of-extent element. -/
structure Elem where
  code : Nat := 0
  exp : Nat := 127
  stored : Bool := false
  /-- Inside the noun's declared extents (R257). -/
  inside : Bool := true
deriving DecidableEq, Repr, Inhabited

/-- Read an element at integer indices; outside the extents it reads zero (R257). -/
def readElem (s : State) (plan : Plan) (cluster session : Nat) (n : Noun) (idx : List Int) : Elem :=
  if inExtents n idx then
    let base := nounBase s n cluster session
    match elemPlace s plan cluster session n base (idx.map Int.toNat) with
    | .absent => { code := 0, exp := if nKind n = 3 then 0 else 127, stored := false, inside := true }
    | .at ba none => { code := bitsAt s ba (fmtBits n.format), exp := 127, stored := true, inside := true }
    | .at ba (some ea) =>
      { code := bitsAt s ba (nWidth n), exp := (byteAt s ea).toNat, stored := true, inside := true }
  else { code := 0, exp := if nKind n = 3 then 0 else 127, stored := false, inside := false }

/-- The bit write of one element, none when it is outside the extents or pruned (R257, R171). -/
def writeElem (s : State) (plan : Plan) (cluster session : Nat) (n : Noun) (idx : List Int) (code : Nat) :
    List (Nat × Nat × Nat) :=
  if inExtents n idx then
    match elemPlace s plan cluster session n (nounBase s n cluster session) (idx.map Int.toNat) with
    | .absent => []
    | .at ba _ => [(ba, if nKind n = 3 then nWidth n else fmtBits n.format, code)]
  else []

/-- DDR lines of this wafer that reading an element touches. -/
def elemLines (s : State) (plan : Plan) (cluster session : Nat) (n : Noun) (idx : List Int) : List Nat :=
  if inExtents n idx then
    match elemPlace s plan cluster session n (nounBase s n cluster session) (idx.map Int.toNat) with
    | .absent => []
    | .at ba _ => linesOf s [(ba, fmtBits n.format, 0)]
  else []

/-- An element's value in accumulator units at exponent eacc, and whether INEXACT is set (R195, R257). DEDUCED from R171 (log 97): a pruned
position of a BIPOLAR S24V noun counts as zero; an absent BIPOLAR element of BPK or BAM reads as the code 0, which is −1. -/
def accUnits (n : Noun) (eacc : Int) (e : Elem) : Int × Bool :=
  match nKind n with
  | 0 => let x := codeValue 0 (nWidth n) e.code; (alignShift x (-eacc), alignDrops x (-eacc))
  | 1 => let x := codeValue 1 (nWidth n) e.code; (alignShift x (-eacc), alignDrops x (-eacc))
  | 2 => if e.inside && (e.stored || n.layout ≠ 1) then (codeValue 2 1 e.code, false) else (0, false)
  | 3 =>
    let x := codeValue 3 (nWidth n) e.code
    let k := (e.exp : Int) - 127 - eacc
    (alignShift x k, alignDrops x k)
  | _ => (wordAcc e.code, false)

/-- Bytes from BASE to the last byte that any index addresses: the footprint of R308, with R173 and R176. -/
def footprint (n : Noun) : Nat :=
  match n.layout with
  | 4 => transposedOffset n + (nExt n 1 - 1) * transposedPitch n + ceilDiv (nExt n 0) 4
  | 7 => nStride n 1 + ceilDiv (entryCap n * nWidth n) 8
  | 1 => (nExt n 0 - 1) * nStride n 0 + ceilDiv (nExt n 1 / 2 * nWidth n) 8
  | 2 => (nExt n 0 - 1) * nStride n 0 + ceilDiv (nExt n 1) 8
  | 3 => (nExt n 0 - 1) * nStride n 0 + ceilDiv (ceilDiv (nExt n 1) 4 * 4) 8
  | 5 =>
    sumNat ((List.range n.dims).map (fun d => (nExt n d - 1) * nStride n d))
      + ceilDiv (nExt n n.dims) 64 * (8 + 8 * nWidth n)
  | _ =>
    sumNat ((List.range n.dims).map (fun d => (nExt n d - 1) * nStride n d)) + rowBytes n (nExt n n.dims)

/-! ## Index maps (R254, R256) -/

/-- The loop indices that a dimension term uses. -/
def termLoops (t : DWord) : List Nat :=
  (if bit t.toNat 3 then [bits t.toNat 2 0] else []) ++ (if bit t.toNat 7 then [bits t.toNat 6 4] else [])

/-- The index that a dimension term gives for loop values i (R256). -/
def evalTerm (t : DWord) (i : List Nat) : Int :=
  let v := t.toNat
  let first : Int := if bit v 3 then signed 16 (bits v 31 16) * (i.getD (bits v 2 0) 0 : Nat) else 0
  let second : Int := if bit v 7 then signed 16 (bits v 47 32) * (i.getD (bits v 6 4) 0 : Nat) else 0
  first + second + signed 16 (bits v 63 48)

/-- The indices that a slot's terms give for a noun. -/
def evalTerms (ts : List DWord) (n : Noun) (i : List Nat) : List Int :=
  (List.range (n.dims + 1)).map (fun d => evalTerm (ts.getD d 0) i)

/-- CLASS of loop l (R255): 1 COL, 2 VEC, 3 RED, 4 OUTER. -/
def MapEntry.cls (m : MapEntry) (l : Nat) : Nat := m.classes.getD l 0

/-- Loops of a class, among the map's loops. -/
def MapEntry.loopsOf (m : MapEntry) (c : Nat) : List Nat := (List.range m.loops).filter (fun l => m.cls l = c)

/-- Loops that any of a list of terms names. -/
def slotLoops (ts : List DWord) : List Nat := (ts.flatMap termLoops).dedup

/-! ## Shares and tiles (R311 to R318) -/

/-- The share span of loop l (R316). -/
def shareSpan (t : TileDesc) (l : Nat) : Nat :=
  let e := t.extent.getD l 0
  let t2 := t.t2.getD l 1
  t2 * ceilDiv (ceilDiv e t2) (max 1 (t.factor.getD l 1))

/-- The share indices of member i (R317): digits in mixed radix, loop 0 most significant. -/
def shareDigits (t : TileDesc) (loops i : Nat) : List Nat :=
  (List.range loops).map (fun l =>
    let below := prodNat ((List.range loops).map (fun j => if l < j then max 1 (t.factor.getD j 1) else 1))
    i / below % max 1 (t.factor.getD l 1))

/-- Whether member i runs anything of the map (R317). -/
def runsMap (t : TileDesc) (loops i : Nat) : Bool :=
  decide (i < prodNat ((List.range loops).map (fun l => max 1 (t.factor.getD l 1))))

/-- The range of loop l that share s covers (R316). -/
def shareRange (t : TileDesc) (l sh : Nat) : Nat × Nat :=
  let sp := shareSpan t l
  (sh * sp, min ((sh + 1) * sp) (t.extent.getD l 0))

/-- Starting values of the tiles of span sp in a range. -/
def tileStarts (lo hi sp : Nat) : List Nat :=
  (List.range (ceilDiv (hi - lo) (max 1 sp))).map (fun j => lo + j * max 1 sp)

/-- Every combination of one value per loop, in an order list whose later loops vary fastest. -/
def crossOrder (order : List Nat) (vals : List (List Nat)) (base : List Nat) : List (List Nat) :=
  match order with
  | [] => [base]
  | l :: rest => (vals.getD l []).flatMap (fun v => crossOrder rest vals (modAt base l (fun _ => v)))

/-- The loops of an order field, outermost first (R313). -/
def orderOf (o : List Nat) (loops : Nat) : List Nat := (o.take loops).filter (fun l => decide (l < loops))

/-- The L2 tiles of a member in sequence, each by the first value of every loop (R318). -/
def l2Tiles (m : MapEntry) (t : TileDesc) (member : Nat) : List (List Nat) :=
  if runsMap t m.loops member then
    let ds := shareDigits t m.loops member
    let vals := (List.range 6).map (fun l =>
      if l < m.loops then
        let r := shareRange t l (ds.getD l 0)
        tileStarts r.1 r.2 (t.t2.getD l 1)
      else [0])
    crossOrder (orderOf t.order2 m.loops) vals [0, 0, 0, 0, 0, 0]
  else []

/-- Upper end of loop l in an L2 tile: its span, the share and the declared extent bound it. -/
def l2End (t : TileDesc) (ds : List Nat) (start : List Nat) (l : Nat) : Nat :=
  min (start.getD l 0 + t.t2.getD l 1) (shareRange t l (ds.getD l 0)).2

/-- The L1 tiles of an L2 tile in sequence, by the first value of every loop. -/
def l1Tiles (m : MapEntry) (t : TileDesc) (member : Nat) (start : List Nat) : List (List Nat) :=
  let ds := shareDigits t m.loops member
  let vals := (List.range 6).map (fun l =>
    if l < m.loops then tileStarts (start.getD l 0) (l2End t ds start l) (t.t1.getD l 1) else [0])
  crossOrder (orderOf t.order1 m.loops) vals [0, 0, 0, 0, 0, 0]

/-- The values of loop l in an L1 tile of an L2 tile. -/
def l1Values (m : MapEntry) (t : TileDesc) (member : Nat) (start2 start1 : List Nat) (l : Nat) : List Nat :=
  if l < m.loops then
    let ds := shareDigits t m.loops member
    let hi := min (start1.getD l 0 + t.t1.getD l 1) (l2End t ds start2 l)
    (List.range (hi - start1.getD l 0)).map (fun j => start1.getD l 0 + j)
  else [0]

/-- The combinations of values of some loops in an L1 tile, flattened in ORDER1 order (R312). -/
def flatten (m : MapEntry) (t : TileDesc) (member : Nat) (start2 start1 : List Nat) (ls : List Nat) : List (List Nat) :=
  let vals := (List.range 6).map (l1Values m t member start2 start1)
  crossOrder ((orderOf t.order1 m.loops).filter (fun l => ls.contains l)) vals [0, 0, 0, 0, 0, 0]

/-- Put together the loop values of two disjoint sets of loops. -/
def addIdx (a b : List Nat) : List Nat := (List.range 6).map (fun l => a.getD l 0 + b.getD l 0)

/-- Whether every loop value lies below its run extent (R323). -/
def activeIdx (exts : List Nat) (m : MapEntry) (i : List Nat) (ls : List Nat) : Bool :=
  ls.all (fun l => decide (l < m.loops → i.getD l 0 < exts.getD l 0))

/-- Whether a tile lies wholly beyond some loop's run extent and is skipped (R324). -/
def tileSkipped (exts : List Nat) (m : MapEntry) (start : List Nat) : Bool :=
  (List.range m.loops).any (fun l => decide (exts.getD l 0 ≤ start.getD l 0))

/-- Part count of a split map (R319). -/
def partCount (m : MapEntry) (t : TileDesc) : Nat :=
  prodNat ((m.loopsOf 3).map (fun l => max 1 (t.factor.getD l 1)))

/-- Part index of a member: its RED share indices in mixed radix (R319). -/
def partIndex (m : MapEntry) (t : TileDesc) (member : Nat) : Nat :=
  let ds := shareDigits t m.loops member
  (m.loopsOf 3).foldl (fun acc l => acc * max 1 (t.factor.getD l 1) + ds.getD l 0) 0

/-- The member with the same non-RED share indices and part p (R319). -/
def memberOfPart (m : MapEntry) (t : TileDesc) (member p : Nat) : Nat :=
  let ds := shareDigits t m.loops member
  let reds := m.loopsOf 3
  let digit := fun l =>
    if reds.contains l then
      let below := prodNat ((reds.filter (fun j => decide (l < j))).map (fun j => max 1 (t.factor.getD j 1)))
      p / below % max 1 (t.factor.getD l 1)
    else ds.getD l 0
  (List.range m.loops).foldl (fun acc l => acc * max 1 (t.factor.getD l 1) + digit l) 0

/-- The non-RED coordinates of a tile: the key of its output tile. -/
def outTileKey (m : MapEntry) (start : List Nat) : List Nat :=
  (List.range 6).map (fun l => if m.cls l = 3 then 0 else start.getD l 0)

end Sys2Proof.Machine
end

