-- ==== Sys2Proof/Machine/Repair.lean ====
section
/-!
DEFINITION. Sys2Proof/Machine/Repair.lean: row-shift repair and the logical map as functions of the live ledger (R29 to R48, R597 to R602,
R674), and the on-wafer routes (R44 to R47, R441, R603).
-/

namespace Sys2Proof.Machine

/-- Physical index of P(x,y). -/
def physIdx (x y : Nat) : Nat := y * 35 + x

/-- Word 0 of a PATH entry with bit 7 zero (R633). -/
def pathKey (path rim port x y : Nat) : Nat := 3 + path * 16 + rim * 256 + port * 1024 + x * 65536 + y * 16777216

/-- KIND, PATH, position of a ledger entry (R633). -/
def entryKind (w : Nat) : Nat := bits w 3 0
def entryPath (w : Nat) : Nat := bits w 6 4
def entryX (w : Nat) : Nat := bits w 23 16
def entryY (w : Nat) : Nat := bits w 31 24
def entryPhys (w : Nat) : Nat := physIdx (entryX w) (entryY w)
/-- Word 0 with SOURCE taken as zero. -/
def entryKey (w : Nat) : Nat := if bit w 7 then w - 128 else w

/-- The stored ledger holds an entry of a kind for a cluster. -/
def hasEntry (l : Live) (kind q : Nat) : Bool :=
  l.stored.any (fun e => entryKind e.word0 = kind && entryPhys e.word0 = q)

/-- The router counts as not good (R46, R597). -/
def routerBlocked (l : Live) (q : Nat) : Bool := !(l.routerGood.contains q) || hasEntry l 2 q

/-- The cluster counts as marked defective (R597). -/
def markedDefective (l : Live) (q : Nat) : Bool :=
  routerBlocked l q || !(l.computeGood.contains q) || hasEntry l 1 q

/-- The shift point of the field row of field column c at row y (R35). -/
def shiftPoint (l : Live) (c y : Nat) : Nat :=
  ((List.range 5).find? (fun i => markedDefective l (physIdx (5 * c + i) y))).getD 4

/-- Physical column within its field that slot k occupies (R36). -/
def slotColumn (l : Live) (c y k : Nat) : Nat := if k < shiftPoint l c y then k else k + 1

/-- Physical x of the logical position C(x,y). -/
def physX (l : Live) (x y : Nat) : Nat := 5 * (x / 4) + slotColumn l (x / 4) y (x % 4)

/-- The logical x of a physical position, or none at the shift column (R38, R39). -/
def logicalX (l : Live) (px y : Nat) : Option Nat :=
  let c := px / 5
  let i := px % 5
  let sp := shiftPoint l c y
  if i < sp then some (4 * c + i) else if i > sp then some (4 * c + i - 1) else none

/-- STATE of a record: 0 USABLE, 1 HOLE_TRANSIT, 2 HOLE_BLOCKED (R37, R45, R46, R56). -/
def recordState (l : Live) (x y : Nat) : Nat :=
  let q := physIdx (physX l x y) y
  if markedDefective l q then (if routerBlocked l q then 2 else 1) else 0

/-- STATE by logical index. -/
def stateOf (l : Live) (k : Nat) : Nat := recordState l (k % 28) (k / 28)

/-- A path is good: GOOD in step 5 and not recorded defective (R602, R614). -/
def pathGood (l : Live) (key : Nat) : Bool :=
  l.pathGood.contains key && !(l.stored.any (fun e => entryKey e.word0 = key))

/-- Path of the link from C(x,y) to C(x+1,y) (R674). -/
def eastPath (l : Live) (x y : Nat) : Nat :=
  let a := physX l x y
  let b := physX l (x + 1) y
  let inField := x % 4 ≠ 3
  let path := if b = a + 1 then 0 else if inField then 4 else if b = a + 2 then 6 else 7
  pathKey path 0 0 a y

/-- Path of the link from C(x,y) to C(x,y+1) (R601, R674). -/
def southPath (l : Live) (x y : Nat) : Nat :=
  let a := physX l x y
  let b := physX l x (y + 1)
  pathKey (if b = a then 1 else if b < a then 2 else 3) 0 0 a y

/-- Path of a boundary edge toward a rim: 0 North, 1 South, 2 East, 3 West (R633, R674). -/
def rimPath (l : Live) (rim x y : Nat) : Nat :=
  let a := physX l x y
  let port := if rim ≤ 1 ∧ a % 5 ≠ x % 4 then 1 else 0
  pathKey 5 rim port a y

/-- Link class of an inner edge: NONE, MESH or WEIR (R42, R57, R58, R602). -/
def innerClass (seam good : Bool) (st1 st2 : Nat) : Nat :=
  if st1 = 2 ∨ st2 = 2 ∨ !good then 0 else if seam then 2 else 1

/-- The class of the east link of C(x,y), for x < 27. -/
def eastClass (l : Live) (x y : Nat) : Nat :=
  innerClass (x % 4 = 3) (pathGood l (eastPath l x y)) (recordState l x y) (recordState l (x + 1) y)

/-- The class of the south link of C(x,y), for y < 59. -/
def southClass (l : Live) (x y : Nat) : Nat :=
  innerClass (y % 6 = 5) (pathGood l (southPath l x y)) (recordState l x y) (recordState l x (y + 1))

/-- The class of a boundary edge (R58). -/
def rimClass (l : Live) (rim x y : Nat) : Nat :=
  if recordState l x y = 2 || !(pathGood l (rimPath l rim x y)) then 0 else 3

/-- The four edge bytes N, E, S, W of a record (R56, R57). -/
def edgeBytes (l : Live) (x y : Nat) : List Nat :=
  [ if y = 0 then rimClass l 0 x y else southClass l x (y - 1),
    if x = 27 then rimClass l 2 x y else eastClass l x y,
    if y = 59 then rimClass l 1 x y else southClass l x y,
    if x = 0 then rimClass l 3 x y else eastClass l (x - 1) y ]

/-! ## Routes (R44 to R47, R441) -/

/-- What lies beyond link d (0 N, 1 E, 2 S, 3 W) of a logical position: a position, or rim r as 1680 + r (R41). -/
def beyond (k d : Nat) : Nat :=
  match d with
  | 0 => if k < 28 then 1680 else k - 28
  | 1 => if k % 28 = 27 then 1682 else k + 1
  | 2 => if 1652 ≤ k then 1681 else k + 28
  | _ => if k % 28 = 0 then 1683 else k - 1

/-- The links of a position as its router carries traffic on them: their classes, 0 where the class is NONE or either end is fenced (R46,
R47, R441). -/
def openLinks (l : Live) (fenced : Nat → Bool) (k : Nat) : List Nat :=
  (List.range 4).map (fun d =>
    if fenced k || (decide (beyond k d < 1680) && fenced (beyond k d)) then 0 else (edgeBytes l (k % 28) (k / 28)).getD d 0)

/-- The positions beyond the open links of a position. -/
def linked (rs : Tab Router) (k : Nat) : List Nat :=
  ((List.range 4).filter (fun d => (tget {} rs k).links.getD d 0 ≠ 0 && decide (beyond k d < 1680))).map (beyond k)

/-- Give the routers beyond one position, where they have no route yet, their route to the position that the flood began at: toward the
position they were met from. -/
def routeFrom (root : Nat) (rs : Tab Router × List Nat) (k : Nat) : Tab Router × List Nat :=
  (linked rs.1 k).foldl (fun acc n =>
    if (tget {} acc.1 n).reach = 0 then (tset {} acc.1 n { tget {} acc.1 n with reach := root + 1, hop := some k }, acc.2 ++ [n])
    else acc) rs

/-- The flood from a frontier. -/
def routeAll (root : Nat) : Nat → Tab Router → List Nat → Tab Router
  | 0, rs, _ => rs
  | _, rs, [] => rs
  | n + 1, rs, front =>
    let next := front.foldl (routeFrom root) (rs, [])
    routeAll root n next.1 next.2

/-- The routes from the topology table: every position reaches the lowest one that open links join it to, around holes, fenced parts and
failed links (R44). Which of the shortest ways a route takes is the model's choice (log 114). -/
def routesOf (l : Live) (fenced : Nat → Bool) : Tab Router :=
  let bare := (List.range 1680).map (fun k => (k, ({ links := openLinks l fenced k } : Router)))
  (List.range 1680).foldl (fun rs k =>
    if (tget {} rs k).reach = 0 then routeAll k 1680 (tset {} rs k { tget {} rs k with reach := k + 1 }) [k] else rs) bare

/-- The positions on a rim's edge, with the link that leads to it (R41). -/
def rimEdge (r : Nat) : List (Nat × Nat) :=
  match r with
  | 0 => (List.range 28).map (fun x => (x, 0))
  | 1 => (List.range 28).map (fun x => (1652 + x, 2))
  | 2 => (List.range 60).map (fun y => (28 * y + 27, 1))
  | _ => (List.range 60).map (fun y => (28 * y, 3))

/-- Routes join two positions; before any route is written nothing is cut off. -/
def joined (rs : Tab Router) (a b : Nat) : Bool := decide ((tget {} rs a).reach = (tget {} rs b).reach)

/-- Routes join a rim and a position, over an open RIM link (R41, R58). -/
def rimJoined (rs : Tab Router) (r k : Nat) : Bool :=
  rs.isEmpty || (rimEdge r).any (fun e => (tget {} rs e.1).links.getD e.2 0 ≠ 0 && joined rs e.1 k)

/-- Routes join two rims through the core (R477). -/
def rimsJoined (rs : Tab Router) (a b : Nat) : Bool :=
  rs.isEmpty || (rimEdge a).any (fun e => (tget {} rs e.1).links.getD e.2 0 ≠ 0 && rimJoined rs b e.1)

end Sys2Proof.Machine
end

