-- ==== Sys2Proof/Machine/Ops.lean ====
section
/-!
DEFINITION. Sys2Proof/Machine/Ops.lean: the named operations over the state that the commands share: access to tenants, clusters,
fields, links and ports; notices (R368 to R377); MSI-X and alerts (R517, R518, R396); the completion of a clause and the halt of its
ring (R290 to R292, R407 to R415).
-/

namespace Sys2Proof.Machine

/-- The outcome of a command of the block. -/
abbrev Res := Host.Outcome State Fault Refusal

/-! ## Access -/

/-- Tenant t before anything has happened to it: tenant 0 is enabled from cold boot (R398). -/
def tenantDef (t : Nat) : Tenant := { enabled := decide (t = 0) }

/-- What the mirror holds of a tenant (R388). -/
def Tenant.durable (x : Tenant) : Durable where
  enabled := x.enabled
  settings := { enable := x.enabled, bl := x.bl, wakeMask := x.wakeMask, idleDormant := x.idleDormant, timeout := x.timeout,
                granuleFirst := x.granuleFirst, granuleCount := x.granuleCount, hostPort := x.hostPort }
  bound := x.bound
  plan := x.plan
  counters := x.counters
  expected := x.expected
  ringSet := x.ringSet
  noticeBase := x.noticeBase
  alerts := x.alerts
  tail := x.tail
  tailPhase := x.tailPhase

/-- The mirror write that goes with a change of a tenant, when there is a standby (R388). -/
def Mirror.write (m : Mirror) (standby : Bool) (t : Nat) (x : Tenant) : Mirror :=
  if standby then { m with tenants := tset (tenantDef t).durable m.tenants t x.durable } else m

def State.tenant (s : State) (t : Nat) : Tenant := tget (tenantDef t) s.tenants t
def State.setTenant (s : State) (t : Nat) (x : Tenant) : State :=
  { s with tenants := tset (tenantDef t) s.tenants t x, mirror := s.mirror.write (!s.sys.noStandby) t x }
def State.modTenant (s : State) (t : Nat) (f : Tenant → Tenant) : State := s.setTenant t (f (s.tenant t))

def State.cluster (s : State) (k : Nat) : Cluster := tget {} s.clusters k
def State.setCluster (s : State) (k : Nat) (x : Cluster) : State := { s with clusters := tset {} s.clusters k x }
def State.modCluster (s : State) (k : Nat) (f : Cluster → Cluster) : State := s.setCluster k (f (s.cluster k))

def State.field (s : State) (i : Nat) : Field := tget {} s.fields i
def State.setField (s : State) (i : Nat) (x : Field) : State := { s with fields := tset {} s.fields i x }
def State.modField (s : State) (i : Nat) (f : Field → Field) : State := s.setField i (f (s.field i))

def State.rim (s : State) (i : Nat) : Rim := tget {} s.rims i
def State.setRim (s : State) (i : Nat) (x : Rim) : State := { s with rims := tset {} s.rims i x }

def State.channel (s : State) (i : Nat) : Channel := tget {} s.channels i
def State.setChannel (s : State) (i : Nat) (x : Channel) : State := { s with channels := tset {} s.channels i x }

def State.port (s : State) (i : Nat) : Port := tget {} s.ports i
def State.setPort (s : State) (i : Nat) (x : Port) : State := { s with ports := tset {} s.ports i x }

def State.link (s : State) (i : Nat) : Link := tget {} s.fabric.links i
def State.setLink (s : State) (i : Nat) (x : Link) : State :=
  { s with fabric := { s.fabric with links := tset {} s.fabric.links i x } }

def State.tap (s : State) (i : Nat) : Tap := tget {} s.taps i
def State.setTap (s : State) (i : Nat) (x : Tap) : State := { s with taps := tset {} s.taps i x }

def State.session (s : State) (i : Nat) : Session := tget {} s.work.sessions i
/-- Change the sessions, and their mirror (R388). -/
def State.setSessions (s : State) (xs : Tab Session) : State :=
  { s with
    work := { s.work with sessions := xs }
    mirror := if s.sys.noStandby then s.mirror else { s.mirror with sessions := xs } }

/-- Send something outside. -/
def State.emit (s : State) (o : Output) : State := { s with out := o :: s.out }

/-- The engine runs its firmware: the wafer is powered, STATE is READY and a Pumphouse runs. -/
def ready (s : State) : Bool :=
  s.casing.powered && s.sys.state = 1 && !s.casing.hold && !s.sys.pumphouseDead

/-- The wafer is powered: registers can be read and written. -/
def poweredUp (s : State) : Bool := s.casing.powered

/-- Field index of a logical cluster (R15, R31). -/
def fieldOfLogical (k : Nat) : Nat := (k % 28) / 4 + 7 * (k / 28 / 6)

/-- The position is a hole in the live topology table (R45, R46). -/
def isHole (s : State) (k : Nat) : Bool := s.silicon.live.mapped && decide (stateOf s.silicon.live k ≠ 0)

/-- The cluster is fenced: its field is, or it is a hole (R46, R441). -/
def clusterFenced (s : State) (k : Nat) : Bool := (s.field (fieldOfLogical k)).fenced || isHole s k

/-- Write the on-wafer routes, and into the physical clusters their logical coordinates, from the topology table: at step 8 and when a
field is fenced or its fence is lifted (R44, R51, R433, R441, R603). A HOLE_TRANSIT position outside a fenced field still forwards (R45). -/
def writeRoutes (s : State) : State :=
  let l := s.silicon.live
  if l.mapped then { s with silicon := { s.silicon with routers := routesOf l (fun k => (s.field (fieldOfLogical k)).fenced) } } else s

/-! ## Notices -/

/-- A tenant's port can be written: its link is up, Bus Master is enabled, and it is not in D3hot (R508). -/
def portWritable (p : Port) : Bool := p.linkUp && p.busMaster && !p.d3hot

/-- A notice of the tenant can be written now (R371, R508). -/
def noticeRoom (s : State) (t : Nat) : Bool :=
  let x := s.tenant t
  x.ringSet && x.bound && portWritable (s.port x.hostPort) && decide (x.ringUsed < 4096)

/-- Host memory key of a bus address behind a port. -/
def hostKey (p a : Nat) : Nat := p * 2 ^ 64 + a % 2 ^ 64

/-- A TAP has taken the rim's I/O from the engine, which then loses the rim's DDR, host and fabric traffic (R630). -/
def rimTaken (s : State) (r : Nat) : Bool := (s.tap r).drives || (s.tap r).floats

/-- Write bytes to host memory behind a port; a posted write is lost on pins that a TAP has taken (R516, R630). -/
def hostWrite (s : State) (p a : Nat) (bs : List Byte) : State :=
  if rimTaken s p then s else { s with mem := { s.mem with host := writeBytes 0 s.mem.host (hostKey p a) bs } }

/-- Write one 32-byte notice at TAIL with the tail's phase, advance TAIL, and invert TAIL_PHASE at the wrap (R369, R370). -/
def writeNotice (s : State) (t : Nat) (body : List Byte) : State :=
  let x := s.tenant t
  let bs := BitVec.ofNat 8 (b2n x.tailPhase) :: (padTo 32 body).drop 1
  let s := hostWrite s x.hostPort (x.noticeBase.toNat + 32 * x.tail) bs
  s.setTenant t { x with
    tail := (x.tail + 1) % 4096
    tailPhase := if x.tail = 4095 then !x.tailPhase else x.tailPhase
    ringUsed := x.ringUsed + 1 }

/-- An EVENT notice: KIND and up to three further bytes fields (R377). -/
def eventNotice (kind at6 at8 : Nat) : List Byte :=
  padTo 32 ([0, 4, 0, 0, BitVec.ofNat 8 kind, 0] ++ leBytes 2 at6 ++ leBytes 1 at8)

/-! ## MSI-X vectors -/

/-- Default of an MSI-X table byte: vector control bit 0, the mask, is set (PRESUMED from PCIe, log 4). -/
def msixDefault (off : Nat) : Byte := if off % 16 = 12 then 1 else 0

/-- A byte of the port's MSI-X table. -/
def msixByte (p : Port) (off : Nat) : Byte := tget (msixDefault off) p.msixTable off

/-- A vector is masked. -/
def msixMasked (p : Port) (v : Nat) : Bool := bit (msixByte p (16 * v + 12)).toNat 0

/-- Send vector v on port p, or set its pending bit while it is masked or the port cannot write (R508, R518); nothing when MSI-X is
not enabled. -/
def sendMsix (s : State) (p v : Nat) : State :=
  let x := s.port p
  if !x.msixEnable then s
  else if msixMasked x v || !portWritable x then
    s.setPort p { x with msixPending := if x.msixPending.contains v then x.msixPending else x.msixPending ++ [v] }
  else if rimTaken s p then s
  else s.emit (.msix p v)

/-! ## Writing what is held -/

/-- One notice has been written: a halt alert that waited for it alone goes out (R415, R508). -/
def releaseAlerts (s : State) (t : Nat) : State :=
  let x := s.tenant t
  let due := x.owedAlerts.map (fun n => n - 1)
  let s := s.setTenant t { x with owedAlerts := due.filter (fun n => n ≠ 0) }
  (due.filter (fun n => n = 0)).foldl (fun s _ => sendMsix s x.hostPort (1 + t)) s

/-- Write held notices while there is room, then the NOTICES_LOST event that is owed; each halt alert follows its notice (R372, R415). -/
def flushHeld (s : State) (t : Nat) : Nat → State
  | 0 => s
  | n + 1 =>
    let x := s.tenant t
    if noticeRoom s t then
      match x.heldNotices with
      | b :: rest => flushHeld (releaseAlerts (writeNotice (s.setTenant t { x with heldNotices := rest }) t b) t) t n
      | [] =>
        if x.lostOwed then releaseAlerts (writeNotice (s.setTenant t { x with lostOwed := false }) t (eventNotice 2 x.lostCount 0)) t
        else s
    else s

/-- Write the QUERY results that are held, ahead of their replies, once the port can write (R366, R508). -/
def flushResults (s : State) (t : Nat) : State :=
  let x := s.tenant t
  if x.bound && portWritable (s.port x.hostPort) && !x.heldResults.isEmpty then
    x.heldResults.foldl (fun s r => hostWrite s x.hostPort r.1 r.2) (s.setTenant t { x with heldResults := [] })
  else s

/-- Post a notice: write it, or hold it behind at most 63 others, or lose it (R372). -/
def postNotice (s : State) (t : Nat) (body : List Byte) : State :=
  let x := s.tenant t
  if noticeRoom s t && x.heldNotices.isEmpty && !x.lostOwed then writeNotice s t body
  else if x.heldNotices.length < 64 then s.setTenant t { x with heldNotices := x.heldNotices ++ [body] }
  else s.setTenant t { x with
    lostCount := satInc 0xFFFF x.lostCount, noticeLost := true, lostOwed := true }

/-- A REPLY notice (R374). -/
def replyNotice (seq status type reason index result cookie : Nat) : List Byte :=
  [0, 2] ++ leBytes 2 seq ++ leBytes 1 status ++ leBytes 1 type ++ leBytes 2 reason ++ leBytes 4 index ++ leBytes 4 result
    ++ leBytes 8 cookie ++ zeros 8

/-- A MESSAGE notice (R376). -/
def messageNotice (seq kind type expected : Nat) : List Byte :=
  padTo 32 ([0, 3] ++ leBytes 2 seq ++ leBytes 1 kind ++ leBytes 1 type ++ leBytes 2 expected)

/-- REPLY codes of R375. -/
def rBusy : Nat := 0x0201
def rNotAdmin : Nat := 0x0202
def rBadMessage : Nat := 0x0203
def rShortBuffer : Nat := 0x0204
def rNoSession : Nat := 0x0205
def rBadAddress : Nat := 0x0206

/-- Take a message off the list of unanswered ones. -/
def answered (s : State) (t seq type : Nat) : State :=
  s.modTenant t (fun x => { x with unanswered := x.unanswered.erase (seq, type) })

/-- Post a REPLY and take its message off the unanswered ones (R361). -/
def reply (s : State) (t seq type status reason index result cookie : Nat) : State :=
  answered (postNotice s t (replyNotice seq status type reason index result cookie)) t seq type

/-- REPLY with STATUS OK. -/
def replyOk (s : State) (t seq type : Nat) : State := reply s t seq type 0 0 0 0 0

/-- REPLY with STATUS REJECTED. -/
def replyRejected (s : State) (t seq type reason : Nat) : State := reply s t seq type 1 reason 0 0 0

/-- A clause notice (R291). -/
def clauseNotice (f : Flight) (v : Verdict) : List Byte :=
  let flags := f.prio + 4 * b2n f.sat + 8 * b2n f.inexact + 16 * b2n f.clip
  [0, 1] ++ leBytes 2 f.tag ++ leBytes 1 v.status ++ leBytes 1 flags ++ leBytes 2 v.reason ++ leBytes 1 v.cause
    ++ leBytes 1 (cVerb f.words) ++ zeros 2 ++ leBytes 4 v.l2Tile ++ leBytes 4 v.element
    ++ leBytes 4 (min 0xFFFFFFFF f.skipped) ++ leBytes 4 (min 0xFFFFFFFF f.issued) ++ zeros 4

/-! ## Alerts -/

/-- A vector 0 alert on every port (R506, R517). -/
def sendAlert0 (s : State) : State := (List.range 4).foldl (fun s p => sendMsix s p 0) s

/-- Alert bits of ALERT_STATUS (R396). -/
def alFailover : BitVec 5 := 1
def alNoStandby : BitVec 5 := 2
def alFieldShutdown : BitVec 5 := 4
def alFabric : BitVec 5 := 8
def alStopped : BitVec 5 := 16

/-- Set ALERT_STATUS bits; an alert is sent when an enabled bit is newly set (R396, R517). -/
def raiseAlert (s : State) (bs : BitVec 5) : State :=
  let fresh := bs &&& ~~~ s.sys.alertStatus
  let s := { s with sys := { s.sys with alertStatus := s.sys.alertStatus ||| bs } }
  if fresh &&& s.sys.alertEnable ≠ 0 then sendAlert0 s else s

/-- How many notices of a tenant are still to be written: those held, and the NOTICES_LOST event (R372). -/
def noticesOwed (x : Tenant) : Nat := x.heldNotices.length + b2n x.lostOwed

/-- The halt alert of tenant t on its port (R415, R517): at once when its notice is written, after it when that is held, or after the
NOTICES_LOST event when it is lost (R508, log 111). -/
def haltAlert (s : State) (t : Nat) : State :=
  let x := s.tenant t
  if !x.alerts then s
  else if noticesOwed x = 0 && x.bound then sendMsix s x.hostPort (1 + t)
  else s.setTenant t { x with owedAlerts := x.owedAlerts ++ [max 1 (noticesOwed x)] }

/-- Step the counter of the free values. -/
def State.stepFree (s : State) (n : Nat) : State := { s with freeCtr := s.freeCtr + n }

/-! ## Clauses in flight -/

/-- The clause in flight with a uid. -/
def flightOf (s : State) (uid : Nat) : Option Flight := s.work.flights.find? (fun f => f.uid = uid)

/-- The clause of a tenant in flight with a tag. -/
def flightTag (s : State) (t tag : Nat) : Option Flight :=
  s.work.flights.find? (fun f => f.tenant = t ∧ f.tag = tag)

def setFlights (s : State) (fs : List Flight) : State := { s with work := { s.work with flights := fs } }

/-- Change a clause in flight. -/
def modFlight (s : State) (uid : Nat) (g : Flight → Flight) : State :=
  setFlights s (s.work.flights.map (fun f => if f.uid = uid then g f else f))

/-- Clauses of a tenant in flight. -/
def tenantFlights (s : State) (t : Nat) : List Flight := s.work.flights.filter (fun f => f.tenant = t)

/-- Free what a clause holds in a cluster: its slot, its ownership, its array run and its halves; the accumulator state goes unless it
is held (R183, R268). -/
def clusterRelease (uid : Nat) (c : Cluster) : Cluster :=
  let mine := decide (c.owner = some uid)
  let runs := mine || c.run.any (fun r => r.uid = uid)
  { c with
    slots := c.slots.filter (fun sl => sl.uid ≠ uid)
    saved := c.saved.filter (fun e => e.uid ≠ uid ∨ e.held.isSome)
    outbound := c.outbound.filter (fun e => e.uid ≠ uid)
    merging := c.merging.filter (fun e => e.uid ≠ uid)
    merged := if mine then [] else c.merged
    owner := if mine && c.held.isNone then none else c.owner
    unit := if mine && c.held.isNone then {} else c.unit
    run := if runs then none else c.run
    queues := if mine then [] else c.queues
    rankPending := if mine then [] else c.rankPending
    settled := if mine then [] else c.settled
    forming := if mine then [] else c.forming
    outHalf := c.outHalf.filter (fun e => e.uid ≠ uid)
    landed := c.landed.filter (fun e => e.uid ≠ uid)
    drainDone := if mine then false else c.drainDone }

/-- Free a clause's slots in every cluster. -/
def releaseClusters (s : State) (uid : Nat) : State :=
  s.clusters.foldl (fun s e =>
    if e.2.slots.any (fun sl => sl.uid = uid) || e.2.owner = some uid || e.2.run.any (fun r => r.uid = uid) || e.2.saved.any (fun v => v.uid = uid)
        || e.2.outbound.any (fun v => v.uid = uid) || e.2.merging.any (fun v => v.uid = uid)
        || e.2.landed.any (fun v => v.uid = uid) || e.2.outHalf.any (fun v => v.uid = uid) then
      s.setCluster e.1 { clusterRelease uid e.2 with idleSince := s.nowUs }
    else s) s

/-- Take a clause out of flight and drop its outstanding requests (R292, R436). -/
def removeFlight (s : State) (uid : Nat) : State :=
  let s := releaseClusters s uid
  { s with work := { s.work with
      flights := s.work.flights.filter (fun f => f.uid ≠ uid)
      outstanding := s.work.outstanding.filter (fun o => o.uid ≠ uid)
      landed := s.work.landed.filter (fun e => e.1 ≠ uid)
      touches := s.work.touches.filter (fun e => e.who ≠ .clause uid) } }

/-! ## Bytes that two accesses touch without an order (R235, R511, R513) -/

/-- SEQ of a message's words (R359). -/
def mSeq (m : List Word) : Nat := bits (word m 15) 31 16

/-- Bytes of a bit range: first address and count. -/
def rangeBytes (r : Nat × Nat) : Nat × Nat := (r.1 / 8, ceilDiv (r.1 % 8 + r.2) 8)

/-- A touch covers a byte. -/
def Touch.covers (t : Touch) (g : Nat) : Bool := t.bytes.any (fun b => decide (b.1 ≤ g ∧ g < b.1 + b.2))

/-- SEQs of the clauses that a tenant has posted and that have not completed: in flight, in its rings, copied out, in its request ring. -/
def postedClauses (s : State) (t : Nat) : List Nat :=
  let x := s.tenant t
  let clauses := fun (ms : List (List Word)) => (ms.filter (fun m => bits (word m 15) 7 0 = 1)).map mSeq
  (tenantFlights s t).map (fun f => mSeq f.words) ++ x.rings.flatMap (fun r => r.waiting.map mSeq)
    ++ clauses x.copied ++ clauses (x.requestRing.map (leWords 16))

/-- No rule orders a touch and an access of the same bytes, of which one writes. Clauses that R232, R233 or a SIGNAL and WAIT order are never
both in flight with a touch: the later one has not started while the earlier one is in flight. A clause comes after the host's accesses
that its message followed (R510), except a write with Relaxed Ordering that no read has flushed (R511); and of two host writes on one port
with no read between them, either may come first when one of them has Relaxed Ordering. -/
def unordered (s : State) (by' : Toucher) (write : Bool) (t : Touch) : Bool :=
  (write || t.write) &&
    (match by', t.who with
     | .clause u, .clause v => decide (u ≠ v)
     | .clause u, .host _ n relaxed fresh seqs =>
       (relaxed && fresh) || (match flightOf s u with
         | some f => decide (f.tenant = n) && seqs.contains (mSeq f.words)
         | none => false)
     | .host .., .clause _ => true
     | .host p _ r _ _, .host q _ r' fresh _ => write && t.write && fresh && decide (p = q) && (r || r'))

/-- The bytes of this wafer that an access shares with another one that no rule orders. -/
def racedBytes (s : State) (by' : Toucher) (write : Bool) (rs : List (Nat × Nat)) : List Nat :=
  let ts := s.work.touches.filter (unordered s by' write)
  if ts.isEmpty then []
  else ((rs.flatMap (fun r => (List.range (rangeBytes r).2).map (fun i => (rangeBytes r).1 + i))).dedup).filter (fun g =>
    decide (gWafer g = s.sys.waferNumber) && ts.any (fun t => t.covers g))

/-- Leave free values in bytes. -/
def leaveFree (s : State) (gs : List Nat) : State :=
  gs.foldl (fun s g => (putByte s g (Config.freeByte s.freeCtr)).stepFree 1) s

/-- Record an access. -/
def addTouch (s : State) (t : Touch) : State := { s with work := { s.work with touches := s.work.touches ++ [t] } }

/-- An access of a clause: the bytes that it shares with an unordered access hold free values, before it reads them and after it writes them,
and the access is recorded (R235, R513, log 116). -/
def race (s : State) (uid : Nat) (write : Bool) (rs : List (Nat × Nat)) : State :=
  addTouch (leaveFree s (racedBytes s (.clause uid) write rs)) { who := .clause uid, write := write, bytes := rs.map rangeBytes }

/-- Bit ranges of bit writes. -/
def writeRanges (ws : List (Nat × Nat × Nat)) : List (Nat × Nat) := ws.map (fun w => (w.1, w.2.1))

/-- A clause's write of bits: raced, but for the mask that a MASKLOAD writes, whose bytes a reader sees whole old or whole new (R164). -/
def raceWrite (s : State) (f : Flight) (ws : List (Nat × Nat × Nat)) : State :=
  if cVerb f.words = 0x11 then s else race s f.uid true (writeRanges ws)

/-- A record of the host is of no more use: it is flushed, and every clause that stood before it has completed. -/
def Touch.spent (t : Touch) : Bool :=
  match t.who with
  | .clause _ => false
  | .host _ _ _ fresh seqs => !fresh && seqs.isEmpty

/-- A BAR2 read has made every BAR2 write that reached its port visible (R511). -/
def flushTouches (p : Nat) (ts : List Touch) : List Touch :=
  (ts.map (fun t => match t.who with
    | .host q n r _ seqs => if p = q then { t with who := .host q n r false seqs } else t
    | .clause _ => t)).filter (fun t => !t.spent)

/-- An access of the host through aperture t on port p (R511, R513). -/
def raceHost (s : State) (p t : Nat) (relaxed write : Bool) (rs : List (Nat × Nat)) : State :=
  let who : Toucher := .host p t relaxed write (postedClauses s t)
  let s := leaveFree s (racedBytes s who write rs)
  let s := if write then s else { s with work := { s.work with touches := flushTouches p s.work.touches } }
  let touch : Touch := { who := who, write := write, bytes := rs.map rangeBytes }
  if touch.spent || rs.isEmpty then s else addTouch s touch

/-- A clause of a tenant has completed: what the host does from now on comes after it (R234, R513). -/
def forgetClause (s : State) (t seq : Nat) : State :=
  { s with work := { s.work with
      touches := (s.work.touches.map (fun e => match e.who with
        | .host p n r fresh seqs => if n = t then { e with who := .host p n r fresh (seqs.filter (· ≠ seq)) } else e
        | .clause _ => e)).filter (fun e => !e.spent) } }

/-- Steps 3 and 4 of a QUEUE_CLEAR: its rings become OPEN and its REPLY is written (R413). -/
def clearDone (s : State) (t : Nat) (c : Nat × Nat × List Nat) : State :=
  let s := s.modTenant t (fun x => { x with
    clears := x.clears.erase c
    halted := x.halted &&& ~~~ (BitVec.ofNat 4 c.2.1) })
  replyOk s t c.1 0x05

/-- Finish the QUEUE_CLEARs of a tenant whose clauses have all been cancelled (R413). -/
def finishClears (s : State) (t : Nat) : State :=
  (s.tenant t).clears.foldl (fun s c => if c.2.2.any (fun u => (flightOf s u).isSome) then s else clearDone s t c) s

/-- End one clause: free it and post its notice, which QUIET suppresses when STATUS is OK (R292); then the REPLY of a QUEUE_CLEAR that
waited for it (R413). -/
def endClause (s : State) (f : Flight) (v : Verdict) : State :=
  let s := forgetClause (removeFlight s f.uid) f.tenant (mSeq f.words)
  let s := if v.status = 0 && cQuiet f.words then s else postNotice s f.tenant (clauseNotice f v)
  finishClears s f.tenant

/-- Statuses of R290. -/
def stOk : Nat := 0
def stRejected : Nat := 1
def stFaulted : Nat := 2
def stCancelled : Nat := 3
def stAbsent : Nat := 4
def stTimeout : Nat := 5
def stFailover : Nat := 6

/-- A status that halts its ring (R407). -/
def halts (status : Nat) : Bool := status = 1 || status = 2 || status = 4 || status = 5

/-- Set HALTED of a class. -/
def setHalted (s : State) (t prio : Nat) : State :=
  s.modTenant t (fun x => { x with halted := x.halted ||| (1#4 <<< prio) })

/-- Cancel clauses one by one, in order. -/
def cancelAll (s : State) (fs : List Flight) : State :=
  fs.foldl (fun s f => endClause s f { status := stCancelled }) s

/-- R407, R410, R415: halt the ring, cancel its admitted clauses that have not started, in admission order, and alert. -/
def haltRing (s : State) (t prio : Nat) : State :=
  let was := bit (s.tenant t).halted.toNat prio
  let s := setHalted s t prio
  let s := cancelAll s ((s.work.flights.filter (fun f => f.tenant = t ∧ f.prio = prio ∧ ¬ f.started ∧ ¬ f.done)))
  if was then s else haltAlert s t

/-- Complete a clause: its notice, then the halt that its status causes (R234, R407). -/
def completeClause (s : State) (f : Flight) (v : Verdict) : State :=
  let s := endClause s f v
  if halts v.status then haltRing s f.tenant f.prio else s

/-- A fault while running (R430). -/
def faulted (code : Nat) : Verdict := { status := stFaulted, reason := code }

def fAccSat : Nat := 0x0301
def fSpillFull : Nat := 0x0302
def fSparseMeta : Nat := 0x0303
def fSparseIndex : Nat := 0x0304
def fSparseOrder : Nat := 0x0305
def fIndexRange : Nat := 0x0306
def fWaitTimeout : Nat := 0x0307
def fSaveSpace : Nat := 0x0308
def fRestoreBad : Nat := 0x0309
def fLutBad : Nat := 0x030A
def fCisternEcc : Nat := 0x030B
def fDdrEcc : Nat := 0x030C
def fDataPoison : Nat := 0x030D
def fAccessDenied : Nat := 0x030E

/-- The request timeout of a tenant in µs: 50 when zero (R360). -/
def requestTimeout (x : Tenant) : Nat := if x.timeout = 0 then 50 else x.timeout

/-- Total number of granules G (R523): present rims × 6 × module capacity. -/
def granules (s : State) : Nat :=
  sumNat ((List.range 4).map (fun r => if (s.rim r).online then 6 * (s.rim r).capacityGiB else 0))

/-- A byte range of DDR lies wholly in a range of granules. -/
def inRange (first count off len : Nat) : Bool :=
  decide (first * 2 ^ 30 ≤ off ∧ off + len ≤ (first + count) * 2 ^ 30)

/-- A byte range of DDR lies wholly in the tenant's granules (R401, R417, R532); while a TENANT_CONFIG is in progress, only in those that
it keeps (R534). -/
def inGranules (x : Tenant) (off len : Nat) : Bool :=
  inRange x.granuleFirst x.granuleCount off len &&
    (match x.configuring with
     | none => true
     | some (_, st) => inRange st.granuleFirst st.granuleCount off len)

/-- A DDR byte lies in one of the tenant's session state regions (R401). -/
def inSession (s : State) (t off len : Nat) : Bool :=
  s.work.sessions.any (fun e => e.2.openFlag && decide (e.2.tenant = t) &&
    decide (e.2.stateBase ≤ off ∧ off + len ≤ e.2.stateBase + e.2.stateSize))

/-- The regions of a tenant's plan. -/
def planRegions (s : State) (t : Nat) : List Region :=
  match (s.tenant t).plan with
  | some p => p.regions
  | none => []

/-- A cluster is a member of one of the tenant's regions. -/
def isMember (s : State) (t k : Nat) : Bool := (planRegions s t).any (fun r => r.members.contains k)

/-- What becomes of a tenant's access to a byte range of a global address: none when it is accepted, otherwise the NACK code, 0 ABSENT
or 1 DENIED (R401, R441, R481, R482). -/
def accessNack (s : State) (t g len : Nat) : Option Nat :=
  if gSpace g ≥ 2 ∨ (gSpace g = 1 ∧ gCluster g > 1679) then some 1
  else if gWafer g ≠ s.sys.waferNumber then
    if (tget {} s.fabric.routes (gWafer g)).state = 1 then none else some 0
  else if gSpace g = 0 then
    if inGranules (s.tenant t) (gOff g) len || inSession s t (gOff g) len then none else some 1
  else if clusterFenced s (gCluster g) then some 0
  else if isMember s t (gCluster g) && decide (gCisOff g + len ≤ planArea) then none else some 1

/-- Global number of the channel that holds a DDR offset (R524). -/
def channelOfOffset (s : State) (o : Nat) : Nat :=
  let present := (List.range 4).filter (fun r => (s.rim r).online)
  let rp := max 1 present.length
  let g := o / 2 ^ 30
  let ro := g / rp * 2 ^ 30 + o % 2 ^ 30
  6 * (present.getD (g % rp) 0) + ro / 256 % 6

/-- The rim of a DDR offset's channel, or the cluster that a global address of this wafer names, is joined to a cluster by routes; another
wafer is reached over any rim (R44, R47, R52). DDR behind pins that a TAP has taken is not reached (R630). -/
def reaches (s : State) (k g : Nat) : Bool :=
  let rs := s.silicon.routers
  if gWafer g ≠ s.sys.waferNumber then (List.range 4).any (fun r => rimJoined rs r k)
  else if gSpace g = 1 then joined rs k (gCluster g)
  else
    let r := channelOfOffset s (gOff g) / 6
    !rimTaken s r && rimJoined rs r k

/-- Routes join the running Pumphouse and a cluster. -/
def pumphouseReaches (s : State) (k : Nat) : Bool := rimJoined s.silicon.routers (b2n s.sys.primarySouth) k

/-- The verdict of a clause whose access met a NACK (R401, R441). -/
def nackVerdict (code : Nat) : Verdict :=
  if code = 0 then { status := stAbsent } else faulted fAccessDenied

end Sys2Proof.Machine
end

