-- ==== Sys2Proof/Machine/Topology.lean ====
section
/-!
DEFINITION. Sys2Proof/Machine/Topology.lean: the topology table (R54 to R59) and the ledger paths (R674).
-/

namespace Sys2Proof.Machine

/-- A logical position is USABLE in the live topology table. -/
def usable (s : State) (k : Nat) : Bool := s.silicon.live.mapped && stateOf s.silicon.live k = 0

/-- A record of the topology table (R56). -/
def topoRecord (s : State) (k : Nat) : List Byte :=
  let l := s.silicon.live
  let x := k % 28
  let y := k / 28
  let px := physX l x y
  let q := physIdx px y
  let st := recordState l x y
  let wear := b2n (s.silicon.wear.contains q)
  leBytes 1 (st + 4 * wear) ++ leBytes 1 px ++ leBytes 1 y ++ leBytes 1 (fieldOfLogical k)
    ++ (edgeBytes l x y).flatMap (leBytes 1)
    ++ leBytes 1 (if st = 0 then tget 0 l.fmax q else 0)
    ++ leBytes 1 (if st = 2 then 0 else tget 0 l.depth q) ++ zeros 6

/-- The number of USABLE positions. -/
def usableTotal (l : Live) : Nat := (List.range 1680).countP (fun k => stateOf l k = 0)

/-- The header without its CRC (R55). -/
def topoHeader (s : State) : List Byte :=
  let n := usableTotal s.silicon.live
  leBytes 4 0x30375756 ++ leBytes 2 1 ++ leBytes 2 1680 ++ leBytes 2 n ++ leBytes 2 (1680 - n)
    ++ leBytes 4 s.sys.generation ++ leBytes 4 s.sys.ledgerSequence ++ leBytes 1 s.sys.waferNumber ++ zeros 11
    ++ zeros 4 ++ zeros 28

/-- Put a CRC over all bytes into the four bytes at an offset, which are taken as zero. -/
def withCrc (bs : List Byte) (off : Nat) : List Byte :=
  bs.take off ++ leBytes 4 (crc32 bs).toNat ++ bs.drop (off + 4)

/-- The topology table, 26,944 bytes (R54). -/
def topologyTable (s : State) : List Byte :=
  withCrc (topoHeader s ++ (List.range 1680).flatMap (topoRecord s)) 0x20

/-- Ledger paths of R674 that exist at a cluster: PATH, RIM and PORT name a connection of P(x,y). -/
def pathExists (path rim port x y : Nat) : Bool :=
  let i := x % 5
  let c := x / 5
  match path with
  | 0 => decide (x < 34) && rim = 0 && port = 0
  | 1 => decide (y < 59) && rim = 0 && port = 0
  | 2 => decide (y < 59 ∧ 0 < i) && rim = 0 && port = 0
  | 3 => decide (y < 59 ∧ i < 4) && rim = 0 && port = 0
  | 4 => decide (i ≤ 2) && rim = 0 && port = 0
  | 5 =>
    if rim = 0 then decide (y = 0) && (if port = 0 then decide (i ≤ 3) else decide (0 < i))
    else if rim = 1 then decide (y = 59) && (if port = 0 then decide (i ≤ 3) else decide (0 < i))
    else if rim = 2 then decide (c = 6 ∧ 3 ≤ i) && port = 0
    else decide (c = 0 ∧ i ≤ 1) && port = 0
  | 6 => decide (c < 6 ∧ 3 ≤ i) && rim = 0 && port = 0
  | _ => decide (c < 6 ∧ i = 3) && rim = 0 && port = 0

end Sys2Proof.Machine
end

