-- ==== Sys2Proof/Machine/Avfs.lean ====
section
/-!
DEFINITION. Sys2Proof/Machine/Avfs.lean: the ceilings of a cluster (R559), the voltage of a step (R561), the field rail (R543), and the
step of a dormant or waking cluster (R551, R552).
-/

namespace Sys2Proof.Machine

/-- Physical index of a logical cluster. -/
def physOf (s : State) (k : Nat) : Nat := physIdx (physX s.silicon.live (k % 28) (k / 28)) (k / 28)

/-- FMAX_STEP of a logical cluster (R56). -/
def fmaxOf (s : State) (k : Nat) : Nat := tget 0 s.silicon.live.fmax (physOf s k)

/-- The lowest of a cluster's ceilings (R559). -/
def clusterCeiling (s : State) (k : Nat) : Nat :=
  min s.casing.policyCeiling (min (s.field (fieldOfLogical k)).ceiling (min s.casing.ilimitCeiling
    (min (s.cluster k).avfs.thermalCeiling (min s.casing.coolantCeiling (fmaxOf s k)))))

/-- The voltage for a step in mV: the one last settled at the nearest step from it up, or 900 mV (R561). -/
def stepVoltage (a : Avfs) (n : Nat) : Nat :=
  match a.settled.find? (fun e => decide (n ≤ e.1)) with
  | some e => e.2
  | none => 900

/-- The clusters of a field that are awake. -/
def awakeIn (s : State) (f : Nat) : List Nat :=
  ((List.range 1680).filter (fun k => decide (fieldOfLogical k = f))).filter (fun k => (s.cluster k).awake)

/-- The rail as R543 holds it: 30 mV above the highest voltage an awake cluster asks for, at least 600 mV. -/
def railFor (s : State) (f : Nat) : Nat :=
  max 600 (((awakeIn s f).map (fun k => max (s.cluster k).avfs.millivolts (s.cluster k).avfs.request + 30)).foldl max 0)

/-- Hold the rail of a field (R543). -/
def holdRail (s : State) (f : Nat) : State := s.modField f (fun x => { x with railMv := railFor s f })

/-- The step that a dormant cluster's router holds (R552). -/
def dormantStep (s : State) (k : Nat) : Nat := min (s.cluster k).avfs.sleepStep (clusterCeiling s k)

/-- AVFS of a cluster that goes dormant: 0.50 V in retention (R543, R552). -/
def sleepAvfs (a : Avfs) : Avfs := { a with sleepStep := a.step, millivolts := 500, request := 0 }

/-- AVFS of a cluster that wakes at a step (R551, R552). -/
def wakeAvfs (a : Avfs) (n : Nat) : Avfs := { a with step := n, millivolts := stepVoltage a n, request := 0 }

end Sys2Proof.Machine
end

