-- ==== Sys2Proof/Machine/Jobs.lean ====
section
/-!
DEFINITION. Sys2Proof/Machine/Jobs.lean: a clause on one of its clusters: its nouns, its sequence of tiles (R311, R312, R318, R324), its output
tiles (R80), and its ranking groups (R199, R226).
-/

namespace Sys2Proof.Machine

/-! ## A clause on a cluster -/

/-- A clause with what the plan gives it, and the member that runs it. -/
structure Job where
  f : Flight
  plan : Plan
  map : MapEntry
  tile : TileDesc
  region : Region
  member : Nat
  k : Nat
deriving DecidableEq, Repr

/-- A clause on member cluster k. -/
def jobFor (s : State) (f : Flight) (k : Nat) : Option Job :=
  match (s.tenant f.tenant).plan with
  | none => none
  | some p =>
    let c := f.words
    let r := p.region (cRegion c)
    match r.members.idxOf? k with
    | none => none
    | some i => some { f := f, plan := p, map := p.map (cMap c), tile := p.tile (cMap c), region := r, member := i, k := k }

/-- The clause of a uid on cluster k. -/
def jobOf (s : State) (k uid : Nat) : Option Job :=
  match flightOf s uid with
  | none => none
  | some f => jobFor s f k

def Job.c (j : Job) : Clause := j.f.words
def Job.session (j : Job) : Nat := cSession j.c
def Job.out (j : Job) : Noun := j.plan.noun (cOut j.c)
def Job.a (j : Job) : Noun := j.plan.noun (cA j.c)
def Job.b (j : Job) : Noun := j.plan.noun (cB j.c)
def Job.x (j : Job) : Noun := j.plan.noun (cX j.c)

/-- The base address of a noun for the job. -/
def Job.base (j : Job) (s : State) (n : Noun) : Nat := nounBase s n j.k j.session

/-- One element of a noun for the job. -/
def Job.elem (j : Job) (s : State) (n : Noun) (idx : List Int) : Elem := readElem s j.plan j.k j.session n idx

/-- A tile in the member's sequence: L2 index, L1 index, first values of the L2 tile and of the L1 tile. -/
structure Tile where
  l2 : Nat
  l1 : Nat
  st2 : List Nat
  st1 : List Nat
deriving DecidableEq, Repr, Inhabited

/-- The L1 tiles of one L2 tile that are not skipped (R318, R324). -/
def l1Seq (j : Job) (l2 : Nat) (st2 : List Nat) : List Tile :=
  ((l1Tiles j.map j.tile j.member st2).zipIdx.filter (fun e => !tileSkipped j.f.extents j.map e.1)).map
    (fun e => { l2 := l2, l1 := e.2, st2 := st2, st1 := e.1 })

/-- The member's L1 tiles in sequence, the skipped ones left out; the L2 index counts them (R318, R324). -/
def tileSeq (j : Job) : List Tile :=
  ((l2Tiles j.map j.tile j.member).zipIdx.filter (fun e => !tileSkipped j.f.extents j.map e.1)).flatMap
    (fun e => l1Seq j e.2 e.1)

/-- The number of L2 tiles of the member, skipped ones included. -/
def l2Count (j : Job) : Nat := (l2Tiles j.map j.tile j.member).length

/-- The tile after a place in the sequence. -/
def tileAfter (j : Job) (l2 l1 : Nat) : Option Tile :=
  (tileSeq j).find? (fun t => decide (l2 < t.l2 ∨ (t.l2 = l2 ∧ l1 < t.l1)))

/-- The first tile at or after an L2 index. -/
def tileFrom (j : Job) (l2 : Nat) : Option Tile := (tileSeq j).find? (fun t => decide (l2 ≤ t.l2))

/-- The tile at a place. -/
def tileAt (j : Job) (l2 l1 : Nat) : Option Tile := (tileSeq j).find? (fun t => t.l2 = l2 ∧ t.l1 = l1)

/-- Fold a list of loop values into one number by the declared extents. -/
def mixed (ext vals : List Nat) (ls : List Nat) : Nat :=
  ls.foldl (fun acc l => acc * (ext.getD l 0 + 1) + vals.getD l 0) 0

/-- The key of a tile's output tile: its non-RED coordinates (R80). -/
def outKey (j : Job) (t : Tile) : Nat := mixed j.tile.extent (outTileKey j.map t.st1) [0, 1, 2, 3, 4, 5]

/-- The tile is the last of its output tile: the next one in the sequence has other non-RED coordinates, so that the accumulators hold
other outputs (R80; log 26). -/
def isLastOfOutput (j : Job) (t : Tile) : Bool :=
  match tileAfter j t.l2 t.l1 with
  | none => true
  | some n => outKey j n ≠ outKey j t

/-- The tile is the first of its output tile. -/
def isFirstOfOutput (j : Job) (t : Tile) : Bool :=
  match ((tileSeq j).filter (fun n => decide (n.l2 < t.l2 ∨ (n.l2 = t.l2 ∧ n.l1 < t.l1)))).getLast? with
  | none => true
  | some n => outKey j n ≠ outKey j t

/-- The loop values of a tile that stay fixed in it: those of OUTER and unused loops. -/
def fixedIdx (j : Job) (t : Tile) : List Nat :=
  (List.range 6).map (fun l => if j.map.cls l = 1 ∨ j.map.cls l = 2 ∨ j.map.cls l = 3 then 0 else t.st1.getD l 0)

/-- The columns, vectors and rows of a tile (R312), each by its loop values. -/
def classIdx (j : Job) (t : Tile) (cls : Nat) : List (List Nat) :=
  flatten j.map j.tile j.member t.st2 t.st1 (j.map.loopsOf cls)

/-- Loop values that lie inside the run extents (R323). -/
def inRun (j : Job) (cls : Nat) (i : List Nat) : Bool := activeIdx j.f.extents j.map i (j.map.loopsOf cls)

/-- The requantizer channel of loop values: the COL loops' values (R260, log 13). -/
def channelOf (j : Job) (i : List Nat) : Nat :=
  (j.map.loopsOf 1).foldl (fun acc l => acc * j.tile.extent.getD l 1 + i.getD l 0) 0

/-- The group key of an output of a RANK clause: every loop value but the ranked one's (R199). -/
def groupKey (j : Job) (i : List Nat) : Nat :=
  mixed j.tile.extent i ((List.range j.map.loops).filter (fun l => l ≠ cRankLoop j.c ∧ j.map.cls l ≠ 3))

/-- The ranking groups of a tile's outputs. -/
def tileGroups (j : Job) (t : Tile) : List Nat :=
  (classIdx j t 1).flatMap (fun c => (classIdx j t 2).map (fun v => groupKey j (addIdx (fixedIdx j t) (addIdx c v))))

/-- The ranking groups open before L2 tile l2, in the order in which they opened (R226): those that have a candidate before it and one
still to come. After the last L2 tile a HOLD keeps the last output tile's candidates in the accumulators, so they are still to come
(R268; log 40). -/
def openGroups (j : Job) (l2 : Nat) : List Nat :=
  let ts := tileSeq j
  let lastKey := ts.getLast?.map (outKey j)
  let kept := fun (t : Tile) => decide (l2Count j ≤ l2) && decide (lastKey = some (outKey j t))
  let before := (ts.filter (fun t => decide (t.l2 < l2) && !kept t)).flatMap (tileGroups j)
  let after := (ts.filter (fun t => decide (l2 ≤ t.l2) || kept t)).flatMap (tileGroups j)
  before.dedup.filter (fun g => after.contains g)

/-- The number of vectors of an output tile (R225): the combinations of the loops that are neither COL nor RED. -/
def tileVectors (j : Job) (t : Tile) : Nat :=
  (flatten j.map j.tile j.member t.st2 t.st1
    ((List.range j.map.loops).filter (fun l => j.map.cls l ≠ 1 ∧ j.map.cls l ≠ 3))).length

end Sys2Proof.Machine
end

