-- ==== Sys2Proof/Machine/Admission.lean ====
section
/-!
DEFINITION. Sys2Proof/Machine/Admission.lean: the checks that the Pumphouse makes of a clause before it admits it (R289), each named
by the rule it follows. Of several broken rules the first in R289's table is reported (log 15).
-/

namespace Sys2Proof.Machine

/-! ## Reason codes of R289 -/

def aVerb : Nat := 0x0001
def aField : Nat := 0x0002
def aNoun : Nat := 0x0003
def aPrecision : Nat := 0x0004
def aDecision : Nat := 0x0005
def aSparsity : Nat := 0x0006
def aOutput : Nat := 0x0007
def aMap : Nat := 0x0008
def aRegion : Nat := 0x0009
def aSession : Nat := 0x000A
def aBind : Nat := 0x000B
def aTagBusy : Nat := 0x000C
def aNoPlan : Nat := 0x000D

/-! ## Verb tables -/

/-- CONTRACT or CONTRACT_SPARSE. -/
def isContract (c : Clause) : Bool := cVerb c = 1 || cVerb c = 2

/-- REDUCE in keyed form (R272). -/
def isKeyed (c : Clause) : Bool := cVerb c = 4 && bit (cOp c) 2

/-- How a verb uses a slot: not at all, optionally, or it must name a noun. -/
inductive Use where
  | none
  | may
  | must
deriving DecidableEq, Repr

/-- Whether a noun of the plan has layout S24V. -/
def isS24v (p : Plan) (i : Nat) : Bool := match p.nouns[i]? with | some n => n.layout = 1 | none => false

/-- The use of OUT, A, B, X and TABLE by verb (R263, R272, R278). -/
def slotUse (p : Plan) (c : Clause) : List Use :=
  match cVerb c with
  | 0x01 => [.must, .must, .must, .none, .may]
  | 0x02 => [.must, .must, .must, .none, .may]
  | 0x03 => [.must, .must, if cOp c = 0 then .none else .must, .none, .may]
  | 0x04 => [.must, .must, .none, if isKeyed c then .must else .none, .may]
  | 0x05 => [.must, .must, .none, .none, .none]
  | 0x06 => [.must, .must, .none, .must, .none]
  | 0x07 => [.must, .must, .none, .must, .none]
  | 0x08 => [.must, .must, .none, .none, .none]
  | 0x09 => [.must, .must, .none, if isS24v p (cOut c) || isS24v p (cA c) then .must else .none, .none]
  | 0x0A => [.must, .must, .none, if isS24v p (cOut c) || isS24v p (cA c) then .must else .none, .none]
  | 0x0F => [.must, .none, .none, .none, .none]
  | 0x10 => [.none, .must, .none, .none, .none]
  | 0x11 => [.must, .must, .none, .none, .none]
  | 0x12 => [.none, .must, .none, .none, .none]
  | _ => [.none, .none, .none, .none, .none]

/-- The slots' noun numbers, in the order OUT, A, B, X, TABLE. -/
def slotNumbers (c : Clause) : List Nat := [cOut c, cA c, cB c, cX c, cTable c]

/-- The noun a slot names. -/
def slotNoun (p : Plan) (i : Nat) : Option Noun := p.nouns[i]?

/-! ## BAD_FIELD -/

/-- Reserved bits and reserved encodings of the clause words (R237, R239, R241 to R247). -/
def badReserved (bl : Bool) (c : Clause) : Bool :=
  bits (word c 0) 15 14 ≠ 0 || bits (word c 3) 31 16 ≠ 0 || bits (word c 4) 31 22 ≠ 0 || bits (word c 5) 31 30 ≠ 0
    || bits (word c 7) 31 28 ≠ 0 || bits (word c 14) 31 9 ≠ 0 || cRounding c = 3 || 6 ≤ cSparsity c
    || (bl && bits (word c 0) 31 28 ≠ 0)

/-- OP is a reserved encoding, or non-zero where the verb has none (R264, R270, R272, R273, R277, R279). -/
def badOp (c : Clause) : Bool :=
  match cVerb c with
  | 0x03 => 6 ≤ cOp c
  | 0x04 => bit (cOp c) 3 || cOp c % 4 = 3
  | 0x05 => 2 ≤ cOp c
  | 0x08 => 2 ≤ cOp c
  | 0x11 => 2 ≤ cOp c
  | _ => cOp c ≠ 0

/-- An adverb field that must be zero for the verb is not (R264). SPARSITY of the two contractions is BAD_SPARSITY's. -/
def badAdverb (c : Clause) : Bool :=
  let v := cVerb c
  let con := isContract c
  let req := con || v = 3 || v = 4
  let ranks := v = 5 || (con && cDecision c = 3)
  (!con && (cPw c ≠ 0 || cPa c ≠ 0 || cDecision c ≠ 0 || cQ c ≠ 0 || cPartialGate c || cSparsity c ≠ 0))
    || (!(con || v = 4) && cTarget c ≠ 0)
    || (!req && (cRounding c ≠ 0 || cCompress c))
    || (!(req || v = 5) && cEacc c ≠ 0)
    || (!ranks && (cK c ≠ 0 || cRankLoop c ≠ 0))
    || (ranks && ¬ (1 ≤ cK c ∧ cK c ≤ 16))

/-- Operand words that a verb does not list must be zero (R263); a counter is below 64 (R282); a PUMP count is a multiple of 64
(R277). -/
def badOperands (c : Clause) : Bool :=
  let w := word c
  let zeroFrom := fun (i : Nat) => (List.range 14).any (fun j => decide (i ≤ j ∧ w j ≠ 0))
  match cVerb c with
  | 0x01 => 4 ≤ w 8 || zeroFrom 9
  | 0x02 => 4 ≤ w 8 || zeroFrom 9
  | 0x04 => 4 ≤ w 8 || zeroFrom 9
  | 0x08 => if cOp c = 1 then w 8 % 64 ≠ 0 || zeroFrom 10 else zeroFrom 8
  | 0x0B => false
  | 0x0C => 64 ≤ w 8 || zeroFrom 10
  | 0x0D => 64 ≤ w 8 || zeroFrom 11
  | 0x0F => 2 ≤ w 8 || zeroFrom 9
  | _ => zeroFrom 8

/-- Some noun among a list of numbers is BFP. -/
def anyBfp (p : Plan) (ns : List Nat) : Bool :=
  ns.any (fun i => match slotNoun p i with | some n => nKind n = 3 | none => false)

/-- E_ACC is non-zero without a BFP operand (R85, R195). -/
def badEacc (p : Plan) (c : Clause) : Bool := cEacc c ≠ 0 && !anyBfp p [cA c, cB c, cX c]

/-- Held state on a region that RESUME may take: the same map and TARGET, or state left by RESTORE with the same TARGET
(R269, R286, log 40). -/
def heldMatches (c : Clause) (h : Held) : Bool :=
  decide (h.target = cTarget c) && (h.restored || decide (h.map = cMap c))

/-- A clause of a plan on a member of its region, at the declared extents. -/
def declaredJob (p : Plan) (c : Clause) (i k : Nat) : Job :=
  let t := p.tile (cMap c)
  { f := { words := c, extents := t.extent }, plan := p, map := p.map (cMap c), tile := t, region := p.region (cRegion c)
    member := i, k := k }

/-- Restored accumulator state has the shape of the clause's output tile, and as many rank lists as the clause has groups open at its
L2_TILE (R220, R226, R269; log 40). A member that runs nothing of the map has no output tile. -/
def shapeFits (p : Plan) (c : Clause) (i k : Nat) (h : Held) (u : AccUnit) : Bool :=
  let j := declaredJob p c i k
  let ts := tileSeq j
  !h.restored || u.isHash || !runsMap j.tile j.map.loops i ||
    ([ts.head?, ts.getLast?].any (fun t => decide (t.map (tileVectors j) = some u.vectors))
      && decide (u.ranks.length = if isContract c && cDecision c = 3 then (openGroups j h.l2).length else 0))

/-- What a cluster holds after HOLD or RESTORE: in place, or saved for a higher class (R268, R424). -/
def heldStates (c : Cluster) : List (Held × AccUnit) :=
  (c.held.map (fun h => (h, c.unit))).toList ++ c.saved.filterMap (fun e => e.held.map (fun h => (h, e.unit)))

/-- RESUME without held state that it matches (R269). -/
def badResume (s : State) (p : Plan) (c : Clause) : Bool :=
  let hs := (p.region (cRegion c)).members.zipIdx.map (fun e => (e.1, e.2, heldStates (s.cluster e.1)))
  (isContract c || cVerb c = 4) && cResume c &&
    (hs.all (fun e => e.2.2.isEmpty)
      || hs.any (fun e => !e.2.2.isEmpty && !e.2.2.any (fun x => heldMatches c x.1 && shapeFits p c e.2.1 e.1 x.1 x.2)))

/-- Encodings that the map's tile descriptor reserves (R338), and a ranked loop of the wrong class (R267, R273). -/
def badTile (p : Plan) (c : Clause) : Bool :=
  let t := p.tile (cMap c)
  let m := p.map (cMap c)
  let ranks := cVerb c = 5 || (isContract c && cDecision c = 3)
  let cls := m.cls (cRankLoop c)
  (isContract c && (decide (t.pwMax < cPw c) || decide (t.paMax < cPa c) || !bit t.modes (cSparsity c)))
    || (cTarget c = 1 && !t.hashOk)
    || (ranks && !bit t.rankable (cRankLoop c))
    || (isContract c && cDecision c = 3 && cls ≠ 1 && cls ≠ 2)
    || (cVerb c = 5 && cOp c = 0 && cls ≠ 3)

/-- A PRIO outside the region's CLASSES (R304). -/
def badPrio (p : Plan) (c : Clause) : Bool :=
  decide (cRegion c < p.regions.length) && !bit (p.region (cRegion c)).classes (cPrio c)

/-- OUT_FORMAT set with no OUT noun (R264). -/
def badOutField (c : Clause) : Bool := cOut c = 0xFFFF && cOutFormat c ≠ 0

/-! ## BAD_NOUN -/

/-- A slot breaks its verb's use, or names no noun of the table. -/
def badSlots (p : Plan) (c : Clause) : Bool :=
  ((slotUse p c).zip (slotNumbers c)).any (fun e =>
    match e.1 with
    | .none => e.2 ≠ 0xFFFF
    | .may => e.2 ≠ 0xFFFF && (slotNoun p e.2).isNone
    | .must => (slotNoun p e.2).isNone)

/-- The nouns that a clause names, slot by slot. -/
def namedNouns (p : Plan) (c : Clause) : List Noun := (slotNumbers c).filterMap (slotNoun p)

/-- BAD_SESSION (R418). -/
def badSession (s : State) (t : Nat) (c : Clause) : Bool :=
  let x := s.session (cSession c)
  cSessionEn c && !(x.openFlag && decide (x.tenant = t))

/-- A session-relative noun without SESSION_EN, or one whose footprint passes STATE_SIZE of the tenant's own open session (R418). -/
def badSessionNoun (s : State) (t : Nat) (p : Plan) (c : Clause) : Bool :=
  (namedNouns p c).any (fun n => n.sessionRel &&
    (!cSessionEn c || (!badSession s t c && decide ((s.session (cSession c)).stateSize < n.base.toNat + footprint n))))

/-- Layouts that element reads take: DENSE, S24V, BPK, BAM (log 11). -/
def elemLayout (n : Noun) : Bool := n.layout = 0 || n.layout = 1 || n.layout = 5 || n.layout = 6

/-- DENSE, BPK or BAM. -/
def denseLayout (n : Noun) : Bool := n.layout = 0 || n.layout = 5 || n.layout = 6

/-- The sampled role's OUT: an S24V noun in a 2:4 mode (R144, R266). -/
def isSampled (p : Plan) (c : Clause) : Bool :=
  cVerb c = 2 && (cSparsity c = 1 || cSparsity c = 2) && isS24v p (cOut c)

/-- The layouts of the named nouns do not fit the verb, mode or role (R252, R262, R266, R274, R275, R277, R157; log 11). -/
def badLayout (p : Plan) (c : Clause) : Bool :=
  let o := p.noun (cOut c)
  let a := p.noun (cA c)
  let b := p.noun (cB c)
  let x := p.noun (cX c)
  let outOk := denseLayout o
  match cVerb c with
  | 0x01 => !(outOk && a.layout = 0 && denseLayout b)
  | 0x02 =>
    if isSampled p c then !(denseLayout a && denseLayout b)
    else !(outOk && denseLayout b &&
      (match cSparsity c with
       | 1 => a.layout = 1
       | 2 => a.layout = 1
       | 3 => a.layout = 6
       | 4 => a.layout = 5
       | 5 => a.layout = 7
       | _ => true))
  | 0x03 => !(elemLayout o && elemLayout a && (cOp c = 0 || elemLayout b))
  | 0x04 => !(elemLayout o && elemLayout a && (!isKeyed c || (if cX c = cA c then nKind a = 4
      else elemLayout x && x.dims = a.dims && x.ext = a.ext)))
  | 0x05 => !(o.layout = 0 && elemLayout a)
  | 0x06 => !(o.layout = 0 && a.layout = 0 && x.layout = 0 && x.dims = 0 && (x.format = 0x0F || nKind x = 4)
      && nExt o 0 ≤ nExt x 0)
  | 0x07 => !(o.layout = 0 && a.layout = 0 && x.layout = 0 && x.dims = 0 && (x.format = 0x0F || nKind x = 4)
      && nExt a 0 ≤ nExt x 0)
  | 0x08 => cOp c = 0 && !(o.layout = 0 && a.layout = 0)
  | 0x09 => !(a.layout = 0 && (o.layout = 1 || o.layout = 5 || o.layout = 6) && (o.layout ≠ 1 || x.layout = 4))
  | 0x0A => !(o.layout = 0 && (a.layout = 1 || a.layout = 5 || a.layout = 6) && (a.layout ≠ 1 || x.layout = 4))
  | 0x11 => !(o.layout = 4 && (a.layout = 2 || a.layout = 3) && nExt o 0 = nExt a 0 && nExt o 1 = nExt a 1)
  | _ => false

/-- The declared extents' product over the COL loops: the channels a TABLE must hold (R260, log 13). -/
def channels (p : Plan) (c : Clause) : Nat :=
  prodNat (((p.map (cMap c)).loopsOf 1).map (fun l => (p.tile (cMap c)).extent.getD l 0))

/-- The TABLE noun breaks R253 or R260. -/
def badTable (p : Plan) (c : Clause) : Bool :=
  match slotNoun p (cTable c) with
  | none => false
  | some n => !(n.format = 0 && n.layout = 0 && n.dims = 0) || decide (nExt n 0 < channels p c)

/-- Index values that an L2 tile covers along a term (R311). -/
def termSpan (t : TileDesc) (d : DWord) : Nat :=
  let v := d.toNat
  let part := fun (en lp co : Nat) =>
    if bit v en then (signed 16 co).natAbs * (t.t2.getD lp 1 - 1) else 0
  1 + part 3 (bits v 2 0) (bits v 31 16) + part 7 (bits v 6 4) (bits v 47 32)

/-- Bytes of a row of k elements as it lands (log 14). -/
def landRow (n : Noun) (k : Nat) : Nat :=
  match n.layout with
  | 1 => rowBytes n (2 * ceilDiv k 4)
  | 5 => ceilDiv k 64 * (8 + 8 * nWidth n)
  | _ => rowBytes n k

/-- A byte count rounded up to 64. -/
def up64 (n : Nat) : Nat := ceilDiv n 64 * 64

/-- Most entries of a COORD noun that an L2 tile can land: its L1 tiles at the capacity Z that the landing check holds them to (R155). -/
def tileEntries (t : TileDesc) (n : Noun) (ts : List DWord) : Nat :=
  min (entryCap n) (prodNat ((slotLoops ts).map (fun l => ceilDiv (t.t2.getD l 1) (max 1 (t.t1.getD l 1)))) * t.nzCap)

/-- Bytes of a noun's landed L2 tile; rows begin on 64-byte boundaries (R251, R327, log 14). `per` elements stand along the innermost dimension
for each index that the terms give: 2k words of a rank list (R203). A mask lands the bytes of its forward plane; a COORD noun its chunk
table, entries and values. -/
def landBytes (per : Nat) (t : TileDesc) (n : Noun) (ts : List DWord) : Nat :=
  let span := fun (d : Nat) => min (termSpan t (ts.getD d 0)) (nExt n d)
  match n.layout with
  | 4 => span 0 * up64 (ceilDiv (span 1) 4)
  | 7 =>
    let e := tileEntries t n ts
    up64 (4 * (ceilDiv (span 0) 128 * ceilDiv (span 1) 1024 + 1)) + up64 (4 * e) + up64 (ceilDiv (e * nWidth n) 8)
  | _ => prodNat ((List.range n.dims).map span) * up64 (landRow n (min (per * termSpan t (ts.getD n.dims 0)) (nExt n n.dims)))

/-- A noun that the pump lands: one of global, DDR or session-relative base (R327). -/
def lands (n : Noun) : Bool :=
  n.sessionRel || bit n.base.toNat 63 || bits n.base.toNat 55 52 = 0

/-- Half size of a landing slot of R310: 0 OUT, 1 TABLE, 2 A, 3 B, 4 X. -/
def halfSize (t : TileDesc) (slot : Nat) : Nat := 64 * (t.land.getD slot (0, 0)).2

/-- Elements that stand in a noun for each index of a clause's terms: the words of a rank list where OUT receives lists, or list-merge RANK
reads them (R203, R204, R267). -/
def listWords (c : Clause) (isOut : Bool) : Nat :=
  if (isOut && (cVerb c = 5 || (isContract c && cDecision c = 3))) || (!isOut && cVerb c = 5 && cOp c = 1) then 2 * cK c else 1

/-- The layouts whose L2 tile a half must hold: those that element reads take, COORD, and MASK_CANON in the X slot. -/
def sizedLayout (n : Noun) (slot : Nat) : Bool := elemLayout n || n.layout = 7 || (slot = 4 && n.layout = 4)

/-- An operand's L2 tile exceeds its slot's half (R327). X is read at the places of OUT in GATHER and where OUT is the S24V noun, and of A
otherwise (R262). -/
def badLanding (p : Plan) (c : Clause) : Bool :=
  let t := p.tile (cMap c)
  let m := p.map (cMap c)
  let check := fun (i slot : Nat) (ts : List DWord) =>
    match slotNoun p i with
    | none => false
    | some n => lands n && sizedLayout n slot && decide (halfSize t slot < landBytes (listWords c (slot = 0)) t n ts)
  let xTerms := if cVerb c = 0x06 || (cVerb c = 0x09 && isS24v p (cOut c)) then m.out else m.a
  check (cOut c) 0 m.out || check (cA c) 2 m.a || check (cB c) 3 m.b
    || (match slotNoun p (cTable c) with
        | none => false
        | some n => lands n && decide (halfSize t 1 <
            up64 (8 * min (nExt n 0) (prodNat ((m.loopsOf 1).map (fun l => t.t2.getD l 1))))))
    || (cX c ≠ cA c && check (cX c) 4 xTerms)

/-- BAD_NOUN (R289). -/
def badNoun (s : State) (t : Nat) (p : Plan) (c : Clause) : Bool :=
  badSlots p c || (match slotNoun p (cOut c) with | some o => o.readOnly | none => false)
    || badSessionNoun s t p c || badLayout p c || badTable p c || (usesMap c && badLanding p c)

/-! ## Precision, decision, sparsity, output, map, region, session, bind -/

/-- R61, R63, R99 or R134 broken. -/
def badPrecision (p : Plan) (c : Clause) : Bool :=
  let a := p.noun (cA c)
  let b := p.noun (cB c)
  ((slotNoun p (cOut c)).isSome && !fmtLegal (BitVec.ofNat 8 (cOutFormat c))) || isContract c &&
    (nKind a = 4 || nKind b = 4 || nWidth a ≠ cPw c + 1 || nWidth b ≠ cPa c + 1
      || ((nKind a = 2 || nKind b = 2) && !(nKind a = 2 && nKind b = 2))
      || ((nKind a = 2 || nKind a = 3 || nKind b = 2 || nKind b = 3) && cSparsity c ≠ 0 && cSparsity c ≠ 3))

/-- R102, R103, R104, R128 or R144 broken. -/
def badDecision (p : Plan) (c : Clause) : Bool :=
  let d := cDecision c
  let ok := fmtKind (p.noun (cOut c)).format
  isContract c &&
    ((d = 0 && cQ c ≠ 0) || (d ≠ 0 && anyBfp p [cA c, cB c])
      || (d = 1 && ok ≠ 0) || (d = 2 && ok ≠ 2) || (d = 3 && ok ≠ 4)
      || (cPartialGate c && (cQ c = 0 || d = 0 || d = 3))
      || (isSampled p c && d ≠ 0))

/-- Loops that a slot's dimension names. -/
def dimLoops (ts : List DWord) (d : Nat) : List Nat := termLoops (ts.getD d 0)

/-- Some boundary of the index that a dimension term gives is off the grid of 4: its OFFSET, or the index step from one L1 tile, L2 tile or
share of a loop to the next, or at the loop's end (R145). -/
def offGrid (t : TileDesc) (d : DWord) : Bool :=
  let v := d.toNat
  let off := fun (co l : Nat) =>
    let e := t.extent.getD l 0
    (e :: [t.t1.getD l 1, t.t2.getD l 1, shareSpan t l].filter (fun sp => decide (sp < e))).any (fun x =>
      decide (signed 16 co * (x : Int) % 4 ≠ 0))
  decide (signed 16 (bits v 63 48) % 4 ≠ 0) || (bit v 3 && off (bits v 31 16) (bits v 2 0)) || (bit v 7 && off (bits v 47 32) (bits v 6 4))

/-- The roles of R142 that a map's terms allow in a mode: 0 forward, 1 transposed (S24T only), 2 sampled. -/
def rolesOf (m : MapEntry) (mode : Nat) : List Nat :=
  let red := fun (d : DWord) => (termLoops d).any (fun l => m.cls l = 3)
  let a0 := m.a.getD 0 0
  let a1 := m.a.getD 1 0
  let o0 := m.out.getD 0 0
  let o1 := m.out.getD 1 0
  (if red a1 && !red a0 then [0] else []) ++ (if red a0 && !red a1 && mode = 2 then [1] else [])
    ++ (if !red o0 && !red o1 && !(termLoops o0).isEmpty && !(termLoops o1).isEmpty then [2] else [])

/-- The terms of the dimensions that the mask groups in a role and a mode: the mask is A's, or OUT's in the sampled role; S24 groups dimension
1, and S24T dimension 0 as well (R136, R141, R142). -/
def groupedTerms (m : MapEntry) (mode role : Nat) : List DWord :=
  let ts := if role = 2 then m.out else m.a
  ts.getD 1 0 :: (if mode = 2 then [ts.getD 0 0] else [])

/-- The mask's dimensions leave the grid of 4 in a role (R145). -/
def roleOffGrid (m : MapEntry) (t : TileDesc) (mode role : Nat) : Bool := (groupedTerms m mode role).any (offGrid t)

/-- A dimension of an operand does not run along the reduction: its term names no loop, or a loop that is not RED (R83). -/
def offReduction (m : MapEntry) (ts : List DWord) (d : Nat) : Bool :=
  (dimLoops ts d).isEmpty || (dimLoops ts d).any (fun l => m.cls l ≠ 3)

/-- The role of a mask (R142): 0 forward, 1 transposed, 2 sampled. -/
def maskRole (p : Plan) (c : Clause) : Option Nat :=
  let m := p.map (cMap c)
  let red := fun (ls : List Nat) => ls.any (fun l => m.cls l = 3)
  let ts := if isSampled p c then m.out else m.a
  let n := dimLoops ts 0
  let k := dimLoops ts 1
  if isSampled p c then (if !red n && !red k && !n.isEmpty && !k.isEmpty then some 2 else none)
  else if red k && !red n then some 0
  else if red n && !red k then some 1
  else none

/-- A mode not allowed for the verb, or a role not allowed (R142, R264, R266), or a role in which the mask's dimensions leave the grid that the
loader could not tie to the nouns (R145, log 21). -/
def badSparsity (p : Plan) (c : Clause) : Bool :=
  (cVerb c = 1 && cSparsity c ≠ 0) || (cVerb c = 2 && cSparsity c = 0)
    || (cVerb c = 2 && (cSparsity c = 1 || cSparsity c = 2) &&
        (match maskRole p c with
         | none => true
         | some 1 => cSparsity c ≠ 2
         | some _ => false))
    || (cVerb c = 2 && (cSparsity c = 1 || cSparsity c = 2) &&
        (match maskRole p c with
         | none => false
         | some r => roleOffGrid (p.map (cMap c)) (p.tile (cMap c)) (cSparsity c) r))

/-- OUT_FORMAT differs, R165 or R167 broken, or copy formats differ (R275, R277; R203 for rank lists). -/
def badOutput (p : Plan) (c : Clause) : Bool :=
  let o := p.noun (cOut c)
  let a := p.noun (cA c)
  let v := cVerb c
  let m := p.map (cMap c)
  let req := isContract c || v = 3 || v = 4
  let inner := dimLoops m.out o.dims
  ((slotNoun p (cOut c)).isSome && cOutFormat c ≠ o.format.toNat)
    || (req && cCompress c && !((o.layout = 5 || o.layout = 6) && (nKind o = 0 || nKind o = 1)))
    || (req && !cCompress c && (o.layout = 5 || o.layout = 6))
    || (req && cCompress c && (inner.isEmpty || inner.any (fun l => m.cls l ≠ 1)))
    || ((v = 6 || v = 7 || (v = 8 && cOp c = 0) || v = 9 || v = 0x0A) && o.format ≠ a.format)
    || (v = 5 && nKind o ≠ 4)

/-- The terms that a slot uses: those of its map for a slot that names a noun. -/
def usedTerms (p : Plan) (i : Nat) (ts : List DWord) : List DWord := if (slotNoun p i).isSome then ts else []

/-- A term of a named slot names a loop at or above LOOPS, or a dimension beyond the noun's DIMS has a term (R256, log 12). -/
def badTermLoops (p : Plan) (c : Clause) : Bool :=
  let m := p.map (cMap c)
  let ts := [usedTerms p (cOut c) m.out, usedTerms p (cA c) m.a, usedTerms p (cB c) m.b]
  (ts.flatMap slotLoops).any (fun l => decide (m.loops ≤ l))
    || ([cOut c, cA c, cB c].zip ts).any (fun e =>
      (e.2.drop ((p.noun e.1).dims + 1)).any (fun t => t ≠ 0))

/-- Class rules of R258 for a contraction's loop. -/
def badContractLoop (m : MapEntry) (l : Nat) : Bool :=
  let a := (slotLoops m.a).contains l
  let b := (slotLoops m.b).contains l
  let o := (slotLoops m.out).contains l
  match m.cls l with
  | 1 => !(a && o && !b)
  | 2 => !(b && o && !a)
  | 3 => !(a && b && !o)
  | 4 => !o
  | _ => false

/-- The innermost dimension of a BFP operand of a contraction does not run along the reduction (R83, log 21). -/
def badBlocks (p : Plan) (c : Clause) : Bool :=
  let m := p.map (cMap c)
  [(cA c, m.a), (cB c, m.b)].any (fun e => nKind (p.noun e.1) = 3 && offReduction m e.2 (p.noun e.1).dims)

/-- BAD_MAP: index outside the table, R255, R258 or R259 broken, or a loop at or above LOOPS (log 12: BIND may name a map with RED
loops); or a BFP operand whose blocks the loader could not tie to the map (R83, log 21). -/
def badMap (p : Plan) (c : Clause) : Bool :=
  let m := p.map (cMap c)
  let v := cVerb c
  decide (p.maps.length ≤ cMap c) || badTermLoops p c
    || (isContract c && ((List.range m.loops).any (badContractLoop m) || badBlocks p c))
    || (!isContract c && v ≠ 4 && v ≠ 5 && v ≠ 0x0B && !(m.loopsOf 3).isEmpty)

/-- BAD_REGION (R246). -/
def badRegion (p : Plan) (c : Clause) : Bool :=
  decide (p.regions.length ≤ cRegion c) || (usesMap c && cRegion c ≠ (p.tile (cMap c)).region)

/-- BAD_BIND (R281). -/
def badBind (p : Plan) (c : Clause) : Bool :=
  cVerb c = 0x0B && (List.range 6).any (fun l =>
    let w := word c (8 + l)
    w ≠ 0xFFFFFFFF && decide ((p.tile (cMap c)).extent.getD l 0 < w))

/-- Checks of a clause that need the plan, in the order of R289. -/
def planChecks (s : State) (t : Nat) (p : Plan) (c : Clause) : List (Bool × Nat) :=
  [ (badEacc p c || badResume s p c || (usesMap c && decide (cMap c < p.maps.length) && badTile p c) || badPrio p c, aField),
    (badNoun s t p c, aNoun),
    (badPrecision p c, aPrecision),
    (badDecision p c, aDecision),
    (badSparsity p c, aSparsity),
    (badOutput p c, aOutput),
    (usesMap c && badMap p c, aMap),
    (badRegion p c, aRegion),
    (badSession s t c, aSession),
    (badBind p c, aBind) ]

/-- A notice is the acceptance of a plan: a REPLY to PLAN_LOAD with STATUS OK (R374). -/
def isAcceptance (b : List Byte) : Bool := b.getD 1 0 = 2 && b.getD 4 0 = 0 && b.getD 5 0 = 3

/-- No acceptance notice waits to be written: admission sees the plan (R298; log 110 for a notice that is lost). -/
def loadAnnounced (x : Tenant) : Bool := !x.heldNotices.any isAcceptance

/-- The reason code with which admission rejects a clause of tenant t, or none (R289). -/
def rejectReason (s : State) (t : Nat) (c : Clause) : Option Nat :=
  let x := s.tenant t
  let first := [ (decide (cVerb c = 0 ∨ 0x12 < cVerb c), aVerb),
    (badReserved x.bl c || badOp c || badAdverb c || badOperands c || badOutField c, aField) ]
  let plan := if loadAnnounced x then x.plan else none
  let mid := match plan with
    | some p => planChecks s t p c
    | none => [(badSession s t c, aSession)]
  let last := [ ((flightTag s t (cTag x.bl c)).isSome, aTagBusy), (plan.isNone, aNoPlan) ]
  ((first ++ mid ++ last).find? (fun e => e.1)).map (fun e => e.2)

end Sys2Proof.Machine
end

