-- ==== Sys2Proof/Machine/Mailbox.lean ====
section
/-!
DEFINITION. Sys2Proof/Machine/Mailbox.lean: the request rings, the message sequence, the submission rings and admission, and the
messages that the message layer answers by itself (R343 to R367, R403 to R415).
-/

namespace Sys2Proof.Machine

/-! ## Envelope (R353) -/

def mType (m : List Word) : Nat := bits (word m 15) 7 0
def mSync (m : List Word) : Bool := bit (word m 15) 8
def mReserved (m : List Word) : Nat := bits (word m 15) 15 9

/-- MSG_TYPE is reserved, or a reserved envelope bit is set (R358, R359). -/
def badEnvelope (m : List Word) : Bool :=
  mType m = 0 || decide (0x0F ≤ mType m) || mReserved m ≠ 0

/-- Every payload bit outside the masks of words 0 to 14 is zero (R360). -/
def payloadClean (m : List Word) (masks : List Nat) : Bool :=
  (List.range 15).all (fun i => decide (Nat.land (word m i) (0xFFFFFFFF - masks.getD i 0) = 0))

/-- Words 0 and 1, or 1 and 2, as one 64-bit field. -/
def dword (m : List Word) (i : Nat) : Nat := word m i + 2 ^ 32 * word m (i + 1)

/-! ## The request ring -/

/-- The lowest-numbered port whose link is up (R503). -/
def lowestUp (s : State) : Option Nat := (List.range 4).find? (fun p => (s.port p).linkUp)

/-- Tenant page t and aperture t are live on port p (R504; before READY on the lowest port that is up, R583, log 16). -/
def pageLive (s : State) (p t : Nat) : Bool :=
  let x := s.tenant t
  (s.port p).linkUp && x.enabled &&
    (if s.sys.state = 0 then decide (lowestUp s = some p) else x.bound && decide (x.hostPort = p))

/-- Log a poisoned TLP at a port when the write carries EP (R514). -/
def logPoison (s : State) (p : Nat) (ep : Bool) : State :=
  if ep then s.setPort p { s.port p with aerPoisoned := true } else s

/-- A dropped write (R349, R350). -/
def dropPost (x : Tenant) (overrun : Bool) : Tenant :=
  { x with
    dropCount := satInc 0xFFFF x.dropCount
    overrun := x.overrun || overrun
    malformed := x.malformed || !overrun }

/-- A write into the POST window that is a message (R348). -/
def isMessage (off : Nat) (ep : Bool) (data : List Byte) : Bool :=
  decide (data.length = 64) && decide (off % 64 = 0) && !ep

/-- What a POST write does to the tenant's page (R348 to R350). -/
def postTenant (x : Tenant) (off : Nat) (ep : Bool) (data : List Byte) : Tenant :=
  if !isMessage off ep data then dropPost x false
  else if 64 ≤ x.requestRing.length then dropPost x true
  else { x with requestRing := x.requestRing ++ [data] }

/-- POST_WRITE (R348 to R350, R504, R514). -/
def execPostWrite (p t : Nat) (off : Nat) (ep : Bool) (data : List Byte) (s : State) : Res :=
  if (s.port p).linkUp && decide (off < 0x1000) then
    let s := logPoison s p ep
    if pageLive s p t then .next (s.modTenant t (fun x => postTenant x off ep data)) else .next s
  else .next s

/-! ## The sequence (R354, R355, R364) -/

/-- d of R354. -/
def seqDistance (x : Tenant) (m : List Word) : Nat := (mSeq m + 65536 - x.expected.toNat) % 65536

/-- The message is consumed without being looked at: the tenant is disabled, or has no notice ring (R364). -/
def unheard (x : Tenant) (m : List Word) : Bool := !x.enabled || (!x.ringSet && mType m ≠ 2)

/-- The message is accepted when it comes to it (R354). -/
def acceptable (x : Tenant) (m : List Word) : Bool := !unheard x m && (mSync m || seqDistance x m = 0)

/-- Drop the head message and count it (R354, R355, R364). -/
def discardHead (x : Tenant) : Tenant :=
  { x with copied := x.copied.drop 1, discarded := satInc 0xFFFF x.discarded }

/-- Consume the messages at the head that are not accepted, until the head is (R354, R355, R364). -/
def settle (s : State) (t : Nat) : Nat → State
  | 0 => s
  | n + 1 =>
    let x := s.tenant t
    match x.copied with
    | [] => s
    | m :: _ =>
      if acceptable x m then s
      else if unheard x m || decide (32768 ≤ seqDistance x m) || x.gap then settle (s.setTenant t (discardHead x)) t n
      else
        let s := s.setTenant t { discardHead x with gap := true }
        settle (postNotice s t (messageNotice (mSeq m) 1 (mType m) x.expected.toNat)) t n

/-- Settle all copied messages of a tenant. -/
def settleAll (s : State) (t : Nat) : State := settle s t ((s.tenant t).copied.length + 1)

/-- Accept the head message: EXPECTED becomes SEQ + 1 and gap mode ends (R354, R355). -/
def acceptHead (s : State) (t : Nat) (m : List Word) : State :=
  s.modTenant t (fun x => { x with
    copied := x.copied.drop 1, expected := BitVec.ofNat 16 (mSeq m + 1), gap := false })

/-- The head message, when the engine runs and it is acceptable and of a type. -/
def headOf (s : State) (t type : Nat) : Option (List Word) :=
  let x := s.tenant t
  match x.copied with
  | [] => none
  | m :: _ => if ready s && acceptable x m && !badEnvelope m && mType m = type then some m else none

/-- Note a started message that owes an answer (R361, R392). -/
def noteStarted (s : State) (t : Nat) (m : List Word) : State :=
  s.modTenant t (fun x => { x with unanswered := x.unanswered ++ [(mSeq m, mType m)] })

/-- Start the head message of a type: accept it, do its effect, and settle the messages behind it (R357). -/
def onMessage (s : State) (t type : Nat) (f : State → List Word → State) : Res :=
  match headOf s t type with
  | none => .next s
  | some m => .next (settleAll (f (noteStarted (acceptHead s t m) t m) m) t)

/-- An Admin message: NOT_ADMIN from a tenant other than 0 (R359), then the effect. -/
def adminOnly (t : Nat) (f : State → List Word → State) (s : State) (m : List Word) : State :=
  if t ≠ 0 then replyRejected s t (mSeq m) (mType m) rNotAdmin else f s m

/-- A message whose payload must be clean (R360), then the effect. -/
def cleanOnly (t : Nat) (masks : List Nat) (f : State → List Word → State) (s : State) (m : List Word) : State :=
  if payloadClean m masks then f s m else replyRejected s t (mSeq m) (mType m) rBadMessage

/-! ## Submission rings (R362, R228, R229) -/

def Tenant.ring (x : Tenant) (prio : Nat) : SubRing := x.rings.getD prio {}
def Tenant.modRing (x : Tenant) (prio : Nat) (f : SubRing → SubRing) : Tenant := { x with rings := modAt x.rings prio f }

/-- CLAUSE (R362, R228): accept the clause into its ring, or refuse it with RING_FULL and enter gap mode. -/
def clauseEffect (s : State) (t : Nat) (m : List Word) : State :=
  let x := s.tenant t
  let c := m.take 16
  if 512 ≤ (x.ring (cPrio c)).waiting.length then
    let s := s.setTenant t { x with copied := x.copied.drop 1, gap := true }
    postNotice s t (messageNotice (mSeq m) 3 (mType m) x.expected.toNat)
  else
    (acceptHead s t m).modTenant t (fun x => x.modRing (cPrio c) (fun r => { r with waiting := r.waiting ++ [c] }))

/-- CLAUSE. -/
def execClause (t : Nat) (s : State) : Res :=
  match headOf s t 0x01 with
  | none => .next s
  | some m => .next (settleAll (clauseEffect s t m) t)

/-- BAD_TYPE (R358): accepted in sequence, and one MESSAGE notice. -/
def execBadType (t : Nat) (s : State) : Res :=
  let x := s.tenant t
  match x.copied with
  | [] => .next s
  | m :: _ =>
    if ready s && acceptable x m && badEnvelope m then
      let s := acceptHead s t m
      .next (settleAll (postNotice s t (messageNotice (mSeq m) 2 (mType m) (s.tenant t).expected.toNat)) t)
    else .next s

/-! ## Admission (R230, R289, R403 to R408, R443) -/

/-- The clusters that run a clause: those of the region that the map gives a share, or for a verb without a map all of them (R246, R317); the
ordering verbs and BIND run on none (log 19). -/
def runners (p : Plan) (c : Clause) : List Nat :=
  let ms := (p.region (cRegion c)).members
  if 0x0B ≤ cVerb c ∧ cVerb c ≤ 0x0E then []
  else if usesMap c then
    (List.range ms.length).filterMap (fun i =>
      if runsMap (p.tile (cMap c)) (p.map (cMap c)).loops i then ms[i]? else none)
  else ms

/-- The run extents in force for a map in a ring (R280, R281). -/
def extentsFor (p : Plan) (r : SubRing) (map : Nat) : List Nat :=
  match r.binds.find? (fun b => b.map = map) with
  | some b => b.extents
  | none => (p.tile map).extent

/-- BIND's record: the extents it gives over those in force (R280). -/
def bindExtents (p : Plan) (r : SubRing) (c : Clause) : List Nat :=
  (List.range 6).map (fun l =>
    let w := word c (8 + l)
    if w = 0xFFFFFFFF then (extentsFor p r (cMap c)).getD l 0 else w)

/-- A ring after one of its clauses has been taken (R229, R280). -/
def ringAfter (r : SubRing) (c : Clause) (uid : Nat) (binds : List BindRec) : SubRing :=
  let r := { r with waiting := r.waiting.drop 1 }
  if cEnd c then { r with sentence := r.sentence + 1, atStart := true, lastUid := none, binds := [] }
  else { r with atStart := false, lastUid := some uid, binds := binds }

/-- A region with a fenced member (R443). -/
def regionFenced (s : State) (p : Plan) (c : Clause) : Bool :=
  (p.region (cRegion c)).members.any (clusterFenced s)

/-- The head clause of a ring may be looked at now: the ring is OPEN and the limits of R230 and R404 leave room. -/
def canAdmit (s : State) (t prio : Nat) : Bool :=
  let x := s.tenant t
  x.enabled && !(x.ring prio).waiting.isEmpty && !bit x.halted.toNat prio
    && decide ((tenantFlights s t).length < 256) && decide (s.work.flights.length < 1024)
    && (prio = 0 || decide (s.work.flights.length < 960))

/-- Take the head clause of a ring through admission: reject it (R289), complete it at once (BIND, R280; a fenced region, R443), or
put it in flight (R405). -/
def admitHead (s : State) (t prio : Nat) : State :=
  let x := s.tenant t
  let r := x.ring prio
  match r.waiting with
  | [] => s
  | c :: _ =>
    let p := x.plan.getD {}
    let uid := s.work.nextUid
    let f : Flight := {
      tenant := t, tag := cTag x.bl c, prio := prio, words := c, uid := uid, sentence := r.sentence, first := r.atStart,
      before := if r.atStart then none else r.lastUid, extents := extentsFor p r (cMap c), waiting := runners p c,
      done := (runners p c).isEmpty && decide (cVerb c < 0x0C ∨ 0x0E < cVerb c), admittedAt := s.nowUs }
    let why := rejectReason s t c
    let takes := decide (cVerb c = 0x0B) && why.isNone && !regionFenced s p c
    let binds := if takes then
        { map := cMap c, extents := bindExtents p r c } :: r.binds.filter (fun b => b.map ≠ cMap c)
      else r.binds
    let s := { s with work := { s.work with nextUid := uid + 1 } }
    let s := s.modTenant t (fun x => x.modRing prio (fun r => ringAfter r c uid binds))
    match why with
    | some code => completeClause s f { status := stRejected, reason := code }
    | none =>
      if regionFenced s p c then completeClause s f { status := stAbsent }
      else if takes then completeClause s f {}
      else setFlights s (s.work.flights ++ [f])

/-- The deadline class of the head clause of a ring (R419). -/
def headDeadline (s : State) (t prio : Nat) : Nat :=
  match ((s.tenant t).ring prio).waiting with
  | [] => 4
  | c :: _ => if cSessionEn c then (s.session (cSession c)).deadline else 4

/-- The order of service within a class: ascending deadline class, ties in rotating tenant order from the tenant after the one last served
(R403). -/
def serviceOrder (s : State) (prio : Nat) : List Nat :=
  let last := s.work.lastServed.getD prio 15
  (List.range 8).flatMap (fun d =>
    ((List.range 16).map (fun r => (last + 1 + r) % 16)).filter (fun t => canAdmit s t prio && headDeadline s t prio = d))

/-- Admit the head clause of a tenant's ring and note the tenant as the one last served in the class (R403). -/
def serveTenant (s : State) (t prio : Nat) : State :=
  let s := admitHead s t prio
  { s with work := { s.work with lastServed := modAt s.work.lastServed prio (fun _ => t) } }

/-- Serve the tenants of a list, each once: the order is taken anew after each, since the rotation starts after it (R403). -/
def serveFrom (prio : Nat) : Nat → List Nat → State → State
  | 0, _, s => s
  | n + 1, left, s =>
    match (serviceOrder s prio).find? (fun t => left.contains t) with
    | none => s
    | some t => serveFrom prio n (left.erase t) (serveTenant s t prio)

/-- Serve one class once: the head clause of each tenant's ring (R403, log 17). -/
def serveClass (s : State) (prio : Nat) : State := serveFrom prio 16 (List.range 16) s

/-- The lowest sequencer slot number that is free in a cluster (R379). -/
def freeSlot (c : Cluster) : Option Nat :=
  (List.range 8).find? (fun i => c.slots.all (fun sl => sl.number ≠ i))

/-- Slots of a cluster held by clauses that are not URGENT. -/
def lowSlots (c : Cluster) : Nat := c.slots.countP (fun sl => sl.prio ≠ 0)

/-- Fill a sequencer slot of a member with a clause and ring its doorbell, when there is room (R379, R406). -/
def fillSlot (urgentRegion : Bool) (f : Flight) (c : Cluster) : Cluster :=
  if c.slots.any (fun sl => sl.uid = f.uid) then c
  else if urgentRegion && f.prio ≠ 0 && decide (7 ≤ lowSlots c) then c
  else
    match freeSlot c with
    | none => c
    | some i => { c with
        slots := c.slots ++ [{ number := i, uid := f.uid, prio := f.prio }]
        bells := modAt c.bells f.prio (fun b => { b with slots := b.slots ||| (1#8 <<< i) }) }

/-- Whether a clause's region lists URGENT. -/
def urgentRegion (s : State) (f : Flight) : Bool :=
  match (s.tenant f.tenant).plan with
  | none => false
  | some p => bit (p.region (cRegion f.words)).classes 0

/-- Fill slots for every clause in flight, in admission order, in the clusters that routes reach (R379, R406, R47). -/
def fillSlots (s : State) : State :=
  s.work.flights.foldl (fun s f =>
    f.waiting.foldl (fun s k =>
      if pumphouseReaches s k then s.modCluster k (fillSlot (urgentRegion s f) f) else s) s) s

/-- Copy out the valid entries of one tenant's request ring (R352), and consume the messages at the head that are not accepted. -/
def copyRing (s : State) (t : Nat) : State :=
  let x := s.tenant t
  if x.requestRing.isEmpty then settleAll s t
  else settleAll (s.setTenant t { x with requestRing := [], copied := x.copied ++ x.requestRing.map (leWords 16) }) t

/-- PUMPHOUSE_VISIT: copy the request rings, admit head clauses, fill slots and ring doorbells (R352, R403, R379). -/
def execPumphouseVisit (s : State) : Res :=
  if ready s then
    let s := (List.range 16).foldl copyRing s
    let s := (List.range 4).foldl serveClass s
    .next (fillSlots s)
  else .next s

/-! ## RING_SETUP, PING, PLAN_UNLOAD, QUEUE_CLEAR, sessions -/

/-- Put a notice ahead of the held ones; beyond 64 the last is lost. The alerts owed wait for one notice more (R363, R372, R415). -/
def holdFirst (x : Tenant) (body : List Byte) : Tenant :=
  let y := { x with owedAlerts := x.owedAlerts.map (fun n => min 65 (n + 1)) }
  if x.heldNotices.length < 64 then { y with heldNotices := body :: x.heldNotices }
  else { y with
    heldNotices := body :: x.heldNotices.take 63, lostCount := satInc 0xFFFF x.lostCount, noticeLost := true, lostOwed := true }

/-- Write a REPLY as the next entry, ahead of held notices (R363). -/
def replyFirst (s : State) (t : Nat) (body : List Byte) : State :=
  if noticeRoom s t then flushHeld (writeNotice s t body) t 65 else s.setTenant t (holdFirst (s.tenant t) body)

/-- A rejected RING_SETUP: answered in the old ring, or counted in DISCARDED when there is none (R363). -/
def rejectRing (s : State) (t : Nat) (m : List Word) (why : Nat) : State :=
  if (s.tenant t).ringSet then replyRejected s t (mSeq m) 0x02 why
  else answered (s.modTenant t (fun x => { x with discarded := satInc 0xFFFF x.discarded })) t (mSeq m) 0x02

/-- RING_SETUP (R363). -/
def ringSetup (t : Nat) (s : State) (m : List Word) : State :=
  if !payloadClean m [0xFFFFFFFF, 0xFFFFFFFF, 1] then rejectRing s t m rBadMessage
  else if dword m 0 % 4096 ≠ 0 then rejectRing s t m rBadAddress
  else if !(tenantFlights s t).isEmpty then rejectRing s t m rBusy
  else
    let s := s.modTenant t (fun x => { x with
      tail := 0, tailPhase := true, ringUsed := 0, ringSet := true, noticeBase := BitVec.ofNat 64 (dword m 0), alerts := bit (word m 2) 0 })
    answered (replyFirst s t (replyNotice (mSeq m) 0 0x02 0 0 0 0)) t (mSeq m) 0x02

/-- RING_SETUP. -/
def execRingSetup (t : Nat) (s : State) : Res := onMessage s t 0x02 (ringSetup t)

/-- PING (R367): the REPLY echoes the cookie. -/
def execPing (t : Nat) (s : State) : Res :=
  onMessage s t 0x0A (cleanOnly t [0xFFFFFFFF, 0xFFFFFFFF] (fun s m => reply s t (mSeq m) 0x0A 0 0 0 0 (dword m 0)))

/-- A member cluster as a release leaves it: everything of its plan is zero (R221, R288, R402). -/
def clusterReleased (c : Cluster) : Cluster :=
  { awake := c.awake, wakeAt := c.wakeAt, idleSince := c.idleSince, avfs := c.avfs, ecc := c.ecc
    bells := c.bells.map (fun b => { b with slots := 0 }) }

/-- Zero a cluster's cistern (R221, R297). -/
def clearCistern (s : State) (k : Nat) : State :=
  { s with mem := { s.mem with cistern := clearRun s.mem.cistern (cisKey k 0) (2 ^ 21) } }

/-- Release the regions of a tenant's plan (R221, R296). -/
def releasePlan (s : State) (t : Nat) : State :=
  let ms := (planRegions s t).flatMap (fun r => r.members)
  let s := ms.foldl (fun s k => (clearCistern s k).modCluster k clusterReleased) s
  s.modTenant t (fun x => { x with plan := none })

/-- PLAN_UNLOAD (R296, R365). -/
def planUnload (t : Nat) (s : State) (m : List Word) : State :=
  if !(tenantFlights s t).isEmpty then replyRejected s t (mSeq m) 0x04 rBusy
  else replyOk (releasePlan s t) t (mSeq m) 0x04

/-- PLAN_UNLOAD. -/
def execPlanUnload (t : Nat) (s : State) : Res := onMessage s t 0x04 (cleanOnly t [] (planUnload t))

/-- A waiting clause as a flight, for its notice. -/
def waitingFlight (s : State) (t prio : Nat) (c : Clause) : Flight :=
  { tenant := t, tag := cTag (s.tenant t).bl c, prio := prio, words := c, uid := s.work.nextUid }

/-- Cancel the clauses waiting in a ring, in order (R413 step 1). -/
def cancelWaiting (s : State) (t prio : Nat) : State :=
  let cs := ((s.tenant t).ring prio).waiting
  let s := s.modTenant t (fun x => x.modRing prio (fun r => { r with waiting := [] }))
  cancelAll s (cs.map (waitingFlight s t prio))

/-- The next clause of the ring begins a new sentence with no BIND in effect (R413, R433). -/
def newSentence (r : SubRing) : SubRing :=
  { r with sentence := r.sentence + 1, atStart := true, lastUid := none, binds := [] }

/-- Mark a running clause for cancellation at its next L2 tile boundary or merge step (R413). -/
def markCancelled (s : State) (uid : Nat) : State :=
  modFlight s uid (fun f => { f with stop := some { status := stCancelled } })

/-- Steps 1 and 2 of QUEUE_CLEAR on one ring: the uids still running (R413). -/
def clearRing (s : State) (t prio : Nat) : State × List Nat :=
  let s := cancelWaiting s t prio
  let s := s.modTenant t (fun x => x.modRing prio newSentence)
  let mine := s.work.flights.filter (fun f => f.tenant = t ∧ f.prio = prio)
  let s := cancelAll s (mine.filter (fun f => !f.started))
  let running := (mine.filter (fun f => f.started)).map (fun f => f.uid)
  (running.foldl markCancelled s, running)

/-- QUEUE_CLEAR (R413, R414). -/
def queueClear (t : Nat) (s : State) (m : List Word) : State :=
  let r := ((List.range 4).filter (fun i => bit (word m 0) i)).foldl
    (fun (a : State × List Nat) i => let b := clearRing a.1 t i; (b.1, a.2 ++ b.2)) (s, [])
  let c := (mSeq m, bits (word m 0) 3 0, r.2)
  finishClears (r.1.modTenant t (fun x => { x with clears := x.clears ++ [c] })) t

/-- QUEUE_CLEAR. -/
def execQueueClear (t : Nat) (s : State) : Res := onMessage s t 0x05 (cleanOnly t [0xF] (queueClear t))

/-- An address that a host message names in this wafer's DDR, local or global form, as a DDR offset (R480, R536). -/
def ownDdr (s : State) (a : Nat) : Option Nat :=
  if bit a 63 then
    if gWafer a = s.sys.waferNumber ∧ gSpace a = 0 then some (gOff a) else none
  else if bits a 62 52 = 0 then some (gOff a) else none

/-- SESSION_OPEN (R416, R417). -/
def sessionOpen (t : Nat) (s : State) (m : List Word) : State :=
  let base := dword m 1
  let size := word m 3
  if 8 ≤ bits (word m 0) 7 0 then replyRejected s t (mSeq m) 0x07 rBadMessage
  else
    match ownDdr s base with
    | none => replyRejected s t (mSeq m) 0x07 rBadAddress
    | some off =>
      if off % 256 ≠ 0 || !inGranules (s.tenant t) off size then replyRejected s t (mSeq m) 0x07 rBadAddress
      else
        match (List.range 256).find? (fun i => !(s.session i).openFlag) with
        | none => replyRejected s t (mSeq m) 0x07 rNoSession
        | some i =>
          let x : Session := { openFlag := true, tenant := t, deadline := bits (word m 0) 7 0, stateBase := off, stateSize := size }
          let s := s.setSessions (tset {} s.work.sessions i x)
          reply s t (mSeq m) 0x07 0 0 i 0 0

/-- SESSION_OPEN. -/
def execSessionOpen (t : Nat) (s : State) : Res :=
  onMessage s t 0x07 (cleanOnly t [0xFF, 0xFFFFFFFF, 0xFFFFFFFF, 0xFFFFFFFF] (sessionOpen t))

/-- Close a session. -/
def closeSession (s : State) (i : Nat) : State := s.setSessions (tset {} s.work.sessions i {})

/-- SESSION_CLOSE (R365, R375). -/
def sessionClose (t : Nat) (s : State) (m : List Word) : State :=
  let i := bits (word m 0) 7 0
  let x := s.session i
  if !(x.openFlag && decide (x.tenant = t)) then replyRejected s t (mSeq m) 0x08 rNoSession
  else if s.work.flights.any (fun f => cSessionEn f.words && decide (cSession f.words = i)) then
    replyRejected s t (mSeq m) 0x08 rBusy
  else replyOk (closeSession s i) t (mSeq m) 0x08

/-- SESSION_CLOSE. -/
def execSessionClose (t : Nat) (s : State) : Res := onMessage s t 0x08 (cleanOnly t [0xFF] (sessionClose t))

end Sys2Proof.Machine
end

