-- ==== Sys2Proof/Machine/Tenants.lean ====
section
/-!
DEFINITION. Sys2Proof/Machine/Tenants.lean: resets and epochs (R433 to R439), the shutdown of a field (R443, R568), and TENANT_CONFIG
(R399, R445, R507, R532 to R534).
-/

namespace Sys2Proof.Machine

/-! ## Regions -/

/-- A cluster as a REGION reset leaves it: LUT slots, cistern and wake state stay (R433, R221). -/
def clusterReset (now : Nat) (c : Cluster) : Cluster :=
  { awake := c.awake, wakeAt := c.wakeAt, idleSince := now, avfs := c.avfs, ecc := c.ecc, luts := c.luts
    bells := c.bells.map (fun b => { b with slots := 0 }) }

/-- Clauses in flight that run on a region (log 20). -/
def regionFlights (s : State) (t r : Nat) : List Flight :=
  s.work.flights.filter (fun f => f.tenant = t ∧ cRegion f.words = r ∧ (cVerb f.words < 0x0C ∨ 0x0E < cVerb f.words))

/-- Record the tenant's epoch as a region's reset epoch (R435). -/
def stampRegion (s : State) (t r : Nat) : State :=
  s.modTenant t (fun x => { x with
    plan := x.plan.map (fun p => { p with regions := modAt p.regions r (fun g => { g with resetEpoch := x.epoch }) }) })

/-- The effects of a REGION reset on one region, after the increment (R433, R435). -/
def resetRegionEffects (s : State) (t r : Nat) : State :=
  let s := cancelAll s (regionFlights s t r)
  let ms := ((planRegions s t).getD r {}).members
  let s := ms.foldl (fun s k => s.modCluster k (clusterReset s.nowUs)) s
  stampRegion s t r

/-- Increment a tenant's epoch (R435, R439). -/
def bumpEpoch (s : State) (t : Nat) : State :=
  s.modTenant t (fun x => { x with epoch := x.epoch + 1, lastIncrement := some s.nowUs })

/-- The regions of a tenant that have a member in a field. -/
def regionsInField (s : State) (t f : Nat) : List Nat :=
  (List.range (planRegions s t).length).filter (fun r =>
    ((planRegions s t).getD r {}).members.any (fun k => fieldOfLogical k = f))

/-- Owe the REPLY of a RESET to its requester (R438). -/
def oweReply (s : State) (q seq t : Nat) : State :=
  s.modTenant q (fun x => { x with
    resets := x.resets ++ [{ seq := seq, incrementAt := s.nowUs, timeout := requestTimeout (s.tenant t) }] })

/-- Cancel every clause of a tenant, in flight and then waiting (R433). -/
def cancelTenant (s : State) (t : Nat) : State :=
  let s := cancelAll s (tenantFlights s t)
  (List.range 4).foldl (fun s p => cancelWaiting s t p) s

/-- The effects of a TENANT reset after the increment (R433). -/
def resetTenantEffects (s : State) (t : Nat) : State :=
  let s := cancelTenant s t
  let s := (List.range (planRegions s t).length).foldl (fun s r => resetRegionEffects s t r) s
  let s := s.setSessions (s.work.sessions.filter (fun e => ¬ (e.2.openFlag ∧ e.2.tenant = t)))
  s.modTenant t (fun x => { x with
    halted := 0, rings := [{}, {}, {}, {}], counters := [], discarded := 0 })

/-! ## Fields -/

/-- The logical indices of a field's 24 clusters (R15, R31). -/
def fieldClusters (f : Nat) : List Nat :=
  (List.range 6).flatMap (fun j => (List.range 4).map (fun i => (f / 7 * 6 + j) * 28 + f % 7 * 4 + i))

/-- Start the VPM ramp and power-cycle a field's clusters, once no tenant's increment for it is deferred (R433, R569). A field in
VPM_FAULT, or one that was never powered, is not ramped. -/
def fieldCycle (s : State) (f : Nat) : State :=
  if (List.range 16).any (fun t => (s.tenant t).deferred.contains (.fieldReset f)) then s
  else
    let s := (fieldClusters f).foldl (fun s k => (clearCistern s k).modCluster k (fun c =>
      { bells := c.bells.map (fun b => { b with slots := 0 }), idleSince := s.nowUs, ecc := c.ecc,
        avfs := { c.avfs with thermalCeiling := 64, hot := 0, awaitsSample := true } })) s
    s.modField f (fun x => { x with
      rampAt := s.nowUs, liftAt := none, incrementAt := s.nowUs
      power := if x.state = .vpmFault ∨ x.state = .unpowered then x.power else .ramping })

/-- The part of a TENANT_CONFIG that comes with its reset: a tenant being disabled is disabled from here on, and BL changes (R364, R399, R445). -/
def settleConfig (x : Tenant) : Tenant :=
  match x.configuring with
  | none => x
  | some (_, st) => { x with enabled := x.enabled && st.enable, bl := st.bl }

/-- A deferred increment and what follows it (R439). -/
def applyDeferred (s : State) (t : Nat) : Deferred → State
  | .tenantReset q seq => oweReply (resetTenantEffects (bumpEpoch s t) t) q seq t
  | .regionReset q seq r => oweReply (resetRegionEffects (bumpEpoch s t) t r) q seq t
  | .fieldReset f =>
    let s := bumpEpoch s t
    fieldCycle ((regionsInField s t f).foldl (fun s r => resetRegionEffects s t r) s) f
  | .configReset => (resetTenantEffects (bumpEpoch s t) t).modTenant t settleConfig

/-- 10 µs have passed since the tenant's last increment (R439). -/
def incrementDue (s : State) (t : Nat) : Bool :=
  match (s.tenant t).lastIncrement with
  | none => true
  | some l => decide (l + 10 ≤ s.nowUs)

/-- Reset now, or defer the increment and what follows it (R439). -/
def requestReset (s : State) (t : Nat) (d : Deferred) : State :=
  if incrementDue s t && (s.tenant t).deferred.isEmpty then applyDeferred s t d
  else s.modTenant t (fun x => { x with deferred := x.deferred ++ [d] })

/-- EPOCH_INCREMENT (R439). -/
def execEpochIncrement (t : Nat) (s : State) : Res :=
  match (s.tenant t).deferred with
  | [] => .next s
  | d :: rest =>
    if incrementDue s t then .next (applyDeferred (s.modTenant t (fun x => { x with deferred := rest })) t d) else .next s

/-! ## RESET messages -/

/-- The head message is a RESET of a kind. -/
def resetKind (m : List Word) : Nat := bits (word m 0) 1 0

/-- Start the head RESET of one of some kinds. -/
def onReset (s : State) (t : Nat) (kinds : List Nat) (f : State → List Word → State) : Res :=
  match headOf s t 0x06 with
  | none => .next s
  | some m => if kinds.contains (resetKind m) then onMessage s t 0x06 (cleanOnly t [0xF03, 0xFF] f) else .next s

/-- TARGET is the sender, or the sender is tenant 0 (R360, R398). -/
def mayReset (t : Nat) (m : List Word) : Bool := t = 0 || bits (word m 0) 11 8 = t

/-- RESET TENANT, and RESET of the reserved kind 3 (R360, R433). -/
def resetTenant (t : Nat) (s : State) (m : List Word) : State :=
  let target := bits (word m 0) 11 8
  if resetKind m = 3 || !mayReset t m then replyRejected s t (mSeq m) 0x06 rBadMessage
  else requestReset s target (.tenantReset t (mSeq m))

/-- RESET_TENANT. -/
def execResetTenant (t : Nat) (s : State) : Res := onReset s t [0, 3] (resetTenant t)

/-- RESET REGION (R433). -/
def resetRegion (t : Nat) (s : State) (m : List Word) : State :=
  let target := bits (word m 0) 11 8
  let r := bits (word m 1) 7 0
  if !mayReset t m || decide ((planRegions s target).length ≤ r) then replyRejected s t (mSeq m) 0x06 rBadMessage
  else requestReset s target (.regionReset t (mSeq m) r)

/-- RESET_REGION. -/
def execResetRegion (t : Nat) (s : State) : Res := onReset s t [1] (resetRegion t)

/-- RESET FIELD (R433, R434): the field is fenced at once. KIND FIELD is marked Admin only, so another sender gets NOT_ADMIN (log 112). -/
def resetField (t : Nat) (s : State) (m : List Word) : State :=
  let f := bits (word m 1) 7 0
  if t ≠ 0 then replyRejected s t (mSeq m) 0x06 rNotAdmin
  else if 70 ≤ f then replyRejected s t (mSeq m) 0x06 rBadMessage
  else
    let s := s.modField f (fun x => { x with fenced := true, resetSeqs := x.resetSeqs ++ [mSeq m] })
    let s := writeRoutes s
    let ts := (List.range 16).filter (fun u => !(regionsInField s u f).isEmpty)
    fieldCycle (ts.foldl (fun s u => requestReset s u (.fieldReset f)) s) f

/-- RESET_FIELD. -/
def execResetField (t : Nat) (s : State) : Res := onReset s t [2] (resetField t)

/-- RESET_REPLY (R438): the first REPLY whose request timeout has run out. -/
def execResetReply (t : Nat) (s : State) : Res :=
  match (s.tenant t).resets.find? (fun r => decide (r.incrementAt + r.timeout ≤ s.nowUs)) with
  | none => .next s
  | some r => .next (replyOk (s.modTenant t (fun x => { x with resets := x.resets.erase r })) t r.seq 0x06)

/-- Answer the FIELD resets of a field. -/
def answerField (s : State) (f status reason : Nat) : State :=
  let seqs := (s.field f).resetSeqs
  let s := s.modField f (fun x => { x with resetSeqs := [], liftAt := none })
  seqs.foldl (fun s q => reply s 0 q 0x06 status reason 0 0 0) s

/-- The fence can lift: the field has power, and every cluster has been sampled since the ramp and reads below 110.0 °C (R433, R569). -/
def canLift (s : State) (f : Nat) : Bool :=
  (s.field f).power = .good && (s.field f).state ≠ .vpmFault
    && (fieldClusters f).all (fun k => !(s.cluster k).avfs.awaitsSample && decide ((s.cluster k).avfs.reading < 440))

/-- The earliest time for the REPLY of a FIELD reset (R438). -/
def fieldReplyAt (s : State) (f : Nat) : Nat :=
  (s.field f).incrementAt + ((List.range 16).map (fun t =>
    if (regionsInField s t f).isEmpty then 0 else requestTimeout (s.tenant t))).foldl max 0

/-- FIELD_RESET_OUTCOME (R434, R569): lift the fence, answer OK 50 ms after the lift, or answer BUSY. -/
def execFieldResetOutcome (f : Nat) (s : State) : Res :=
  let x := s.field f
  let pending := (List.range 16).any (fun t => (s.tenant t).deferred.contains (.fieldReset f))
  if x.resetSeqs.isEmpty || pending then .next s
  else
    match x.liftAt with
    | none =>
      if s.nowUs ≤ x.rampAt + 50000 && canLift s f then
        .next (writeRoutes (s.modField f (fun x => { x with fenced := false, state := .running, liftAt := some s.nowUs })))
      else if x.rampAt + 50000 < s.nowUs && fieldReplyAt s f ≤ s.nowUs then .next (answerField s f 1 rBusy)
      else .next s
    | some l =>
      if x.fenced then (if fieldReplyAt s f ≤ s.nowUs then .next (answerField s f 1 rBusy) else .next s)
      else if l + 50000 ≤ s.nowUs && fieldReplyAt s f ≤ s.nowUs then .next (answerField s f 0 0)
      else .next s

/-! ## Shutting a field down (R443, R568) -/

/-- Complete with REMOTE_ABSENT every clause that has a cluster of the field still to run (R443). -/
def absentClauses (s : State) (f : Nat) : State :=
  (s.work.flights.filter (fun g => g.waiting.any (fun k => fieldOfLogical k = f))).foldl (fun s g =>
    match flightOf s g.uid with
    | none => s
    | some g => completeClause s g { status := stAbsent }) s

/-- The notices of FENCED to every tenant with a member in the field (R377, R443). -/
def fencedNotices (s : State) (f : Nat) : State :=
  (List.range 16).foldl (fun s t => if (regionsInField s t f).isEmpty then s else postNotice s t (eventNotice 3 f 0)) s

/-- Shut a field down: fence it, turn its VPM off, alert, notify and complete its clauses (R443, R568). -/
def shutField (s : State) (f : Nat) (st : FieldState) : State :=
  if (s.field f).fenced && (s.field f).state ≠ .running then s
  else
    let s := writeRoutes (s.modField f (fun x => { x with fenced := true, state := st, power := .off }))
    let s := raiseAlert s alFieldShutdown
    let s := absentClauses (fencedNotices s f) f
    (fieldClusters f).foldl (fun s k => s.modCluster k (fun c =>
      { avfs := c.avfs, ecc := c.ecc, idleSince := s.nowUs, bells := c.bells.map (fun b => { b with slots := 0 }) })) s

/-! ## TENANT_CONFIG -/

/-- The settings that a TENANT_CONFIG gives; a disabling one has no granules (R360, R533). -/
def settingsOf (m : List Word) : Settings :=
  let t := bits (word m 0) 3 0
  let en := t = 0 || bit (word m 0) 8
  { enable := en, bl := bit (word m 0) 9, wakeMask := Nat.lor (bits (word m 1) 3 0) 1, idleDormant := bits (word m 1) 31 16
    timeout := bits (word m 2) 9 0, granuleFirst := bits (word m 3) 11 0
    granuleCount := if en then bits (word m 3) 27 16 else 0, hostPort := bits (word m 4) 1 0 }

/-- Two granule ranges overlap. -/
def rangesMeet (f1 c1 f2 c2 : Nat) : Bool := decide (f1 < f2 + c2 ∧ f2 < f1 + c1)

/-- The range meets that of a tenant, or the one that a configuration in progress gives it (R402, R533, log 66). -/
def meetsTenant (st : Settings) (x : Tenant) : Bool :=
  (x.enabled && rangesMeet st.granuleFirst st.granuleCount x.granuleFirst x.granuleCount) ||
    (match x.configuring with
     | some (_, c) => c.enable && rangesMeet st.granuleFirst st.granuleCount c.granuleFirst c.granuleCount
     | none => false)

/-- The range is beyond granule G − 1, or meets that of another enabled tenant (R533). -/
def badGranules (s : State) (t : Nat) (st : Settings) : Bool :=
  st.enable && (decide (granules s < st.granuleFirst + st.granuleCount) ||
    (List.range 16).any (fun u => u ≠ t && meetsTenant st (s.tenant u)))

/-- TENANT_CONFIG (R360, R365, R399, R445, R533, R534). -/
def tenantConfig (s : State) (m : List Word) : State :=
  let t := bits (word m 0) 3 0
  let st := settingsOf m
  let x := s.tenant t
  if st.timeout ≠ 0 ∧ ¬ (10 ≤ st.timeout ∧ st.timeout ≤ 800) then replyRejected s 0 (mSeq m) 0x0B rBadMessage
  else if badGranules s t st then replyRejected s 0 (mSeq m) 0x0B rBadAddress
  else if x.plan.isSome then replyRejected s 0 (mSeq m) 0x0B rBusy
  else
    let s := s.setTenant t { x with configuring := some (mSeq m, st) }
    if x.bl ≠ st.bl || (x.enabled && !st.enable) then requestReset s t .configReset else s

/-- A TENANT_CONFIG comes to its turn: behind an earlier one for the same tenant that is in progress (R357, log 66). -/
def queueConfig (s : State) (m : List Word) : State :=
  let t := bits (word m 0) 3 0
  if (s.tenant t).configuring.isSome then s.modTenant t (fun x => { x with configQueue := x.configQueue ++ [m] }) else tenantConfig s m

/-- TENANT_CONFIG. -/
def execTenantConfig (t : Nat) (s : State) : Res :=
  onMessage s t 0x0B (adminOnly t (cleanOnly t [0x30F, 0xFFFF000F, 0x3FF, 0x0FFF0FFF, 0x3] queueConfig))

/-- The configurations that wait for a tenant, up to the first that is in progress. -/
def nextConfigs (s : State) (t : Nat) : Nat → State
  | 0 => s
  | n + 1 =>
    let x := s.tenant t
    match x.configQueue with
    | [] => s
    | m :: rest =>
      if x.configuring.isSome then s else nextConfigs (tenantConfig (s.setTenant t { x with configQueue := rest }) m) t n

/-- Zero a granule and clear its poison (R530, R534). -/
def zeroGranule (s : State) (g : Nat) : State :=
  { s with mem := { s.mem with
      ddr := clearRun s.mem.ddr (g * 2 ^ 30) (2 ^ 30)
      poisoned := s.mem.poisoned.filter (fun l => ¬ (g * 2 ^ 24 ≤ l ∧ l < (g + 1) * 2 ^ 24)) } }

/-- The granules that the new range adds (R534). -/
def addedGranules (x : Tenant) (st : Settings) : List Nat :=
  ((List.range st.granuleCount).map (fun i => st.granuleFirst + i)).filter (fun g =>
    ¬ (x.granuleFirst ≤ g ∧ g < x.granuleFirst + x.granuleCount))

/-- Close the tenant's sessions whose state lies outside the new range (R534). -/
def closeOutside (s : State) (t : Nat) (st : Settings) : State :=
  s.setSessions (s.work.sessions.filter (fun e =>
    ¬ (e.2.openFlag ∧ e.2.tenant = t) || inRange st.granuleFirst st.granuleCount e.2.stateBase e.2.stateSize))

/-- The port that a TENANT_CONFIG gives; another port than before clears RING_SET (R503, R507). -/
def rebind (x : Tenant) (p : Nat) : Tenant :=
  { x with hostPort := p, bound := true, ringSet := x.ringSet && decide (x.hostPort = p) }

/-- TENANT_CONFIG_DONE (R534, R507): the granule work ends, the settings take effect, and the REPLY is written; messages that are no longer
heard are consumed (R364), and a configuration that waited begins. -/
def execTenantConfigDone (t : Nat) (s : State) : Res :=
  let x := s.tenant t
  match x.configuring with
  | none => .next s
  | some (seq, st) =>
    if !x.deferred.isEmpty then .next s
    else
      let s := (addedGranules x st).foldl zeroGranule s
      let s := closeOutside s t st
      let s := s.modTenant t (fun x => { x with
        configuring := none, enabled := st.enable, bl := st.bl, wakeMask := st.wakeMask, idleDormant := st.idleDormant,
        timeout := st.timeout, granuleFirst := st.granuleFirst, granuleCount := st.granuleCount })
      let s := (replyOk s 0 seq 0x0B).modTenant t (fun x => rebind x st.hostPort)
      .next (nextConfigs (settleAll s t) t (x.configQueue.length + 1))

end Sys2Proof.Machine
end

