-- ==== Sys2Proof/Machine/Loader.lean ====
section
/-!
DEFINITION. Sys2Proof/Machine/Loader.lean: reading a plan image (R294, R299, R310, R329, R249, R254), the loader's ordered checks (R342),
and PLAN_LOAD and PLAN_LOAD_DONE.
-/

namespace Sys2Proof.Machine

/-! ## Reading the image -/

/-- n bytes of an image as a number. -/
def imgNat (img : List Byte) (off n : Nat) : Nat := leNat ((img.drop off).take n)

/-- Four bytes of an image as a 64-bit term list: n dimension terms from an offset. -/
def imgTerms (img : List Byte) (off n : Nat) : List DWord :=
  (List.range n).map (fun i => BitVec.ofNat 64 (imgNat img (off + 8 * i) 8))

/-- The header of an image (R294). -/
structure Header where
  magic : Nat
  version : Nat
  tenant : Nat
  flags : Nat
  size : Nat
  crc : Nat
  generation : Nat
  regions : Nat
  mcasts : Nat
  nouns : Nat
  maps : Nat
  reserved : Nat
  regionOff : Nat
  mcastOff : Nat
  nounOff : Nat
  mapOff : Nat
  tileOff : Nat
  dataOff : Nat
  dataSize : Nat
deriving DecidableEq, Repr

/-- The header's fields. -/
def readHeader (img : List Byte) : Header :=
  { magic := imgNat img 0 4, version := imgNat img 4 2, tenant := imgNat img 6 1, flags := imgNat img 7 1, size := imgNat img 8 4
    crc := imgNat img 12 4, generation := imgNat img 0x10 4, regions := imgNat img 0x14 2, mcasts := imgNat img 0x16 2
    nouns := imgNat img 0x18 2, maps := imgNat img 0x1A 2, reserved := imgNat img 0x1C 4 + imgNat img 0x3C 68
    regionOff := imgNat img 0x20 4, mcastOff := imgNat img 0x24 4, nounOff := imgNat img 0x28 4, mapOff := imgNat img 0x2C 4
    tileOff := imgNat img 0x30 4, dataOff := imgNat img 0x34 4, dataSize := imgNat img 0x38 4 }

/-- A region record (R299). -/
def readRegion (img : List Byte) (o : Nat) : Region :=
  { x0 := imgNat img o 1, y0 := imgNat img (o + 1) 1, width := imgNat img (o + 2) 1, height := imgNat img (o + 3) 1
    memberCount := imgNat img (o + 4) 2, classes := imgNat img (o + 6) 1 % 16, wearOk := bit (imgNat img (o + 7) 1) 0
    holeMask := imgNat img (o + 8) 4, saveOff := imgNat img (o + 0x0C) 4, saveSize := imgNat img (o + 0x10) 4
    mergeOff := imgNat img (o + 0x14) 4, mergeSlotSize := imgNat img (o + 0x18) 4, mergeSlots := imgNat img (o + 0x1C) 1
    outSlots := imgNat img (o + 0x1D) 1, spillBase := BitVec.ofNat 64 (imgNat img (o + 0x20) 8)
    spillCapacity := imgNat img (o + 0x28) 4
    reservedSet := imgNat img (o + 6) 1 / 16 ≠ 0 || imgNat img (o + 7) 1 / 2 ≠ 0 || imgNat img (o + 0x1E) 2 ≠ 0
      || imgNat img (o + 0x2C) 20 ≠ 0 }

/-- A multicast set with its group map; dataOff is the data section's place (R329). -/
def readMcast (img : List Byte) (dataOff : Nat) (regions : List Region) (o : Nat) : McastSet :=
  let r := imgNat img o 1
  { region := r, groups := imgNat img (o + 2) 2
    groupOf := (List.range (regions.getD r {}).memberCount).map (fun i => imgNat img (dataOff + imgNat img (o + 4) 4 + i) 1)
    reservedSet := imgNat img (o + 1) 1 ≠ 0 || imgNat img (o + 8) 8 ≠ 0 }

/-- A noun descriptor (R249). -/
def readNoun (img : List Byte) (o : Nat) : Noun :=
  let f := imgNat img (o + 8) 24
  { base := BitVec.ofNat 64 (imgNat img o 8), format := BitVec.ofNat 8 (bits f 7 0), layout := bits f 11 8, dims := bits f 13 12
    readOnly := bit f 14, sessionRel := bit f 15, companion := bits f 31 16
    ext := [bits f 51 32, bits f 71 52, bits f 91 72, bits f 111 92]
    stride := [bits f 137 112, bits f 163 138, bits f 189 164], reserved := bits f 191 190 }

/-- A map entry (R254); a reserved byte of the entry or of one of its terms (R256) is noted. -/
def readMap (img : List Byte) (o : Nat) : MapEntry :=
  let m : MapEntry := {
    loops := imgNat img o 1, classes := (List.range 6).map (fun l => imgNat img (o + 2 + l) 1)
    out := imgTerms img (o + 0x20) 4, a := imgTerms img (o + 0x40) 4, b := imgTerms img (o + 0x60) 4 }
  { m with reservedSet := imgNat img (o + 1) 1 ≠ 0 || imgNat img (o + 8) 24 ≠ 0
      || (m.out ++ m.a ++ m.b).any (fun t => bits t.toNat 15 8 ≠ 0) }

/-- The six 4-bit slots of an order field (R313). -/
def readOrder (v : Nat) : List Nat := (List.range 6).map (fun i => bits v (4 * i + 3) (4 * i))

/-- A tile descriptor (R310). `loops` is the map's LOOPS: entries at or above it must be zero. -/
def readTile (img : List Byte) (loops o : Nat) : TileDesc :=
  let t : TileDesc := {
    extent := (List.range 6).map (fun l => imgNat img (o + 4 * l) 4)
    t2 := (List.range 6).map (fun l => imgNat img (o + 0x18 + 4 * l) 4)
    t1 := (List.range 6).map (fun l => imgNat img (o + 0x30 + 2 * l) 2)
    factor := (List.range 6).map (fun l => imgNat img (o + 0x3C + l) 1)
    order2 := readOrder (imgNat img (o + 0x42) 3), order1 := readOrder (imgNat img (o + 0x45) 3)
    order0 := imgNat img (o + 0x48) 1, region := imgNat img (o + 0x49) 1
    partRequant := bit (imgNat img (o + 0x4A) 1) 0, hashOk := bit (imgNat img (o + 0x4A) 1) 1
    rankable := imgNat img (o + 0x4B) 1 % 64, pwMax := imgNat img (o + 0x4C) 1, paMax := imgNat img (o + 0x4D) 1
    modes := imgNat img (o + 0x4E) 1 % 64, nzCap := imgNat img (o + 0x50) 4
    mcast := (List.range 4).map (fun i => imgNat img (o + 0x54 + 2 * i) 2)
    land := (List.range 5).map (fun i => (imgNat img (o + 0x60 + 4 * i) 2, imgNat img (o + 0x62 + 4 * i) 2)) }
  let beyond := (List.range 6).any (fun l => decide (loops ≤ l) &&
    (t.extent.getD l 0 ≠ 0 || t.t2.getD l 0 ≠ 0 || t.t1.getD l 0 ≠ 0 || t.factor.getD l 0 ≠ 0))
  { t with reservedSet := beyond || imgNat img (o + 0x4A) 1 / 4 ≠ 0 || imgNat img (o + 0x4B) 1 / 64 ≠ 0
      || imgNat img (o + 0x4E) 1 / 64 ≠ 0 || imgNat img (o + 0x4F) 1 ≠ 0 || imgNat img (o + 0x5C) 4 ≠ 0
      || imgNat img (o + 0x74) 12 ≠ 0 || (bits t.modes 5 4 = 0 && t.nzCap ≠ 0) }

/-- Rectangle positions of a region in row-major order, as logical indices (R301). -/
def rectangle (r : Region) : List Nat :=
  (List.range r.height).flatMap (fun j => (List.range r.width).map (fun i => (r.y0 + j) * 28 + r.x0 + i))

/-- The members of a region: the USABLE positions of its rectangle in order (R300, R301). -/
def membersOf (s : State) (r : Region) : List Nat := (rectangle r).filter (fun k => usable s k)

/-- The plan in an image (R294). -/
def readPlan (s : State) (img : List Byte) : Plan :=
  let h := readHeader img
  let regions := (List.range h.regions).map (fun i =>
    let r := readRegion img (h.regionOff + 64 * i)
    { r with members := membersOf s r })
  let maps := (List.range h.maps).map (fun i => readMap img (h.mapOff + 128 * i))
  { bl := bit h.flags 0, generation := h.generation, regions := regions
    mcasts := (List.range h.mcasts).map (fun i => readMcast img h.dataOff regions (h.mcastOff + 16 * i))
    nouns := (List.range h.nouns).map (fun i => readNoun img (h.nounOff + 32 * i))
    maps := maps
    tiles := (List.range h.maps).map (fun i => readTile img (maps.getD i {}).loops (h.tileOff + 128 * i)) }

/-! ## The checks, in the order of R342. Each answers the index of the first offender. -/

/-- Index that stands for the header. -/
def headerIndex : Nat := 0xFFFFFFFF

/-- First index of a list that fails a check. -/
def firstBad {α : Type} (l : List α) (bad : Nat → α → Bool) : Option Nat :=
  (l.zipIdx.find? (fun e => bad e.2 e.1)).map (fun e => e.2)

/-- A header-level condition. -/
def headerBad (b : Bool) : Option Nat := if b then some headerIndex else none

/-- Two byte ranges meet. -/
def meet (a b : Nat × Nat) : Bool := decide (a.1 < b.1 + b.2 ∧ b.1 < a.1 + a.2)

/-- Every pair of a list of ranges is disjoint. -/
def disjoint : List (Nat × Nat) → Bool
  | [] => true
  | r :: rest => rest.all (fun x => !meet r x) && disjoint rest

/-- Offset and size of the six tables (R295). -/
def tables (h : Header) : List (Nat × Nat) :=
  [(h.regionOff, 64 * h.regions), (h.mcastOff, 16 * h.mcasts), (h.nounOff, 32 * h.nouns), (h.mapOff, 128 * h.maps),
   (h.tileOff, 128 * h.maps), (h.dataOff, h.dataSize)]

/-- The header and the tables' places (R294, R295); a table with no bytes meets none. TENANT is another check's (R342). -/
def badHeader (img : List Byte) (h : Header) : Bool :=
  h.magic ≠ 0x4E414C50 || h.version ≠ 1 || h.size < 128 || 2 ^ 24 < h.size || crc32 (zeroAt img 12) ≠ BitVec.ofNat 32 h.crc
    || h.regions = 0 || 64 < h.regions || 1024 < h.mcasts || h.nouns = 0 || 16384 < h.nouns || h.maps = 0 || 4096 < h.maps
    || h.reserved ≠ 0 || 2 ≤ h.flags
    || (tables h).any (fun t => t.1 % 64 ≠ 0 || decide (h.size < t.1 + t.2))
    || !disjoint ((tables h).filter (fun t => t.2 ≠ 0))

/-- A record's reserved fields or its reference into the data section (R295). -/
def badRecords (p : Plan) (img : List Byte) (h : Header) : Option Nat :=
  (firstBad p.regions (fun _ r => r.reservedSet ||
      (r.holeMask ≠ 0xFFFFFFFF && decide (h.dataSize < r.holeMask + ceilDiv (r.width * r.height) 8))))
    <|> (firstBad p.mcasts (fun i m => m.reservedSet ||
      decide (h.dataSize < imgNat img (h.mcastOff + 16 * i + 4) 4 + (p.region m.region).memberCount)))
    <|> (firstBad p.nouns (fun _ n => n.reserved ≠ 0))
    <|> (firstBad p.maps (fun _ m => m.reservedSet))
    <|> (firstBad p.tiles (fun _ t => t.reservedSet))

/-- REGION_UNUSABLE (R300). -/
def badRectangle (s : State) (img : List Byte) (h : Header) (r : Region) : Bool :=
  r.width = 0 || r.height = 0 || 28 < r.x0 + r.width || 60 < r.y0 + r.height || r.memberCount ≠ r.members.length
    || ((rectangle r).zipIdx.any (fun e =>
      let marked := r.holeMask ≠ 0xFFFFFFFF && bit (imgNat img (h.dataOff + r.holeMask + e.2 / 8) 1) (e.2 % 8)
      marked == usable s e.1))

/-- REGION_BUSY (R302): a member shared with an earlier region of the plan or with another loaded plan. -/
def busyRegion (s : State) (t : Nat) (p : Plan) (i : Nat) (r : Region) : Bool :=
  let earlier := (p.regions.take i).flatMap (fun x => x.members)
  let others := ((List.range 16).filter (fun u => u ≠ t)).flatMap (fun u => (planRegions s u).flatMap (fun x => x.members))
  r.members.any (fun k => earlier.contains k || others.contains k)

/-- WEAR (R303). -/
def wornRegion (s : State) (r : Region) : Bool :=
  !r.wearOk && r.members.any (fun k =>
    s.silicon.wear.contains (physIdx (physX s.silicon.live (k % 28) (k / 28)) (k / 28)))

/-- A noun's base lies in the accumulator or control space, or in a reserved local space (R342, R480, R536, R537; log 22). -/
def badSpace (base : Nat) : Bool :=
  if bit base 63 then bits base 55 52 = 2 || bits base 55 52 = 3
  else 2 ≤ bits base 55 52 || bits base 62 56 ≠ 0 || (bits base 55 52 = 1 && bits base 51 41 ≠ 0)

/-- Extents and strides beyond what a noun's dimensions use must be zero (R251, R252). -/
def strayFields (n : Noun) : Bool :=
  if n.layout = 7 then n.stride.getD 2 0 ≠ 0
  else (List.range 4).any (fun d => decide (n.dims < d) && nExt n d ≠ 0) ||
    (List.range 3).any (fun d => decide (n.dims ≤ d) && n.stride.getD d 0 ≠ 0)

/-- NOUN (R251, R252). -/
def badDescriptor (p : Plan) (n : Noun) : Bool :=
  let k := nKind n
  let packs := k = 0 || k = 1 || k = 2
  let comp := slotNoun p n.companion
  strayFields n || (!n.sessionRel && badSpace n.base.toNat) || (n.sessionRel && 2 ^ 52 ≤ n.base.toNat) ||
  match n.layout with
  | 0 => n.companion ≠ 0xFFFF
  | 1 => n.dims ≠ 1 || !packs || (match comp with | some m => m.layout ≠ 4 | none => true)
  | 2 => n.dims ≠ 1 || n.format ≠ 0 || n.companion ≠ 0xFFFF
  | 3 => n.dims ≠ 1 || n.format ≠ 0 || n.companion ≠ 0xFFFF
  | 4 => n.dims ≠ 1 || n.format ≠ 0 || n.companion ≠ 0xFFFF
  | 5 => !packs || n.companion ≠ 0xFFFF
  | 6 => n.dims = 0 || (match comp with | some m => m.layout ≠ 0 || m.format ≠ 0 | none => true)
  | 7 => n.dims ≠ 1 || !packs || n.companion ≠ 0xFFFF
  | _ => true

/-- MAP (R255, R256): LOOPS and CLASS codes. -/
def badMapEntry (m : MapEntry) : Bool :=
  m.loops = 0 || 6 < m.loops || (List.range 6).any (fun l => 4 < m.cls l || (decide (m.loops ≤ l) && m.cls l ≠ 0))

/-- A noun, spill area or image byte outside the tenant's granules (R342 DDR_RANGE). -/
def badDdrNoun (s : State) (x : Tenant) (n : Noun) : Bool :=
  !n.sessionRel && (match ownDdr s n.base.toNat with
    | some off => !inGranules x off (footprint n)
    | none => false)

/-- Bytes of a spill area: header and records (R342 SPILL). -/
def spillBytes (r : Region) : Nat := 64 + 16 * r.spillCapacity

/-- A spill area in DDR outside the tenant's granules, which lie on this wafer (R188, R342; log 27). -/
def badDdrSpill (s : State) (x : Tenant) (r : Region) : Bool :=
  match ownDdr s r.spillBase.toNat with
  | some off => !inGranules x off (spillBytes r)
  | none => bit r.spillBase.toNat 63 && gSpace r.spillBase.toNat = 0

/-- A base in DDR (local, global or session-relative). -/
def isDdrBase (n : Noun) : Bool := n.sessionRel || bits n.base.toNat 55 52 = 0

/-- ALIGNMENT (R342). -/
def misaligned (n : Noun) : Bool := if isDdrBase n then n.base.toNat % 256 ≠ 0 else n.base.toNat % 64 ≠ 0

def misalignedRegion (r : Region) : Bool :=
  (if bits r.spillBase.toNat 55 52 = 0 then r.spillBase.toNat % 256 ≠ 0 else r.spillBase.toNat % 64 ≠ 0)
    || r.saveOff % 64 ≠ 0 || r.mergeOff % 64 ≠ 0

/-- LOOP_ORDER (R313, R314). -/
def badOrderField (o : List Nat) (loops : Nat) : Bool :=
  let hd := o.take loops
  hd.any (fun l => decide (loops ≤ l)) || hd.dedup.length ≠ loops || (o.drop loops).any (fun l => l ≠ 15)

/-- The map's classes and terms allow a contraction (R258). -/
def contractMap (m : MapEntry) : Bool := (List.range m.loops).all (fun l => !badContractLoop m l)

/-- The map allows verbs other than contractions (R259, R335; log 23: a map with RED loops and B terms is a contraction's). -/
def otherMap (m : MapEntry) : Bool := (m.loopsOf 3).isEmpty || (slotLoops m.b).isEmpty

/-- Product of the L1 spans over the loops of a class. -/
def t1Of (m : MapEntry) (t : TileDesc) (c : Nat) : Nat := prodNat ((m.loopsOf c).map (fun l => t.t1.getD l 1))

/-- TILE_COUNT (R312, R319, R310). -/
def badCounts (p : Plan) (m : MapEntry) (t : TileDesc) : Bool :=
  decide (p.regions.length ≤ t.region)
    || (List.range m.loops).any (fun l =>
      let t1 := t.t1.getD l 0
      let t2 := t.t2.getD l 0
      let f := t.factor.getD l 0
      t1 = 0 || t2 = 0 || t2 % t1 ≠ 0 || f = 0 || decide (ceilDiv (t.extent.getD l 0) t2 < f))
    || decide ((p.region t.region).memberCount < prodNat ((List.range m.loops).map (fun l => t.factor.getD l 1)))
    || (contractMap m && (128 < t1Of m t 1 || 128 < t1Of m t 2 || (1024 < t1Of m t 3 && bits t.modes 5 3 ≠ 0)
      || (m.loopsOf 4).any (fun l => t.t1.getD l 1 ≠ 1)))
    || 64 < partCount m t

/-- The innermost dimension of the nouns that a slot's terms are for: that of the last term that is not zero. -/
def lastTerm (ts : List DWord) : Nat := (List.range 4).foldl (fun acc i => if (ts.getD i 0).toNat ≠ 0 then i else acc) 0

/-- GRID of a map (R83, R145). The image does not tie nouns to maps, so the loader rejects what no noun of the table and no role makes good:
terms whose innermost dimension leaves the reduction where every noun of that many dimensions is BFP, and a mode in which every role
leaves the grid. Admission refuses the clause that breaks R83 or R145 by its own nouns (log 21). -/
def badGridMap (p : Plan) (m : MapEntry) (t : TileDesc) : Bool :=
  let innerOff := fun (ts : List DWord) =>
    let ns := p.nouns.filter (fun x => x.dims = lastTerm ts)
    !ns.isEmpty && ns.all (fun x => nKind x = 3) && offReduction m ts (lastTerm ts)
  contractMap m &&
    ((!(m.loopsOf 3).isEmpty && (innerOff m.a || innerOff m.b))
      || [1, 2].any (fun mode => bit t.modes mode && !(rolesOf m mode).isEmpty && (rolesOf m mode).all (roleOffGrid m t mode)))

/-- GRID of a noun (R136, R141; log 21). -/
def badGridNoun (p : Plan) (n : Noun) : Bool :=
  n.layout = 1 && (nExt n 1 % 4 ≠ 0 || (p.tiles.any (fun t => bit t.modes 2) && nExt n 0 % 4 ≠ 0))

/-- META_SIZE (R173, R174, R175, R176, R252). -/
def badMeta (p : Plan) (n : Noun) : Bool :=
  let m := p.noun n.companion
  match n.layout with
  | 1 => nExt m 0 ≠ nExt n 0 || nExt m 1 ≠ nExt n 1
  | 4 => decide (nStride n 0 < ceilDiv (nExt n 1) 4)
  | 5 => n.dims ≠ 0 && decide (nStride n (n.dims - 1) < ceilDiv (nExt n n.dims) 64 * (8 + 8 * nWidth n))
  | 6 =>
    let tiles := prodNat ((List.range (n.dims - 1)).map (nExt n)) * (ceilDiv (nExt n (n.dims - 1)) 16 * ceilDiv (nExt n n.dims) 16)
    decide (prodNat ((List.range (m.dims + 1)).map (nExt m)) < tiles)
  | 7 => decide (nStride n 0 < 4 * (coordChunks n + 1)) || decide (nStride n 1 < nStride n 0 + 4 * entryCap n)
  | _ => false

/-- A map splits its reductions (R319). -/
def splits (m : MapEntry) (t : TileDesc) : Bool := decide (1 < partCount m t)

/-- The maps of a region with their tile descriptors. -/
def mapsOf (p : Plan) (r : Nat) : List (MapEntry × TileDesc) := (p.maps.zip p.tiles).filter (fun e => e.2.region = r)

/-- MERGE_BUFFER (R341). -/
def badMerge (p : Plan) (i : Nat) (r : Region) : Bool :=
  ((mapsOf p i).filter (fun e => splits e.1 e.2)).any (fun e =>
    r.mergeSlots = 0 || r.outSlots = 0 || decide (r.mergeSlotSize < 8 * t1Of e.1 e.2 2 * t1Of e.1 e.2 1))

/-- SPILL (R188, R342): the wrong space for BL, or an area that does not fit. -/
def badSpill (p : Plan) (r : Region) : Bool :=
  let b := r.spillBase.toNat
  if p.bl then !bit b 63 || bits b 55 52 ≠ 0 || decide (2 ^ 52 < gOff b + spillBytes r)
  else bit b 63 || bits b 62 52 ≠ 1 || decide (planArea < b % 2 ^ 41 + spillBytes r)

/-- Least size of a save slot (R340). -/
def saveNeed (p : Plan) (i : Nat) : Nat :=
  ((mapsOf p i).map (fun e => max (64 + 1024 * t1Of e.1 e.2 2 + (if e.2.rankable ≠ 0 then 32768 else 0))
    (if e.2.hashOk then 65728 else 0))).foldl max 0

/-- Number of set bits below n. -/
def popBelow (v n : Nat) : Nat := (List.range n).countP (fun i => bit v i)

/-- SAVE_SLOT (R340). -/
def badSave (p : Plan) (i : Nat) (r : Region) : Bool := decide (2 ≤ popBelow r.classes 4) && decide (r.saveSize < saveNeed p i)

/-- Bound of R339 on the open groups of ranked loop r. -/
def groupBound (m : MapEntry) (t : TileDesc) (r : Nat) : Nat :=
  let o := orderOf t.order2 m.loops
  let place := fun (l : Nat) => (o.idxOf? l).getD 0
  prodNat (((List.range m.loops).filter (fun l => l ≠ r ∧ (m.cls l = 1 ∨ m.cls l = 2 ∨ m.cls l = 4))).map (fun l =>
    if place r < place l then shareSpan t l else t.t2.getD l 1))

/-- RANK_GROUPS (R339). -/
def badGroups (m : MapEntry) (t : TileDesc) : Bool :=
  (List.range m.loops).any (fun r => bit t.rankable r && decide (128 < groupBound m t r))

/-- Loops that a multicast slot's terms use: TABLE the COL loops, A and B their terms, X those of A (log 24). -/
def mcastLoops (m : MapEntry) (slot : Nat) : List Nat :=
  match slot with
  | 0 => m.loopsOf 1
  | 1 => slotLoops m.a
  | 2 => slotLoops m.b
  | _ => slotLoops m.a

/-- No share of a member is empty (R316): a member with an empty share runs no tile and needs no operand. -/
def sharesWork (t : TileDesc) (m : MapEntry) (k : Nat) : Bool :=
  (List.range m.loops).all (fun l =>
    let r := shareRange t l ((shareDigits t m.loops k).getD l 0)
    decide (r.1 < r.2))

/-- MULTICAST of one slot of a map (R330). X may be read at the places of A or, in GATHER, of OUT (R262): the set's groups must have equal
shares on one of the two, since the image does not say which verb runs the map (log 24). -/
def badMcastSlot (p : Plan) (m : MapEntry) (t : TileDesc) (slot : Nat) : Bool :=
  let i := t.mcast.getD slot 0xFFFF
  if i = 0xFFFF then false
  else
    match p.mcasts[i]? with
    | none => true
    | some g =>
      let ms := (List.range (p.region t.region).memberCount).filter (fun k => runsMap t m.loops k && sharesWork t m k)
      let uneven := fun (ls : List Nat) =>
        let key := fun (k : Nat) => ls.map (fun l => (shareDigits t m.loops k).getD l 0)
        ms.any (fun a => ms.any (fun b => g.groupOf.getD a 0xFF = g.groupOf.getD b 0xFF && key a ≠ key b))
      g.region ≠ t.region || ms.any (fun a => g.groupOf.getD a 0xFF = 0xFF)
        || (uneven (mcastLoops m slot) && (slot ≠ 3 || uneven (slotLoops m.out)))

/-- MULTICAST of a set (R329). -/
def badMcastSet (p : Plan) (g : McastSet) : Bool :=
  decide (p.regions.length ≤ g.region) || g.groupOf.any (fun x => x ≠ 0xFF && decide (g.groups ≤ x))

/-- Landing buffers of a map: offset and length of both halves of the five slots (R310). -/
def landAreas (t : TileDesc) : List (Nat × Nat) :=
  (t.land.map (fun e => (64 * e.1, 128 * e.2))).filter (fun e => e.2 ≠ 0)

/-- Engine areas of a region other than the landing buffers (R308, R340). -/
def fixedAreas (p : Plan) (r : Region) : List (Nat × Nat) :=
  let slots := popBelow (r.classes / 2) 3
  ((if p.bl then [] else [(r.spillBase.toNat % 2 ^ 41, spillBytes r)])
    ++ (List.range slots).map (fun i => (r.saveOff + i * r.saveSize, r.saveSize))
    ++ (List.range (r.mergeSlots + r.outSlots)).map (fun i => (r.mergeOff + i * r.mergeSlotSize, r.mergeSlotSize))).filter
      (fun e => e.2 ≠ 0)

/-- Ranges of local cistern nouns (R308). -/
def cisternNouns (p : Plan) : List (Nat × Nat) :=
  (p.nouns.filter (fun n => !isDdrBase n && !bit n.base.toNat 63)).map (fun n => (n.base.toNat % 2 ^ 41, footprint n))

/-- CISTERN_BUDGET of a region (R305, R308). -/
def badBudget (p : Plan) (i : Nat) (r : Region) : Bool :=
  let lands := (mapsOf p i).map (fun e => landAreas e.2)
  let fixed := fixedAreas p r
  let all := lands.flatten ++ fixed
  all.any (fun e => e.1 % 64 ≠ 0 || decide (planArea < e.1 + e.2))
    || !disjoint fixed || lands.any (fun l => !disjoint l) || lands.flatten.any (fun a => fixed.any (meet a))
    || lands.flatten.any (fun a => lands.flatten.any (fun b => a ≠ b && meet a b))
    || (cisternNouns p).any (fun n => all.any (meet n))

/-- Product of the ORDER0 spans outside and inside the weight-block loop (R314, R335): V1 vectors, P plane pairs. -/
def aroundB (order0 v1 pp : Nat) : Nat × Nat :=
  match order0 with
  | 0 => (v1, pp)
  | 1 => (v1 * pp, 1)
  | 2 => (1, v1 * pp)
  | 3 => (1, pp * v1)
  | 4 => (pp * v1, 1)
  | _ => (pp, v1)

/-- L1 figure of a mode of a contraction (R335, R153, R155). -/
def modeCycles (m : MapEntry) (t : TileDesc) (d mode : Nat) : Nat :=
  let n := t.pwMax + 1
  let mm := t.paMax + 1
  let v1 := t1Of m t 2
  let rows := t1Of m t 3
  if 4 ≤ mode then
    let z := t.nzCap
    let p1 := v1 * n * mm
    let lu := 8 * n + 128
    let sg := min z ((z + 16256) / 128)
    let h := p1 * min z ((z + 508) / 128)
    lu + max (ceilDiv sg 128 * max p1 lu) (ceilDiv h 4) + 6 + 13
  else
    let sparse := mode = 1 ∨ mode = 2
    let b := if sparse then ceilDiv rows 256 else ceilDiv rows 128
    let lw := if sparse then 8 * n + 32 else 8 * n
    let (outer, g) := aroundB t.order0 v1 (n * mm)
    let c := if b = 1 then 0 else b * outer - 1
    lw + v1 * b * n * mm + c * (1 + (lw - g)) + d + 13

/-- The L1 figure of a map (R335): the sampled role, where the terms allow it, takes the DENSE row; a map that fits no contraction is one of
REDUCE's. -/
def l1Cycles (p : Plan) (m : MapEntry) (t : TileDesc) : Nat :=
  let d := if p.nouns.any (fun n => nKind n = 3) then 8 else 6
  let extra := if t.hashOk then t1Of m t 2 * t1Of m t 1 else 0
  let con := if contractMap m then
      (((List.range 6).filter (fun k => bit t.modes k)).map (fun k =>
        max (modeCycles m t d k) (if (k = 1 ∨ k = 2) ∧ 2 ∈ rolesOf m k then modeCycles m t d 0 else 0) + extra)).foldl max 0
    else 0
  let e1 := prodNat ((List.range m.loops).map (fun l => t.t1.getD l 1))
  let other := if otherMap m || !contractMap m then ceilDiv (24 * e1) 256 + 64 + (if t.hashOk then e1 else 0) else 0
  max con other

/-- T_L2 of a map's longest L2 tile (R334, R335). -/
def tileCycles (p : Plan) (m : MapEntry) (t : TileDesc) : Nat :=
  let n1 := prodNat ((List.range m.loops).map (fun l => ceilDiv (t.t2.getD l 1) (max 1 (t.t1.getD l 1))))
  n1 * l1Cycles p m t + (if t.hashOk then 5120 else 0) + (if t.rankable ≠ 0 then 16 else 0)

/-- A check of map and tile descriptor together. -/
def firstBadMap (p : Plan) (bad : MapEntry → TileDesc → Bool) : Option Nat :=
  firstBad (p.maps.zip p.tiles) (fun _ e => bad e.1 e.2)

/-- Where a region's spill area begins for member cluster k: a global address without bit 63 (R188). -/
def spillAddr (s : State) (r : Region) (k : Nat) : Nat :=
  if bit r.spillBase.toNat 63 then r.spillBase.toNat % 2 ^ 63 else gCis s.sys.waferNumber k (r.spillBase.toNat % 2 ^ 41)

/-- Store bytes at an address of this wafer. -/
def putBytes (s : State) (g : Nat) (bs : List Byte) : State := putAll s [(g * 8, 8 * bs.length, leNat bs)]

/-- Write a spill-area header (R224): COUNT, EVICTIONS, FLAGS. -/
def spillHeader (s : State) (r : Region) (k count evictions flags : Nat) : State :=
  putBytes s (spillAddr s r k)
    (leBytes 4 count ++ leBytes 4 r.spillCapacity ++ leBytes 4 evictions ++ leBytes 4 flags ++ zeros 48)

/-- The loader's checks in order: reason code and index of the first failure (R342). -/
def loadChecks (s : State) (t off : Nat) (img : List Byte) : List (Nat × Option Nat) :=
  let x := s.tenant t
  let h := readHeader img
  let p := readPlan s img
  [ (0x0101, headerBad (badHeader img h) <|> badRecords p img h),
    (0x0102, headerBad (h.tenant ≠ t || p.bl ≠ x.bl || x.plan.isSome)),
    (0x0103, headerBad (h.generation ≠ s.sys.generation)),
    (0x0104, firstBad p.regions (fun _ r => badRectangle s img h r)),
    (0x0105, firstBad p.regions (busyRegion s t p)),
    (0x0106, firstBad p.regions (fun _ r => wornRegion s r)),
    (0x0107, firstBad p.nouns (fun _ n => !fmtLegal n.format) <|> firstBadMap p (fun _ t => 15 < t.pwMax || 15 < t.paMax)),
    (0x0108, firstBad p.nouns (fun _ n => badDescriptor p n)),
    (0x0109, firstBad p.maps (fun _ m => badMapEntry m)),
    (0x010A, headerBad (!inGranules x off h.size) <|> firstBad p.nouns (fun _ n => badDdrNoun s x n)
      <|> firstBad p.regions (fun _ r => badDdrSpill s x r)),
    (0x010B, firstBad p.nouns (fun _ n => misaligned n) <|> firstBad p.regions (fun _ r => misalignedRegion r)),
    (0x010C, firstBadMap p (fun m t => badOrderField t.order2 m.loops || badOrderField t.order1 m.loops || 5 < t.order0)),
    (0x010D, firstBadMap p (badCounts p)),
    (0x010E, firstBad p.nouns (fun _ n => badGridNoun p n) <|> firstBadMap p (badGridMap p)),
    (0x010F, firstBad p.nouns (fun _ n => badMeta p n)),
    (0x0110, firstBadMap p (fun _ t => t.partRequant ≠ p.bl)),
    (0x0111, firstBad p.regions (badMerge p)),
    (0x0112, firstBad p.regions (fun _ r => badSpill p r)),
    (0x0113, firstBad p.regions (badSave p)),
    (0x0114, firstBadMap p badGroups),
    (0x0115, firstBad p.mcasts (fun _ g => badMcastSet p g) <|>
      firstBadMap p (fun m t => (List.range 4).any (badMcastSlot p m t))),
    (0x0116, firstBad p.regions (badBudget p) <|>
      firstBad p.nouns (fun _ n => !isDdrBase n && !bit n.base.toNat 63 && decide (planArea < n.base.toNat % 2 ^ 41 + footprint n))),
    (0x0117, firstBadMap p (fun m t => decide (8800 < tileCycles p m t))) ]

/-- The first failure of the loader's checks (R342). -/
def loadFailure (s : State) (t off : Nat) (img : List Byte) : Option (Nat × Nat) :=
  (loadChecks s t off img).findSome? (fun e => e.2.map (fun i => (e.1, i)))

/-! ## PLAN_LOAD -/

/-- The image at a DDR offset: as many bytes as its header says, at most 16 MiB (R294). -/
def imageAt (s : State) (off : Nat) : List Byte :=
  let size := leNat (readBytes 0 s.mem.ddr (off + 8) 4)
  readBytes 0 s.mem.ddr off (min (max size 128) (2 ^ 24))

/-- PLAN_LOAD (R293, R357): the load goes on in the background. -/
def planLoad (t : Nat) (s : State) (m : List Word) : State :=
  match ownDdr s (dword m 0) with
  | none => replyRejected s t (mSeq m) 0x03 rBadAddress
  | some off =>
    if off % 256 ≠ 0 || !inGranules (s.tenant t) off 128 then replyRejected s t (mSeq m) 0x03 rBadAddress
    else s.modTenant t (fun x => { x with loading := x.loading ++ [(mSeq m, off)] })

/-- PLAN_LOAD. -/
def execPlanLoad (t : Nat) (s : State) : Res := onMessage s t 0x03 (cleanOnly t [0xFFFFFFFF, 0xFFFFFFFF] (planLoad t))

/-- A member cluster as an accepted plan leaves it: LUT slots zero, doorbell modes from WAKE_MASK, error count zero (R297, R378, R380). -/
def clusterLoaded (now wake : Nat) (c : Cluster) : Cluster :=
  { c with
    luts := [], ecc := 0, idleSince := now
    bells := (List.range 4).map (fun i => { slots := 0, waking := i = 0 || bit wake i }) }

/-- Take an accepted plan into use: plan areas zero, spill headers written (R297, R435, R673; log 25 for the first reset epoch of a region). -/
def installPlan (s : State) (t : Nat) (p : Plan) : State :=
  let x := s.tenant t
  let p : Plan := { p with regions := p.regions.map (fun (r : Region) => { r with resetEpoch := x.epoch }) }
  let ms := p.regions.flatMap (fun r => r.members)
  let s := ms.foldl (fun s k =>
    let s : State := { s with mem := { s.mem with cistern := clearRun s.mem.cistern (cisKey k 0) planArea } }
    s.modCluster k (clusterLoaded s.nowUs x.wakeMask)) s
  let s := p.regions.foldl (fun s r => r.members.foldl (fun s k => spillHeader s r k 0 0 0) s) s
  s.modTenant t (fun x => { x with plan := some p })

/-- PLAN_LOAD_DONE (R342, R297): LOAD_REJECT with the first failure, or the plan is configured; then the load notice. -/
def execPlanLoadDone (t : Nat) (s : State) : Res :=
  match (s.tenant t).loading with
  | [] => .next s
  | (seq, off) :: rest =>
    let s := s.modTenant t (fun x => { x with loading := rest })
    let img := imageAt s off
    match loadFailure s t off img with
    | some (code, i) => .next (reply s t seq 0x03 2 code i 0 0)
    | none => .next (replyOk (installPlan s t (readPlan s img)) t seq 0x03)

end Sys2Proof.Machine
end

