-- ==== Sys2Proof/Machine/Tile.lean ====
section
/-!
DEFINITION. Sys2Proof/Machine/Tile.lean: a clause on one of its clusters: its sequence of tiles (R318, R324), what a contraction stages
for an L1 tile in each sparsity mode (R64 to R67, R136 to R151), the value of one pass (R65, R66, R86), the bounds and thresholds of
margin gating (R106 to R129), and the forming of outputs (R88 to R97, R165 to R168).
-/

namespace Sys2Proof.Machine

/-- Scale and bias of a channel: 1 and 0 without a TABLE (R253). -/
def scaleBias (s : State) (j : Job) (ch : Nat) : Word × Word :=
  match slotNoun j.plan (cTable j.c) with
  | none => (0x3F800000, 0)
  | some n =>
    let a := j.base s n + 8 * ch
    (BitVec.ofNat 32 (leNat (bytesAt s a 4)), BitVec.ofNat 32 (leNat (bytesAt s (a + 4) 4)))

/-! ## Staging a contraction (R64 to R67, R83, R136 to R151) -/

/-- The weight element of a row and a column. -/
def weightElem (s : State) (j : Job) (fixed r c : List Nat) : Elem :=
  j.elem s j.a (evalTerms j.map.a j.a (addIdx fixed (addIdx r c)))

/-- The activation element of a row and a vector. -/
def actElem (s : State) (j : Job) (fixed r v : List Nat) : Elem :=
  j.elem s j.b (evalTerms j.map.b j.b (addIdx fixed (addIdx r v)))

/-- The canonical mask of an S24V noun, and its base. -/
def maskOf (s : State) (j : Job) (n : Noun) : Noun × Nat := (j.plan.noun n.companion, j.base s (j.plan.noun n.companion))

/-- A mask byte keeps position p: a slot names it and its valid bit is 1 (R137, R173). -/
def keeps (b : MaskByte) (p : Nat) : Bool :=
  match maskSlot b p with
  | some 0 => b.v0
  | some _ => b.v1
  | none => false

/-- The forward plane keeps (n, k). -/
def keptForward (s : State) (m : Noun) (base n k : Nat) : Bool := keeps (maskByte (byteAt s (maskForward m base n (k / 4)))) (k % 4)

/-- The transposed plane keeps (n, k). -/
def keptTransposed (s : State) (m : Noun) (base n k : Nat) : Bool :=
  keeps (maskByte (byteAt s (maskTransposed m base k (n / 4)))) (n % 4)

/-- A cell of the array holds a weight for a row and a column (R137, R143, R257). -/
def cellOn (s : State) (j : Job) (fixed r c : List Nat) (e : Elem) : Bool :=
  if isSampled j.plan j.c then true
  else if cVerb j.c = 2 ∧ (cSparsity j.c = 1 ∨ cSparsity j.c = 2) then
    let idx := evalTerms j.map.a j.a (addIdx fixed (addIdx r c))
    let (m, mb) := maskOf s j j.a
    let n := (idx.getD 0 0).toNat
    let k := (idx.getD 1 0).toNat
    inExtents j.a idx && (if maskRole j.plan j.c = some 1 then keptTransposed s m mb n k else keptForward s m mb n k)
  else if 4 ≤ cSparsity j.c then e.stored
  else !(nKind j.a = 2 && !e.inside)

/-- The cells of one column over all rows of the tile, with whether each element is stored. -/
def columnCells (s : State) (j : Job) (fixed : List Nat) (rows : List (List Nat)) (c : List Nat) : List (WCell × Bool) :=
  rows.zipIdx.filterMap (fun e =>
    let x := weightElem s j fixed e.1 c
    if cellOn s j fixed e.1 c x then some ({ row := e.2, code := x.code, exp := x.exp }, x.stored) else none)

/-- The effective sparsity mode of the array: the sampled role runs as DENSE (R144). -/
def runMode (j : Job) : Nat := if isSampled j.plan j.c then 0 else cSparsity j.c

/-- Logical rows that one weight block covers (R64, R137). -/
def blockRows (mode : Nat) : Nat := if mode = 1 ∨ mode = 2 then 256 else 128

/-- The present 16-row bands of a BLOCK tile (R146). -/
def presentBands (nrows : Nat) (cells : List (List (WCell × Bool))) : List Nat :=
  (List.range (ceilDiv nrows 16)).filter (fun q => cells.any (fun col => col.any (fun e => e.2 && e.1.row / 16 = q)))

/-- The rows of each weight block: consecutive rows, or eight present bands in BLOCK mode (R64, R137, R147). -/
def rowBlocks (mode nrows : Nat) (cells : List (List (WCell × Bool))) : List (List Nat) :=
  if mode = 3 then
    let bands := presentBands nrows cells
    (List.range (ceilDiv bands.length 8)).map (fun b =>
      ((bands.drop (8 * b)).take 8).flatMap (fun q => (List.range 16).map (fun i => 16 * q + i)))
  else
    (List.range (ceilDiv nrows (blockRows mode))).map (fun b =>
      (List.range (blockRows mode)).map (fun i => b * blockRows mode + i))

/-- The weight blocks of a tile in the lockstep modes. -/
def denseBlocks (mode nrows : Nat) (cells : List (List (WCell × Bool))) : List WBlock :=
  (rowBlocks mode nrows cells).zipIdx.map (fun e =>
    { block := e.2, cells := cells.map (fun col => (col.filter (fun x => e.1.contains x.1.row)).map (fun x => x.1)) })

/-- Cut a column's cells into runs of at most 128 (R150). -/
def runsOf128 (fuel : Nat) (l : List WCell) : List (List WCell) :=
  match fuel with
  | 0 => []
  | n + 1 => if l.isEmpty then [] else l.take 128 :: runsOf128 n (l.drop 128)

/-- The segments of an unstructured chunk in stream order: column and cells (R150). DESIGN CHOICE (log 93): where ORDER1 or the terms
flatten the chunk's columns or rows in another order than the stored one, the stream order is the flattened one. -/
def segmentsOf (cells : List (List (WCell × Bool))) : List (Nat × List WCell) :=
  cells.zipIdx.flatMap (fun e => (runsOf128 (e.1.length + 1) (e.1.map (fun x => x.1))).map (fun r => (e.2, r)))

/-- The lanes with the segments dealt to them (R150). -/
def dealLanes (n : Nat) : List Lane :=
  (List.range 128).map (fun i => { segs := (List.range n).filter (fun g => g % 128 = i) })

/-- The staged activations of a vector. -/
def stageActs (s : State) (j : Job) (fixed : List Nat) (rows : List (List Nat)) (v : List Nat) : List AElem :=
  rows.map (fun r =>
    let e := actElem s j fixed r v
    { code := e.code, exp := e.exp, on := inRun j 3 r && !(nKind j.b = 2 && !e.inside) })

/-! ## Margin gating (R102 to R131) -/

/-- Active rows of the reduction held in the member's accumulators: the run extents within its share (R107). -/
def activeRows (j : Job) : Nat :=
  let ds := shareDigits j.tile j.map.loops j.member
  prodNat ((j.map.loopsOf 3).map (fun l =>
    let r := shareRange j.tile l (ds.getD l 0)
    min r.2 (j.f.extents.getD l 0) - r.1))

/-- Active rows of the whole reduction. -/
def allRows (j : Job) : Nat :=
  prodNat ((j.map.loopsOf 3).map (fun l => min (j.tile.extent.getD l 0) (j.f.extents.getD l 0)))

/-- K_g (R107). -/
def gatingRows (j : Job) : Nat :=
  let k := activeRows j
  let mode := cSparsity j.c
  if mode = 1 ∨ mode = 2 then min k (2 * ceilDiv k 4) else k

/-- The tile's totals stay in the accumulators at the end of the clause: HOLD, and no other output tile follows (R268). -/
def heldTile (j : Job) (t : Tile) : Bool :=
  cHold j.c && ((tileSeq j).filter (fun n => decide (t.l2 < n.l2 ∨ (n.l2 = t.l2 ∧ t.l1 < n.l1)))).all (fun n => outKey j n = outKey j t)

/-- The decision kind that gates a tile: NONE in the parts of a split without PARTIAL_GATE (R127), and for RANK under BL = 1 (R131).
DEDUCED (log 94): NONE too where the total itself is what leaves the accumulator and no outcome is formed from it, that is with TARGET
HASH (R123, R336) and for the output tile that HOLD keeps (R268). -/
def gatedDecision (s : State) (j : Job) (t : Tile) : Nat :=
  if splits j.map j.tile && !cPartialGate j.c then 0
  else if cDecision j.c = 3 && (s.tenant j.f.tenant).bl then 0
  else if cTarget j.c = 1 || heldTile j t then 0
  else cDecision j.c

/-- The low outcome of R111 for an accumulator value. -/
def lowOutcome (decision mode : Nat) (eacc : Int) (sc bi : Word) (a : Int) : Bool :=
  match requantT a eacc sc bi with
  | .nan => decision = 1
  | .inf neg => neg
  | .fin m e => if decision = 1 then decide (roundInt mode 0 m e ≤ 0) else decide (m < 0)

/-- The last value of an interval at which a test that turns from true to false is true: f lo is true and f hi is false. -/
def lastTrue (f : Int → Bool) : Nat → Int → Int → Int
  | 0, lo, _ => lo
  | n + 1, lo, hi =>
    if hi - lo ≤ 1 then lo
    else
      let mid := (lo + hi) / 2
      if f mid then lastTrue f n mid hi else lastTrue f n lo mid

/-- A channel is open (R110). -/
def channelOpen (sc bi : Word) : Bool :=
  bits sc.toNat 30 0 = 0 || !fpFinite sc || !fpFinite bi || fpSubnormal sc || fpSubnormal bi

/-- T_c of a channel with the cases of R113 (R112). -/
def thresholdOf (decision mode : Nat) (eacc : Int) (sc bi : Word) : Threshold :=
  if channelOpen sc bi then .openChannel
  else
    let low := lowOutcome decision mode eacc sc bi
    if low accMin && low accMax then .always
    else if !low accMin && !low accMax then .never
    else if low accMin then .upTo (lastTrue low 60 accMin accMax)
    else .downTo (lastTrue (fun a => !low a) 60 accMin accMax + 1)

/-- The threshold of a part under PARTIAL_GATE (R129). -/
def partThreshold (kp k : Nat) : Threshold → Threshold
  | .upTo t => .upTo (Int.fdiv (t * kp) k)
  | .downTo t => .downTo (-(Int.fdiv (-(t * kp)) k))
  | t => t

/-- The significance order of the plane pairs (R71). -/
def planePairs (n m : Nat) : List (Nat × Nat) :=
  (List.range (n + m - 1)).reverse.flatMap (fun sg =>
    (List.range n).reverse.filterMap (fun i => if i ≤ sg ∧ sg - i < m then some (i, sg - i) else none))

/-- sgn of a plane pair is −1 (R65). -/
def negPair (wNeg aNeg : Bool) (n m i j : Nat) : Bool := xor (wNeg && decide (i + 1 = n)) (aNeg && decide (j + 1 = m))

/-- U_s and −L_s of R106; for BIPOLAR they are K_g until nothing remains. -/
def bounds (r : TileRun) (sg : Nat) : Nat × Nat :=
  if r.bipolar then (if sg = 0 then (0, 0) else (r.kg, r.kg))
  else
    let ps := (planePairs r.n r.m).filter (fun p => decide (p.1 + p.2 < sg))
    let sum := fun (neg : Bool) =>
      sumNat ((ps.filter (fun p => negPair r.wNeg r.aNeg r.n r.m p.1 p.2 == neg)).map (fun p => 2 ^ (p.1 + p.2)))
    (r.kg * sum false, r.kg * sum true)

/-- The settlement test of CLAMP and SIGN: some false is low, some true is high (R113, R125). -/
def settleTest (decision q : Nat) (t : Threshold) (a : Int) (u l : Nat) : Option Bool :=
  let hi := a + (u / 2 ^ q : Nat)
  let lo := a - (l / 2 ^ q : Nat)
  let high := fun (b : Bool) => if decision = 2 && b then some true else none
  match t with
  | .openChannel => none
  | .never => high true
  | .always => some false
  | .upTo t => if hi ≤ t then some false else high (decide (lo > t))
  | .downTo t => if lo ≥ t then some false else high (decide (hi < t))

/-! ## Staging an L1 tile -/

/-- Stage an L1 tile of a contraction. -/
def stageTile (s : State) (j : Job) (t : Tile) : TileRun :=
  let c := j.c
  let fixed := fixedIdx j t
  let cols := classIdx j t 1
  let vecs := classIdx j t 2
  let rows := classIdx j t 3
  let mode := runMode j
  let cells := cols.map (columnCells s j fixed rows)
  let un := 4 ≤ mode
  let segs := if un then segmentsOf cells else []
  let n := cPw c + 1
  let m := cPa c + 1
  let dec := gatedDecision s j t
  let thr := cols.map (fun col =>
    let (sc, bi) := scaleBias s j (channelOf j col)
    let t := thresholdOf dec (cRounding c) (cEacc c) sc bi
    if splits j.map j.tile then partThreshold (activeRows j) (allRows j) t else t)
  let samp := if isSampled j.plan c then
      let (mk, mb) := maskOf s j j.out
      vecs.map (fun v => cols.map (fun col =>
        let idx := evalTerms j.map.out j.out (addIdx fixed (addIdx v col))
        inExtents j.out idx && keptForward s mk mb (idx.getD 0 0).toNat (idx.getD 1 0).toNat))
    else []
  { uid := j.f.uid, l2 := t.l2, l1 := t.l1, n := n, m := m
    wNeg := nKind j.a = 1 || nKind j.a = 3, aNeg := nKind j.b = 1 || nKind j.b = 3
    bipolar := nKind j.a = 2, bfp := nKind j.a = 3 || nKind j.b = 3, mode := mode, eacc := cEacc c, order0 := j.tile.order0
    blocks := if un then segs.zipIdx.map (fun e => { block := e.2, cells := [e.1.2] }) else denseBlocks mode rows.length cells
    lanes := if un then dealLanes segs.length else []
    segCols := segs.map (fun e => e.1)
    acts := vecs.map (stageActs s j fixed rows)
    colOn := cols.map (inRun j 1), vecOn := vecs.map (inRun j 2), sampled := samp
    decision := dec, q := cQ c, kg := gatingRows j
    thresholds := if dec = 1 || dec = 2 then thr else []
    rankK := if cDecision c = 3 && cTarget c = 0 then cK c else 0
    last := isLastOfOutput j t }

/-! ## Passes -/

/-- Bits i of a weight and j of an activation meet in a cell (R65, R66). -/
def cellHit (bipolar : Bool) (i j : Nat) (w : WCell) (a : AElem) : Bool :=
  a.on && (if bipolar then bit w.code i == bit a.code j else bit w.code i && bit a.code j)

/-- The activation at a cell's row. -/
def actAt (acts : List AElem) (w : WCell) : AElem := acts.getD w.row { code := 0, on := false }

/-- The BFP value of a pass in one column: its 16-row segments shifted and summed, and INEXACT (R84, R86). DESIGN CHOICE (log 95): a
segment whose rows lie in two blocks of a noun takes the larger of their exponents. -/
def bfpValue (sgn : Int) (eacc : Int) (i j : Nat) (cells : List WCell) (acts : List AElem) : Int × Bool :=
  (List.range 8).foldl (fun (acc : Int × Bool) g =>
    let seg := (cells.drop (16 * g)).take 16
    let p := seg.countP (fun w => cellHit false i j w (actAt acts w))
    let ew := (seg.map (fun w => w.exp)).foldl max 0
    let ea := (seg.map (fun w => (actAt acts w).exp)).foldl max 0
    let t := sgn * (p * 2 ^ (i + j) : Nat)
    let k := (ew : Int) + ea - 254 - eacc
    (acc.1 + alignShift t k, acc.2 || alignDrops t k)) (0, false)

/-- The value that a pass adds to one column, and whether it sets INEXACT (R65, R66, R86). -/
def passValue (r : TileRun) (i j : Nat) (cells : List WCell) (acts : List AElem) : Int × Bool :=
  let sgn : Int := if negPair r.wNeg r.aNeg r.n r.m i j then -1 else 1
  if r.bfp then bfpValue sgn r.eacc i j cells acts
  else
    let p := cells.countP (fun w => cellHit r.bipolar i j w (actAt acts w))
    if r.bipolar then (2 * (p : Int) - (cells.countP (fun w => (actAt acts w).on) : Nat), false)
    else (sgn * (p * 2 ^ (i + j) : Nat), false)

/-- The cells of a weight block or segment, column by column. -/
def blockCells (r : TileRun) (b : Nat) : List (List WCell) :=
  match r.blocks.find? (fun x => x.block = b) with
  | some x => x.cells
  | none => []

/-- Whether a vector updates a column: the sampled role updates kept positions only (R144). -/
def updates (r : TileRun) (v c : Nat) : Bool := r.sampled.isEmpty || (r.sampled.getD v []).getD c false

/-- The column updates of a pass from the weight register: entry key and value, and INEXACT (R64, R65, R144, R151). -/
def passUpdates (w : WBlock) (r : TileRun) (p : PassRef) : List (Nat × Int) × Bool :=
  let acts := r.acts.getD p.vec []
  match p.lane with
  | some (lane, col) =>
    let x := passValue r p.i p.j (w.cells.getD lane []) acts
    ([(128 * p.vec + col, x.1)], x.2)
  | none =>
    let xs := w.cells.zipIdx.filter (fun e => updates r p.vec e.2)
    (xs.map (fun e => (128 * p.vec + e.2, (passValue r p.i p.j e.1 acts).1)),
     xs.any (fun e => (passValue r p.i p.j e.1 acts).2))

/-- A pass with what it reads from the weight register in its cycle of issue (R74). -/
def withUpdates (w : WBlock) (r : TileRun) (p : PassRef) : PassRef :=
  let u := passUpdates w r p
  { p with updates := u.1, inexact := u.2 }

/-! ## The order of passes (R71, R72, R119, R314) -/

/-- Vector, block and pair at a position of the static order (R314). -/
def posDecode (order0 v b p pos : Nat) : Nat × Nat × Nat :=
  let v := max 1 v
  let b := max 1 b
  let p := max 1 p
  match order0 with
  | 0 => (pos / (b * p), pos / p % b, pos % p)
  | 1 => (pos / (p * b), pos % b, pos / b % p)
  | 2 => (pos / p % v, pos / (v * p), pos % p)
  | 3 => (pos % v, pos / (p * v), pos / v % p)
  | 4 => (pos / b % v, pos % b, pos / (v * b))
  | _ => (pos % v, pos / v % b, pos / (b * v))

/-- The position of a vector's last pass in the static order. -/
def lastPos (order0 v b p vec : Nat) : Nat :=
  match order0 with
  | 0 => vec * (b * p) + (b * p - 1)
  | 1 => vec * (b * p) + (b * p - 1)
  | 2 => (b - 1) * (v * p) + vec * p + (p - 1)
  | 4 => (p - 1) * (v * b) + vec * b + (b - 1)
  | _ => (b * p - 1) * v + vec

/-- The sequence of one vector's passes, as block and pair index: blocks outside pairs in orders 0, 2, 3, inside in 1, 4, 5. -/
def vecSeq (order0 b p : Nat) : List (Nat × Nat) :=
  if order0 = 0 ∨ order0 = 2 ∨ order0 = 3 then
    (List.range b).flatMap (fun x => (List.range p).map (fun y => (x, y)))
  else (List.range p).flatMap (fun y => (List.range b).map (fun x => (x, y)))

def TileRun.unstructured (r : TileRun) : Bool := decide (4 ≤ r.mode)
def TileRun.vecs (r : TileRun) : Nat := r.vecOn.length
def TileRun.pairs (r : TileRun) : List (Nat × Nat) := planePairs r.n r.m
def TileRun.total (r : TileRun) : Nat := r.vecs * r.blocks.length * r.pairs.length

/-- The window of R119 applies. -/
def TileRun.windowed (r : TileRun) : Bool := r.decision ≠ 0 && decide (3 ≤ r.order0) && !r.unstructured

/-- D (R75). -/
def TileRun.latency (r : TileRun) : Nat := if r.bfp then 8 else 6

/-- Cycles that loading a weight block or a lane set takes (R70, R139, R153). -/
def TileRun.loadCycles (r : TileRun) : Nat :=
  if r.unstructured then 8 * r.n + 128 else if r.mode = 1 ∨ r.mode = 2 then 8 * r.n + 32 else 8 * r.n

/-- The settlement of an output. -/
def settlementOf (r : TileRun) (key : Nat) : Option Settlement := r.settled.find? (fun e => e.key = key)

/-- An output has settled through a settlement that has taken effect (R118). -/
def settledNow (r : TileRun) (key : Nat) : Bool := r.settled.any (fun e => e.key = key && e.inEffect)

/-- An output has settled: its outcome. -/
def settledAt (r : TileRun) (key : Nat) : Option Bool := (settlementOf r key).map (fun e => e.high)

/-- Every output of the vector inside the output extent has settled in effect (R118). -/
def vecGated (r : TileRun) (v : Nat) : Bool :=
  r.decision ≠ 0 && r.colOn.any id && (r.colOn.zipIdx.all (fun e => !e.1 || settledNow r (128 * v + e.2)))

/-- The next pass to issue in the static order, and how many passes were skipped before it (R68, R118). -/
def nextStatic (r : TileRun) : Nat → Nat → Nat → Nat × Nat
  | 0, pos, sk => (pos, sk)
  | n + 1, pos, sk =>
    if r.total ≤ pos then (r.total, sk)
    else
      let v := (posDecode r.order0 r.vecs r.blocks.length r.pairs.length pos).1
      if !(r.vecOn.getD v false) then nextStatic r n (pos + 1) sk
      else if vecGated r v then nextStatic r n (pos + 1) (sk + 1)
      else (pos, sk)

/-- Bring vectors into the window, and take out those that are done or gated (R119). -/
def refill (r : TileRun) : Nat → TileRun
  | 0 => r
  | n + 1 =>
    let len := r.blocks.length * r.pairs.length
    let gone := r.window.filter (fun w => vecGated r w.vec || decide (len ≤ w.next))
    if !gone.isEmpty then
      refill { r with
        window := r.window.filter (fun w => !(vecGated r w.vec || decide (len ≤ w.next)))
        skipped := r.skipped + sumNat (gone.map (fun w => len - w.next)) } n
    else if r.window.length < 8 ∧ r.nextVec < r.vecs then
      let v := r.nextVec
      refill { r with
        nextVec := v + 1
        window := if r.vecOn.getD v false then r.window ++ [{ vec := v }] else r.window } n
    else r

/-- The window vector whose previous pass issued longest ago (R119). DESIGN CHOICE (log 96): a vector that has just entered the window, and so
has no previous pass, comes before those that have one, and among several of them the first to enter. -/
def oldest (ws : List WindowVec) : Option WindowVec :=
  ws.foldl (fun acc w => match acc with
    | none => some w
    | some a => if w.last < a.last then some w else some a) none

/-- Move to the next pass: skip the passes that do not issue (R68, R118, R119). -/
def seekPass (r : TileRun) : TileRun :=
  if r.windowed then refill r (2 * r.vecs + 4)
  else if r.unstructured then r
  else
    let (pos, sk) := nextStatic r (r.total + 1) r.pos 0
    { r with pos := pos, skipped := r.skipped + sk }

/-- The pass that issues next in the lockstep modes, after seekPass. -/
def nextPass (r : TileRun) : Option PassRef :=
  let mk := fun (v b p : Nat) => let ij := r.pairs.getD p (0, 0)
    ({ cycle := r.cycle + 1, vec := v, block := b, i := ij.1, j := ij.2 } : PassRef)
  if r.windowed then
    match oldest r.window with
    | none => none
    | some w =>
      let bp := (vecSeq r.order0 r.blocks.length r.pairs.length).getD w.next (0, 0)
      some (mk w.vec bp.1 bp.2)
  else if r.pos < r.total then
    let d := posDecode r.order0 r.vecs r.blocks.length r.pairs.length r.pos
    some (mk d.1 d.2.1 d.2.2)
  else none

/-- Mark the next pass as issued. -/
def issued (r : TileRun) (p : PassRef) : TileRun :=
  let r := { r with cycle := r.cycle + 1, issued := r.issued + 1, inFlight := r.inFlight ++ [p] }
  if r.windowed then
    { r with window := r.window.map (fun w => if w.vec = p.vec then { w with next := w.next + 1, last := p.cycle } else w) }
  else { r with pos := r.pos + 1 }

/-- A lane can run a segment in a cycle: its weight register holds it, or the shadow register's lane set does and has been loaded by
then (R64, R70, R151). -/
def laneHolds (r : TileRun) (cycle : Nat) (l : Lane) (g : Nat) : Bool :=
  l.loaded = some g || (r.shadowOf = some (g / 128) && decide (r.loadFrom + r.loadCycles < cycle))

/-- One lane's next pass in a cycle, skipping the vectors outside the extent and those whose output has settled (R151, R154): the lane
after it, the pass, and passes skipped. A lane whose next segment is not loaded yet waits. -/
def lanePass (r : TileRun) (cycle laneNo : Nat) : Nat → Lane → Nat → Lane × Option PassRef × Nat
  | 0, l, sk => (l, none, sk)
  | n + 1, l, sk =>
    match l.segs with
    | [] => (l, none, sk)
    | g :: rest =>
      if r.vecs ≤ l.vec then lanePass r cycle laneNo n { l with segs := rest, vec := 0, pair := 0 } sk
      else if !(r.vecOn.getD l.vec false) then lanePass r cycle laneNo n { l with vec := l.vec + 1, pair := 0 } sk
      else
        let col := r.segCols.getD g 0
        if r.pairs.length ≤ l.pair then lanePass r cycle laneNo n { l with vec := l.vec + 1, pair := 0 } sk
        else if settledNow r (128 * l.vec + col) then
          lanePass r cycle laneNo n { l with vec := l.vec + 1, pair := 0 } (sk + (r.pairs.length - l.pair))
        else if !laneHolds r cycle l g then (l, none, sk)
        else
          let ij := r.pairs.getD l.pair (0, 0)
          ({ l with pair := l.pair + 1, loaded := some g },
           some { cycle := cycle, vec := l.vec, block := g, i := ij.1, j := ij.2, lane := some (laneNo, col) }, sk)

/-- What every lane but the held ones does in a cycle. -/
def lanesAt (held : List Nat) (r : TileRun) (cycle : Nat) : List (Lane × Option PassRef × Nat) :=
  r.lanes.zipIdx.map (fun e =>
    if held.contains e.2 then (e.1, none, 0) else lanePass r cycle e.2 ((r.vecs + 2) * (e.1.segs.length + 1) + 2) e.1 0)

/-- The cycle in which the lanes issue next: the next cycle, or where every lane waits for the lane set that is loading, the cycle after
its swap; none where no lane can issue before another load (R70, R151). -/
def laneCycle (held : List Nat) (r : TileRun) : Option Nat :=
  let can := fun (n : Nat) => (lanesAt held r n).any (fun o => o.2.1.isSome)
  let loaded := max (r.cycle + 1) (r.loadFrom + r.loadCycles + 1)
  if !held.isEmpty || can (r.cycle + 1) then some (r.cycle + 1)
  else if r.shadowOf.isSome && can loaded then some loaded
  else none

/-- Some lane still needs a segment of a lane set and has not taken it into its weight register. -/
def setPending (lanes : List Lane) (set : Nat) : Bool :=
  lanes.any (fun l => l.segs.any (fun g => g / 128 = set && l.loaded ≠ some g))

/-- The weight register after the lanes have taken their new segments from the shadow register (R64). -/
def swapLanes (old new : List Lane) (weights shadow : WBlock) : WBlock :=
  { block := shadow.block
    cells := (List.range 128).map (fun i =>
      if (new.getD i {}).loaded = (old.getD i {}).loaded then weights.cells.getD i [] else shadow.cells.getD i []) }

/-- One cycle of the lanes: every lane but the held ones issues its next pass, from its own weight register (R151, R152). -/
def issueLanes (held : List Nat) (cycle : Nat) (c : Cluster) (r : TileRun) : Cluster :=
  let outs := lanesAt held r cycle
  let lanes := outs.map (fun o => o.1)
  let w := swapLanes r.lanes lanes c.weights c.shadow
  let ps := (outs.filterMap (fun o => o.2.1)).map (withUpdates w r)
  let taken := match r.shadowOf with
    | some set => !setPending lanes set
    | none => false
  { c with
    weights := w
    run := some { r with
      cycle := cycle, lanes := lanes, issued := r.issued + ps.length
      skipped := r.skipped + sumNat (outs.map (fun o => o.2.2)), inFlight := r.inFlight ++ ps
      shadowOf := if taken then none else r.shadowOf, loadFrom := if taken then cycle else r.loadFrom } }

/-- A lane has no pass left to issue for a vector. -/
def laneDone (r : TileRun) (v : Nat) (l : Lane) : Bool :=
  match l.segs with
  | [] => true
  | [g] => decide (v < l.vec) || (l.vec = v && decide (r.pairs.length ≤ l.pair)) || settledNow r (128 * v + r.segCols.getD g 0)
  | _ => false

/-- A vector has no pass left to issue. -/
def vecIssued (r : TileRun) (v : Nat) : Bool :=
  if !(r.vecOn.getD v false) then true
  else if r.unstructured then r.lanes.all (laneDone r v)
  else if vecGated r v then true
  else if r.windowed then decide (v < r.nextVec) && r.window.all (fun w => w.vec ≠ v || decide (r.blocks.length * r.pairs.length ≤ w.next))
  else r.total = 0 || decide (lastPos r.order0 r.vecs r.blocks.length r.pairs.length v < r.pos)

/-- A vector's passes have all issued or been skipped, and committed. -/
def vecDone (r : TileRun) (v : Nat) : Bool := vecIssued r v && r.inFlight.all (fun p => p.vec ≠ v)

/-- Every pass of the L1 tile has issued or been skipped, and committed. -/
def tileDone (r : TileRun) : Bool := r.inFlight.isEmpty && (List.range r.vecs).all (vecIssued r)

/-- No pass is left to issue. -/
def nothingLeft (r : TileRun) : Bool := (List.range r.vecs).all (vecIssued r)

/-- Passes that the lanes have not issued, of the vectors inside the extent. -/
def lanesLeft (r : TileRun) : Nat :=
  let on := fun (lo : Nat) => (List.range r.vecs).countP (fun v => decide (lo ≤ v) && r.vecOn.getD v false)
  sumNat (r.lanes.map (fun l => match l.segs with
    | [] => 0
    | _ :: rest =>
      let here := if l.vec < r.vecs ∧ r.vecOn.getD l.vec false then r.pairs.length - l.pair else 0
      here + (on (l.vec + 1) + rest.length * on 0) * r.pairs.length))

/-- The passes that a run skipped, those included that its last settlements leave unissued (R122). -/
def skippedAll (r : TileRun) : Nat := if r.unstructured then r.skipped + lanesLeft r else (seekPass r).skipped

/-! ## Boundaries (R73, R108, R154) -/

/-- The significance at or above which a vector has no pass still to run: one above the highest pair that remains (R73). -/
def boundaryOf (r : TileRun) (v : Nat) : Nat :=
  let rest := (vecSeq r.order0 r.blocks.length r.pairs.length).drop (tget 0 r.committed v)
  (rest.map (fun bp => let ij := r.pairs.getD bp.2 (0, 0); ij.1 + ij.2 + 1)).foldl max 0

/-- The same for one output of the unstructured modes: over the segments of its column (R154). -/
def laneBoundary (r : TileRun) (v c : Nat) : Nat :=
  let segs := (List.range r.segCols.length).filter (fun g => r.segCols.getD g 0 = c)
  (segs.map (fun g =>
    ((r.pairs.drop (tget 0 r.committed (128 * g + v))).map (fun ij => ij.1 + ij.2 + 1)).foldl max 0)).foldl max 0

/-- The boundary that an output has reached. -/
def reached (r : TileRun) (v c : Nat) : Nat := if r.unstructured then laneBoundary r v c else boundaryOf r v

/-- The k-th largest of a list of values, none when there are fewer. -/
def kthLargest (k : Nat) (l : List Int) : Option Int := ((l.insertionSort (fun a b => a ≥ b))[k - 1]?)

/-- The test of one output at a boundary (R109, R113, R116, R125): `floor` is F for RANK. -/
def testOutput (r : TileRun) (c : Nat) (a : Int) (sg : Nat) (floor : Option Int) : Option Bool :=
  let (u, l) := bounds r sg
  if r.decision = 3 then
    match floor with
    | none => none
    | some f => if a + (u / 2 ^ r.q : Nat) < f then some false else none
  else settleTest r.decision r.q (r.thresholds.getD c .openChannel) a u l

/-! ## Forming outputs (R88 to R97, R165 to R168) -/

/-- How a clause requantizes: format, accumulation exponent, rounding mode, seed. -/
structure Requant where
  eacc : Int
  mode : Nat
  seed : Nat
deriving DecidableEq, Repr

/-- t of an output (R88). -/
def itemT (q : Requant) (sb : Nat → Word × Word) (it : OutItem) : Fp :=
  match it.t with
  | some t => t
  | none => let (sc, bi) := sb it.ch; requantT it.acc q.eacc sc bi

/-- r of an output (R91). -/
def itemR (q : Requant) (n : Noun) (it : OutItem) : Nat := stochR q.seed (linearIndex n (it.idx.map Int.toNat))

/-- The code of one output that is not BFP, and CLIP. -/
def itemCode (q : Requant) (n : Noun) (sb : Nat → Word × Word) (it : OutItem) : Nat × Bool :=
  match it.forced with
  | some code => (code, false)
  | none =>
    if nKind n = 4 then (accWord it.acc, false)
    else
      let x := quantize (nKind n) (nWidth n) q.mode (itemR q n it) (itemT q sb it)
      (x.code, x.clip)

/-- The block or group of an element: its outer indices and its number along the innermost dimension. -/
def blockKey (n : Noun) (idx : List Int) (size : Nat) : List Nat :=
  (idx.take n.dims).map Int.toNat ++ [(idx.getD n.dims 0).toNat / size]

/-- The 16 × 16 tile of a BAM element: its outer indices, its tile row and tile column. -/
def bamKey (n : Noun) (idx : List Int) : List Nat :=
  (idx.take (n.dims - 1)).map Int.toNat ++ [(idx.getD (n.dims - 1) 0).toNat / 16, (idx.getD n.dims 0).toNat / 16]

/-- The elements of a noun are written in groups: BFP blocks, BPK groups, 16 × 16 BAM tiles (R96, R168). -/
def grouped (n : Noun) : Bool := nKind n = 3 || n.layout = 5 || n.layout = 6

/-- The group that an element belongs to. -/
def groupOfElem (n : Noun) (idx : List Int) : List Nat :=
  if n.layout = 6 then bamKey n idx else if n.layout = 5 then blockKey n idx 64 else blockKey n idx 16

/-- Positions of a span of a dimension from a start, inside its extent. -/
def spanIn (n : Noun) (d start size : Nat) : Nat := min size (nExt n d - start)

/-- Number of elements of a group inside the extents. -/
def groupElems (n : Noun) (key : List Nat) : Nat :=
  if n.layout = 6 then
    spanIn n (n.dims - 1) (16 * key.getD (n.dims - 1) 0) 16 * spanIn n n.dims (16 * key.getD n.dims 0) 16
  else if n.layout = 5 then spanIn n n.dims (64 * key.getD n.dims 0) 64
  else spanIn n n.dims (16 * key.getD n.dims 0) 16

/-- Elements that can be written now, and those that wait for the rest of their group; at the end nothing waits (log 92). -/
def readyElems {α : Type} (n : Noun) (ix : α → List Int) (xs : List α) (atEnd : Bool) : List α × List α :=
  if !grouped n || atEnd then (xs, [])
  else
    let keys := (xs.map (fun x => groupOfElem n (ix x))).dedup
    let full := keys.filter (fun k =>
      decide (groupElems n k ≤ ((xs.filter (fun x => groupOfElem n (ix x) = k)).map (fun x => ix x)).dedup.length))
    (xs.filter (fun x => full.contains (groupOfElem n (ix x))), xs.filter (fun x => !full.contains (groupOfElem n (ix x))))

/-- The surplus mantissas of a final block that the extent covers in part are stored as zero (R101). -/
def surplusWrites (n : Noun) (base : Nat) (key : List Nat) : List (Nat × Nat × Nat) :=
  ((List.range 16).filter (fun i => decide (nExt n n.dims ≤ 16 * key.getD n.dims 0 + i))).filterMap (fun i =>
    match densePlace n base (key.take n.dims ++ [16 * key.getD n.dims 0 + i]) with
    | .at ba _ => some (ba, nWidth n, 0)
    | .absent => none)

/-- BFP outputs, block by block: bit writes and CLIP (R96, R101). -/
def bfpWrites (q : Requant) (n : Noun) (base : Nat) (sb : Nat → Word × Word) (items : List OutItem) :
    List (Nat × Nat × Nat) × Bool :=
  let keys := (items.map (fun it => blockKey n it.idx 16)).dedup
  let outs := keys.map (fun k =>
    let mine := items.filter (fun it => blockKey n it.idx 16 = k)
    let (ex, codes, clip) := bfpBlock (nWidth n) q.mode (mine.map (fun it => (itemT q sb it, itemR q n it)))
    let place := fun (it : OutItem) => densePlace n base (it.idx.map Int.toNat)
    let ws := (mine.zip codes).flatMap (fun (e : OutItem × Nat) => match place e.1 with
      | .at ba (some ea) => [(ea * 8, 8, ex), (ba, nWidth n, e.2)]
      | _ => [])
    (ws ++ surplusWrites n base k, clip))
  (outs.flatMap (fun o => o.1), outs.any (fun o => o.2))

/-- The stored code of an element: all-zero bits when it is not stored or outside (R257). -/
def storedCode (e : Elem) : Nat := if e.stored then e.code else 0

/-- Copied BFP elements, block by block: each block takes the exponent of its stored elements, zero where it has none (R101, R257). -/
def bfpCopy (n : Noun) (base : Nat) (coded : List (List Int × Elem)) : List (Nat × Nat × Nat) :=
  let keys := (coded.map (fun e => blockKey n e.1 16)).dedup
  keys.flatMap (fun k =>
    let mine := coded.filter (fun e => blockKey n e.1 16 = k)
    let ex := ((mine.filter (fun e => e.2.stored)).getLast?.map (fun e => e.2.exp)).getD 0
    mine.flatMap (fun e => match densePlace n base (e.1.map Int.toNat) with
      | .at ba (some ea) => [(ea * 8, 8, ex), (ba, nWidth n, storedCode e.2)]
      | _ => []) ++ surplusWrites n base k)

/-- BPK elements: each group of 64 in its fixed slot (R168, R174). -/
def bpkWrites (n : Noun) (base : Nat) (coded : List (List Int × Elem)) : List (Nat × Nat × Nat) :=
  let keys := (coded.map (fun e => blockKey n e.1 64)).dedup
  keys.flatMap (fun k =>
    let mine := coded.filter (fun e => blockKey n e.1 64 = k)
    let slot := base + rowOffset n (k.take n.dims) + k.getD n.dims 0 * (8 + 8 * nWidth n)
    let val := fun (i : Nat) => match mine.reverse.find? (fun e => (e.1.getD n.dims 0).toNat % 64 = i) with
      | some e => storedCode e.2
      | none => 0
    let on := (List.range 64).filter (fun i => val i ≠ 0)
    (slot * 8, 64, sumNat (on.map (fun i => 2 ^ i)))
      :: on.zipIdx.map (fun e => ((slot + 8) * 8 + e.2 * nWidth n, nWidth n, val e.1)))

/-- BAM elements: a tile's map bit, and its elements in dense layout when it is present (R168, R175). -/
def bamWrites (n m : Noun) (base mapBase : Nat) (coded : List (List Int × Elem)) : List (Nat × Nat × Nat) :=
  let keys := (coded.map (fun e => bamKey n e.1)).dedup
  keys.flatMap (fun k =>
    let mine := coded.filter (fun e => bamKey n e.1 = k)
    let absent := mine.all (fun e => storedCode e.2 = 0)
    let at0 := (mine.headD ([], {})).1.map Int.toNat
    (flatBitAddr m mapBase (bamBit n at0), 1, b2n absent)
      :: (if absent then []
          else if nKind n = 3 then bfpCopy n base mine
          else mine.filterMap (fun e => match densePlace n base (e.1.map Int.toNat) with
            | .at ba _ => some (ba, fmtBits n.format, storedCode e.2)
            | .absent => none)))

/-- The bit writes of copied or coded elements, by the noun's layout and kind. -/
def elemWrites (s : State) (j : Job) (n : Noun) (coded : List (List Int × Elem)) : List (Nat × Nat × Nat) :=
  if n.layout = 5 then bpkWrites n (j.base s n) coded
  else if n.layout = 6 then bamWrites n (j.plan.noun n.companion) (j.base s n) (j.base s (j.plan.noun n.companion)) coded
  else if nKind n = 3 then bfpCopy n (j.base s n) coded
  else coded.flatMap (fun e => writeElem s j.plan j.k j.session n e.1 (storedCode e.2))

/-- Form a set of outputs: their bit writes and CLIP (R88 to R97). Outputs outside the noun's extents are not written (R257). -/
def formOutputs (s : State) (j : Job) (q : Requant) (items : List OutItem) : List (Nat × Nat × Nat) × Bool :=
  let n := j.out
  let items := items.filter (fun it => inExtents n it.idx)
  let sb := scaleBias s j
  if nKind n = 3 then bfpWrites q n (j.base s n) sb items
  else
    let coded : List (List Int × Nat × Bool) := items.map (fun it => (it.idx, itemCode q n sb it))
    (elemWrites s j n (coded.map (fun e => (e.1, { code := e.2.1, stored := true }))), coded.any (fun e => e.2.2))

/-- Add outputs to those that wait for their group, and form the groups that are whole, or all at the end: bit writes, CLIP, and what
still waits. An output that waits keeps its t (R88). -/
def formGroups (s : State) (j : Job) (q : Requant) (l2 : Nat) (forming : List (Nat × OutItem)) (items : List OutItem) (atEnd : Bool) :
    List (Nat × Nat × Nat) × Bool × List (Nat × OutItem) :=
  let items := (items.filter (fun it => inExtents j.out it.idx)).map (fun it =>
    (l2, if grouped j.out then { it with t := some (itemT q (scaleBias s j) it) } else it))
  let (now, rest) := readyElems j.out (fun (e : Nat × OutItem) => e.2.idx) (forming ++ items) atEnd
  let (ws, clip) := formOutputs s j q (now.map (fun e => e.2))
  (ws, clip, rest)

/-- The requantizer settings of a clause. -/
def requantOf (j : Job) : Requant := { eacc := cEacc j.c, mode := cRounding j.c, seed := cSeed j.c }

/-- The OUT noun lies in local cistern form (R431). -/
def localCistern (n : Noun) : Bool := !n.sessionRel && !bit n.base.toNat 63 && bits n.base.toNat 55 52 = 1

/-! ## Landing halves (R309, R310, R327) -/

/-- The noun number that a contraction or another verb names in a landing slot of R310: OUT, TABLE, A, B, X. -/
def landNoun (j : Job) (slot : Nat) : Nat := [cOut j.c, cTable j.c, cA j.c, cB j.c, cX j.c].getD slot 0xFFFF

/-- The slots of R310 whose noun lands. -/
def landingSlots (j : Job) : List Nat :=
  (List.range 5).filter (fun sl => match slotNoun j.plan (landNoun j sl) with
    | some n => lands n
    | none => false)

/-- The byte range of a half of a slot's landing buffer: half 1 follows half 0 (R310). -/
def halfRange (j : Job) (slot half : Nat) : Nat × Nat :=
  let e := j.tile.land.getD slot (0, 0)
  (64 * (e.1 + half * e.2), 64 * e.2)

/-- The halves that L2 tile l2 of the clause takes: half l2 mod 2 of every slot that lands. -/
def tileRanges (j : Job) (l2 : Nat) : List (Nat × Nat) := (landingSlots j).map (fun sl => halfRange j sl (l2 % 2))

/-- Add writes to the OUT half of an L2 tile (R328). -/
def addHalf (hs : List OutHalf) (uid l2 : Nat) (range : Option (Nat × Nat)) (ws : List (Nat × Nat × Nat)) : List OutHalf :=
  if hs.any (fun h => h.uid = uid && h.l2 = l2) then
    hs.map (fun h => if h.uid = uid ∧ h.l2 = l2 then { h with writes := h.writes ++ ws } else h)
  else hs ++ [{ uid := uid, l2 := l2, range := range, writes := ws }]

/-- Outputs go straight to a local cistern noun, otherwise to the OUT half of their L2 tile (R328, R431). -/
def deliver (s : State) (j : Job) (l2 : Nat) (ws : List (Nat × Nat × Nat)) : State :=
  if ws.isEmpty then s
  else if localCistern j.out then raceWrite (putAll s ws) j.f ws
  else s.modCluster j.k (fun c => { c with outHalf := addHalf c.outHalf j.f.uid l2 (some (halfRange j 0 (l2 % 2))) ws })

end Sys2Proof.Machine
end

