-- ==== Sys2Proof/Machine/Context.lean ====
section
/-!
DEFINITION. Sys2Proof/Machine/Context.lean: keyed pairs and spill records (R222 to R224), context images (R225 to R227), the checks that
RESTORE makes (R220), the save slots (R216, R340), and the ownership of a cluster's accumulators (R183, R268, R269, R421 to R425).
-/

namespace Sys2Proof.Machine

/-! ## Keyed pairs and rank lists (R200, R222, R223) -/

/-- A keyed pair. -/
def pairBytes (v : Int) (key : Nat) : List Byte := leBytes 8 (accWord v) ++ leBytes 8 (key % 2 ^ 32)

/-- An empty rank-list entry. -/
def emptyPair : List Byte := leBytes 8 (2 ^ 55) ++ leBytes 8 0xFFFFFFFF

/-- A rank list of k entries: the candidates and then empty entries. -/
def rankListBytes (k : Nat) (l : List (Int × Nat)) : List Byte :=
  (List.range k).flatMap (fun i => match l[i]? with
    | some c => pairBytes c.1 c.2
    | none => emptyPair)

/-- Candidate a comes before candidate b (R200). -/
def ranksAbove (a b : Int × Nat) : Bool := decide (b.1 < a.1 ∨ (a.1 = b.1 ∧ a.2 ≤ b.2))

/-- Put a candidate into an ordered list. -/
def insertRank (x : Int × Nat) : List (Int × Nat) → List (Int × Nat)
  | [] => [x]
  | y :: rest => if ranksAbove y x then y :: insertRank x rest else x :: y :: rest

/-- A group's list after more candidates: its first k (R200). Position 0xFFFF_FFFF is no candidate (R223). -/
def mergeRanks (k : Nat) (l : List (Int × Nat)) (cs : List (Int × Nat)) : List (Int × Nat) :=
  (cs.foldl (fun l c => if c.2 = 0xFFFFFFFF then l else insertRank c l) l).take k

/-! ## Context images (R225 to R227) -/

/-- FLAGS of an image. -/
def unitFlags (u : AccUnit) : Nat := b2n u.sat + 2 * b2n u.inexact + 4 * b2n u.clip

/-- The 64 bytes of an image header, CRC zero (R225). -/
def imageHeader (kind flags vectors lists k pending tenant epoch l2 spill size : Nat) : List Byte :=
  leBytes 4 0x58434341 ++ leBytes 2 1 ++ leBytes 1 kind ++ leBytes 1 flags ++ leBytes 2 vectors ++ leBytes 1 lists
    ++ leBytes 1 k ++ leBytes 1 pending ++ leBytes 1 tenant ++ leBytes 1 epoch ++ zeros 1 ++ leBytes 4 l2 ++ leBytes 4 spill
    ++ leBytes 4 size ++ zeros 36

/-- One hash entry of an image (R227). -/
def hashEntryBytes (u : AccUnit) (i : Nat) : List Byte :=
  let e := tget {} u.hash i
  leBytes 8 (accWord e.value)
    ++ leBytes 8 (e.key % 2 ^ 32 + 2 ^ 32 * b2n e.valid + (if i % 4 = 0 then 2 ^ 33 * tget 0 u.victim (i / 4) else 0))

/-- Size of an image (R226, R227). -/
def imageSize (kind vectors lists k : Nat) : Nat := if kind = 2 then 65728 else 64 + 1024 * vectors + 16 * lists * k

/-- The image of an accumulator context (R225 to R227). -/
def contextImage (u : AccUnit) (tenant epoch l2 : Nat) : List Byte :=
  let lists := u.ranks.length
  let k := if lists = 0 then 0 else u.rankK
  if u.isHash then
    withCrc (imageHeader 2 (unitFlags u) 0 0 0 u.spillQueue.length tenant epoch l2 u.spillCount 65728
      ++ (List.range 4096).flatMap (hashEntryBytes u)
      ++ padTo 128 (u.spillQueue.flatMap (fun e => pairBytes e.1 e.2))) 0x1C
  else
    withCrc (imageHeader 1 (unitFlags u) u.vectors lists k 0 tenant epoch l2 u.spillCount (imageSize 1 u.vectors lists k)
      ++ (List.range (128 * u.vectors)).flatMap (fun i => leBytes 8 (accWord (tget 0 u.acc i)))
      ++ u.ranks.flatMap (fun g => rankListBytes k g.list)) 0x1C

/-- n bytes of an image as a number. -/
def img (bs : List Byte) (off n : Nat) : Nat := leNat ((bs.drop off).take n)

/-- The size that an image's KIND and counts give. -/
def declaredSize (bs : List Byte) : Nat := imageSize (img bs 6 1) (img bs 8 2) (img bs 0x0A 1) (img bs 0x0B 1)

/-- Every word of a list of 16-byte pairs keeps its zero bits (R220). -/
def pairsOk (bs : List Byte) (off n : Nat) : Bool :=
  (List.range n).all (fun i => decide (img bs (off + 16 * i) 8 < 2 ^ 56 ∧ img bs (off + 16 * i + 8) 8 < 2 ^ 32))

/-- The body of a BANKED image keeps its ranges (R220, R226). -/
def bankedOk (bs : List Byte) : Bool :=
  let v := img bs 8 2
  let l := img bs 0x0A 1
  let k := img bs 0x0B 1
  decide (v ≤ 128 ∧ l ≤ 128 ∧ k ≤ 16) && ((k = 0) == (l = 0)) && img bs 0x0C 1 = 0
    && (List.range (128 * v)).all (fun i => decide (img bs (64 + 8 * i) 8 < 2 ^ 56))
    && pairsOk bs (64 + 1024 * v) (l * k)

/-- The body of a HASH image keeps its ranges (R220, R227). -/
def hashedOk (bs : List Byte) : Bool :=
  let p := img bs 0x0C 1
  img bs 8 2 = 0 && img bs 0x0A 1 = 0 && img bs 0x0B 1 = 0 && decide (p ≤ 8)
    && (List.range 4096).all (fun i =>
      let w := img bs (64 + 16 * i + 8) 8
      decide (img bs (64 + 16 * i) 8 < 2 ^ 56 ∧ w < 2 ^ 35) && (i % 4 = 0 || decide (w < 2 ^ 33)))
    && pairsOk bs 65600 p && (bs.drop (65600 + 16 * p)).all (fun b => b = 0)

/-- The checks of R220 on an image's header: MAGIC, VERSION, KIND, FLAGS, the reserved bytes, TENANT, and SIZE against the counts within their
bounds. -/
def headerOk (tenant : Nat) (bs : List Byte) : Bool :=
  img bs 0 4 = 0x58434341 && img bs 4 2 = 1 && (img bs 6 1 = 1 || img bs 6 1 = 2) && decide (img bs 7 1 < 8)
    && img bs 0x0F 1 = 0 && (bs.drop 0x20).take 32 = zeros 32
    && (if img bs 6 1 = 1 then decide (img bs 8 2 ≤ 128 ∧ img bs 0x0A 1 ≤ 128 ∧ img bs 0x0B 1 ≤ 16)
        else img bs 8 2 = 0 && img bs 0x0A 1 = 0 && img bs 0x0B 1 = 0)
    && img bs 0x18 4 = declaredSize bs && img bs 0x0D 1 = tenant

/-- The checks of R220 (the number of open groups is checked at RESUME, log 40). -/
def imageOk (tenant : Nat) (bs : List Byte) : Bool :=
  headerOk tenant bs && (if img bs 6 1 = 1 then bankedOk bs else hashedOk bs)
    && decide (img bs 0x1C 4 = (crc32 (zeroAt bs 0x1C)).toNat)

/-- Build a table from the values of keys below n. -/
def tableOf {α : Type} [DecidableEq α] (d : α) (n : Nat) (f : Nat → α) : Tab α :=
  ((List.range n).map (fun i => (i, f i))).filter (fun e => e.2 ≠ d)

/-- The accumulator context in an image; its rank lists are keyed by their order until a RESUME names the map (log 40). -/
def readImage (bs : List Byte) : AccUnit :=
  let fl := img bs 7 1
  let v := img bs 8 2
  let k := img bs 0x0B 1
  if img bs 6 1 = 2 then
    { hash := tableOf {} 4096 (fun i =>
        let w := img bs (64 + 16 * i + 8) 8
        { valid := bit w 32, key := w % 2 ^ 32, value := wordAcc (img bs (64 + 16 * i) 8) })
      victim := tableOf 0 1024 (fun i => bits (img bs (64 + 64 * i + 8) 8) 34 33)
      spillQueue := (List.range (img bs 0x0C 1)).map (fun i => (wordAcc (img bs (65600 + 16 * i) 8), img bs (65608 + 16 * i) 4))
      spillCount := img bs 0x14 4, evictions := img bs 0x14 4, isHash := true
      sat := bit fl 0, inexact := bit fl 1, clip := bit fl 2 }
  else
    { acc := tableOf 0 (128 * v) (fun i => wordAcc (img bs (64 + 8 * i) 8))
      ranks := (List.range (img bs 0x0A 1)).map (fun g =>
        { key := g
          list := ((List.range k).map (fun i =>
            let o := 64 + 1024 * v + 16 * (g * k + i)
            (wordAcc (img bs o 8), img bs (o + 8) 4))).filter (fun c => c.2 ≠ 0xFFFFFFFF) })
      spillCount := img bs 0x14 4, vectors := v, rankK := k, sat := bit fl 0, inexact := bit fl 1, clip := bit fl 2 }

/-! ## Save slots (R216, R340) -/

/-- Offset in the cistern of the save slot of a class: HIGH, NORMAL and BULK in that order, the used ones only (R340). -/
def saveSlotOff (r : Region) (prio : Nat) : Nat :=
  r.saveOff + (((List.range prio).filter (fun i => 1 ≤ i ∧ bit r.classes i)).length) * r.saveSize

/-- Write a context image into a save slot of a cluster (R216). -/
def writeSave (s : State) (r : Region) (k prio : Nat) (bs : List Byte) : State :=
  putBytes s (gCis s.sys.waferNumber k (saveSlotOff r prio)) bs

/-! ## Which clause a cluster runs (R183, R232, R233, R406, R421 to R425) -/

/-- A clause may start: nothing stops it, no FENCE, SIGNAL or WAIT before it in its sentence is uncompleted, and with ORD the clause
before it has completed (R232, R233, R283, R284). -/
def mayStart (s : State) (f : Flight) : Bool :=
  f.stop.isNone
    && s.work.flights.all (fun g => !(decide (g.tenant = f.tenant ∧ g.prio = f.prio ∧ g.sentence = f.sentence ∧ g.uid < f.uid)
      && decide (0x0C ≤ cVerb g.words ∧ cVerb g.words ≤ 0x0E)))
    && !(cOrd f.words && (match f.before with | none => false | some u => (flightOf s u).isSome))

/-- A slot whose clause still has tiles to run here. -/
def Slot.live (sl : Slot) : Bool := sl.taken && !sl.finished && !sl.yielded

/-- The slot of the highest class, the first filled of that class (R406). -/
def bestSlot (l : List Slot) : Option Slot :=
  l.foldl (fun acc x => match acc with
    | none => some x
    | some a => if x.prio < a.prio then some x else some a) none

/-- The highest class that has a saved context here, 4 when none. -/
def savedTop (c : Cluster) : Nat := (c.saved.map (fun e => e.prio)).foldl min 4

/-- A clause may take the accumulators past held state: it resumes it, or it is of a higher class (R183, R268, R424). -/
def canTake (c : Cluster) (f : Flight) : Bool :=
  match c.held with
  | none => true
  | some h => if (isContract f.words || cVerb f.words = 4) && cResume f.words then heldMatches f.words h
    else decide (f.prio < h.prio)

/-- The uid that owns the accumulators as a running clause, not as held state. -/
def runningOwner (c : Cluster) : Option Nat :=
  match c.owner with
  | some u => if c.slots.any (fun sl => sl.uid = u) then some u else none
  | none => none

/-- A slot's clause may take ownership now. -/
def mayOwn (s : State) (c : Cluster) (sl : Slot) : Bool :=
  sl.live && decide (sl.prio < savedTop c) &&
    (match flightOf s sl.uid with
     | some f => mayStart s f && canTake c f
     | none => false)

/-- Another clause holds a half of a landing buffer that the clause's map uses, or waits to write one back (R309). -/
def bufferHeld (s : State) (c : Cluster) (k uid : Nat) : Bool :=
  match jobOf s k uid with
  | none => false
  | some j =>
    let mine := tileRanges j 0 ++ tileRanges j 1
    let held := (c.landed.filter (fun e => e.uid ≠ uid)).flatMap (fun e => e.ranges)
      ++ (c.outHalf.filter (fun e => e.uid ≠ uid)).filterMap (fun e => e.range)
    mine.any (fun a => held.any (meet a))

/-- The slot that the cluster works on: the owner's, or the best of those that may take ownership and wait for no landing buffer. -/
def currentSlot (s : State) (k : Nat) : Option Slot :=
  let c := s.cluster k
  match runningOwner c with
  | some u => c.slots.find? (fun sl => sl.uid = u && sl.live)
  | none => bestSlot (c.slots.filter (fun sl => mayOwn s c sl && !bufferHeld s c k sl.uid))

/-- Change the slot of a clause. -/
def Cluster.modSlot (c : Cluster) (uid : Nat) (g : Slot → Slot) : Cluster :=
  { c with slots := c.slots.map (fun sl => if sl.uid = uid then g sl else sl) }

/-- Save held state to the slot of the holding class for a higher class (R424). -/
def saveHeld (s : State) (k : Nat) (h : Held) : State :=
  let c := s.cluster k
  let x := s.tenant h.tenant
  let r := (planRegions s h.tenant).getD h.regionIdx {}
  let s := writeSave s r k h.prio (contextImage c.unit h.tenant x.epoch.toNat h.l2)
  s.setCluster k { c with
    held := none
    saved := { prio := h.prio, uid := h.uid, unit := c.unit, held := some h } :: c.saved }

/-- Rank lists as a RESUME takes them: restored ones go to the open groups in order; every group counts its candidates afresh. -/
def resumedRanks (j : Job) (h : Held) (u : AccUnit) : List RankGroup :=
  let keys := openGroups j h.l2
  u.ranks.zipIdx.map (fun e => { e.1 with key := if h.restored then keys.getD e.2 e.1.key else e.1.key, seen := 0 })

/-- Take ownership for a clause: fresh state, or the held state that it resumes (R183, R268, R424, R673). -/
def takeOwner (s : State) (j : Job) : State :=
  let c := s.cluster j.k
  let fresh : AccUnit := { isHash := cTarget j.c = 1, rankK := if cDecision j.c = 3 then cK j.c else 0 }
  let begin := fun (s : State) =>
    let s := s.modCluster j.k (fun c => { c with owner := some j.f.uid, unit := fresh, merged := [], settled := [], forming := [], drainDone := false })
    if cTarget j.c = 1 then spillHeader s j.region j.k 0 0 0 else s
  if c.owner = some j.f.uid then s
  else
    match c.held with
    | none => begin s
    | some h =>
      if cResume j.c then
        s.setCluster j.k { c with
          owner := some j.f.uid, held := none, merged := [], settled := [], forming := [], drainDone := false
          unit := { c.unit with ranks := resumedRanks j h c.unit, rankK := fresh.rankK } }
      else begin (saveHeld s j.k h)

/-! ## Stopping a clause (R411, R412) -/

/-- Note the first event that stops a clause (R411). -/
def stopClause (s : State) (uid : Nat) (v : Verdict) : State :=
  modFlight s uid (fun f => if f.stop.isSome then f else { f with stop := some v, started := true })

/-- Write the outputs that still wait for the rest of their group, whole group or not (log 92). -/
def flushForming (s : State) (j : Job) : State :=
  let c := s.cluster j.k
  match c.forming.getLast? with
  | none => s
  | some e =>
    let (ws, clip, _) := formGroups s j (requantOf j) e.1 c.forming [] true
    let s := deliver (s.modCluster j.k (fun c => { c with forming := [] })) j e.1 ws
    modFlight s j.f.uid (fun f => { f with clip := f.clip || clip })

/-- The outputs that wait, when the clause owns the accumulators. -/
def flushMember (s : State) (k uid : Nat) : State :=
  match jobOf s k uid with
  | none => s
  | some j => if (s.cluster k).owner = some uid then flushForming s j else s

/-- A cluster drops a clause: its accumulator state here goes, and the clause no longer waits for it (R411). The outputs that it has
formed still go to their noun (R82, R163). -/
def dropMember (s : State) (k uid : Nat) : State :=
  let s := flushMember s k uid
  let s := s.modCluster k (fun c =>
    let mine := decide (c.owner = some uid)
    { clusterRelease uid c with
      outHalf := c.outHalf
      slots := c.slots.map (fun sl => if sl.uid = uid then { sl with finished := true } else sl)
      owner := if mine then none else c.owner, unit := if mine then {} else c.unit })
  modFlight s uid (fun f => { f with waiting := f.waiting.erase k })

/-- The outputs of a clause's L2 tile that have not reached their noun are dropped (R431). -/
def discardTile (s : State) (k uid l2 : Nat) : State :=
  s.modCluster k (fun c => { c with
    outHalf := c.outHalf.filter (fun e => ¬ (e.uid = uid ∧ e.l2 = l2))
    forming := if c.owner = some uid then c.forming.filter (fun e => e.1 ≠ l2) else c.forming })

/-- The L2 tile that a cluster runs for a clause. -/
def runningTile (c : Cluster) (uid : Nat) : Option Nat :=
  match c.run with
  | some r => if r.uid = uid then some r.l2 else none
  | none => none

/-- A cluster of a clause faults: the clause stops everywhere, here at once, and no output of the faulting tile reaches its noun
(R411, R430, R431). -/
def faultMember (s : State) (k uid : Nat) (v : Verdict) : State :=
  let s := stopClause s uid v
  let s := discardTile s k uid v.l2Tile
  let s := match runningTile (s.cluster k) uid with
    | some l2 => discardTile s k uid l2
    | none => s
  dropMember s k uid

/-- A cluster of a clause meets ACC_SAT or SPILL_FULL: the outputs of earlier output tiles are still written (R82, R191, R411). -/
def trapMember (s : State) (k uid : Nat) (v : Verdict) : State := dropMember (stopClause s uid v) k uid

end Sys2Proof.Machine
end

