-- ==== Sys2Proof/Machine/Link.lean ====
section
/-!
DEFINITION. Sys2Proof/Machine/Link.lean: packets and frames as bytes (R452, R453, R493, R494), the choice of a link (R474, R475), the
transmitter with its credits and replay buffer (R455, R457 to R460), and a link that goes DOWN (R451, R489).
-/

namespace Sys2Proof.Machine

/-! ## Packets (R494) -/

/-- The header of a packet as a 128-bit number. -/
def packetHeader (p : Packet) : Nat :=
  p.kind.toNat + p.len.toNat * 2 ^ 4 + b2n p.down * 2 ^ 7 + p.tenant.toNat * 2 ^ 8 + p.epoch.toNat * 2 ^ 12 + p.srcWafer.toNat * 2 ^ 20
    + p.dstWafer.toNat * 2 ^ 27 + p.srcCluster.toNat * 2 ^ 34 + p.txn.toNat * 2 ^ 45 + b2n p.urgent * 2 ^ 61 + p.deadline.toNat * 2 ^ 62
    + p.code.toNat * 2 ^ 65 + p.addr.toNat * 2 ^ 67 + b2n p.orient * 2 ^ 123

/-- A packet as bytes: its header and its granules (R461). -/
def packetBytes (p : Packet) : List Byte := leBytes 16 (packetHeader p) ++ p.data

/-- A packet from its bytes. -/
def packetOf (bs : List Byte) : Packet :=
  let h := leNat (bs.take 16)
  { kind := BitVec.ofNat 4 h, len := BitVec.ofNat 3 (bits h 6 4), down := bit h 7, tenant := BitVec.ofNat 4 (bits h 11 8)
    epoch := BitVec.ofNat 8 (bits h 19 12), srcWafer := BitVec.ofNat 7 (bits h 26 20), dstWafer := BitVec.ofNat 7 (bits h 33 27)
    srcCluster := BitVec.ofNat 11 (bits h 44 34), txn := BitVec.ofNat 16 (bits h 60 45), urgent := bit h 61
    deadline := BitVec.ofNat 3 (bits h 64 62), code := BitVec.ofNat 2 (bits h 66 65), addr := BitVec.ofNat 56 (bits h 122 67)
    orient := bit h 123, data := bs.drop 16 }

/-- The header carries a reserved encoding (R494, R495). -/
def packetReserved (bs : List Byte) : Bool :=
  let h := leNat (bs.take 16)
  decide (6 ≤ bits h 3 0) || decide (5 ≤ bits h 6 4) || bits h 127 124 ≠ 0
    || (if bits h 3 0 = 4 then decide (2 ≤ bits h 66 65) else bits h 66 65 ≠ 0)

/-- Channel of a packet: 0 REQ, 1 RSP, 2 CTL (R461). -/
def packetChannel (p : Packet) : Nat :=
  if p.kind.toNat = 5 then 2 else if p.kind.toNat ≤ 1 then 0 else 1

/-- Slots of a packet (R486): a READ has its header only, and LEN says how much it reads (R461). -/
def packetSlots (p : Packet) : Nat := if p.kind.toNat = 0 then 1 else 1 + 4 * p.len.toNat

/-! ## Frames (R452, R453, R493) -/

/-- A frame's fields. -/
structure Frame where
  fseq : Nat
  ack : Nat
  nak : Bool
  replayed : Bool
  creditVc : Nat
  credits : Nat
  vcs : List Nat
  spareFor : Nat
  payload : List Byte
deriving DecidableEq, Repr

/-- The frame header as a 96-bit number (R493). -/
def frameHeader (f : Frame) : Nat :=
  f.fseq + f.ack * 2 ^ 12 + b2n f.nak * 2 ^ 24 + b2n f.replayed * 2 ^ 25 + f.creditVc * 2 ^ 26 + f.credits * 2 ^ 28
    + (f.vcs.foldr (fun v acc => v + 4 * acc) 0) * 2 ^ 36 + f.spareFor * 2 ^ 86

/-- The 416 message bytes of a frame: header, 25 slots, CRC (R452, R453). -/
def frameMessage (f : Frame) : List Byte :=
  let bs := leBytes 12 (frameHeader f) ++ padTo 400 f.payload
  bs ++ leBytes 4 (crc32 bs).toNat

/-- A frame from its bytes. -/
def frameOf (bs : List Byte) : Frame :=
  let h := leNat (bs.take 12)
  { fseq := bits h 11 0, ack := bits h 23 12, nak := bit h 24, replayed := bit h 25, creditVc := bits h 27 26, credits := bits h 35 28
    vcs := (List.range 25).map (fun i => bits h (37 + 2 * i) (36 + 2 * i)), spareFor := bits h 88 86, payload := (bs.drop 12).take 400 }

/-- The CRC of a received frame matches (R453). -/
def frameCrcOk (bs : List Byte) : Bool := decide ((crc32 (bs.take 0x19C)).toNat = leNat ((bs.drop 0x19C).take 4))

/-! ## Transmitting -/

/-- STATE of R498 in which a link carries new packets: UP or UP_SPARED. -/
def linkUp (x : Link) : Bool := x.status = 2 || x.status = 3

/-- The channel whose credits the next header returns (R459, R493): 3 for none. -/
def creditVc (x : Link) : Nat := ((List.range 3).find? (fun v => 0 < x.creditsOwed.getD v 0)).getD 3

/-- Build a frame with the link's acknowledgement, NAK and credits. -/
def linkFrame (x : Link) (fseq : Nat) (replayed : Bool) (vcs : List Nat) (payload : List Byte) : Frame :=
  let v := creditVc x
  { fseq := fseq, ack := x.lastGood, nak := x.nakOwed, replayed := replayed, creditVc := v
    credits := min 255 (x.creditsOwed.getD v 0), vcs := vcs, spareFor := x.spareFor, payload := payload }

/-- The link after a header with its NAK and credits has gone. -/
def headerSent (x : Link) : Link :=
  { x with nakOwed := false, creditsOwed := modAt x.creditsOwed (creditVc x) (fun n => n - min 255 n) }

/-- A frame leaves the rim, unless a TAP has taken the rim's I/O (R630). -/
def emitFrame (s : State) (l : Nat) (bs : List Byte) : State := if rimTaken s (l / 6) then s else s.emit (.frame l bs)

/-- Send a new frame with some slots (R455, R457). -/
def sendFrame (s : State) (l : Nat) (vcs : List Nat) (payload : List Byte) : State :=
  let x := s.link l
  let vcs := vcs ++ List.replicate (25 - vcs.length) 3
  let f := linkFrame x x.fseq false vcs payload
  let y := { headerSent x with
    fseq := (x.fseq + 1) % 4096, replay := x.replay ++ [(x.fseq, vcs, payload)], sinceSkip := x.sinceSkip + 1 }
  emitFrame (s.setLink l y) l (frameMessage f)

/-- The order of R460: CTL first, then URGENT, then ascending deadline class. -/
def packetRank (p : Packet) : Nat :=
  if packetChannel p = 2 then 0 else if p.urgent then 1 else 2 + p.deadline.toNat

/-- The first packet of the lowest rank. -/
def firstRanked (q : List Packet) : Option Packet :=
  q.foldl (fun best p => match best with
    | none => some p
    | some b => if packetRank p < packetRank b then some p else some b) none

/-- A packet can go now: the link is up, its replay buffer has room, and its channel has the credits (R455, R459). -/
def canSend (x : Link) (p : Packet) : Bool :=
  linkUp x && decide (x.replay.length < 512) && decide (packetSlots p ≤ x.credits.getD (packetChannel p) 0)

/-- The packet that goes next: of the channels whose first packet can go, that of the lowest rank (R460); a channel without credits holds up
no other, so that responses never wait for requests (R464). -/
def nextPacket (x : Link) : Option Packet :=
  firstRanked ((List.range 3).filterMap (fun v => (firstRanked (x.txq.filter (fun p => packetChannel p = v))).filter (canSend x)))

/-- Send waiting packets, one in a frame, while they can go. -/
def pumpLink (s : State) (l : Nat) : Nat → State
  | 0 => s
  | n + 1 =>
    let x := s.link l
    match nextPacket x with
    | none => s
    | some p =>
      let v := packetChannel p
      let s := s.setLink l { x with
        txq := x.txq.erase p, credits := modAt x.credits v (fun c => c - packetSlots p) }
      pumpLink (sendFrame s l (List.replicate (packetSlots p) v) (packetBytes p)) l n

/-- Send what can go on a link. -/
def pumpAll (s : State) (l : Nat) : State := pumpLink s l ((s.link l).txq.length + 1)

/-! ## Routing (R473 to R475) -/

/-- Links of a mask that can take a packet now (R489). -/
def usableLinks (s : State) (mask : BitVec 24) : List Nat :=
  (List.range 24).filter (fun l => bit mask.toNat l && linkUp (s.link l))

/-- The k of R475 for n links. -/
def linkPick (addr n : Nat) : Nat := (bits addr 39 8 * 0x9E3779B9 % 2 ^ 32) * n / 2 ^ 32

/-- The hop over a link descends (R473, R474): the link begins a route of descents only to the wafer at its other end. -/
def descends (s : State) (l : Nat) : Bool := bit (tget {} s.fabric.routes (s.link l).peerNumber).mDown.toNat l

/-- The link for a packet (R474, R475). -/
def chooseLink (s : State) (p : Packet) : Option Nat :=
  let r := tget {} s.fabric.routes p.dstWafer.toNat
  let ls := usableLinks s (if p.down then r.mDown else r.mAny)
  ls[linkPick p.addr.toNat ls.length]?

/-- Send a packet on its way; without a link to take it is lost, and its request times out (R440, R462). -/
def sendPacket (s : State) (p : Packet) : State :=
  match chooseLink s p with
  | none => s
  | some l =>
    let p := { p with down := p.down || descends s l }
    pumpAll (s.setLink l { s.link l with txq := (s.link l).txq ++ [p] }) l

/-- Send every packet that waits on a link by another link of its mask (R489). -/
def rerouteAll (s : State) (l : Nat) : State :=
  let q := (s.link l).txq
  q.foldl sendPacket (s.setLink l { s.link l with txq := [] })

/-! ## Link state -/

/-- The link starts afresh: sequence numbers, credits and streams (R454, R458, R459). -/
def freshLink (x : Link) : Link :=
  { x with
    fseq := 0, lastGood := 4095, nakOwed := false, nakCount := 0, replay := [], credits := [2048, 4096, 256]
    streams := [[], [], []], creditsOwed := [0, 0, 0], sinceSkip := 0, trainFails := 0 }

/-- A link goes DOWN: its replay buffer is discarded, its waiting packets go another way, FABRIC is set; the third time within 60 s it is
held DOWN (R451, R489, R491, R498). -/
def goDown (s : State) (l : Nat) : State :=
  let x := s.link l
  let times := (x.downTimes.filter (fun t => decide (s.nowUs < t + 60000000))) ++ [s.nowUs]
  let y := { freshLink x with
    status := if 3 ≤ times.length then 6 else 5, downTimes := times, downAt := s.nowUs, downs := satInc 0xFFFF x.downs }
  raiseAlert (rerouteAll (s.setLink l y) l) alFabric

/-- A link retrains: its replay buffer stays (R450, R455, R489). -/
def goRetrain (s : State) (l : Nat) : State :=
  rerouteAll (s.setLink l { s.link l with status := 4, nakCount := 0 }) l

/-- No new requests are injected now (R479). -/
def paused (s : State) : Bool := s.fabric.pausedAt.isSome

/-! ## The start of step 9 (R465, R580, R646) -/

/-- Change the fabric side. -/
def setFabric (s : State) (f : Fabric → Fabric) : State := { s with fabric := f s.fabric }

/-- An enabled link at the start of step 9: one that is UP stays UP, a heavy module's link is DOWN, the others train (R465, R646). -/
def startLink (s : State) (l : Nat) : State :=
  let cage := tget {} s.fabric.cages l
  let x := s.link l
  if !bit s.fabric.linkEnable.toNat l then s.setLink l { x with status := 0 }
  else if cage.present && decide (16 < cage.watts) then raiseAlert (s.setLink l { x with status := 5, downAt := s.nowUs }) alFabric
  else
    let s := setFabric s (fun y => { y with cages := tset {} y.cages l { cage with lowPower := !cage.present } })
    if linkUp x then s else s.setLink l { freshLink x with status := 1 }

/-- Step 9 begins: discovery starts in LINK_TRAIN, with this wafer its own candidate. -/
def beginDiscovery (s : State) : State :=
  let s := setFabric s (fun x => { x with phase := .linkTrain, stepStart := s.nowUs, candidate := s.sys.serial, candidateAt := s.nowUs })
  (List.range 24).foldl startLink s

end Sys2Proof.Machine
end

