-- ==== Sys2Proof/Machine/Access.lean ====
section
/-!
DEFINITION. Sys2Proof/Machine/Access.lean: what a clause's pump does in memory: the bytes that an L2 tile reads, their access checks,
poison and ECC (R307, R327, R401, R430, R431, R442, R529, R530), the requests to other wafers (R400, R436, R461 to R463, R494), and the
writes of its outputs.
-/

namespace Sys2Proof.Machine

/-! ## The bytes of an element -/

/-- Bit ranges (bit address, length) that hold a placed element. -/
def placeReads (n : Noun) : Place → List (Nat × Nat)
  | .absent => []
  | .at ba none => [(ba, fmtBits n.format)]
  | .at ba (some ea) => [(ea * 8, 8), (ba, nWidth n)]

/-- Bit ranges of the metadata that says where an element is stored (R171 to R176). -/
def metaReads (s : State) (plan : Plan) (cluster session : Nat) (n : Noun) (idx : List Nat) : List (Nat × Nat) :=
  let base := nounBase s n cluster session
  match n.layout with
  | 1 =>
    let m := plan.noun n.companion
    [(maskForward m (nounBase s m cluster session) (idx.getD 0 0) (idx.getD 1 0 / 4) * 8, 8)]
  | 5 => [((base + rowOffset n idx + idx.getD n.dims 0 / 64 * (8 + 8 * nWidth n)) * 8, 64)]
  | 6 =>
    let m := plan.noun n.companion
    [(flatBitAddr m (nounBase s m cluster session) (bamBit n idx), 1)]
  | 7 =>
    let ch := coordChunk n (idx.getD 0 0) (idx.getD 1 0)
    let lo := chunkStart s base ch
    [((base + 4 * ch) * 8, 64), ((base + 4 * coordChunks n) * 8, 32),
     ((base + nStride n 0 + 4 * lo) * 8, 32 * (chunkStart s base (ch + 1) - lo))]
  | _ => []

/-- Bit ranges that reading an element touches. -/
def elemReads (s : State) (plan : Plan) (cluster session : Nat) (n : Noun) (idx : List Int) : List (Nat × Nat) :=
  if inExtents n idx then
    let i := idx.map Int.toNat
    metaReads s plan cluster session n i ++ placeReads n (elemPlace s plan cluster session n (nounBase s n cluster session) i)
  else []

/-! ## The operands of an L2 tile (R327) -/

/-- The values of loop l in an L2 tile that lie inside the run extent (R323). -/
def l2Values (j : Job) (st2 : List Nat) (l : Nat) : List Nat :=
  if l < j.map.loops then
    let hi := min (l2End j.tile (shareDigits j.tile j.map.loops j.member) st2 l) (j.f.extents.getD l 0)
    (List.range (hi - st2.getD l 0)).map (fun i => st2.getD l 0 + i)
  else [0]

/-- The combinations of the values of some loops in an L2 tile, in ORDER2 order. -/
def l2Points (j : Job) (st2 : List Nat) (ls : List Nat) : List (List Nat) :=
  crossOrder ((orderOf j.tile.order2 j.map.loops).filter (fun l => ls.contains l)) ((List.range 6).map (l2Values j st2)) [0, 0, 0, 0, 0, 0]

/-- Indices of a noun that an L2 tile touches through a slot's terms. -/
def slotIndices (j : Job) (st2 : List Nat) (n : Noun) (ts : List DWord) : List (List Int) :=
  (l2Points j st2 (slotLoops ts)).map (evalTerms ts n)

/-- Bit ranges of a slot's operand in an L2 tile. -/
def slotReads (s : State) (j : Job) (st2 : List Nat) (n : Noun) (ts : List DWord) : List (Nat × Nat) :=
  (slotIndices j st2 n ts).flatMap (elemReads s j.plan j.k j.session n)

/-- Bit ranges of the scale and bias pairs of an L2 tile (R253). -/
def tableReads (s : State) (j : Job) (st2 : List Nat) : List (Nat × Nat) :=
  match slotNoun j.plan (cTable j.c) with
  | none => []
  | some n => (l2Points j st2 (j.map.loopsOf 1)).map (fun i => ((j.base s n + 8 * channelOf j i) * 8, 64))

/-- Bit ranges of the metadata that places the outputs of an L2 tile: the mask of an S24V noun. -/
def outMetaReads (s : State) (j : Job) (st2 : List Nat) : List (Nat × Nat) :=
  if j.out.layout = 1 then
    ((slotIndices j st2 j.out j.map.out).filter (inExtents j.out)).flatMap (fun i =>
      metaReads s j.plan j.k j.session j.out (i.map Int.toNat))
  else []

/-- Mask bytes of the transposed plane that an L2 tile uses (R143). -/
def transposedReads (s : State) (j : Job) (st2 : List Nat) : List (Nat × Nat) :=
  if isContract j.c && maskRole j.plan j.c = some 1 && j.a.layout = 1 then
    let (m, mb) := maskOf s j j.a
    (slotIndices j st2 j.a j.map.a).map (fun i => (maskTransposed m mb (i.getD 1 0).toNat ((i.getD 0 0).toNat / 4) * 8, 8))
  else []

/-- The slots of R310 that a contraction reads: the mask of OUT, TABLE, A with its metadata, and B. -/
def contractSlots : List Nat := [0, 1, 2, 3]

/-- Bit ranges that a slot's operand of a contraction takes in an L2 tile. -/
def landReads (s : State) (j : Job) (st2 : List Nat) (slot : Nat) : List (Nat × Nat) :=
  match slot with
  | 0 => outMetaReads s j st2
  | 1 => tableReads s j st2
  | 2 => slotReads s j st2 j.a j.map.a ++ transposedReads s j st2
  | 3 => slotReads s j st2 j.b j.map.b
  | _ => []

/-- Bit ranges that a contraction's L2 tile reads. -/
def contractReads (s : State) (j : Job) (st2 : List Nat) : List (Nat × Nat) := contractSlots.flatMap (landReads s j st2)

/-! ## Checking reads and writes -/

/-- 64-byte granules that bit ranges touch, by global address, ascending. -/
def granulesOf (rs : List (Nat × Nat)) : List Nat :=
  ((rs.flatMap (fun r =>
    let b := rangeBytes r
    if b.2 = 0 then [] else (List.range (((b.1 + b.2 - 1) / 64) - b.1 / 64 + 1)).map (fun i => (b.1 / 64 + i) * 64))).dedup).insertionSort (· ≤ ·)

/-- A global address lies on another wafer. -/
def remote (s : State) (g : Nat) : Bool := gWafer g ≠ s.sys.waferNumber

/-- Clusters of this wafer whose cisterns bit ranges touch. -/
def clustersOf (s : State) (rs : List (Nat × Nat)) : List Nat :=
  ((rs.map (fun r => r.1 / 8)).filterMap (fun g => if !remote s g && gSpace g = 1 then some (gCluster g) else none)).dedup

/-- What a set of reads comes to. -/
inductive Landing where
  | ok
  /-- Granules of other wafers still to fetch. -/
  | fetch (gs : List Nat)
  /-- Dormant clusters to wake (R442). -/
  | wake (ks : List Nat)
  | bad (v : Verdict)
deriving DecidableEq, Repr

/-- The verdict of a cluster's access that meets a NACK (R401, R441, R481, R482), or that no route carries: nothing answers it (R47, R440,
log 115). -/
def deniedBy (s : State) (t k : Nat) (rs : List (Nat × Nat)) : Option Verdict :=
  rs.findSome? (fun r =>
    let b := rangeBytes r
    if b.2 = 0 then none
    else
      match accessNack s t b.1 b.2 with
      | some code => some (nackVerdict code)
      | none => if reaches s k b.1 then none else some { status := stTimeout })

/-- DDR lines of this wafer that bit ranges touch. -/
def ddrLines (s : State) (rs : List (Nat × Nat)) : List Nat :=
  (granulesOf rs).filterMap (fun g => if !remote s g && gSpace g = 0 then some (gOff g / 64) else none)

/-- The memory fault of a set of reads: what the ECC finds in them, then poison (R307, R529). -/
def memoryFault (s : State) (ecc : Ecc) (rs : List (Nat × Nat)) : Option Verdict :=
  match ecc with
  | .cisternDouble => if (clustersOf s rs).isEmpty then none else some (faulted fCisternEcc)
  | .ddrLine l =>
    if (ddrLines s rs).contains l then some (faulted fDdrEcc)
    else if (ddrLines s rs).any (fun x => s.mem.poisoned.contains x) then some (faulted fDataPoison) else none
  | _ => if (ddrLines s rs).any (fun x => s.mem.poisoned.contains x) then some (faulted fDataPoison) else none

/-- A granule of another wafer has been brought for a clause's cluster. -/
def brought (s : State) (j : Job) (g : Nat) : Bool := s.work.landed.contains (j.f.uid, j.k, g)

/-- Check the reads of a clause on a cluster. -/
def checkReads (s : State) (j : Job) (ecc : Ecc) (rs : List (Nat × Nat)) : Landing :=
  match deniedBy s j.f.tenant j.k rs with
  | some v => .bad v
  | none =>
    let missing := (granulesOf rs).filter (fun g => remote s g && !brought s j g)
    let asleep := (clustersOf s rs).filter (fun k => !(s.cluster k).awake)
    if !missing.isEmpty then .fetch missing
    else if !asleep.isEmpty then .wake asleep
    else
      match memoryFault s ecc rs with
      | some v => .bad v
      | none => .ok

/-- Count a correction on a channel (R526). -/
def countCorrection (s : State) (ch : Nat) : State :=
  s.setChannel ch { s.channel ch with corrected := satInc 0xFFFFFFFF (s.channel ch).corrected }

/-- Mark a line poisoned (R529). -/
def poisonLine (s : State) (l : Nat) : State :=
  if s.mem.poisoned.contains l then s
  else
    let ch := channelOfOffset s (l * 64)
    let s : State := { s with mem := { s.mem with poisoned := (l :: s.mem.poisoned).insertionSort (· ≤ ·) } }
    s.setRim (ch / 6) { s.rim (ch / 6) with poisonedLines := satInc 0xFFFFFFFF (s.rim (ch / 6)).poisonedLines }

/-- The ECC finding of a command concerns these reads: a cistern word or a DDR line among them. -/
def eccTouches (s : State) (ecc : Ecc) (rs : List (Nat × Nat)) : Bool :=
  match ecc with
  | .clean => false
  | .ddrLine l => (ddrLines s rs).contains l
  | .cisternDouble => !(clustersOf s rs).isEmpty
  | .corrected => !(clustersOf s rs).isEmpty || !(ddrLines s rs).isEmpty

/-- What the ECC finding of an access leaves: a correction counted, or a line marked (R307, R526, R529, R530). -/
def applyEcc (s : State) (k : Nat) (ecc : Ecc) (rs : List (Nat × Nat)) : State :=
  match ecc with
  | .corrected =>
    match clustersOf s rs, ddrLines s rs with
    | [], [] => s
    | [], l :: _ => countCorrection s (channelOfOffset s (l * 64))
    | x :: xs, _ => let q := if (x :: xs).contains k then k else x
      s.modCluster q (fun c => { c with ecc := satInc 0xFFFFFFFF c.ecc })
  | .ddrLine l => if (ddrLines s rs).contains l then poisonLine s l else s
  | _ => s

/-! ## Requests to other wafers -/

/-- The header of a request of a clause on a cluster (R400, R494). -/
def requestPacket (s : State) (j : Job) (kind len addr txn : Nat) (data : List Byte) : Packet :=
  { kind := BitVec.ofNat 4 kind, len := BitVec.ofNat 3 len, down := false, tenant := BitVec.ofNat 4 j.f.tenant
    epoch := (s.tenant j.f.tenant).epoch, srcWafer := BitVec.ofNat 7 s.sys.waferNumber, dstWafer := BitVec.ofNat 7 (gWafer addr)
    srcCluster := BitVec.ofNat 11 j.k, txn := BitVec.ofNat 16 txn, urgent := decide (j.f.prio = 0)
    deadline := BitVec.ofNat 3 (if cSessionEn j.c then (s.session j.session).deadline else 4), code := 0
    addr := BitVec.ofNat 56 addr, orient := s.fabric.orient, data := data }

/-- Issue one request of one granule and keep its record (R436). -/
def issueRequest (s : State) (j : Job) (kind addr : Nat) (data : List Byte) : State :=
  let txn := s.work.nextTxn
  let o : Outstanding := {
    txn := txn, epoch := (s.tenant j.f.tenant).epoch, tenant := j.f.tenant, uid := j.f.uid, cluster := j.k,
    isWrite := decide (kind = 1), addr := addr, len := 1, issuedAt := s.nowUs }
  let pkt := requestPacket s j kind 1 addr txn data
  let s : State := { s with work := { s.work with nextTxn := (txn + 1) % 2 ^ 16, outstanding := s.work.outstanding ++ [o] } }
  sendPacket s pkt

/-- Request the granules that are not under way yet; while injection is paused, none (R479). -/
def fetchGranules (s : State) (j : Job) (gs : List Nat) : State :=
  if paused s then s else
  gs.foldl (fun s g =>
    if s.work.outstanding.any (fun o => o.uid = j.f.uid && o.cluster = j.k && !o.isWrite && o.addr = g) then s else issueRequest s j 0 g []) s

/-- Start the wake of dormant clusters (R381, R442). -/
def wakeClusters (s : State) (ks : List Nat) : State :=
  ks.foldl (fun s k => s.modCluster k (fun c => if c.awake || c.wakeAt.isSome then c else { c with wakeAt := some s.nowUs })) s

/-! ## Writing outputs -/

/-- Cut bit writes at 64-byte granules. -/
def cutWrites (ws : List (Nat × Nat × Nat)) : List (Nat × Nat × Nat) :=
  ws.flatMap (fun w => (List.range ((w.1 + w.2.1 - 1) / 512 - w.1 / 512 + 1)).map (fun i =>
    let lo := max w.1 ((w.1 / 512 + i) * 512)
    let hi := min (w.1 + w.2.1) ((w.1 / 512 + i + 1) * 512)
    (lo, hi - lo, w.2.2 / 2 ^ (lo - w.1) % 2 ^ (hi - lo))))

/-- Bits of a granule that bit writes cover. -/
def granuleCovered (ws : List (Nat × Nat × Nat)) (g : Nat) : Nat :=
  (List.range 512).countP (fun i => ws.any (fun w => decide (w.1 ≤ g * 8 + i ∧ g * 8 + i < w.1 + w.2.1)))

/-- The bytes of a remote granule after bit writes. -/
def mergedGranule (s : State) (ws : List (Nat × Nat × Nat)) (g : Nat) : List Byte :=
  (List.range 64).map (fun i => ws.foldl (fun b w => mergeByte b (g + i) w.1 w.2.1 w.2.2) (byteAt s (g + i)))

/-- Units of n bits, by number, that bit writes cover only in part. -/
def partUnits (n : Nat) (ws : List (Nat × Nat × Nat)) : List Nat :=
  (ws.flatMap (fun w => if w.2.1 = 0 then [] else [w.1 / n, (w.1 + w.2.1 - 1) / n])).dedup.filter (fun u =>
    !(List.range n).all (fun i => ws.any (fun w => decide (w.1 ≤ u * n + i ∧ u * n + i < w.1 + w.2.1))))

/-- Bit ranges of this wafer that bit writes merge into through an ECC read: 64-bit cistern words and DDR lines that they cover only in
part (R100, R307, R530). -/
def mergeRanges (s : State) (ws : List (Nat × Nat × Nat)) : List (Nat × Nat) :=
  let near := fun (space : Nat) => ws.filter (fun w => !remote s (w.1 / 8) && gSpace (w.1 / 8) = space)
  (partUnits 64 (near 1)).map (fun u => (64 * u, 64)) ++ (partUnits 512 (near 0)).map (fun u => (512 * u, 512))

/-- A double-bit error in a cistern word that bit writes merge into (R307). -/
def mergeFault (s : State) (ecc : Ecc) (ws : List (Nat × Nat × Nat)) : Bool :=
  ecc = .cisternDouble && !(clustersOf s (mergeRanges s ws)).isEmpty

/-- What writing comes to before anything is written: a partly written granule of another wafer must have been fetched, because a WRITE
carries whole granules (R461); a partial write of a cistern word merges through its ECC (R307). A partly written DDR line faults
nothing (R530). While injection is paused, writes to other wafers wait (R479). -/
def checkWrites (s : State) (j : Job) (ecc : Ecc) (ws : List (Nat × Nat × Nat)) : Landing :=
  let rs := writeRanges ws
  match deniedBy s j.f.tenant j.k rs with
  | some v => .bad v
  | none =>
    let far := ws.filter (fun w => remote s (w.1 / 8))
    let missing := (granulesOf (writeRanges far)).filter (fun g =>
      granuleCovered (cutWrites far) g ≠ 512 && !brought s j g)
    let asleep := (clustersOf s rs).filter (fun k => !(s.cluster k).awake)
    if !missing.isEmpty || (!far.isEmpty && paused s) then .fetch missing
    else if !asleep.isEmpty then .wake asleep
    else if mergeFault s ecc ws then .bad (faulted fCisternEcc)
    else .ok

/-- Store outputs: this wafer's at once, the others' by WRITE requests (R463). -/
def storeOutputs (s : State) (j : Job) (ecc : Ecc) (ws : List (Nat × Nat × Nat)) : State :=
  let near := ws.filter (fun w => !remote s (w.1 / 8))
  let far := ws.filter (fun w => remote s (w.1 / 8))
  let s := raceWrite (applyEcc (putAll s near) j.k ecc (mergeRanges s near)) j.f near
  (granulesOf (writeRanges far)).foldl (fun s g => issueRequest s j 1 g (mergedGranule s far g)) s

end Sys2Proof.Machine
end

