-- ==== Sys2Proof/Machine/Landing.lean ====
section
/-!
DEFINITION. Sys2Proof/Machine/Landing.lean: the landing of an L2 tile: the halves it takes (R309, R327, R328), the multicast groups that
share a fetch (R331 to R333), the copy that the tile runs on (R162), the landing check of its sparse metadata (R161, R163, R177), and the
start of a landed tile.
-/

namespace Sys2Proof.Machine

/-! ## The landed copy (R162) -/

/-- The state as the operands of a landed tile show it: the landed bytes stand in front of what memory holds now. -/
def landedView (s : State) (l : Landed) : State :=
  let near := l.cells.filter (fun e => gWafer e.1 = s.sys.waferNumber)
  { s with
    mem := { s.mem with
      ddr := near.filterMap (fun e => if gSpace e.1 = 0 then some (gOff e.1, e.2) else none) ++ s.mem.ddr
      cistern := near.filterMap (fun e => if gSpace e.1 = 0 then none else some (cisKey (gCluster e.1) (gCisOff e.1), e.2))
        ++ s.mem.cistern }
    work := { s.work with fetched := l.cells.filter (fun e => gWafer e.1 ≠ s.sys.waferNumber) ++ s.work.fetched } }

/-- What a cluster holds of a clause's L2 tile. -/
def landedFor (c : Cluster) (uid l2 : Nat) : Option Landed := c.landed.find? (fun e => e.uid = uid && e.l2 = l2)

/-- The state as an L2 tile of a clause on its cluster reads it. -/
def tileView (s : State) (j : Job) (l2 : Nat) : State :=
  match landedFor (s.cluster j.k) j.f.uid l2 with
  | some l => landedView s l
  | none => s

/-- The bytes of bit ranges that land: those of a noun that lands, and of a noun used in place the ones outside the cluster's own
cistern (R327). -/
def landCells (s : State) (j : Job) (slot : Nat) (rs : List (Nat × Nat)) : List Host.Cell :=
  let whole := (landingSlots j).contains slot
  let own := fun (g : Nat) => !remote s g && gSpace g = 1 && gCluster g = j.k
  (((rs.flatMap (fun r => let b := rangeBytes r; (List.range b.2).map (fun i => b.1 + i))).dedup).filter
    (fun g => whole || !own g)).map (fun g => (g, byteAt s g))

/-! ## The landing check (R161, R163, R177) -/

/-- A sparse fault. -/
def sparse (code cause l2 el : Nat) : Verdict :=
  { status := stFaulted, reason := code, cause := cause, l2Tile := l2, element := el }

/-- CAUSE of a canonical mask byte that fails check mode: equal or descending codes, or reserved bits. -/
def maskCause (b : Byte) : Option Nat :=
  let m := maskByte b
  if m.c1 ≤ m.c0 then some 2 else if m.reserved ≠ 0 then some 4 else none

/-- Check mask bytes, each with its group index. -/
def checkMask (s : State) (l2 : Nat) (groups : List (Nat × Nat)) : Option Verdict :=
  (groups.insertionSort (fun a b => a.2 ≤ b.2)).findSome? (fun g =>
    (maskCause (byteAt s g.1)).map (fun cause => sparse fSparseMeta cause l2 g.2))

/-- Forward-plane groups of a mask at positions (n, k): addresses and indices. -/
def forwardGroups (m : Noun) (mb : Nat) (idx : List (List Int)) : List (Nat × Nat) :=
  (idx.filter (inExtents m)).map (fun i =>
    let n := (i.getD 0 0).toNat
    let g := (i.getD 1 0).toNat / 4
    (maskForward m mb n g, n * ceilDiv (nExt m 1) 4 + g))

/-- Transposed-plane groups. -/
def transposedGroups (m : Noun) (mb : Nat) (idx : List (List Int)) : List (Nat × Nat) :=
  (idx.filter (inExtents m)).map (fun i =>
    let k := (i.getD 1 0).toNat
    let h := (i.getD 0 0).toNat / 4
    (maskTransposed m mb k h, k * ceilDiv (nExt m 0) 4 + h))

/-- The group index of an element of a BPK noun: row by row, and group by group within a row (R177). -/
def bpkGroup (n : Noun) (i : List Int) : Nat :=
  let row := (List.range n.dims).foldl (fun acc d => acc * nExt n d + (i.getD d 0).toNat) 0
  row * ceilDiv (nExt n n.dims) 64 + (i.getD n.dims 0).toNat / 64

/-- BPK: a bitmap bit beyond the declared extent. -/
def checkBpk (s : State) (j : Job) (l2 : Nat) (n : Noun) (idx : List (List Int)) : Option Verdict :=
  let base := j.base s n
  let per := ceilDiv (nExt n n.dims) 64
  let groups := ((idx.filter (inExtents n)).map (fun i =>
    (bpkGroup n i, base + rowOffset n (i.map Int.toNat)))).dedup.insertionSort (fun a b => a.1 ≤ b.1)
  groups.findSome? (fun g =>
    let grp := g.1 % per
    let bm := leNat (bytesAt s (g.2 + grp * (8 + 8 * nWidth n)) 8)
    if (List.range 64).any (fun e => bit bm e && decide (nExt n n.dims ≤ 64 * grp + e)) then
      some (sparse fSparseIndex 0x11 l2 g.1) else none)

/-- The first COORD entry of a chunk that fails: index beyond the chunk, or not above its predecessor. -/
def checkEntries (s : State) (n : Noun) (base l2 ch : Nat) : Option Verdict :=
  let rowChunks := ceilDiv (nExt n 1) 1024
  let cols := min 128 (nExt n 0 - ch / rowChunks * 128)
  let rows := min 1024 (nExt n 1 - ch % rowChunks * 1024)
  let lo := chunkStart s base ch
  (List.range (chunkStart s base (ch + 1) - lo)).findSome? (fun i =>
    let e := coordEntry s n base (lo + i)
    if rows ≤ e % 2 ^ 16 ∨ cols ≤ e / 2 ^ 16 then some (sparse fSparseIndex 0x10 l2 (lo + i))
    else if 0 < i ∧ e ≤ coordEntry s n base (lo + i - 1) then some (sparse fSparseOrder 0x20 l2 (lo + i))
    else none)

/-- COORD: the total, the chunk table, and the entries of the chunks that the tile touches. DESIGN CHOICE (log 98): ELEMENT is an entry index:
ENTRY_CAP for a total above it, the first entry without room; and the chunk's start value where the chunk table decreases. -/
def checkCoord (s : State) (j : Job) (l2 : Nat) (n : Noun) (idx : List (List Int)) : Option Verdict :=
  let base := j.base s n
  let total := chunkStart s base (coordChunks n)
  let chunks := ((idx.filter (inExtents n)).map (fun i => coordChunk n (i.getD 0 0).toNat (i.getD 1 0).toNat)).dedup.insertionSort (· ≤ ·)
  if entryCap n < total then some (sparse fSparseMeta 0x06 l2 (entryCap n))
  else
    match chunks.find? (fun ch => decide (chunkStart s base (ch + 1) < chunkStart s base ch)) with
    | some ch => some (sparse fSparseOrder 0x21 l2 (chunkStart s base ch))
    | none => chunks.findSome? (checkEntries s n base l2)

/-- The index by which R177 names a stored element: the entry of a COORD noun, the group of a BPK noun. -/
def elementName (s : State) (j : Job) (n : Noun) (i : List Int) : Nat :=
  if n.layout = 7 then
    match elemPlace s j.plan j.k j.session n (j.base s n) (i.map Int.toNat) with
    | .at ba _ => (ba - (j.base s n + nStride n 1) * 8) / max 1 (nWidth n)
    | .absent => 0
  else bpkGroup n i

/-- Non-zeros of an L1 tile above the capacity Z (R155). DESIGN CHOICE (log 98): ELEMENT names the first of them beyond Z, in the order of
R177. -/
def checkCapacity (s : State) (j : Job) (l2 : Nat) (st2 : List Nat) : Option Verdict :=
  if cSparsity j.c < 4 then none
  else
    (l1Seq j l2 st2).findSome? (fun t =>
      let fixed := fixedIdx j t
      let at' := (classIdx j t 1).flatMap (fun c => (classIdx j t 3).map (fun r => evalTerms j.map.a j.a (addIdx fixed (addIdx r c))))
      let names := ((at'.filter (fun i => (j.elem s j.a i).stored)).map (elementName s j j.a)).insertionSort (· ≤ ·)
      names[j.tile.nzCap]?.map (sparse fSparseMeta 0x05 l2))

/-- The landing check of an L2 tile of a contraction (R161, R177): of a mask the forward plane and then, in the transposed role, the
transposed one; the BPK bitmaps; the COORD tables and entries; the capacities. -/
def landingCheck (s : State) (j : Job) (l2 : Nat) (st2 : List Nat) : Option Verdict :=
  let sampled := isSampled j.plan j.c
  let n := if sampled then j.out else j.a
  let (m, mb) := maskOf s j n
  let idx := slotIndices j st2 n (if sampled then j.map.out else j.map.a)
  let masks := if cVerb j.c ≠ 2 || n.layout ≠ 1 then none
    else checkMask s l2 (forwardGroups m mb idx)
      <|> (if maskRole j.plan j.c = some 1 then checkMask s l2 (transposedGroups m mb idx) else none)
  let packed := fun (n : Noun) (ts : List DWord) => if n.layout = 5 then checkBpk s j l2 n (slotIndices j st2 n ts) else none
  masks <|> packed j.a j.map.a <|> packed j.b j.map.b
    <|> (if j.a.layout = 7 then checkCoord s j l2 j.a (slotIndices j st2 j.a j.map.a) else none)
    <|> checkCapacity s j l2 st2

/-! ## Which tile a cluster may land, and what for (R309, R328) -/

/-- The clause has started (R409). -/
def markStarted (s : State) (uid : Nat) : State := modFlight s uid (fun f => { f with started := true })

/-- The place of a fault in its verdict. -/
def atTile (v : Verdict) (l2 : Nat) : Verdict := if v.status = stFaulted then { v with l2Tile := l2 } else v

/-- The first L2 tile index that a slot's clause has not begun in a cluster. -/
def nextIndex (c : Cluster) (sl : Slot) : Nat :=
  match runningTile c sl.uid with
  | some l2 => l2 + 1
  | none => sl.l2

/-- Every half that an L2 tile takes is free of other tiles (R309). -/
def halvesFree (c : Cluster) (j : Job) (l2 : Nat) : Bool :=
  let held := (c.landed.filter (fun e => ¬ (e.uid = j.f.uid ∧ e.l2 = l2))).flatMap (fun e => e.ranges)
    ++ (c.outHalf.filter (fun e => ¬ (e.uid = j.f.uid ∧ e.l2 = l2))).filterMap (fun e => e.range)
  (tileRanges j l2).all (fun a => held.all (fun b => !meet a b))

/-- The L2 tile that a clause's cluster is ready to land: the next one that runs, while its halves are free and it has not landed whole
(R309, R318, R324, R328). -/
def wantedTile (s : State) (j : Job) : Option Tile :=
  let c := s.cluster j.k
  match currentSlot s j.k with
  | none => none
  | some sl =>
    if sl.uid ≠ j.f.uid || !c.awake then none
    else
      match tileFrom j (nextIndex c sl) with
      | none => none
      | some t =>
        match landedFor c j.f.uid t.l2 with
        | some l => if l.whole then none else some t
        | none => if halvesFree c j t.l2 then some t else none

/-! ## Multicast groups (R329 to R333) -/

/-- The job of another member of the clause. -/
def memberJob (j : Job) (i : Nat) : Job := { j with member := i, k := j.region.members.getD i 0 }

/-- The members of the multicast group that serves a landing slot of a member; none with MCAST 0xFFFF or a noun used in place (R333). -/
def slotGroup (j : Job) (slot : Nat) : Option (List Nat) :=
  if slot = 0 || !(landingSlots j).contains slot then none
  else
    match j.plan.mcasts[j.tile.mcast.getD (slot - 1) 0xFFFF]? with
    | none => none
    | some g =>
      let q := g.groupOf.getD j.member 0xFF
      if q = 0xFF then none else some ((List.range g.groupOf.length).filter (fun i => g.groupOf.getD i 0xFF = q))

/-- The starting values of a slot's loops in L2 tile l2 of a member, none when its sequence is shorter. -/
def slotCoords (j : Job) (slot l2 : Nat) : Option (List Nat) :=
  ((l2Tiles j.map j.tile j.member)[l2]?).map (fun st => (mcastLoops j.map (slot - 1)).map (fun l => st.getD l 0))

/-- The members that a slot's operand of L2 tile l2 is for, lowest member index first, those that skip the tile included (R331, R332): the
group's members whose tile l2 is the same operand tile (log 99). -/
def takers (j : Job) (slot l2 : Nat) : List Job :=
  match slotGroup j slot with
  | none => [j]
  | some ms => (ms.map (memberJob j)).filter (fun m => slotCoords m slot l2 = slotCoords j slot l2)

/-- A member still needs a slot's operand of L2 tile l2. -/
def needs (s : State) (slot l2 : Nat) (m : Job) : Bool :=
  let c := s.cluster m.k
  let at' := match c.slots.find? (fun sl => sl.uid = m.f.uid) with
    | some sl => !sl.finished && decide (nextIndex c sl ≤ l2)
    | none => true
  m.f.waiting.contains m.k && at' && (tileFrom m l2).any (fun t => t.l2 = l2)
    && !(landedFor c m.f.uid l2).any (fun l => l.copies.contains slot)

/-- One operand that a pump can land now: the slot, and the members that need it. -/
structure LandItem where
  slot : Nat
  l2 : Nat
  members : List Job
deriving DecidableEq, Repr

/-- The operand of a slot for a member that wants an L2 tile, when cluster k's pump is its source and every member that takes it has freed
the half it will land in (R331, R332). -/
def landItem (s : State) (k : Nat) (m : Job) (t : Tile) (slot : Nat) : Option LandItem :=
  let ts := takers m slot t.l2
  let who := ts.filter (needs s slot t.l2)
  if (ts.head?.map (fun x => x.k)) = some k && !who.isEmpty && who.all (fun x => (wantedTile s x).any (fun y => y.l2 = t.l2)) then
    some { slot := slot, l2 := t.l2, members := who }
  else none

/-- The slots whose noun a contraction names. -/
def namedSlots (j : Job) : List Nat := contractSlots.filter (fun sl => (slotNoun j.plan (landNoun j sl)).isSome)

/-- The operands of one clause and one L2 tile index that cluster k's pump can land now. -/
def pumpItems (s : State) (k : Nat) (j : Job) : List LandItem :=
  let ms := (List.range j.region.members.length).map (memberJob j)
  let items := ms.flatMap (fun m => match wantedTile s m with
    | none => []
    | some t => (namedSlots m).filterMap (landItem s k m t))
  let first := (items.head?.map (fun i => i.l2)).getD 0
  (items.filter (fun i => i.l2 = first)).dedup

/-- The clauses that cluster k has taken into its sequencer, or holds the state of, as jobs of contractions. -/
def takenJobs (s : State) (k : Nat) : List Job :=
  let c := s.cluster k
  ((c.slots.filter (fun sl => sl.taken)).map (fun sl => sl.uid) ++ (c.held.map (fun h => h.uid)).toList).filterMap (fun uid =>
    match jobOf s k uid with
    | some j => if isContract j.c then some j else none
    | none => none)

/-- What cluster k's pump can land now: a clause and its operands. -/
def pumpWork (s : State) (k : Nat) : Option (Job × List LandItem) :=
  if (s.cluster k).awake then (takenJobs s k).findSome? (fun j => match pumpItems s k j with | [] => none | is => some (j, is))
  else none

/-- Bit ranges that an operand takes in memory. -/
def itemReads (s : State) (i : LandItem) : List (Nat × Nat) :=
  match i.members with
  | [] => []
  | m :: _ =>
    match tileFrom m i.l2 with
    | some t => landReads s m t.st2 i.slot
    | none => []

/-! ## Landing and starting a tile -/

/-- Put one operand's bytes into a member's landed tile, holding its halves from now on (R309). -/
def addCopy (m : Job) (l2 slot : Nat) (cells : List Host.Cell) (c : Cluster) : Cluster :=
  let l : Landed := (landedFor c m.f.uid l2).getD { uid := m.f.uid, l2 := l2, ranges := tileRanges m l2 }
  let copies := l.copies ++ [slot]
  let l := { l with copies := copies, cells := cells ++ l.cells, whole := (namedSlots m).all (fun x => copies.contains x) }
  { c with landed := c.landed.filter (fun e => ¬ (e.uid = m.f.uid ∧ e.l2 = l2)) ++ [l] }

/-- Note what stops the clause at a landed tile's turn. -/
def markBad (m : Job) (l2 : Nat) (v : Verdict) (c : Cluster) : Cluster :=
  let l : Landed := (landedFor c m.f.uid l2).getD { uid := m.f.uid, l2 := l2, ranges := tileRanges m l2 }
  { c with landed := c.landed.filter (fun e => ¬ (e.uid = m.f.uid ∧ e.l2 = l2)) ++ [{ l with whole := true, bad := l.bad <|> some v }] }

/-- Run the landing check once every operand of a member's tile has landed (R161). -/
def checkLanded (s : State) (m : Job) (l2 : Nat) : State :=
  match landedFor (s.cluster m.k) m.f.uid l2, tileFrom m l2 with
  | some l, some t =>
    if l.whole && l.bad.isNone then
      match landingCheck (landedView s l) m l2 t.st2 with
      | some v => s.modCluster m.k (markBad m l2 v)
      | none => s
    else s
  | _, _ => s

/-- The settlements that a tile of the running output tile starts with: all of them have taken effect (R117). -/
def keptSettlements (j : Job) (t : Tile) (l : List Settlement) : List Settlement :=
  if isFirstOfOutput j t then [] else l.map (fun e => { e with effectAt := 0, inEffect := true })

/-- Start the clause's next L2 tile when it has landed and the array is free, or raise what its landing met (R161, R163, R183). -/
def startTile (s : State) (j : Job) : State :=
  let c := s.cluster j.k
  match currentSlot s j.k with
  | none => s
  | some sl =>
    if sl.uid ≠ j.f.uid || (runningTile c j.f.uid).isSome || !c.awake then s
    else
      match tileFrom j sl.l2 with
      | none => s
      | some t =>
        match landedFor c j.f.uid t.l2 with
        | none => s
        | some l =>
          match l.bad with
          | some v => if l.whole then faultMember s j.k j.f.uid (atTile v t.l2) else s
          | none =>
            if l.whole then
              let r := stageTile (landedView s l) j t
              s.modCluster j.k (fun c => { c.modSlot j.f.uid (fun sl => { sl with l2 := t.l2 }) with
                run := some { r with settled := keptSettlements j t c.settled } })
            else s

/-- Forget that granules have been brought for a clause's cluster: what lands again is fetched again (R425). -/
def forget (s : State) (j : Job) (rs : List (Nat × Nat)) : State :=
  let gs := granulesOf rs
  { s with work := { s.work with landed := s.work.landed.filter (fun e => ¬ (e.1 = j.f.uid ∧ e.2.1 = j.k ∧ gs.contains e.2.2)) } }

/-- Land operands: their bytes go to every member that takes them; a tile whose operands are whole is checked and, when its turn has
come, started. -/
def landItems (s : State) (is : List LandItem) : State :=
  let s := is.foldl (fun s i =>
    let rs := itemReads s i
    i.members.foldl (fun s m => s.modCluster m.k (addCopy m i.l2 i.slot (landCells s m i.slot rs))) s) s
  (is.flatMap (fun i => i.members.map (fun m => (m, i.l2)))).dedup.foldl (fun s e => startTile (checkLanded s e.1 e.2) e.1) s

/-- The landing of operands met a fault or a NACK: it stops each of the members at the tile's turn (R163, R411). -/
def landBad (s : State) (is : List LandItem) (v : Verdict) : State :=
  is.foldl (fun s i => i.members.foldl (fun s m => startTile (s.modCluster m.k (markBad m i.l2 v)) m) s) s

/-- A landing request is issued when a noun lands (R409). -/
def startsClause (is : List LandItem) : Bool := is.any (fun i => i.members.any (fun m => (landingSlots m).contains i.slot))

/-- Cluster k's pump lands operands: it fetches what lies on other wafers, and checks access, ECC and poison. -/
def pumpLand (s : State) (j : Job) (is : List LandItem) (ecc : Ecc) : State :=
  let s := if startsClause is then markStarted s j.f.uid else s
  let rs := is.flatMap (itemReads s)
  match checkReads s j ecc rs with
  | .fetch gs => fetchGranules s j gs
  | .wake ks => wakeClusters s ks
  | .bad v => landBad (applyEcc s j.k ecc rs) is v
  | .ok => landItems (forget (race (applyEcc s j.k ecc rs) j.f.uid false rs) j rs) is

/-- A contraction that the cluster works on: its slot and job, when the cluster is awake. -/
def currentJob (s : State) (k : Nat) : Option (Slot × Job) :=
  match currentSlot s k with
  | none => none
  | some sl =>
    match jobOf s k sl.uid with
    | none => none
    | some j => if isContract j.c && (s.cluster k).awake then some (sl, j) else none

/-- Mark the member's work as done but for what is left to write. -/
def markFinished (s : State) (k uid : Nat) : State :=
  s.modCluster k (fun c => c.modSlot uid (fun sl => { sl with finished := true }))

/-- With nothing to land: start a tile that has landed, or, when no tile is left, be done. -/
def landNothing (s : State) (k : Nat) : State :=
  match currentJob s k with
  | none => s
  | some (sl, j) =>
    if (runningTile (s.cluster k) sl.uid).isSome then s
    else
      match tileFrom j sl.l2 with
      | some _ => startTile s j
      | none => markFinished (takeOwner s j) k sl.uid

/-- LANDING_COMPLETE (R161, R327 to R333). -/
def execLandingComplete (k : Nat) (ecc : Ecc) (s : State) : Res :=
  match pumpWork s k with
  | some (j, is) => .next (pumpLand s j is ecc)
  | none => .next (landNothing s k)

end Sys2Proof.Machine
end

