-- ==== Sys2Proof/Machine/Datapath.lean ====
section
/-!
DEFINITION. Sys2Proof/Machine/Datapath.lean: the commands of a cluster: doorbells, wake and dormancy (R379 to R382, R551), the array's passes
with margin gating (R64 to R76, R106 to R119), the accumulator banks (R178 to R182), the requantizer's slot (R77), the hash accumulator
(R184 to R193), ranking (R199 to R203), merging (R206 to R213), and what happens at a tile boundary (R215, R411, R421 to R425).
-/

namespace Sys2Proof.Machine

/-! ## Doorbells, wake, dormancy -/

/-- The compute domain powers up, at the step its router holds (R551, R552); the rail follows (R543). -/
def wakeDone (s : State) (k : Nat) : State :=
  let n := dormantStep s k
  let s := s.modCluster k (fun c => { c with awake := true, wakeAt := none, idleSince := s.nowUs, avfs := wakeAvfs c.avfs n })
  holdRail s (fieldOfLogical k)

/-- CLUSTER_WAKE (R381, R551): a ring of a WAKING doorbell, or a request, has started the wake of a dormant cluster. -/
def execClusterWake (k : Nat) (s : State) : Res :=
  let c := s.cluster k
  let rung := c.bells.any (fun b => b.waking && b.slots ≠ 0)
  if usable s k && !clusterFenced s k && !c.awake && (rung || c.wakeAt.isSome) then .next (wakeDone s k) else .next s

/-- POLLED_WAKE (R381): the Pumphouse wakes a dormant cluster that a POLLED doorbell has rung. -/
def execPolledWake (k : Nat) (s : State) : Res :=
  let c := s.cluster k
  if ready s && usable s k && !clusterFenced s k && !c.awake && c.bells.any (fun b => !b.waking && b.slots ≠ 0) then
    .next (wakeDone s k)
  else .next s

/-- IDLE_DORMANT of the tenant whose plan has the cluster, in µs: none when it is 0, which means never (R360), or when no tenant's plan
has the cluster (log 51). -/
def idleLimit (s : State) (k : Nat) : Option Nat :=
  match (List.range 16).find? (fun t => isMember s t k) with
  | some t => if (s.tenant t).idleDormant = 0 then none else some (s.tenant t).idleDormant
  | none => none

/-- CLUSTER_DORMANT (R382, R543, R552): state of the powered-down domain is empty by the rule's own condition. -/
def execClusterDormant (k : Nat) (s : State) : Res :=
  let c := s.cluster k
  match idleLimit s k with
  | none => .next s
  | some n =>
    if c.awake && c.slots.isEmpty && c.bells.all (fun b => b.slots = 0) && c.held.isNone && c.saved.isEmpty
        && decide (c.idleSince + n ≤ s.nowUs) then
      .next (holdRail (s.setCluster k { c with awake := false, wakeAt := none, avfs := sleepAvfs c.avfs }) (fieldOfLogical k))
    else .next s

/-- The slot that the sequencer takes next: rung, of the highest class, in fill order (R379, R406). -/
def nextTake (c : Cluster) : Option Slot :=
  bestSlot (c.slots.filter (fun sl => !sl.taken && (((c.bells.getD sl.prio {}).slots >>> sl.number) &&& 1) = 1))

/-- Take a slot and clear its doorbell bit. -/
def takeSlot (c : Cluster) (sl : Slot) : Cluster :=
  { c.modSlot sl.uid (fun x => { x with taken := true }) with
    bells := modAt c.bells sl.prio (fun b => { b with slots := b.slots &&& ~~~ (1#8 <<< sl.number) }) }

/-- SLOT_TAKE (R379). -/
def execSlotTake (k : Nat) (s : State) : Res :=
  let c := s.cluster k
  match nextTake c with
  | some sl => if c.awake then .next (s.setCluster k (takeSlot c sl)) else .next s
  | none => .next s

/-! ## Passes -/

/-- The run of the clause that the cluster works on. -/
def currentRun (s : State) (k : Nat) : Option (Job × TileRun) :=
  match currentJob s k with
  | none => none
  | some (sl, j) =>
    match (s.cluster k).run with
    | some r => if r.uid = sl.uid then some (j, r) else none
    | none => none

def setRun (s : State) (k : Nat) (r : TileRun) : State := s.modCluster k (fun c => { c with run := some r })

/-- A weight block swap before a pass: the weight register holds another block, or none of this run. -/
def needsSwap (r : TileRun) (p : PassRef) : Bool := decide (r.weightsOf ≠ some p.block)

/-- The cycle in which a pass can issue: a swap takes a cycle of its own after the load has ended; the first block of an L1 tile swaps in
the load's last cycle (R70, R335; log 103). -/
def passCycle (r : TileRun) (p : PassRef) : Nat :=
  let loaded := max (r.cycle + 1) (r.loadFrom + r.loadCycles + 1)
  if !needsSwap r p then r.cycle + 1 else if r.weightsOf.isNone then loaded else loaded + 1

/-- Lanes that wait for room in a bank queue, and so issue nothing (R152). -/
def heldLanes (r : TileRun) : List Nat :=
  (r.inFlight.filter (fun p => decide (p.cycle + r.latency ≤ r.cycle + 1))).filterMap (fun p => p.lane.map (fun l => l.1))

/-- The cycle in which the next pass would issue; none when no pass is left. In the unstructured modes the lanes issue together. -/
def issueCycle (r : TileRun) : Option Nat :=
  if r.unstructured then
    (if nothingLeft r then none
     else some ((laneCycle (heldLanes r) r).getD (max (r.cycle + 1) (r.loadFrom + r.loadCycles + 1))))
  else
    let r := seekPass r
    (nextPass r).map (passCycle r)

/-- An event of cycle n is due before the next pass issues. -/
def due (r : TileRun) (n : Nat) : Bool :=
  match issueCycle r with
  | none => true
  | some c => decide (n ≤ c)

/-- Room in the conflict queues for a pass's updates (R152, R179). -/
def queueRoom (c : Cluster) (us : List (Nat × Int)) : Bool :=
  (List.range 32).all (fun b =>
    decide ((tget [] c.queues b).length + us.countP (fun u => u.1 % 128 % 32 = b) ≤ 16))

/-- The first pass in flight that commits now (R74, R76, R152). -/
def dueCommit (c : Cluster) (r : TileRun) : Option PassRef :=
  r.inFlight.find? (fun p => due r (p.cycle + r.latency) && queueRoom c p.updates)

/-- A settlement that takes effect before the next pass issues (R118). -/
def dueSettlement (r : TileRun) : Bool := r.settled.any (fun e => !e.inEffect && due r e.effectAt)

/-- The committed partial sum of an output with the updates still in its queue. -/
def partialSum (c : Cluster) (key : Nat) : Int :=
  ((tget [] c.queues (key % 128 % 32)).filter (fun u => u.1 = key)).foldl (fun a u => a + u.2) (tget 0 c.unit.acc key)

/-- The ranking group of an output of a run. -/
def groupOf (j : Job) (t : Tile) (v c : Nat) : Nat :=
  groupKey j (addIdx (fixedIdx j t) (addIdx ((classIdx j t 2).getD v []) ((classIdx j t 1).getD c [])))

/-- The floor F of R115 of an output's group: totals enter it with their group's list (R201; log 104). -/
def floorOf (j : Job) (t : Tile) (cl : Cluster) (r : TileRun) (g : Nat) : Option Int :=
  let done := (cl.unit.ranks.filter (fun x => x.key = g)).flatMap (fun x => x.list.map (fun e => e.1))
  let running := (List.range r.vecs).flatMap (fun v =>
    if v < r.drained ∨ !(r.vecOn.getD v false) then []
    else (List.range r.colOn.length).filterMap (fun c =>
      let key := 128 * v + c
      if r.colOn.getD c false && groupOf j t v c = g && (settledAt r key).isNone then
        some (partialSum cl key - ((bounds r (reached r v c)).2 : Nat))
      else none))
  kthLargest (max 1 r.rankK) (done ++ running)

/-- The number of a tile's highest boundary, plus 1: a boundary of significance s has 0 ≤ s < N + M − 1 (R73, R106). -/
def topBoundary (r : TileRun) : Nat := r.n + r.m - 1

/-- Test the outputs of a vector in some columns at the boundaries they have reached; settlements take effect at a cycle (R108, R109,
R116, R118, R121, R154). -/
def testVector (j : Job) (t : Tile) (cl : Cluster) (r : TileRun) (v : Nat) (cols : List Nat) (first : Bool) (effect : Nat) : TileRun :=
  cols.foldl (fun (r : TileRun) c =>
    let key := 128 * v + c
    let sg := if first then r.n + r.m else reached r v c
    let last := tget 0 r.boundary key
    if !(r.colOn.getD c false) || (settledAt r key).isSome
        || (!first && (decide (topBoundary r ≤ sg) || decide (0 < last ∧ last ≤ sg + 1))) then r
    else
      let floor := if r.decision = 3 then floorOf j t cl r (groupOf j t v c) else none
      let r := { r with boundary := tset 0 r.boundary key (sg + 1) }
      match testOutput r c (partialSum cl key) sg floor with
      | some high => { r with settled := r.settled ++ [⟨key, high, effect, first, partialSum cl key⟩] }
      | none => r) r

/-- The test of R108 before the first pass of an output tile. DESIGN CHOICE (log 100): it is made for all vectors of the tile together, which
for RANK fixes the floor that each of them meets. -/
def firstTest (j : Job) (t : Tile) (cl : Cluster) (r : TileRun) : TileRun :=
  if r.decision = 0 || decide (0 < r.issued) || !isFirstOfOutput j t || !r.boundary.isEmpty then r
  else (List.range r.vecs).foldl (fun r v =>
    if r.vecOn.getD v false then testVector j t cl r v (List.range r.colOn.length) true 0 else r) r

/-- The weight block that loads next: that of the next pass, or the next one after it (R64, R70). -/
def blockToLoad (r : TileRun) : Option Nat :=
  match nextPass r with
  | none => none
  | some p =>
    if needsSwap r p then some p.block
    else if r.windowed then (if 1 < r.blocks.length then some ((p.block + 1) % r.blocks.length) else none)
    else ((List.range (r.total - r.pos)).map (fun i =>
      (posDecode r.order0 r.vecs r.blocks.length r.pairs.length (r.pos + i)).2.1)).find? (fun b => b ≠ p.block)

/-- The lane set that loads next, once every lane has taken its segment of the one before (R150, R153). -/
def setToLoad (r : TileRun) : Option Nat :=
  if r.shadowOf.isSome then none
  else ((r.lanes.flatMap (fun l => (l.segs.filter (fun g => l.loaded ≠ some g)).map (fun g => g / 128))).insertionSort (· ≤ ·)).head?

/-- The cells of a lane set: those of each lane's segment. -/
def laneSet (r : TileRun) (set : Nat) : WBlock :=
  { block := set, cells := (List.range 128).map (fun i => (blockCells r (128 * set + i)).getD 0 []) }

/-- Load a weight block or a lane set into the shadow register (R64, R70). A block that replaces one that is no longer needed loads from the
running cycle on. -/
def loadShadow (c : Cluster) (r : TileRun) : Cluster :=
  if r.unstructured then
    match setToLoad r with
    | none => c
    | some g => { c with shadow := laneSet r g, run := some { r with shadowOf := some g } }
  else
    match blockToLoad (seekPass r) with
    | none => c
    | some b =>
      if r.shadowOf = some b then c
      else { c with
        shadow := { block := b, cells := blockCells r b }
        run := some { r with shadowOf := some b, loadFrom := if r.shadowOf.isSome then max r.loadFrom r.cycle else r.loadFrom } }

/-- No update waits in a bank queue. -/
def queuesEmpty (c : Cluster) : Bool := c.queues.all (fun e => e.2.isEmpty)

/-- No update waits for a vector. -/
def vectorQuiet (c : Cluster) (v : Nat) : Bool := c.queues.all (fun e => e.2.all (fun u => u.1 / 128 ≠ v))

/-- The clause's last tile on this member. -/
def lastTile (j : Job) (r : TileRun) : Bool := (tileAfter j r.l2 r.l1).isNone

/-- The totals of this tile stay in the accumulators: HOLD on the last tile (R268). -/
def keptByHold (j : Job) (r : TileRun) : Bool := cHold j.c && lastTile j r

/-- This member is a part other than the home of a clause whose parts merge (R206, R214). -/
def isPart (j : Job) : Bool := splits j.map j.tile && decide (0 < partIndex j.map j.tile j.member) && cTarget j.c = 0

/-- This member is the home of a clause whose parts merge. -/
def isHome (j : Job) : Bool := splits j.map j.tile && partIndex j.map j.tile j.member = 0 && cTarget j.c = 0

/-- The job of part p of the same output. -/
def partJob (j : Job) (p : Nat) : Job := memberJob j (memberOfPart j.map j.tile j.member p)

/-- The parts above 0 that have a tile of an output tile that runs, ascending (R325). -/
def partsOf (j : Job) (key : Nat) : List Nat :=
  (List.range (partCount j.map j.tile)).filter (fun p => decide (0 < p) && (tileSeq (partJob j p)).any (fun t => outKey j t = key))

/-- The key of the run's output tile. -/
def runKey (j : Job) (r : TileRun) : Nat :=
  match tileAt j r.l2 r.l1 with
  | some t => outKey j t
  | none => 0

/-- The home has merged every part of the run's output tile. -/
def allMerged (j : Job) (c : Cluster) (r : TileRun) : Bool := !isHome j || (partsOf j (runKey j r)).all (fun p => c.merged.contains p)

/-- The outputs of the run go through the requantizer or the rank unit here. DESIGN CHOICE (log 105): with TARGET HASH they do not, whatever
the decision kind: the totals of a RANK clause then enter the hash accumulator and nothing is ranked. -/
def drainsHere (j : Job) (r : TileRun) : Bool := r.last && cTarget j.c = 0 && !keptByHold j r && !isPart j

/-- The L1 tile has done all that comes before the next one. -/
def runFinished (j : Job) (c : Cluster) (r : TileRun) : Bool :=
  tileDone r && queuesEmpty c &&
    (if cTarget j.c = 1 then decide (r.vecs ≤ r.drained) && r.totals.isEmpty
     else if drainsHere j r then decide (r.vecs ≤ r.drained) && c.rankPending.isEmpty
     else true)

/-! ## Partial tiles (R206 to R213, R321) -/

/-- The accumulator value with which an output of a run leaves: in a part that has gated it, its partial sum at the moment of
settlement (R129). -/
def leavingValue (j : Job) (c : Cluster) (r : TileRun) (key : Nat) : Int :=
  match splits j.map j.tile && c.merged.isEmpty, settlementOf r key with
  | true, some e => e.sum
  | _, _ => tget 0 c.unit.acc key

/-- The outputs of a run inside its extents: entry key and OutItem with the accumulator's value. -/
def runItems (j : Job) (t : Tile) (c : Cluster) (r : TileRun) : List (Nat × OutItem) :=
  let fixed := fixedIdx j t
  let cols := classIdx j t 1
  (classIdx j t 2).zipIdx.flatMap (fun v =>
    cols.zipIdx.filterMap (fun x =>
      if r.vecOn.getD v.2 false && r.colOn.getD x.2 false then
        let i := addIdx fixed (addIdx v.1 x.1)
        some (128 * v.2 + x.2,
          { idx := evalTerms j.map.out j.out i, ch := channelOf j i, acc := leavingValue j c r (128 * v.2 + x.2) })
      else none))

/-- The outputs of a run that have a total: in the sampled role the kept positions (R144). -/
def totalItems (j : Job) (t : Tile) (c : Cluster) (r : TileRun) : List (Nat × OutItem) :=
  (runItems j t c r).filter (fun e => updates r (e.1 / 128) (e.1 % 128))

/-- The values that part p requantizes (R213): integers, ±1 for BIPOLAR, BFP element values × 2^127, and CLIP. -/
def partValues (s : State) (j : Job) (p : Nat) (items : List (Nat × OutItem)) : List (Nat × Int) × Bool :=
  let n := j.out
  let q := { requantOf j with seed := (cSeed j.c + p) % 2 ^ 32 }
  let sb := fun ch => let x := scaleBias s j ch; if p = 0 then x else (x.1, 0)
  let items := items.filter (fun e => inExtents n e.2.idx)
  if nKind n = 4 then (items.map (fun e => (e.1, e.2.acc)), false)
  else if nKind n = 3 then
    let keys := (items.map (fun e => blockKey n e.2.idx 16)).dedup
    let outs := keys.map (fun k =>
      let mine := items.filter (fun e => blockKey n e.2.idx 16 = k)
      let b := bfpBlock (nWidth n) q.mode (mine.map (fun e => (itemT q sb e.2, itemR q n e.2)))
      ((mine.zip b.2.1).map (fun (x : (Nat × OutItem) × Nat) => (x.1.1, signed (nWidth n) x.2 * 2 ^ b.1)), b.2.2))
    (outs.flatMap (fun o => o.1), outs.any (fun o => o.2))
  else
    let xs : List (Nat × (Nat × Bool)) := items.map (fun e => (e.1, itemCode q n sb e.2))
    (xs.map (fun e => (e.1, codeValue (nKind n) (nWidth n) e.2.1)), xs.any (fun e => e.2.2))

/-- Fold a run's pass counts and the unit's status bits into the clause (R80, R122). -/
def foldCounts (s : State) (j : Job) (r : TileRun) : State :=
  let u := (s.cluster j.k).unit
  modFlight s j.f.uid (fun f => { f with
    skipped := f.skipped + skippedAll r, issued := f.issued + r.issued
    sat := f.sat || u.sat, inexact := f.inexact || u.inexact, clip := f.clip || u.clip })

/-- The lowest number that no entry of a list of slots has. -/
def lowestSlot (ps : List Partial) : Nat :=
  ((List.range (ps.length + 1)).find? (fun i => ps.all (fun p => p.slot ≠ i))).getD 0

/-- The outbound slot's contents of a part's finished output tile: accumulators, or requantized values under PART_REQUANT (R206, R207,
R209, R321). -/
def outboundOf (s : State) (j : Job) (t : Tile) (r : TileRun) : Partial × Bool :=
  let p := partIndex j.map j.tile j.member
  let c := s.cluster j.k
  let items := totalItems j t c r
  let (vals, clip) := if j.tile.partRequant then partValues (tileView s j r.l2) j p items else (items.map (fun e => (e.1, e.2.acc)), false)
  ({ uid := j.f.uid, part := p, key := outKey j t, eacc := r.eacc, sat := c.unit.sat, inexact := c.unit.inexact, vals := vals
     slot := lowestSlot c.outbound }, clip)

/-- Store a partial tile's words in the merge area of a cluster (R206, R321): slot n of the area, one ACC word for each output, vector by
vector with columns ascending (log 89). The values of a BFP tile are no ACC words, and the area keeps what it held. -/
def storePartial (s : State) (j : Job) (k n cols : Nat) (p : Partial) : State :=
  if j.tile.partRequant && nKind j.out = 3 then s
  else
    let base := gCis s.sys.waferNumber k (j.region.mergeOff + n * j.region.mergeSlotSize)
    putAll s (p.vals.map (fun e => ((base + 8 * (e.1 / 128 * cols + e.1 % 128)) * 8, 64, accWord e.2)))

/-- Release the landing halves of a tile after its last read (R309). -/
def releaseTile (c : Cluster) (uid l2 : Nat) : Cluster :=
  { c with landed := c.landed.filter (fun e => ¬ (e.uid = uid ∧ e.l2 = l2)) }

/-- The cluster after a finished L1 tile: the array is free, the settlements of an output tile that goes on stay (R117), and the halves of an
L2 tile that is done are released. -/
def endRun (j : Job) (r : TileRun) (c : Cluster) : Cluster :=
  let goesOn := match tileAfter j r.l2 r.l1 with
    | some t => decide (t.l2 = r.l2)
    | none => false
  let c := if goesOn then c else releaseTile c r.uid r.l2
  { c with run := none, settled := if r.last then [] else r.settled }

/-- Leave a finished L1 tile: a part sends its partial tile when a slot is free (none: it waits, R321), and an output tile's status
bits end with it. -/
def leaveTile (s : State) (j : Job) (r : TileRun) : Option State :=
  match tileAt j r.l2 r.l1 with
  | none => some s
  | some t =>
    let c := s.cluster j.k
    if isPart j && r.last && !keptByHold j r then
      if j.region.outSlots ≤ c.outbound.length then none
      else
        let (o, clip) := outboundOf s j t r
        let s := s.modCluster j.k (fun c => { c with unit := { c.unit with clip := c.unit.clip || clip } })
        let s := storePartial (foldCounts s j r) j j.k (j.region.mergeSlots + o.slot) r.colOn.length o
        some (s.modCluster j.k (fun c => { endRun j r c with
          outbound := c.outbound ++ [o], unit := { c.unit with acc := [], sat := false, inexact := false, clip := false } }))
    else
      let s := foldCounts s j r
      let ends := drainsHere j r
      some (s.modCluster j.k (fun c => { endRun j r c with
        merged := if ends then [] else c.merged
        unit := if ends then { c.unit with sat := false, inexact := false, clip := false } else c.unit }))

/-- Stage the next L1 tile of the same L2 tile: its cycles and its load follow those of the tile before; settlements of the same output tile
stay, with the cycle at which they take effect (R117, R118). -/
def stageNext (s : State) (j : Job) (r : TileRun) (t : Tile) : State :=
  let n := stageTile (tileView s j t.l2) j t
  s.modCluster j.k (fun c => { c with
    run := some { n with
      settled := if r.last then [] else r.settled, boundary := if r.last then [] else r.boundary
      cycle := r.cycle, loadFrom := r.cycle } })

/-- WEIGHT_BLOCK_LOAD (R70): the next block loads into the shadow register; after the last pass of an L1 tile this is a block of the
next L1 tile of the L2 tile. -/
def execWeightBlockLoad (k : Nat) (s : State) : Res :=
  match currentRun s k with
  | none => .next s
  | some (j, r) =>
    if runFinished j (s.cluster k) r then
      match tileAfter j r.l2 r.l1 with
      | none => .next s
      | some t =>
        if t.l2 ≠ r.l2 then .next s
        else
          match leaveTile s j r with
          | none => .next s
          | some s' => .next (stageNext s' j r t)
    else .next (s.setCluster k (loadShadow (s.cluster k) r))

/-- Swap the shadow register into the weight register in a cycle without a pass: the load of the next block may follow (R64, R70). -/
def swapWeights (c : Cluster) (r : TileRun) (cycle : Nat) : Cluster × TileRun :=
  ({ c with weights := c.shadow }, { r with weightsOf := r.shadowOf, shadowOf := none, cycle := cycle, loadFrom := cycle })

/-- The shadow register holds a block of the run. -/
def shadowHolds (r : TileRun) (b : Nat) : Bool := decide (r.shadowOf = some b)

/-- Issue a pass in the cycle after the run's: it reads the weight register. -/
def issuePass (c : Cluster) (r : TileRun) (p : PassRef) : Cluster :=
  let p := { p with cycle := r.cycle + 1 }
  { c with run := some (issued r (withUpdates c.weights r p)) }

/-- Issue the next pass, or a pass of every lane. -/
def issueOne (c : Cluster) (r : TileRun) : Cluster :=
  if (dueCommit c r).isSome || dueSettlement r then { c with run := some r }
  else if r.unstructured then
    match nothingLeft r, laneCycle (heldLanes r) r with
    | false, some n => issueLanes (heldLanes r) n c r
    | _, _ => { c with run := some r }
  else
    let q := seekPass r
    match nextPass q with
    | none => { c with run := some q }
    | some p =>
      if needsSwap q p then
        if shadowHolds q p.block then
          let (c, q) := swapWeights c q (passCycle q p - 1)
          issuePass c q p
        else { c with run := some r }
      else issuePass c q p

/-- PASS_ISSUE (R65, R68, R118, R119, R183): the clause takes ownership with its first pass, and has started (R409). -/
def execPassIssue (k : Nat) (s : State) : Res :=
  match currentRun s k with
  | none => .next s
  | some (j, r) =>
    match tileAt j r.l2 r.l1 with
    | none => .next s
    | some t =>
      let s := (takeOwner (markStarted s r.uid) j).modCluster k (fun c => { c with
        unit := { c.unit with vectors := if c.unit.isHash then 0 else r.vecs } })
      let c := s.cluster k
      .next (s.setCluster k (issueOne c (firstTest j t c r)))

/-- Enter a pass's updates into the conflict queues (R178, R179). -/
def enqueue (c : Cluster) (us : List (Nat × Int)) : Cluster :=
  { c with queues := us.foldl (fun q u => tmod [] q (u.1 % 128 % 32) (fun l => l ++ [u])) c.queues }

/-- Commit one pass: its updates, its count, and the boundary tests of its outputs (R73, R74, R109). INEXACT does not arise with TARGET HASH
(R193). DESIGN CHOICE (log 101): an update to a column beyond the output extent (R68) sets SAT and INEXACT of the tile as any other does. -/
def commitPass (j : Job) (t : Tile) (c : Cluster) (r : TileRun) (p : PassRef) : Cluster :=
  let c := enqueue c p.updates
  let c := { c with unit := { c.unit with inexact := c.unit.inexact || (p.inexact && cTarget j.c = 0) } }
  let key := if p.lane.isSome then 128 * p.block + p.vec else p.vec
  let r := { r with inFlight := r.inFlight.erase p, committed := tmod 0 r.committed key (· + 1) }
  let cols := match p.lane with
    | some l => [l.2]
    | none => List.range r.colOn.length
  let r := if r.decision = 0 || !r.last then r else testVector j t c r p.vec cols false (p.cycle + 8)
  { c with run := some r }

/-- PASS_COMMIT (R76, R109). -/
def execPassCommit (k : Nat) (s : State) : Res :=
  match currentRun s k with
  | none => .next s
  | some (j, r) =>
    match tileAt j r.l2 r.l1, dueCommit (s.cluster k) r with
    | some t, some p => .next (s.setCluster k (commitPass j t (s.cluster k) r p))
    | _, _ => .next s

/-- SETTLEMENT_EFFECT (R118): the earliest settlements that are due take effect. -/
def execSettlementEffect (k : Nat) (s : State) : Res :=
  match currentRun s k with
  | none => .next s
  | some (_, r) =>
    let waiting := (r.settled.filter (fun e => !e.inEffect && due r e.effectAt)).map (fun e => e.effectAt)
    match waiting with
    | [] => .next s
    | e :: es =>
      let first := (e :: es).foldl min e
      .next (setRun s k { r with settled := r.settled.map (fun x => if x.effectAt = first then { x with inEffect := true } else x) })

/-- Add one sum to an entry under R79. -/
def addUpdate (u : AccUnit) (key : Nat) (v : Int) : AccUnit :=
  let x := tget 0 u.acc key + v
  { u with acc := tset 0 u.acc key (satAcc x), sat := u.sat || satHit x }

/-- The sums of up to four updates, entry by entry (R180). -/
def combined (us : List (Nat × Int)) : List (Nat × Int) :=
  ((us.map (fun u => u.1)).dedup).map (fun k => (k, (us.filter (fun u => u.1 = k)).foldl (fun a u => a + u.2) 0))

/-- One cycle of a bank's combining stage (R180, R181). -/
def combineBank (c : Cluster) (bank : Nat) : Cluster :=
  let q := tget [] c.queues bank
  { c with
    unit := (combined (q.take 4)).foldl (fun u e => addUpdate u e.1 e.2) c.unit
    queues := tset [] c.queues bank (q.drop 4) }

/-- BANK_COMBINE (R180). -/
def execBankCombine (k : Nat) (bank : Nat) (s : State) : Res := .next (s.setCluster k (combineBank (s.cluster k) bank))

/-! ## Outputs -/

/-- ACC_SAT is due: TRAP_SAT is set and the output tile has saturated (R82). -/
def trapped (j : Job) (u : AccUnit) : Bool := cTrapSat j.c && u.sat

/-- A settled output's code (R104): 0 for CLAMP, the bit for SIGN; a slot of the sampled role that is not kept is written as zero
(R144). -/
def forcedCode (j : Job) (r : TileRun) (key : Nat) : Option Nat :=
  if !updates r (key / 128) (key % 128) then some 0
  else if splits j.map j.tile || r.decision = 0 then none
  else
    match settledAt r key with
    | some high => some (b2n high)
    | none => none

/-- An output of a merged tile under PART_REQUANT from the sum of its parts' values (R213); one that is not kept stays zero (R144). -/
def mergedOut (n : Noun) (it : OutItem) : OutItem × Bool :=
  if it.forced.isSome then (it, false)
  else
    match nKind n with
    | 4 => (it, false)
    | 3 => ({ it with t := some (.fin it.acc (-127)) }, false)
    | 2 => ({ it with forced := some (b2n (decide (0 ≤ it.acc))) }, false)
    | k =>
      let b := fmtBounds k (nWidth n)
      ({ it with forced := some (unsignedOf (nWidth n) (max b.1 (min b.2 it.acc))) }, decide (it.acc < b.1 ∨ b.2 < it.acc))

/-- The outputs of some entries of the run, ready to be formed, and CLIP of a merge. -/
def outItems (j : Job) (c : Cluster) (t : Tile) (r : TileRun) (keep : Nat → Bool) : List OutItem × Bool :=
  let items := ((runItems j t c r).filter (fun e => keep e.1)).map (fun e => { e.2 with forced := forcedCode j r e.1 })
  if isHome j && j.tile.partRequant && !c.merged.isEmpty then
    let xs : List (OutItem × Bool) := items.map (mergedOut j.out)
    (xs.map (fun x => x.1), xs.any (fun x => x.2))
  else (items, false)

/-- The outputs of vector v of the run: bit writes, CLIP, and the outputs that wait for the rest of their group (R88, R96, R168). -/
def vectorOutputs (s : State) (j : Job) (t : Tile) (r : TileRun) (v : Nat) :
    List (Nat × Nat × Nat) × Bool × List (Nat × OutItem) :=
  let c := s.cluster j.k
  let (items, clip1) := outItems j c t r (fun key => decide (key / 128 = v))
  let (ws, clip2, rest) := formGroups (tileView s j r.l2) j (requantOf j) r.l2 c.forming items false
  (ws, clip1 || clip2, rest)

/-- Drain vector v through the requantizer: form, deliver, clear (R77, R88, R182). A double-bit error in a cistern word that the outputs
merge into stops the clause (R100, R307, R431). -/
def requantize (s : State) (j : Job) (t : Tile) (r : TileRun) (v : Nat) (ecc : Ecc) : State :=
  let (ws, clip, rest) := vectorOutputs s j t r v
  if localCistern j.out && mergeFault s ecc ws then
    faultMember (foldCounts s j r) j.k r.uid (atTile (faulted fCisternEcc) r.l2)
  else
    let s := deliver s j r.l2 ws
    let s := if localCistern j.out then applyEcc s j.k ecc (mergeRanges s ws) else s
    s.modCluster j.k (fun c => { c with
      unit := { c.unit with acc := c.unit.acc.filter (fun e => e.1 / 128 ≠ v), clip := c.unit.clip || clip }
      forming := rest, run := some { r with drained := v + 1 } })

/-- The requantizer's or rank unit's slot is open for vector v. -/
def vectorReady (j : Job) (c : Cluster) (r : TileRun) : Bool :=
  c.owner = some r.uid && drainsHere j r && decide (r.drained < r.vecs) && allMerged j c r
    && (if cTrapSat j.c || isHome j then tileDone r && queuesEmpty c
        else vecDone r r.drained && vectorQuiet c r.drained)

/-- The requantizer reads, forms and clears the next vector (R77, R82, R88). -/
def requantVector (k : Nat) (ecc : Ecc) (s : State) : Res :=
  match currentRun s k with
  | none => .next s
  | some (j, r) =>
    match tileAt j r.l2 r.l1 with
    | none => .next s
    | some t =>
      let c := s.cluster k
      if cDecision j.c = 3 || !vectorReady j c r then .next s
      else if trapped j c.unit then
        .next (trapMember (foldCounts s j r) k r.uid (atTile (faulted fAccSat) r.l2))
      else .next (requantize s j t r r.drained ecc)

/-- REQUANT_VECTOR (R77, R82, R88). -/
def execRequantVector (u : UnitRun) (s : State) : Res := requantVector u.k u.ecc s

/-! ## The hash accumulator -/

/-- Set of a key (R185). -/
def hashSet (key : Nat) : Nat := bits (key * 0x9E3779B9 % 2 ^ 32) 31 22

/-- Apply an update to key e (R186). -/
def hashApply (u : AccUnit) (key : Nat) (v : Int) : AccUnit :=
  let st := hashSet key
  let ways := (List.range 4).map (fun w => 4 * st + w)
  match ways.find? (fun i => (tget {} u.hash i).valid && (tget {} u.hash i).key = key) with
  | some i =>
    let e := tget {} u.hash i
    { u with hash := tset {} u.hash i { e with value := satAcc (e.value + v) }, sat := u.sat || satHit (e.value + v) }
  | none =>
    let x := satAcc v
    match ways.find? (fun i => !(tget {} u.hash i).valid) with
    | some i => { u with hash := tset {} u.hash i ⟨true, key, x⟩, sat := u.sat || satHit v }
    | none =>
      let w := tget 0 u.victim st
      let e := tget {} u.hash (4 * st + w)
      { u with
        hash := tset {} u.hash (4 * st + w) ⟨true, key, x⟩, victim := tset 0 u.victim st ((w + 1) % 4)
        spillQueue := u.spillQueue ++ [(e.value, e.key)], sat := u.sat || satHit v }

/-- The totals of one vector, in ascending column (R336): keys are linear indices of the OUT noun (R184). -/
def vectorTotals (j : Job) (c : Cluster) (t : Tile) (r : TileRun) (v : Nat) : List (Nat × Int) :=
  ((runItems j t c r).filter (fun e => e.1 / 128 = v && inExtents j.out e.2.idx)).map (fun e =>
    (linearIndex j.out (e.2.idx.map Int.toNat), e.2.acc))

/-- Move the next vector's totals to the entrance of the hash accumulator, and clear its entries. -/
def queueTotals (j : Job) (c : Cluster) (t : Tile) (r : TileRun) : Cluster :=
  if r.totals.isEmpty && decide (r.drained < r.vecs) && vecDone r r.drained && vectorQuiet c r.drained then
    { c with
      unit := { c.unit with acc := c.unit.acc.filter (fun e => e.1 / 128 ≠ r.drained) }
      run := some { r with totals := vectorTotals j c t r r.drained, drained := r.drained + 1 } }
  else c

/-- Enter the first waiting total, when the spill queue has room (R187, R336). -/
def enterTotal (c : Cluster) : Cluster :=
  match c.run with
  | some r =>
    match r.totals with
    | (key, v) :: rest =>
      if c.unit.spillQueue.length < 8 then { c with unit := hashApply c.unit key v, run := some { r with totals := rest } } else c
    | [] => c
  | none => c

/-- HASH_UPDATE (R186, R336). -/
def execHashUpdate (k : Nat) (s : State) : Res :=
  match currentRun s k with
  | none => .next s
  | some (j, r) =>
    match tileAt j r.l2 r.l1 with
    | none => .next s
    | some t =>
      let c := s.cluster k
      if cTarget j.c = 1 && c.owner = some r.uid then .next (s.setCluster k (enterTotal (queueTotals j c t r))) else .next s

/-- Write record n of a spill area. -/
def putRecord (s : State) (r : Region) (k n : Nat) (e : Int × Nat) : State :=
  putBytes s (spillAddr s r k + 64 + 16 * n) (pairBytes e.1 e.2)

/-- SPILL_FULL (R191): the header says FAULTED, the fault record names the tile and COUNT, and the resident entries are discarded. -/
def spillFull (s : State) (j : Job) (l2 : Nat) : State :=
  let u := (s.cluster j.k).unit
  let s := spillHeader s j.region j.k u.spillCount u.evictions (b2n u.sat + 4)
  trapMember s j.k j.f.uid { status := stFaulted, reason := fSpillFull, l2Tile := l2, element := u.spillCount }

/-- The clause that owns a cluster. -/
def ownerJob (s : State) (k : Nat) : Option Job :=
  match runningOwner (s.cluster k) with
  | none => none
  | some u => jobOf s k u

/-- The L2 tile that a clause's output in a cluster belongs to: that of the run, or of the slot while tiles remain, or the last one. -/
def tileNow (c : Cluster) (j : Job) : Nat :=
  match runningTile c j.f.uid, c.slots.find? (fun sl => sl.uid = j.f.uid) with
  | some l2, _ => l2
  | none, some sl => if sl.finished then l2Count j - 1 else min sl.l2 (l2Count j - 1)
  | none, none => l2Count j - 1

/-- SPILL_RECORD_WRITE (R187, R191). -/
def execSpillRecordWrite (k : Nat) (s : State) : Res :=
  match ownerJob s k with
  | none => .next s
  | some j =>
    let u := (s.cluster k).unit
    match u.spillQueue with
    | [] => .next s
    | e :: rest =>
      if j.region.spillCapacity ≤ u.spillCount then .next (spillFull s j (tileNow (s.cluster k) j))
      else
        let s := putRecord s j.region k u.spillCount e
        .next (s.modCluster k (fun c => { c with
          unit := { c.unit with spillQueue := rest, spillCount := u.spillCount + 1, evictions := u.evictions + 1 } }))

/-- The valid entries of a hash accumulator in set and way order. -/
def hashRecords (u : AccUnit) : List (Int × Nat) :=
  (u.hash.filter (fun e => e.2.valid)).map (fun e => (e.2.value, e.2.key))

/-- Write the valid entries and the header (R189, R193), or raise SPILL_FULL at the first record that does not fit (R191). -/
def drainHash (s : State) (j : Job) : State :=
  let u := (s.cluster j.k).unit
  let rs := hashRecords u
  let fit := rs.take (j.region.spillCapacity - u.spillCount)
  let s := fit.zipIdx.foldl (fun s e => putRecord s j.region j.k (u.spillCount + e.2) e.1) s
  let count := u.spillCount + fit.length
  let s := s.modCluster j.k (fun c => { c with unit := { c.unit with spillCount := count } })
  if fit.length < rs.length then spillFull s j (l2Count j - 1)
  else
    let s := spillHeader s j.region j.k count u.evictions (b2n u.sat + 2)
    s.modCluster j.k (fun c => { c with drainDone := true, unit := { c.unit with hash := [], victim := [] } })

/-! ## Finishing a member -/

/-- Everything that a finished clause still has to write here has been written. -/
def memberClear (c : Cluster) (j : Job) : Bool :=
  c.outHalf.all (fun o => o.uid ≠ j.f.uid) && c.outbound.all (fun o => o.uid ≠ j.f.uid) && c.rankPending.isEmpty
    && (cHold j.c || (c.unit.ranks.isEmpty && (cTarget j.c = 0 || c.drainDone)))

/-- What HOLD leaves behind (R268). -/
def heldBy (j : Job) : Held :=
  { uid := j.f.uid, tenant := j.f.tenant, prio := j.f.prio, map := cMap j.c, target := cTarget j.c, regionIdx := cRegion j.c
    l2 := l2Count j }

/-- Finish a clause on a cluster: ownership goes, or stays as held state (R183, R268); the clause no longer waits for the cluster. -/
def finishMember (s : State) (k : Nat) : State :=
  match ownerJob s k with
  | none => s
  | some j =>
    let c := s.cluster k
    if c.slots.any (fun sl => sl.uid = j.f.uid && sl.finished) && memberClear c j && j.f.waiting.contains k then
      let s := modFlight s j.f.uid (fun f => { f with
        waiting := f.waiting.erase k
        sat := f.sat || c.unit.sat, inexact := f.inexact || c.unit.inexact, clip := f.clip || c.unit.clip })
      s.setCluster k { c with
        owner := if cHold j.c then c.owner else none, unit := if cHold j.c then c.unit else {}
        held := if cHold j.c then some (heldBy j) else c.held
        slots := if cHold j.c then c.slots.filter (fun sl => sl.uid ≠ j.f.uid) else c.slots
        run := none, landed := c.landed.filter (fun e => e.uid ≠ j.f.uid), merged := [], settled := [], forming := []
        drainDone := false, idleSince := s.nowUs }
    else s

/-- HASH_DRAIN (R189): at the end of the clause's last L2 tile. -/
def execHashDrain (k : Nat) (s : State) : Res :=
  match ownerJob s k with
  | none => .next s
  | some j =>
    let c := s.cluster k
    if cTarget j.c = 1 && !cHold j.c && !c.drainDone && c.unit.spillQueue.isEmpty
        && c.slots.any (fun sl => sl.uid = j.f.uid && sl.finished) then
      if trapped j c.unit then .next (trapMember s k j.f.uid (atTile (faulted fAccSat) (l2Count j - 1)))
      else .next (finishMember (drainHash s j) k)
    else .next s

/-! ## Ranking -/

/-- The candidates of one vector: group, value and position; an excluded one has the position of no candidate (R116, R201). -/
def vectorCandidates (j : Job) (c : Cluster) (t : Tile) (r : TileRun) (v : Nat) : List (Nat × Int × Nat) :=
  let fixed := fixedIdx j t
  (classIdx j t 1).zipIdx.filterMap (fun col =>
    if r.vecOn.getD v false && r.colOn.getD col.2 false then
      let i := addIdx fixed (addIdx ((classIdx j t 2).getD v []) col.1)
      let key := 128 * v + col.2
      let pos := if (settledAt r key).isSome then 0xFFFFFFFF else i.getD (cRankLoop j.c) 0
      some (groupKey j i, tget 0 c.unit.acc key, pos)
    else none)

/-- RANK_ACCEPT (R201). -/
def execRankAccept (k : Nat) (s : State) : Res :=
  match currentRun s k with
  | none => .next s
  | some (j, r) =>
    match tileAt j r.l2 r.l1 with
    | none => .next s
    | some t =>
      let c := s.cluster k
      if cDecision j.c ≠ 3 || !vectorReady j c r then .next s
      else if trapped j c.unit then .next (trapMember (foldCounts s j r) k r.uid (atTile (faulted fAccSat) r.l2))
      else .next (s.setCluster k { c with
        rankPending := c.rankPending ++ [vectorCandidates j c t r r.drained]
        unit := { c.unit with acc := c.unit.acc.filter (fun e => e.1 / 128 ≠ r.drained) }
        run := some { r with drained := r.drained + 1 } })

/-- Give one candidate to its group, opening it when it is new (R200, R202). -/
def rankOne (k : Nat) (gs : List RankGroup) (x : Nat × Int × Nat) : List RankGroup :=
  let gs := if gs.any (fun g => g.key = x.1) then gs else gs ++ [{ key := x.1 }]
  gs.map (fun g => if g.key = x.1 then { g with list := mergeRanks k g.list [(x.2.1, x.2.2)], seen := g.seen + 1 } else g)

/-- RANK_FLOOR_UPDATE (R201). -/
def execRankFloorUpdate (k : Nat) (s : State) : Res :=
  let c := s.cluster k
  match c.rankPending with
  | [] => .next s
  | b :: rest => .next (s.setCluster k { c with
      rankPending := rest, unit := { c.unit with ranks := b.foldl (rankOne c.unit.rankK) c.unit.ranks } })

/-- The loop values of a group key, the ranked and reduced loops at 0. -/
def groupIdx (j : Job) (key : Nat) : List Nat :=
  let ls := (List.range j.map.loops).filter (fun l => l ≠ cRankLoop j.c ∧ j.map.cls l ≠ 3)
  (ls.reverse.foldl (fun (a : List Nat × Nat) l =>
    let n := j.tile.extent.getD l 0 + 1
    (modAt a.1 l (fun _ => a.2 % n), a.2 / n)) ([0, 0, 0, 0, 0, 0], key)).1

/-- The number of candidates of a group in the member's share: active values of the ranked loop. -/
def groupSize (j : Job) : Nat :=
  let r := shareRange j.tile (cRankLoop j.c) ((shareDigits j.tile j.map.loops j.member).getD (cRankLoop j.c) 0)
  min r.2 (j.f.extents.getD (cRankLoop j.c) 0) - r.1

/-- Bit writes of a rank list: elements 2k × e to 2k × e + 2k − 1 of the row, e the innermost index (R203, R223). -/
def rankWrites (s : State) (j : Job) (k : Nat) (i : List Nat) (list : List (Int × Nat)) : List (Nat × Nat × Nat) :=
  let idx := evalTerms j.map.out j.out i
  let e := idx.getD j.out.dims 0
  let bs := rankListBytes k list
  (List.range (2 * k)).flatMap (fun (m : Nat) =>
    writeElem s j.plan j.k j.session j.out (idx.take j.out.dims ++ [e * ((2 * k : Nat) : Int) + ((m : Nat) : Int)]) (img bs (8 * m) 8))

/-- A group has seen its last candidate here. -/
def groupFull (j : Job) (g : RankGroup) : Bool := decide (groupSize j ≤ g.seen)

/-- RANK_GROUP_CLOSE (R203): the first closed group's list is written. Its words fill 64-bit words of the cistern whole, so that no write
merges (R307). -/
def execRankGroupClose (k : Nat) (s : State) : Res :=
  match ownerJob s k with
  | none => .next s
  | some j =>
    let c := s.cluster k
    match c.unit.ranks.find? (groupFull j) with
    | none => .next s
    | some g =>
      if cDecision j.c ≠ 3 then .next s
      else
        let s := deliver s j (tileNow c j) (rankWrites s j c.unit.rankK (groupIdx j g.key) g.list)
        .next (finishMember (s.modCluster k (fun c => { c with unit := { c.unit with ranks := c.unit.ranks.erase g } })) k)

/-! ## Merging -/

/-- The member cluster that runs part p. -/
def partCluster (j : Job) (p : Nat) : Nat := (partJob j p).k

/-- MERGE_SLOT_GRANT (R321): the next part in ascending order sends its outbound slot. -/
def execMergeSlotGrant (k : Nat) (s : State) : Res :=
  match currentRun s k with
  | none => .next s
  | some (j, r) =>
    let c := s.cluster k
    if !isHome j || !r.last || keptByHold j r || j.region.mergeSlots ≤ c.merging.length then .next s
    else
      let key := runKey j r
      match (partsOf j key).find? (fun p => !c.merged.contains p && c.merging.all (fun m => m.uid ≠ r.uid || m.part ≠ p)) with
      | none => .next s
      | some p =>
        let q := partCluster j p
        match (s.cluster q).outbound.find? (fun o => o.uid = r.uid ∧ o.part = p ∧ o.key = key) with
        | none => .next s
        | some o =>
          let o' := { o with slot := lowestSlot c.merging }
          let s := s.modCluster q (fun x => { x with outbound := x.outbound.erase o })
          let s := s.modCluster k (fun x => { x with merging := x.merging ++ [o'] })
          .next (finishMember (storePartial s j k o'.slot r.colOn.length o') q)

/-- The home's own totals as its part of the sum, before the first addition: its gated outputs as they settled (R129), requantized under
PART_REQUANT (R213). -/
def homeBase (s : State) (j : Job) (t : Tile) (c : Cluster) (r : TileRun) : AccUnit :=
  if !c.merged.isEmpty then c.unit
  else if j.tile.partRequant && nKind j.out ≠ 4 then
    let x := partValues s j 0 (totalItems j t c r)
    { c.unit with acc := x.1.foldl (fun a e => tset 0 a e.1 e.2) [], clip := c.unit.clip || x.2 }
  else { c.unit with acc := r.settled.foldl (fun a e => tset 0 a e.key (leavingValue j c r e.key)) c.unit.acc }

/-- A part's word at the home's exponent, with SAT and INEXACT of the shift (R207). -/
def shiftPartial (k v : Int) : Int × Bool × Bool :=
  let x := alignShift v k
  (satAcc x, satHit x, alignDrops v k)

/-- Add a partial tile: each word is shifted by E_ACC_p − E_ACC and is an update under R79; requantized values add without a bound. The tile
keeps the OR of the status bits (R207, R209, R213). -/
def addPartial (j : Job) (eacc : Int) (u : AccUnit) (m : Partial) : AccUnit :=
  let u := { u with sat := u.sat || m.sat, inexact := u.inexact || m.inexact }
  if j.tile.partRequant && nKind j.out ≠ 4 then
    { u with acc := m.vals.foldl (fun a e => tmod 0 a e.1 (· + e.2)) u.acc }
  else m.vals.foldl (fun u e =>
    let x := shiftPartial (m.eacc - eacc) e.2
    addUpdate { u with sat := u.sat || x.2.1, inexact := u.inexact || x.2.2 } e.1 x.1) u

/-- MERGE_STEP (R207, R208): the first granted part of the home's clause is added. -/
def execMergeStep (k : Nat) (s : State) : Res :=
  match currentRun s k with
  | none => .next s
  | some (j, r) =>
    let c := s.cluster k
    match c.merging.find? (fun m => m.uid = r.uid), tileAt j r.l2 r.l1 with
    | some m, some t =>
      if c.owner = some r.uid && tileDone r && queuesEmpty c then
        .next (s.setCluster k { c with
          merging := c.merging.erase m, merged := c.merged ++ [m.part]
          unit := addPartial j r.eacc (homeBase (tileView s j r.l2) j t c r) m })
      else .next s
    | _, _ => .next s

/-! ## The boundary -/

/-- A slot holds a clause of a class above another that is not finished here (R421). -/
def higherWaits (c : Cluster) (prio : Nat) : Bool :=
  c.slots.any (fun sl => !sl.finished && !sl.yielded && decide (sl.prio < prio))

/-- Index of the next L2 tile that a clause has to run in a cluster, past the tile that it has run or is merging (R225). -/
def tileToRun (c : Cluster) (j : Job) : Nat :=
  match c.run with
  | some r =>
    if r.uid = j.f.uid then
      (match tileFrom j (r.l2 + 1) with
       | some t => t.l2
       | none => l2Count j)
    else 0
  | none => ((c.slots.find? (fun sl => sl.uid = j.f.uid)).map (fun sl => sl.l2)).getD 0

/-- Yield (R216, R423): the context goes to the save slot of the owner's class, its halves are released, and its outstanding landings
are discarded. A tile whose outputs are still to be formed keeps its landed copy, without the halves. -/
def yieldOwner (s : State) (j : Job) : State :=
  let c := s.cluster j.k
  let s := writeSave s j.region j.k j.f.prio (contextImage c.unit j.f.tenant (s.tenant j.f.tenant).epoch.toNat (tileToRun c j))
  let s : State := { s with work := { s.work with
    outstanding := s.work.outstanding.filter (fun o => ¬ (o.uid = j.f.uid ∧ o.cluster = j.k ∧ o.isWrite = false)) } }
  let kept := (c.landed.filter (fun e => e.uid = j.f.uid && runningTile c j.f.uid = some e.l2)).map (fun e => { e with ranges := [] })
  s.modCluster j.k (fun c => { c.modSlot j.f.uid (fun sl => { sl with yielded := true }) with
    owner := none, unit := {}, run := none, landed := c.landed.filter (fun e => e.uid ≠ j.f.uid) ++ kept, merged := []
    settled := [], forming := []
    saved := { prio := j.f.prio, uid := j.f.uid, unit := c.unit, run := c.run, merged := c.merged, settled := c.settled
               forming := c.forming } :: c.saved })

/-- Yield when a higher class waits; an URGENT clause never yields (R421). -/
def yieldIfHigher (s : State) (j : Job) : State :=
  if j.f.prio ≠ 0 && (s.cluster j.k).owner = some j.f.uid && higherWaits (s.cluster j.k) j.f.prio then yieldOwner s j
  else s

/-- Go to the next L2 tile, which starts at once when it has landed, or finish (R318, R328, R411, R421). -/
def nextL2 (s : State) (j : Job) (r : TileRun) : State :=
  match tileAfter j r.l2 r.l1 with
  | none => finishMember (markFinished (flushForming s j) j.k j.f.uid) j.k
  | some t =>
    startTile (yieldIfHigher (s.modCluster j.k (fun c => c.modSlot j.f.uid (fun sl => { sl with l2 := t.l2 }))) j) j

/-- The tile's last pass of an L2 tile is behind it. -/
def l2Done (j : Job) (c : Cluster) (r : TileRun) : Bool :=
  runFinished j c r &&
    (match tileAfter j r.l2 r.l1 with
     | none => true
     | some t => t.l2 ≠ r.l2)

/-- The owner stands between merge steps: its tile is done and a part is still to be added (R208, R422). -/
def midYield (j : Job) (c : Cluster) (r : TileRun) : Bool :=
  c.owner = some r.uid && tileDone r && queuesEmpty c && r.drained = 0 && isHome j && r.last && !allMerged j c r

/-- A clause in the cluster's slots that has been stopped and has work, a slot or a partial tile here (R411, R413). -/
def stoppedSlot (s : State) (c : Cluster) : Option Slot :=
  c.slots.find? (fun sl => (!sl.finished || c.outbound.any (fun o => o.uid = sl.uid) || runningOwner c = some sl.uid)
    && (match flightOf s sl.uid with | some f => f.stop.isSome | none => false))

/-- The cluster is at a boundary for a stopped clause: it is not in the middle of one of its L2 tiles. A part whose output tile is complete
and waits for an outbound slot is not in the middle of one either. -/
def atBoundary (j : Option Job) (c : Cluster) (uid : Nat) : Bool :=
  match j, c.run with
  | some j, some r => r.uid ≠ uid || c.owner ≠ some uid || l2Done j c r || midYield j c r || (isPart j && r.last && runFinished j c r)
  | _, _ => true

/-- The owner waits for its next tile to land (R422). -/
def landingWait (s : State) (k : Nat) : Option Job :=
  match ownerJob s k with
  | none => none
  | some j => if (s.cluster k).slots.any (fun sl => sl.uid = j.f.uid && sl.live) then some j else none

/-- L2_TILE_BOUNDARY (R215, R318, R411, R413, R421, R422). -/
def execL2TileBoundary (k : Nat) (s : State) : Res :=
  let c := s.cluster k
  match stoppedSlot s c with
  | some sl => if atBoundary (jobOf s k sl.uid) c sl.uid then .next (dropMember s k sl.uid) else .next s
  | none =>
    match currentRun s k with
    | none =>
      match landingWait s k with
      | some j => .next (yieldIfHigher s j)
      | none => .next (finishMember s k)
    | some (j, r) =>
      if c.owner ≠ some r.uid then .next s
      else if l2Done j c r then
        match leaveTile s j r with
        | some s' => .next (nextL2 s' j r)
        | none => .next (yieldIfHigher s j)
      else if midYield j c r then .next (yieldIfHigher s j)
      else .next s

/-- The saved context of the highest class, the one saved first within it. -/
def bestSaved (l : List Saved) : Option Saved :=
  l.reverse.foldl (fun acc x => match acc with
    | none => some x
    | some a => if x.prio < a.prio then some x else some a) none

/-- The best saved context comes back to a free cluster (R425, R424): the pending spill records of a HASH image are then written (R216). A double-bit error in the image stops the
clause (R307); held state is lost with it (log 106). -/
def restoreContext (k : Nat) (ecc : Ecc) (s : State) : Res :=
  let c := s.cluster k
  match bestSaved c.saved with
  | none => .next s
  | some v =>
    if c.awake && c.owner.isNone && !higherWaits c v.prio then
      if ecc = .cisternDouble then
        .next (faultMember (s.setCluster k { c with saved := c.saved.erase v }) k v.uid (faulted fCisternEcc))
      else
        let c := if ecc = .corrected then { c with ecc := satInc 0xFFFFFFFF c.ecc } else c
        .next (s.setCluster k { c.modSlot v.uid (fun sl => { sl with yielded := false }) with
          owner := some v.uid, unit := v.unit, run := v.run, merged := v.merged, settled := v.settled, forming := v.forming
          held := v.held, saved := c.saved.erase v })
    else .next s

/-- CONTEXT_RESTORE (R425). -/
def execContextRestore (u : UnitRun) (s : State) : Res := restoreContext u.k u.ecc s

/-- The OUT half that the pump writes back next: one whose tile has made its last output write (R328). -/
def readyHalf (c : Cluster) : Option OutHalf :=
  c.outHalf.find? (fun h => runningTile c h.uid ≠ some h.l2)

/-- OUT_WRITE_BACK (R328, R234, R307, R431). -/
def execOutWriteBack (k : Nat) (ecc : Ecc) (s : State) : Res :=
  match readyHalf (s.cluster k) with
  | none => .next s
  | some h =>
    match jobOf s k h.uid with
    | none => .next s
    | some j =>
      match checkWrites s j ecc h.writes with
      | .fetch gs => .next (fetchGranules s j gs)
      | .wake ks => .next (wakeClusters s ks)
      | .bad v =>
        .next (faultMember (s.modCluster k (fun c => { c with outHalf := c.outHalf.erase h })) k h.uid (atTile v h.l2))
      | .ok =>
        let s := forget (storeOutputs s j ecc h.writes) j (writeRanges h.writes)
        .next (finishMember (s.modCluster k (fun c => { c with outHalf := c.outHalf.erase h })) k)

/-- No cluster holds a run, the accumulators or outputs to write for a clause. -/
def quiet (s : State) (uid : Nat) : Bool :=
  s.clusters.all (fun e => decide (runningOwner e.2 ≠ some uid) && !(e.2.run.any (fun r => r.uid = uid))
    && e.2.outHalf.all (fun o => o.uid ≠ uid) && e.2.outbound.all (fun o => o.uid ≠ uid))

/-- CLAUSE_COMPLETE (R234, R411, R413): every cluster has finished or has stopped, and every write is visible. -/
def execClauseComplete (t : Nat) (tag : BitVec 16) (s : State) : Res :=
  match flightTag s t tag.toNat with
  | none => .next s
  | some f =>
    match f.stop with
    | some v =>
      if quiet s f.uid && s.work.outstanding.all (fun o => o.uid ≠ f.uid || !o.isWrite) then .next (completeClause s f v) else .next s
    | none =>
      if (f.waiting.isEmpty || f.done) && s.work.outstanding.all (fun o => o.uid ≠ f.uid)
          && !(decide (0x0C ≤ cVerb f.words ∧ cVerb f.words ≤ 0x0E)) then
        .next (completeClause s f {})
      else .next s

end Sys2Proof.Machine
end

