-- ==== Sys2Proof/Machine/Contract.lean ====
section
/-!
DEFINITION. Sys2Proof/Machine/Contract.lean: CONTRACT and CONTRACT_SPARSE as a whole (R265, R266): the sequencers' own steps on every
cluster that still runs the clause, cycle by cycle, until nothing more happens.
-/

namespace Sys2Proof.Machine

/-- The state after a command, the state before it when it stops. -/
def after (r : Res) (s : State) : State :=
  match r with
  | .next s' => s'
  | _ => s

/-- Repeat a step until it changes nothing, at most n times. -/
def untilStill (f : State → State) : Nat → State → State
  | 0, s => s
  | n + 1, s => let s' := f s; if s' = s then s else untilStill f n s'

/-- Take every slot that a doorbell names. -/
def takeAll (s : State) (k : Nat) : State := (List.range 8).foldl (fun s _ => after (execSlotTake k s) s) s

/-- One cycle of a cluster: every unit of it does what it can. -/
def clusterCycle (k : Nat) (s : State) : State :=
  let s := takeAll s k
  let s := after (execLandingComplete k .clean s) s
  let s := after (execWeightBlockLoad k s) s
  let s := after (execSettlementEffect k s) s
  let s := after (execPassIssue k s) s
  let s := untilStill (fun s => after (execPassCommit k s) s) 128 s
  let s := (List.range 32).foldl (fun s b => after (execBankCombine k b s) s) s
  let s := after (execHashUpdate k s) s
  let s := after (execSpillRecordWrite k s) s
  let s := after (execMergeSlotGrant k s) s
  let s := after (execMergeStep k s) s
  let s := after (requantVector k .clean s) s
  let s := after (execRankAccept k s) s
  let s := after (execRankFloorUpdate k s) s
  let s := after (execRankGroupClose k s) s
  let s := after (execOutWriteBack k .clean s) s
  let s := after (execHashDrain k s) s
  let s := after (execL2TileBoundary k s) s
  after (restoreContext k .clean s) s

/-- A cluster has a part in a clause still: it holds a slot, held state or outputs of it. A member that has finished may still be the source
of a multicast group (R331). -/
def hasPart (uid : Nat) (c : Cluster) : Bool :=
  c.slots.any (fun sl => sl.uid = uid) || c.held.any (fun h => h.uid = uid) || c.outHalf.any (fun o => o.uid = uid)

/-- A round: one cycle of every cluster that has a part in the clause. -/
def clauseRound (uid : Nat) (s : State) : State :=
  match flightOf s uid with
  | none => s
  | some _ => ((s.clusters.filter (fun e => hasPart uid e.2)).map (fun e => e.1)).foldl (fun s k => clusterCycle k s) s

/-- More rounds than any clause of a loaded plan has cycles to run: it bounds the recursion only. -/
def roundBound : Nat := 2 ^ 64

/-- Run a clause on its clusters until nothing more happens. -/
def runClause (s : State) (uid : Nat) : State := untilStill (clauseRound uid) roundBound s

/-- A contraction of a verb code, run to its end with no ECC finding: the commands of its cycles take one each (log 108). -/
def contraction (verb t : Nat) (tag : BitVec 16) (s : State) : Res :=
  match flightTag s t tag.toNat with
  | none => .next s
  | some f => if cVerb f.words = verb then .next (runClause s f.uid) else .next s

/-- CONTRACT (R265). -/
def execContract (t : Nat) (tag : BitVec 16) (s : State) : Res := contraction 1 t tag s

/-- CONTRACT_SPARSE (R266). -/
def execContractSparse (t : Nat) (tag : BitVec 16) (s : State) : Res := contraction 2 t tag s

end Sys2Proof.Machine
end

