-- ==== Sys2Proof/Machine/Verbs.lean ====
section
/-!
DEFINITION. Sys2Proof/Machine/Verbs.lean: the verbs other than contractions (R268 to R288). A command carries the whole verb out on every
cluster that runs the clause; CLAUSE_COMPLETE then posts the notice. The operands are read as they stand when the command comes (log 28).
-/

namespace Sys2Proof.Machine

/-! ## Running a verb -/

/-- A clause in flight of tenant t with a tag and a verb, that may start and has clusters to run it. -/
def verbFlight (s : State) (t : Nat) (tag : BitVec 16) (ok : Clause → Bool) : Option Flight :=
  match flightTag s t tag.toNat with
  | none => none
  | some f => if ok f.words && mayStart s f && !f.done && !f.waiting.isEmpty then some f else none

/-- Every cluster is awake and has come to this clause. -/
def tiledReady (s : State) (f : Flight) : Bool :=
  f.waiting.all (fun k => (s.cluster k).awake &&
    (match currentSlot s k with
     | some sl => decide (sl.uid = f.uid)
     | none => false))

/-- Every cluster is awake and has taken the clause's slot. -/
def untiledReady (s : State) (f : Flight) : Bool :=
  f.waiting.all (fun k => (s.cluster k).awake && (s.cluster k).slots.any (fun sl => sl.uid = f.uid && sl.taken))

/-- The jobs of a clause's remaining members. -/
def jobsOf (s : State) (f : Flight) : List Job := f.waiting.filterMap (jobFor s f)

/-- Carry out a verb on the members, once they are ready. -/
def onVerb (s : State) (t : Nat) (tag : BitVec 16) (ok : Clause → Bool) (isReady : State → Flight → Bool)
    (body : State → Flight → List Job → State) : Res :=
  match verbFlight s t tag ok with
  | none => .next s
  | some f =>
    let s := f.waiting.foldl takeAll s
    if isReady s f then .next (body (markStarted s f.uid) f (jobsOf s f)) else .next s

/-- The verb is done on every member. -/
def endVerb (s : State) (f : Flight) : State :=
  let s := f.waiting.foldl (fun s k => markFinished s k f.uid) s
  modFlight s f.uid (fun f => { f with waiting := [], done := true })

/-- The verb stops with a verdict on every member (R411). -/
def stopVerb (s : State) (f : Flight) (v : Verdict) : State :=
  f.waiting.foldl (fun s k => dropMember s k f.uid) (stopClause s f.uid v)

/-- Note status bits of outputs in the clause (R80). -/
def noteBits (s : State) (f : Flight) (sat inexact clip : Bool) : State :=
  modFlight s f.uid (fun f => { f with sat := f.sat || sat, inexact := f.inexact || inexact, clip := f.clip || clip })

/-- What a verb makes of one L2 tile: outputs for the requantizer, copied elements with their source row, bit writes, and the status
bits. -/
structure TileOut where
  items : List OutItem := []
  eacc : Int := 0
  copied : List (Nat × List Int × Elem) := []
  writes : List (Nat × Nat × Nat) := []
  sat : Bool := false
  inexact : Bool := false
  clip : Bool := false
  fault : Option Verdict := none
deriving DecidableEq, Repr

/-- The L2 tiles of a member that run: index and first values. -/
def tilesOf (j : Job) : List (Nat × List Nat) :=
  ((l2Tiles j.map j.tile j.member).zipIdx.filter (fun e => !tileSkipped j.f.extents j.map e.1)).map (fun e => (e.2, e.1))

/-- What a list of checks asks for before anything can be done: granules to fetch and clusters to wake, per job. -/
def neededFirst (s : State) (ls : List (Job × Landing)) : Option State :=
  let asks := ls.filter (fun e => match e.2 with | .fetch _ => true | .wake _ => true | _ => false)
  if asks.isEmpty then none
  else some (asks.foldl (fun s e => match e.2 with
    | .fetch gs => fetchGranules s e.1 gs
    | .wake ks => wakeClusters s ks
    | _ => s) s)

/-! ### One walk over tiles -/

/-- A walk over the tiles of a verb: the state, the ECC finding that no access has met yet, and what has stopped the clause. -/
structure Walk where
  s : State
  ecc : Ecc
  stop : Option Verdict := none
deriving DecidableEq, Repr

/-- The finding is spent on the accesses that it concerns. -/
def spent (s : State) (ecc : Ecc) (rs : List (Nat × Nat)) : Ecc := if eccTouches s ecc rs then .clean else ecc

/-- Read bit ranges for a tile: what they come to stops the walk, or the finding among them is noted. -/
def walkRead (w : Walk) (j : Job) (l2 : Nat) (rs : List (Nat × Nat)) : Walk :=
  if w.stop.isSome then w
  else
    let s := applyEcc w.s j.k w.ecc rs
    match checkReads w.s j w.ecc rs with
    | .bad v => { w with s := s, stop := some (atTile v l2) }
    | _ => { w with s := race s j.f.uid false rs, ecc := spent w.s w.ecc rs }

/-- Write a tile's outputs, or stop the walk with nothing of them written. -/
def walkWrite (w : Walk) (j : Job) (l2 : Nat) (ws : List (Nat × Nat × Nat)) : Walk :=
  if w.stop.isSome then w
  else
    match checkWrites w.s j w.ecc ws with
    | .bad v => { w with stop := some (atTile v l2) }
    | _ => { w with s := storeOutputs w.s j w.ecc ws, ecc := spent w.s w.ecc (mergeRanges w.s ws) }

/-- Stop a walk. -/
def walkStop (w : Walk) (v : Option Verdict) : Walk := { w with stop := w.stop <|> v }

/-- Note the status bits of outputs in the clause. -/
def walkBits (w : Walk) (f : Flight) (sat inexact clip : Bool) : Walk :=
  if w.stop.isSome then w else { w with s := noteBits w.s f sat inexact clip }

/-- End a verb: with the verdict that stopped its walk, or done. -/
def walkEnd (w : Walk) (f : Flight) : State :=
  match w.stop with
  | some v => stopVerb w.s f v
  | none => endVerb w.s f

/-! ### Element-by-element verbs -/

/-- Elements of a member that wait for the rest of their group (R96, R168; log 92). -/
structure Waiting where
  items : List (Nat × OutItem) := []
  copied : List (Nat × List Int × Elem) := []
deriving DecidableEq, Repr

/-- Copied elements that can be written now and those that wait, source row by source row. -/
def readyCopied (n : Noun) (xs : List (Nat × List Int × Elem)) (atEnd : Bool) :
    List (Nat × List Int × Elem) × List (Nat × List Int × Elem) :=
  let parts := ((xs.map (fun x => x.1)).dedup).map (fun r =>
    readyElems n (fun (x : Nat × List Int × Elem) => x.2.1) (xs.filter (fun x => x.1 = r)) atEnd)
  (parts.flatMap (fun p => p.1), parts.flatMap (fun p => p.2))

/-- The bit writes of copied elements, each with its source row and its destination row. -/
def copiedWrites (s : State) (j : Job) (xs : List (Nat × List Int × Elem)) : List (Nat × Nat × (Nat × Nat × Nat)) :=
  let keys := (xs.map (fun x => (x.1, (x.2.1.getD 0 0).toNat))).dedup
  let rows := if cVerb j.c = 7 then keys else (xs.map (fun x => (x.1, 0))).dedup
  rows.flatMap (fun k =>
    let mine := xs.filter (fun x => x.1 = k.1 ∧ (cVerb j.c = 7 → (x.2.1.getD 0 0).toNat = k.2))
    (elemWrites s j j.out (mine.map (fun x => x.2))).map (fun w => (k.1, k.2, w)))

/-- The bit writes that a tile gives with what waited before it, CLIP, and what waits after it; `pick` chooses among the writes of copied
elements. -/
def tileWrites (pick : List (Nat × Nat × (Nat × Nat × Nat)) → List (Nat × Nat × Nat)) (s : State) (j : Job) (l2 : Nat) (o : TileOut)
    (w : Waiting) (atEnd : Bool) : List (Nat × Nat × Nat) × Bool × Waiting :=
  let (ws, clip, items) := formGroups s j { requantOf j with eacc := o.eacc } l2 w.items o.items atEnd
  let (now, copied) := readyCopied j.out (w.copied ++ o.copied.filter (fun x => inExtents j.out x.2.1)) atEnd
  (o.writes ++ ws ++ pick (copiedWrites s j now), clip, { items := items, copied := copied })

/-- A verb that goes through its tiles element by element: what a tile reads, what it makes, and which writes of copied elements count. -/
structure TileVerb where
  reads : State → Job → List Nat → List (Nat × Nat)
  work : State → Job → Nat → List Nat → TileOut
  pick : List (Nat × Nat × (Nat × Nat × Nat)) → List (Nat × Nat × Nat) := fun ws => ws.map (fun w => w.2.2)

/-- The bit writes of a member's tiles as its operands stand, without what an earlier tile of the clause changes. -/
def plannedWrites (v : TileVerb) (s : State) (j : Job) : List (List (Nat × Nat × Nat)) :=
  let ts := tilesOf j
  (ts.zipIdx.foldl (fun (a : List (List (Nat × Nat × Nat)) × Waiting) e =>
    let (ws, _, w) := tileWrites v.pick s j e.1.1 (v.work s j e.1.1 e.1.2) a.2 (decide (e.2 + 1 = ts.length))
    (a.1 ++ [ws], w)) ([], {})).1

/-- Do one tile of a member: nothing after a stop. A tile that faults writes nothing (R274). -/
def doTile (v : TileVerb) (j : Job) (a : Walk × Waiting) (e : Nat × List Nat) : Walk × Waiting :=
  let w := walkRead a.1 j e.1 (v.reads a.1.s j e.2)
  if w.stop.isSome then (w, a.2)
  else
    let o := v.work w.s j e.1 e.2
    match o.fault with
    | some x => (walkStop w (some x), a.2)
    | none =>
      let (ws, clip, rest) := tileWrites v.pick w.s j e.1 o a.2 false
      let w' := walkBits (walkWrite w j e.1 ws) j.f o.sat o.inexact (o.clip || clip)
      (w', if w'.stop.isSome then a.2 else rest)

/-- Write what still waits on a member, whole groups or not, also after a stop (log 92). -/
def flushWaiting (v : TileVerb) (j : Job) (a : Walk × Waiting) : Walk :=
  let (ws, clip, _) := tileWrites v.pick a.1.s j 0 {} a.2 true
  if ws.isEmpty then a.1
  else { walkBits (walkWrite { a.1 with stop := none } j ((a.2.items.getLast?.map (fun x => x.1)).getD 0) ws) j.f false false clip with
    stop := a.1.stop }

/-- Every L2 tile of every member of an element-by-element verb (R318, R327, R328). -/
def runTiles (v : TileVerb) (ecc : Ecc) (s : State) (f : Flight) (js : List Job) : State :=
  match neededFirst s (js.flatMap (fun j => (tilesOf j).map (fun e => (j, checkReads s j .clean (v.reads s j e.2))))) with
  | some s => s
  | none =>
    match neededFirst s (js.flatMap (fun j => (plannedWrites v s j).map (fun ws => (j, checkWrites s j .clean ws)))) with
    | some s => s
    | none =>
      walkEnd (js.foldl (fun w j => flushWaiting v j ((tilesOf j).foldl (doTile v j) (w, {}))) { s := s, ecc := ecc }) f

/-- The elements of an L2 tile, by loop values: L1 tile by L1 tile (R318), inside the run extents (R323). -/
def elements (j : Job) (l2 : Nat) (st2 : List Nat) : List (List Nat) :=
  let ls := List.range j.map.loops
  (l1Seq j l2 st2).flatMap (fun t =>
    (flatten j.map j.tile j.member t.st2 t.st1 ls).filter (fun i => activeIdx j.f.extents j.map i ls))

/-! ## POINTWISE (R270, R271) -/

/-- One LUT entry. -/
def lutAt (l : List Word) (i : Nat) : Fp := fpOf (l.getD i 0)

/-- floor(u) clamped to 0..254, and u − i clamped to 0..1 (R271). -/
def lutPlace (u : Fp) : Nat × Fp :=
  match u with
  | .nan => (0, .fin 0 0)
  | .inf true => (0, .fin 0 0)
  | .inf false => (254, .fin 1 0)
  | .fin m e =>
    let i : Int := max 0 (min 254 (floorExp m e))
    let d := fpAdd (.fin m e) (.fin (-i) 0)
    let f : Fp := match d with
      | .fin m e => if m ≤ 0 then .fin 0 0 else if 1 ≤ floorExp m e then .fin 1 0 else .fin m e
      | x => x
    (i.toNat, f)

/-- The interpolated value y of R271; `slot` is X0, SH and L. -/
def lutValue (slot : Word × Int × List Word) (x : Fp) : Fp :=
  let u := fpMul (fpAdd x (fpNeg (fpOf slot.1))) (.fin 1 (-slot.2.1))
  let p := lutPlace u
  let l0 := lutAt slot.2.2 p.1
  fpAdd l0 (fpMul p.2 (fpAdd (lutAt slot.2.2 (p.1 + 1)) (fpNeg l0)))

/-- round_fp32(y × s + b), in one rounding. -/
def fpFma (y s b : Fp) : Fp :=
  match y with
  | .nan => .nan
  | .inf _ => fpAdd (fpMul y s) b
  | .fin m e => fpScale m e s b

/-- z of an OP on two values in accumulator units, before saturation (R270). -/
def pointOp (op : Nat) (a b : Int) : Int :=
  match op with
  | 1 => a + b
  | 2 => a - b
  | 3 => a * b
  | 4 => max a b
  | 5 => min a b
  | _ => a

/-- The exponent of z (R270). -/
def pointExp (c : Clause) : Int := if cOp c = 3 then 2 * cEacc c else cEacc c

/-- Bytes that a POINTWISE tile reads. -/
def pointReads (s : State) (j : Job) (st2 : List Nat) : List (Nat × Nat) :=
  slotReads s j st2 j.a j.map.a ++ (if cOp j.c = 0 then [] else slotReads s j st2 j.b j.map.b) ++ tableReads s j st2
    ++ outMetaReads s j st2

/-- One output of POINTWISE, with SAT and INEXACT. -/
def pointItem (s : State) (j : Job) (i : List Nat) : OutItem × Bool × Bool :=
  let a := accUnits j.a (cEacc j.c) (j.elem s j.a (evalTerms j.map.a j.a i))
  let b := if cOp j.c = 0 then (0, false) else accUnits j.b (cEacc j.c) (j.elem s j.b (evalTerms j.map.b j.b i))
  let z := pointOp (cOp j.c) a.1 b.1
  let ch := channelOf j i
  let t := if cLutEn j.c then
      let (sc, bi) := scaleBias s j ch
      some (fpFma (lutValue (tget (0, 0, []) (s.cluster j.k).luts (cLut j.c)) (fpRound (satAcc z) (pointExp j.c))) (fpOf sc) (fpOf bi))
    else none
  ({ idx := evalTerms j.map.out j.out i, ch := ch, acc := satAcc z, t := t }, satHit z, a.2 || b.2)

/-- One L2 tile of POINTWISE. Its row of R263 lists no fault while running, so that saturation sets SAT only (log 69). -/
def pointTile (s : State) (j : Job) (l2 : Nat) (st2 : List Nat) : TileOut :=
  let xs := (elements j l2 st2).map (pointItem s j)
  { items := xs.map (fun x => x.1), eacc := pointExp j.c, sat := xs.any (fun x => x.2.1), inexact := xs.any (fun x => x.2.2) }

/-- POINTWISE with one OP. -/
def pointwise (op t : Nat) (tag : BitVec 16) (ecc : Ecc) (s : State) : Res :=
  onVerb s t tag (fun c => cVerb c = 3 && cOp c = op) tiledReady (runTiles { reads := pointReads, work := pointTile } ecc)

/-- POINTWISE_PASS (R270, R271). -/
def execPointwisePass (t : Nat) (run : VerbRun) (s : State) : Res := pointwise 0 t run.tag run.ecc s

/-- POINTWISE_ADD (R270). -/
def execPointwiseAdd (t : Nat) (run : VerbRun) (s : State) : Res := pointwise 1 t run.tag run.ecc s

/-- POINTWISE_SUB (R270). -/
def execPointwiseSub (t : Nat) (run : VerbRun) (s : State) : Res := pointwise 2 t run.tag run.ecc s

/-- POINTWISE_MUL (R270). -/
def execPointwiseMul (t : Nat) (run : VerbRun) (s : State) : Res := pointwise 3 t run.tag run.ecc s

/-- POINTWISE_MAX (R270). -/
def execPointwiseMax (t : Nat) (run : VerbRun) (s : State) : Res := pointwise 4 t run.tag run.ecc s

/-- POINTWISE_MIN (R270). -/
def execPointwiseMin (t : Nat) (run : VerbRun) (s : State) : Res := pointwise 5 t run.tag run.ecc s

/-! ## Copies: GATHER, SCATTER, PUMP, COMPRESS, EXPAND (R262, R274 to R278) -/

/-- The index element X[i] of GATHER and SCATTER: none for no row (R274). -/
def rowIndex (s : State) (j : Job) (i : Nat) : Option Nat :=
  let v := (j.elem s j.x [(i : Int)]).code
  let v := if nKind j.x = 4 then v % 2 ^ 32 else v
  if v = (if nKind j.x = 4 then 0xFFFFFFFF else 0xFFFF) then none else some v

/-- An index list with dimension 0 replaced. -/
def setDim0 (idx : List Int) (v : Nat) : List Int := ((v : Nat) : Int) :: idx.drop 1

/-- The X elements that a tile reads. -/
def indexReads (s : State) (j : Job) (st2 : List Nat) (n : Noun) (ts : List DWord) : List (Nat × Nat) :=
  (((slotIndices j st2 n ts).filter (inExtents n)).map (fun i => i.getD 0 0)).dedup.flatMap (fun i =>
    elemReads s j.plan j.k j.session j.x [i])

/-- Indices of the A elements that a GATHER tile copies: OUT index, and A index or no row. -/
def gatherPairs (s : State) (j : Job) (l2 : Nat) (st2 : List Nat) : List (List Int × Option (List Int)) :=
  ((elements j l2 st2).map (fun i => (evalTerms j.map.out j.out i, evalTerms j.map.a j.a i))).filterMap (fun e =>
    if inExtents j.out e.1 then some (e.1, (rowIndex s j (e.1.getD 0 0).toNat).map (setDim0 e.2)) else none)

/-- Bytes that a GATHER tile reads. -/
def gatherReads (s : State) (j : Job) (st2 : List Nat) : List (Nat × Nat) :=
  indexReads s j st2 j.out j.map.out
    ++ (l2Points j st2 [0, 1, 2, 3, 4, 5]).flatMap (fun i =>
      let o := evalTerms j.map.out j.out i
      if !inExtents j.out o then []
      else
        match rowIndex s j (o.getD 0 0).toNat with
        | some r => elemReads s j.plan j.k j.session j.a (setDim0 (evalTerms j.map.a j.a i) r)
        | none => [])

/-- INDEX_RANGE (R274). -/
def badRow (n : Noun) (idx : Option (List Int)) : Bool :=
  match idx with
  | some i => decide ((nExt n 0 : Int) ≤ i.getD 0 0)
  | none => false

/-- One L2 tile of GATHER (R274, R275). -/
def gatherTile (s : State) (j : Job) (l2 : Nat) (st2 : List Nat) : TileOut :=
  let ps := gatherPairs s j l2 st2
  if ps.any (fun e => badRow j.a e.2) then { fault := some (atTile (faulted fIndexRange) l2) }
  else { copied := ps.map (fun e => (0, e.1, match e.2 with | some a => j.elem s j.a a | none => {})) }

/-- GATHER (R275). -/
def execGather (t : Nat) (run : VerbRun) (s : State) : Res :=
  onVerb s t run.tag (fun c => cVerb c = 6) tiledReady (runTiles { reads := gatherReads, work := gatherTile } run.ecc)

/-- SCATTER's element pairs: source row, A index, and OUT index or skip. An element outside A's extents in a row of X is read too, as all-zero
bits (R257). -/
def scatterPairs (s : State) (j : Job) (l2 : Nat) (st2 : List Nat) : List (Nat × List Int × Option (List Int)) :=
  ((elements j l2 st2).map (fun i => (evalTerms j.map.a j.a i, evalTerms j.map.out j.out i))).filterMap (fun e =>
    if inExtents j.x (e.1.take 1) then
      let row := (e.1.getD 0 0).toNat
      some (row, e.1, (rowIndex s j row).map (setDim0 e.2))
    else none)

/-- Bytes that a SCATTER tile reads. -/
def scatterReads (s : State) (j : Job) (st2 : List Nat) : List (Nat × Nat) :=
  indexReads s j st2 j.a j.map.a ++ slotReads s j st2 j.a j.map.a

/-- The elements that a SCATTER tile copies, each with its source row. -/
def scatterElems (s : State) (j : Job) (l2 : Nat) (st2 : List Nat) : List (Nat × List Int × Elem) :=
  (scatterPairs s j l2 st2).filterMap (fun e => e.2.2.map (fun o => (e.1, o, j.elem s j.a e.2.1)))

/-- One L2 tile of SCATTER (R274, R275). -/
def scatterTile (s : State) (j : Job) (l2 : Nat) (st2 : List Nat) : TileOut :=
  if (scatterPairs s j l2 st2).any (fun e => badRow j.out e.2.2) then { fault := some (atTile (faulted fIndexRange) l2) }
  else { copied := scatterElems s j l2 st2 }

/-- Bit writes with their rows, cut at granules. -/
def cutRows (ws : List (Nat × Nat × (Nat × Nat × Nat))) : List (Nat × Nat × (Nat × Nat × Nat)) :=
  ws.flatMap (fun e => (cutWrites [e.2.2]).map (fun w => (e.1, e.2.1, w)))

/-- A granule of a destination row: the row, and the granule's number. -/
def rowGranule (e : Nat × Nat × (Nat × Nat × Nat)) : Nat × Nat := (e.2.1, e.2.2.1 / 512)

/-- The granules of destination rows that several source rows name, each with its source rows (R276). -/
def contested (all : List (Nat × Nat × (Nat × Nat × Nat))) : List ((Nat × Nat) × List Nat) :=
  ((all.map rowGranule).dedup.map (fun g => (g, ((all.filter (fun e => rowGranule e = g)).map (fun e => e.1)).dedup))).filter
    (fun e => decide (1 < e.2.length))

/-- The row that a contested granule receives: not specified, so a free value picks it (R276, log 2). -/
def chosenRow (ctr : Nat) (rows : List Nat) : Nat := rows.getD (Config.freeNat ctr % rows.length) 0

/-- Writes that remain after every contested granule has its row. -/
def settledWrites (ctr : Nat) (cs : List ((Nat × Nat) × List Nat)) (ws : List (Nat × Nat × (Nat × Nat × Nat))) :
    List (Nat × Nat × Nat) :=
  ((cutRows ws).filter (fun e => match cs.zipIdx.find? (fun c => c.1.1 = rowGranule e) with
    | some c => decide (chosenRow (ctr + c.2) c.1.2 = e.1)
    | none => true)).map (fun e => e.2.2)

/-- SCATTER over all members: the free values are used up for the contested granules. -/
def scatterBody (ecc : Ecc) (s : State) (f : Flight) (js : List Job) : State :=
  let all := js.flatMap (fun j => (tilesOf j).flatMap (fun e =>
    cutRows (copiedWrites s j ((scatterElems s j e.1 e.2).filter (fun x => inExtents j.out x.2.1)))))
  let cs := contested all
  runTiles { reads := scatterReads, work := scatterTile, pick := settledWrites s.freeCtr cs } ecc
    { s with freeCtr := s.freeCtr + cs.length } f js

/-- SCATTER (R275, R276). -/
def execScatter (t : Nat) (run : VerbRun) (s : State) : Res :=
  onVerb s t run.tag (fun c => cVerb c = 7) tiledReady (scatterBody run.ecc)

/-- A noun with another companion: COMPRESS and EXPAND take the mask from X (R262, R278). -/
def withMask (c : Clause) (n : Noun) : Noun := if n.layout = 1 then { n with companion := cX c } else n

/-- A job whose OUT and A take their masks from X. -/
def maskJob (j : Job) : Job :=
  let p := j.plan
  let p := { p with nouns := modAt (modAt p.nouns (cOut j.c) (withMask j.c)) (cA j.c) (withMask j.c) }
  { j with plan := p }

/-- Bytes that a copying tile reads. -/
def copyReads (s : State) (j : Job) (st2 : List Nat) : List (Nat × Nat) :=
  slotReads s j st2 j.a j.map.a ++ outMetaReads s j st2

/-- The elements that a copying tile brings, by OUT index. -/
def copiedCodes (s : State) (j : Job) (l2 : Nat) (st2 : List Nat) : List (List Int × Elem) :=
  ((elements j l2 st2).map (fun i => (evalTerms j.map.out j.out i, j.elem s j.a (evalTerms j.map.a j.a i)))).filter (fun e =>
    inExtents j.out e.1)

/-- One L2 tile of PUMP with OP 0 (R277). -/
def pumpTile (s : State) (j : Job) (l2 : Nat) (st2 : List Nat) : TileOut :=
  { copied := (copiedCodes s j l2 st2).map (fun e => (0, e)) }

/-- PUMP_MAPPED (R277). -/
def execPumpMapped (t : Nat) (run : VerbRun) (s : State) : Res :=
  onVerb s t run.tag (fun c => cVerb c = 8 && cOp c = 0) tiledReady (runTiles { reads := copyReads, work := pumpTile } run.ecc)

/-- The landing check of the mask that COMPRESS or EXPAND uses (R161, R263). -/
def maskFault (s : State) (j : Job) (l2 : Nat) (st2 : List Nat) : Option Verdict :=
  let check := fun (n : Noun) (ts : List DWord) =>
    if n.layout = 1 then
      let (m, mb) := maskOf s j n
      checkMask s l2 (forwardGroups m mb (slotIndices j st2 n ts))
    else none
  check j.out j.map.out <|> check j.a j.map.a

/-- The position of an S24V noun's element is a filled slot: a code names it, and its valid bit is 0 (R137, R158). -/
def filledSlot (s : State) (j : Job) (n : Noun) (idx : List Int) : Bool :=
  n.layout = 1 &&
    (let (m, mb) := maskOf s j n
     let k := (idx.getD 1 0).toNat
     let b := maskByte (byteAt s (maskForward m mb (idx.getD 0 0).toNat (k / 4)))
     (maskSlot b (k % 4)).isSome && !keeps b (k % 4))

/-- One L2 tile of COMPRESS or EXPAND (R169, R278): COMPRESS writes zero at a filled slot. -/
def convertTile (s : State) (j : Job) (l2 : Nat) (st2 : List Nat) : TileOut :=
  match maskFault s j l2 st2 with
  | some v => { fault := some v }
  | none =>
    { copied := (copiedCodes s j l2 st2).map (fun e => (0, e.1, if filledSlot s j j.out e.1 then { e.2 with code := 0 } else e.2)) }

/-- COMPRESS and EXPAND over all members, under the mask that X names. -/
def convertBody (ecc : Ecc) (s : State) (f : Flight) (js : List Job) : State :=
  runTiles { reads := copyReads, work := convertTile } ecc s f (js.map maskJob)

/-- COMPRESS (R169, R278). -/
def execCompress (t : Nat) (run : VerbRun) (s : State) : Res :=
  onVerb s t run.tag (fun c => cVerb c = 9) tiledReady (convertBody run.ecc)

/-- EXPAND (R169, R278). -/
def execExpand (t : Nat) (run : VerbRun) (s : State) : Res :=
  onVerb s t run.tag (fun c => cVerb c = 0x0A) tiledReady (convertBody run.ecc)

/-! ## PUMP with OP 1, MASKLOAD, LUTLOAD, SAVE, RESTORE (R157 to R160, R277, R279, R285 to R287, R337) -/

/-- Check reads and writes of an untiled verb and carry it out; L2_TILE in a fault is 0xFFFF_FFFF. -/
def untiled (reads : State → Job → List (Nat × Nat)) (work : State → Job → TileOut) (ecc : Ecc) (s : State) (f : Flight)
    (js : List Job) : State :=
  match neededFirst s (js.map (fun j => (j, checkReads s j .clean (reads s j)))) with
  | some s => s
  | none =>
    match neededFirst s (js.map (fun j => (j, checkWrites s j .clean (work s j).writes))) with
    | some s => s
    | none =>
      walkEnd (js.foldl (fun w j =>
        let w := walkRead w j 0xFFFFFFFF (reads w.s j)
        if w.stop.isSome then w
        else
          let o := work w.s j
          walkWrite (walkStop w o.fault) j 0xFFFFFFFF o.writes) { s := s, ecc := ecc }) f

/-- The byte count of PUMP with OP 1. -/
def pumpCount (c : Clause) : Nat := word c 8 + 2 ^ 32 * word c 9

/-- Bit ranges that PUMP with OP 1 reads. -/
def pumpReads (s : State) (j : Job) : List (Nat × Nat) := if pumpCount j.c = 0 then [] else [(j.base s j.a * 8, 8 * pumpCount j.c)]

/-- The copy of PUMP with OP 1. -/
def pumpCopy (s : State) (j : Job) : TileOut :=
  if pumpCount j.c = 0 then {}
  else { writes := [(j.base s j.out * 8, 8 * pumpCount j.c, leNat (bytesAt s (j.base s j.a) (pumpCount j.c)))] }

/-- PUMP_BYTES (R277): on every cluster of the region (R246, R250). -/
def execPumpBytes (t : Nat) (run : VerbRun) (s : State) : Res :=
  onVerb s t run.tag (fun c => cVerb c = 8 && cOp c = 1) untiledReady (untiled pumpReads pumpCopy run.ecc)

/-- A completed group of positions (R158): up to two positions with the lowest unset ones filled in, as a canonical byte. -/
def canonByte (set : List Nat) : Nat :=
  let fill := (List.range 4).filter (fun p => !set.contains p)
  let both := (set ++ fill).take 2
  let c0 := both.foldl min 3
  let c1 := both.foldl max 0
  c0 + 4 * c1 + 16 * b2n (set.contains c0) + 32 * b2n (set.contains c1)

/-- The positions that group g of column n of a source mask sets, or the cause of its failure (R158, R159, R172). -/
def sourceGroup (s : State) (n : Noun) (base col g : Nat) : Except Nat (List Nat) :=
  let row := (base + col * nStride n 0) * 8
  if n.layout = 2 then
    let set := (List.range 4).filter (fun p => decide (4 * g + p < nExt n 1) && bitsAt s (row + 4 * g + p) 1 = 1)
    if 2 < set.length then .error 1 else .ok set
  else
    let nb := bitsAt s (row + 4 * g) 4
    if bits nb 3 2 ≤ bits nb 1 0 then .error 2 else .ok [bits nb 1 0, bits nb 3 2]

/-- The positions of a group, empty where it failed. -/
def setOf (x : Except Nat (List Nat)) : List Nat := match x with | .ok l => l | .error _ => []

/-- The valid positions of a transposed group (R160): output columns 4h to 4h + 3 that keep reduction row k. -/
def transposedSet (s : State) (n : Noun) (base k h : Nat) : List Nat :=
  (List.range 4).filter (fun p => decide (4 * h + p < nExt n 0) && (setOf (sourceGroup s n base (4 * h + p) (k / 4))).contains (k % 4))

/-- MASKLOAD: the first failing group, or the bytes of the canonical mask (R157 to R160, R173, R177, R279). -/
def maskTile (s : State) (j : Job) : TileOut :=
  let n := j.a
  let m := j.out
  let base := j.base s n
  let mb := j.base s m
  let groups := ceilDiv (nExt n 1) 4
  let across := ceilDiv (nExt n 0) 4
  let fwd := (List.range (nExt n 0 * groups)).map (fun i => (i, sourceGroup s n base (i / groups) (i % groups)))
  let tr := (List.range (nExt n 1 * across)).map (fun i => (i, transposedSet s n base (i / across) (i % across)))
  let full := cOp j.c = 1
  match fwd.findSome? (fun e => match e.2 with | .error c => some (sparse fSparseMeta c 0xFFFFFFFF e.1) | .ok _ => none) with
  | some v => { fault := some v }
  | none =>
    match (if full then tr.find? (fun e => decide (2 < e.2.length)) else none) with
    | some e => { fault := some (sparse fSparseMeta 3 0xFFFFFFFF e.1) }
    | none =>
      { writes := fwd.map (fun e => (maskForward m mb (e.1 / groups) (e.1 % groups) * 8, 8, canonByte (setOf e.2)))
          ++ tr.map (fun e => (maskTransposed m mb (e.1 / across) (e.1 % across) * 8, 8, if full then canonByte e.2 else 0)) }

/-- Bytes of a whole source mask. -/
def maskReads (s : State) (j : Job) : List (Nat × Nat) :=
  let w := if j.a.layout = 2 then nExt j.a 1 else 4 * ceilDiv (nExt j.a 1) 4
  (List.range (nExt j.a 0)).map (fun n => ((j.base s j.a + n * nStride j.a 0) * 8, w))

/-- MASKLOAD_S24 (R279). -/
def execMaskloadS24 (t : Nat) (run : VerbRun) (s : State) : Res :=
  onVerb s t run.tag (fun c => cVerb c = 0x11 && cOp c = 0) untiledReady (untiled maskReads maskTile run.ecc)

/-- MASKLOAD_S24T (R160, R279). -/
def execMaskloadS24T (t : Nat) (run : VerbRun) (s : State) : Res :=
  onVerb s t run.tag (fun c => cVerb c = 0x11 && cOp c = 1) untiledReady (untiled maskReads maskTile run.ecc)

/-- A LUT image, or none when it breaks R287. -/
def readLut (bs : List Byte) : Option (Word × Int × List Word) :=
  let x0 := BitVec.ofNat 32 (img bs 0 4)
  let sh := signed 8 (img bs 4 1)
  if !fpFinite x0 || decide (sh < -64 ∨ 63 < sh) || img bs 5 11 ≠ 0 then none
  else some (x0, sh, (List.range 256).map (fun i => BitVec.ofNat 32 (img bs (16 + 4 * i) 4)))

/-- Read bit ranges on every member of an untiled verb. -/
def readMembers (reads : State → Job → List (Nat × Nat)) (w : Walk) (js : List Job) : Walk :=
  js.foldl (fun w j => walkRead w j 0xFFFFFFFF (reads w.s j)) w

/-- Bit ranges of a LUT image. -/
def lutReads (s : State) (j : Job) : List (Nat × Nat) := [(j.base s j.a * 8, 8 * 1040)]

/-- LUTLOAD over all members: a bad image leaves every slot unchanged (R287). -/
def lutBody (ecc : Ecc) (s : State) (f : Flight) (js : List Job) : State :=
  match neededFirst s (js.map (fun j => (j, checkReads s j .clean (lutReads s j)))) with
  | some s => s
  | none =>
    let w := readMembers lutReads { s := s, ecc := ecc } js
    let luts := js.map (fun j => (j, readLut (bytesAt w.s (j.base w.s j.a) 1040)))
    let w := walkStop w (if luts.any (fun e => e.2.isNone) then some (faulted fLutBad) else none)
    if w.stop.isSome then walkEnd w f
    else
      endVerb (luts.foldl (fun s e => s.modCluster e.1.k (fun c => { c with
        luts := tset (0, 0, []) c.luts (cLut f.words) (e.2.getD (0, 0, [])) })) w.s) f

/-- LUTLOAD (R287). -/
def execLutload (t : Nat) (run : VerbRun) (s : State) : Res :=
  onVerb s t run.tag (fun c => cVerb c = 0x12) untiledReady (lutBody run.ecc)

/-- Release the held state of a cluster (R268, R285). -/
def releaseHeld (c : Cluster) : Cluster :=
  if c.held.isSome then { c with held := none, owner := none, unit := {} }
  else { c with saved := c.saved.filter (fun e => e.held.isNone) }

/-- The image area of member i in a noun (R285, R286). -/
def imageArea (s : State) (j : Job) (n : Noun) : Nat := j.base s n + j.member * nStride n 0

/-- The state that the region holds on some member. -/
def regionHeld (s : State) (js : List Job) : Option Held :=
  js.findSome? (fun j => ((heldStates (s.cluster j.k)).head?).map (fun e => e.1))

/-- The image that SAVE writes for a cluster: where the region holds nothing on it, that of an accumulator context with nothing in it, of the
kind that the region holds (R285). -/
def saveImage (s : State) (js : List Job) (j : Job) : List Byte :=
  let image := fun (u : AccUnit) (l2 : Nat) => contextImage u j.f.tenant (s.tenant j.f.tenant).epoch.toNat l2
  match (heldStates (s.cluster j.k)).head?, regionHeld s js with
  | some (h, u), _ => image u h.l2
  | none, some h => image { isHash := h.target = 1 } h.l2
  | none, none => image {} 0

/-- The write of a member's image. -/
def saveWrites (s : State) (js : List Job) (j : Job) : List (Nat × Nat × Nat) :=
  let bs := saveImage s js j
  [(imageArea s j j.out * 8, 8 * bs.length, leNat bs)]

/-- SAVE over all members (R285): SAVE_SPACE keeps the state held. -/
def saveBody (ecc : Ecc) (s : State) (f : Flight) (js : List Job) : State :=
  let release := fun (s : State) => js.foldl (fun s j => s.modCluster j.k releaseHeld) s
  if bit (word f.words 8) 0 then endVerb (release s) f
  else if js.any (fun j => decide (nStride j.out 0 < (saveImage s js j).length)) then stopVerb s f (faulted fSaveSpace)
  else
    match neededFirst s (js.map (fun j => (j, checkWrites s j .clean (saveWrites s js j)))) with
    | some s => s
    | none =>
      let w := js.foldl (fun w j => walkWrite w j 0xFFFFFFFF (saveWrites s js j)) { s := s, ecc := ecc }
      if w.stop.isSome then walkEnd w f else endVerb (release w.s) f

/-- SAVE (R285). -/
def execSave (t : Nat) (run : VerbRun) (s : State) : Res :=
  onVerb s t run.tag (fun c => cVerb c = 0x0F) untiledReady (saveBody run.ecc)

/-- The header of a member's image. -/
def restoreHeader (s : State) (j : Job) : List Byte := bytesAt s (imageArea s j j.a) 64

/-- The image of a member that RESTORE reads: the header first, and then as many bytes as it declares. -/
def restoreImage (s : State) (j : Job) : List Byte := bytesAt s (imageArea s j j.a) (declaredSize (restoreHeader s j))

/-- Leave a restored context held (R286, R673). -/
def restoreMember (s : State) (j : Job) : State :=
  let bs := restoreImage s j
  s.modCluster j.k (fun c => { c with
    owner := some j.f.uid, unit := readImage bs
    held := some {
      uid := j.f.uid, tenant := j.f.tenant, prio := j.f.prio, map := 0, target := img bs 6 1 - 1, regionIdx := cRegion j.c
      l2 := img bs 0x10 4, restored := true }
    slots := c.slots.filter (fun sl => sl.uid ≠ j.f.uid) })

/-- Bit ranges of an image's header, and of the image that the header declares. -/
def headerReads (s : State) (j : Job) : List (Nat × Nat) := [(imageArea s j j.a * 8, 512)]
def imageReads (s : State) (j : Job) : List (Nat × Nat) := [(imageArea s j j.a * 8, 8 * (restoreImage s j).length)]

/-- RESTORE over all members (R220, R286): a bad header or image on any of them changes nothing; only a good header says how much more is
read. -/
def restoreBody (ecc : Ecc) (s : State) (f : Flight) (js : List Job) : State :=
  match neededFirst s (js.map (fun j => (j, checkReads s j .clean (headerReads s j)))) with
  | some s => s
  | none =>
    let bad := fun (ok : Job → Bool) => if js.all ok then none else some (faulted fRestoreBad)
    let w := walkStop (readMembers headerReads { s := s, ecc := ecc } js) (bad (fun j => headerOk j.f.tenant (restoreHeader s j)))
    if w.stop.isSome then walkEnd w f
    else
      match neededFirst s (js.map (fun j => (j, checkReads s j .clean (imageReads s j)))) with
      | some s => s
      | none =>
        let w := walkStop (readMembers imageReads w js) (bad (fun j => imageOk j.f.tenant (restoreImage s j)))
        if w.stop.isSome then walkEnd w f else endVerb (js.foldl restoreMember w.s) f

/-- No cluster of the clause runs a tiled clause, or holds state that the clause did not come for. -/
def restoreReady (s : State) (f : Flight) : Bool := untiledReady s f && f.waiting.all (fun k => (s.cluster k).owner.isNone)

/-- RESTORE (R286): it waits while a clause or held state owns the accumulators. -/
def execRestore (t : Nat) (run : VerbRun) (s : State) : Res :=
  onVerb s t run.tag (fun c => cVerb c = 0x10) restoreReady (restoreBody run.ecc)

/-! ## BIND, SIGNAL, WAIT, FENCE (R233, R280 to R284) -/

/-- BIND (R280): the head clause of a ring is a BIND, and admission gives it its effect. -/
def execBind (t : Nat) (prio : Nat) (s : State) : Res :=
  match ((s.tenant t).ring prio).waiting with
  | c :: _ => if ready s && cVerb c = 0x0B && canAdmit s t prio then .next (admitHead s t prio) else .next s
  | [] => .next s

/-- A clause of a verb in flight, not stopped. -/
def orderingFlight (s : State) (t : Nat) (tag : BitVec 16) (verb : Nat) : Option Flight :=
  match flightTag s t tag.toNat with
  | none => none
  | some f => if cVerb f.words = verb then some f else none

/-- Every clause posted before it in its sentence has completed (R233). -/
def fenced (s : State) (f : Flight) : Bool :=
  s.work.flights.all (fun g => !decide (g.tenant = f.tenant ∧ g.prio = f.prio ∧ g.sentence = f.sentence ∧ g.uid < f.uid))

/-- FENCE (R233). -/
def execFence (t : Nat) (tag : BitVec 16) (s : State) : Res :=
  match orderingFlight s t tag 0x0E with
  | none => .next s
  | some f => if ready s && fenced s f then .next (completeClause s f {}) else .next s

/-- SIGNAL (R282, R283). -/
def execSignal (t : Nat) (tag : BitVec 16) (s : State) : Res :=
  match orderingFlight s t tag 0x0C with
  | none => .next s
  | some f =>
    if ready s && fenced s f then
      let n := word f.words 8
      let s := s.modTenant t (fun x => { x with counters := tset 0 x.counters n (tget 0 x.counters n + BitVec.ofNat 32 (word f.words 9)) })
      .next (completeClause s f {})
    else .next s

/-- counter − target, as a signed value, is zero or more (R284). -/
def reachedTarget (s : State) (f : Flight) : Bool :=
  decide (0 ≤ (tget 0 (s.tenant f.tenant).counters (word f.words 8) - BitVec.ofNat 32 (word f.words 9)).toInt)

/-- WAIT (R232, R284): it may not complete before it may start. -/
def execWait (t : Nat) (tag : BitVec 16) (s : State) : Res :=
  match orderingFlight s t tag 0x0D with
  | none => .next s
  | some f => if ready s && mayStart s f && reachedTarget s f then .next (completeClause s f {}) else .next s

/-- WAIT_TIMEOUT (R284): a non-zero timeout has elapsed; the counter is unchanged. -/
def execWaitTimeout (t : Nat) (tag : BitVec 16) (s : State) : Res :=
  match orderingFlight s t tag 0x0D with
  | none => .next s
  | some f =>
    let limit := word f.words 10
    if ready s && mayStart s f && limit ≠ 0 && !reachedTarget s f && decide (f.admittedAt + limit ≤ s.nowUs) then
      .next (completeClause s f (faulted fWaitTimeout))
    else .next s

end Sys2Proof.Machine
end

