-- ==== Sys2Proof/Machine/Reduce.lean ====
section
/-!
DEFINITION. Sys2Proof/Machine/Reduce.lean: REDUCE and RANK (R194 to R205, R268, R272, R273, R322). A command carries the whole verb out on every
cluster that runs the clause.
-/

namespace Sys2Proof.Machine

/-! ## Reading the tiles -/

/-- What reading a clause's tiles has come to: the state, the ECC finding that no access has met yet, and each member's first bad tile. -/
structure TileReads where
  s : State
  ecc : Ecc
  bad : List (Nat × Verdict) := []
deriving DecidableEq, Repr

/-- Read one tile of a member: nothing after its first bad tile. -/
def readMemberTile (reads : State → Job → List Nat → List (Nat × Nat)) (j : Job) (a : TileReads) (e : Nat × List Nat) : TileReads :=
  if a.bad.any (fun b => b.1 = j.k) then a
  else
    let rs := reads a.s j e.2
    let s := applyEcc a.s j.k a.ecc rs
    match checkReads a.s j a.ecc rs with
    | .bad v => { s := s, ecc := spent a.s a.ecc rs, bad := a.bad ++ [(j.k, { v with l2Tile := e.1 })] }
    | _ => { a with s := race s j.f.uid false rs, ecc := spent a.s a.ecc rs }

/-- Read every tile of every member. -/
def readTiles (reads : State → Job → List Nat → List (Nat × Nat)) (ecc : Ecc) (s : State) (js : List Job) : TileReads :=
  js.foldl (fun a j => (tilesOf j).foldl (readMemberTile reads j) a) { s := s, ecc := ecc }

/-- The L2 index below which a member's tiles stand. -/
def limitOf (bad : List (Nat × Verdict)) (j : Job) : Nat :=
  match bad.find? (fun b => b.1 = j.k) with
  | some b => b.2.l2Tile
  | none => 0xFFFFFFFF

/-- A verdict as it is reported: REMOTE_ABSENT names no tile. -/
def reported (v : Verdict) : Verdict := if v.status = stFaulted then v else { v with l2Tile := 0xFFFFFFFF }

/-- The first bad tile's verdict. -/
def badVerdict (bad : List (Nat × Verdict)) : Option Verdict := bad.head?.map (fun b => reported b.2)

/-- Write one group's outputs. -/
def walkGroup (w : Walk) (j : Job) (l2 : Nat) (ws : List (Nat × Nat × Nat)) (sat inexact clip : Bool) : Walk :=
  walkBits (walkWrite w j l2 ws) j.f sat inexact clip

/-- A member writes its outputs here: it is no part other than the home. -/
def writesHere (j : Job) : Bool := !(splits j.map j.tile && decide (0 < partIndex j.map j.tile j.member))

/-! ## REDUCE (R194 to R198, R268, R272, R322) -/

/-- The starting value of an operation (R194). -/
def reduceStart (op : Nat) : Int := if op = 1 then accMin else if op = 2 then accMax else 0

/-- One update (R194): the new value and SAT. DEDUCED from R79 (log 109): an input beyond the 56 bits of an entry meets MAX and MIN as the bound
that it passes, and sets SAT. -/
def reduceStep (op : Nat) (a x : Int) : Int × Bool :=
  if op = 1 then (max a (satAcc x), satHit x) else if op = 2 then (min a (satAcc x), satHit x) else (satAcc (a + x), satHit (a + x))

/-- The operation of a REDUCE clause. -/
def reduceOp (c : Clause) : Nat := cOp c % 4

/-- Tiles of a member in runs of one output tile (R80, log 26). -/
def groupTiles (j : Job) : List Tile → List (List Tile)
  | [] => []
  | t :: rest =>
    match groupTiles j rest with
    | [] => [[t]]
    | g :: gs => if (g.head?.map (outKey j)) = some (outKey j t) then (t :: g) :: gs else [t] :: g :: gs

/-- Loops that are neither COL nor RED. -/
def otherLoops (j : Job) : List Nat := (List.range j.map.loops).filter (fun l => j.map.cls l ≠ 1 ∧ j.map.cls l ≠ 3)

/-- The outputs of a tile inside the run extents: entry key and loop values. -/
def tileOutputs (j : Job) (t : Tile) : List (Nat × List Nat) :=
  let pts := fun (ls : List Nat) => flatten j.map j.tile j.member t.st2 t.st1 ls
  (pts (otherLoops j)).zipIdx.flatMap (fun v =>
    (pts (j.map.loopsOf 1)).zipIdx.filterMap (fun c =>
      let i := addIdx v.1 c.1
      if activeIdx j.f.extents j.map i (otherLoops j ++ j.map.loopsOf 1) then some (128 * v.2 + c.2, i) else none))

/-- The linear index of A that loop values select. -/
def inputIndex (j : Job) (i : List Nat) : Nat := linearIndex j.a ((evalTerms j.map.a j.a i).map Int.toNat)

/-- Loop values of some loops of a tile, inside the run extents. -/
def tileInputs (j : Job) (t : Tile) (ls : List Nat) (base : List Nat) : List (List Nat) :=
  ((flatten j.map j.tile j.member t.st2 t.st1 ls).filter (fun i => activeIdx j.f.extents j.map i ls)).map (addIdx base)

/-- Inputs in ascending linear input index; equal ones keep the order of their tiles (R196). -/
def ascending {α : Type} (j : Job) (at' : α → List Nat) (l : List α) : List α :=
  l.insertionSort (fun a b => inputIndex j (at' a) ≤ inputIndex j (at' b))

/-- An input element in accumulator units. -/
def reduceInput (s : State) (j : Job) (i : List Nat) : Int × Bool :=
  accUnits j.a (cEacc j.c) (j.elem s j.a (evalTerms j.map.a j.a i))

/-- The key of an element of a keyed REDUCE (R262). -/
def elementKey (s : State) (j : Job) (i : List Nat) : Nat :=
  let idx := evalTerms j.map.a j.a i
  let e := if cX j.c = cA j.c then j.elem s j.a (idx.take j.a.dims ++ [idx.getD j.a.dims 0 + 1]) else j.elem s j.x idx
  (if nKind j.x = 4 then e.code % 2 ^ 32 else e.code)

/-- A key lies within the output extent: it is the linear index of an element of OUT (R184, R197). -/
def keyInExtent (j : Job) (key : Nat) : Bool := decide (key < prodNat ((List.range (j.out.dims + 1)).map (nExt j.out)))

/-- The elements of a tile of a keyed REDUCE, by loop values. -/
def keyedInputs (j : Job) (t : Tile) : List (List Nat) :=
  tileInputs j t (slotLoops j.map.a ++ j.map.loopsOf 3).dedup [0, 0, 0, 0, 0, 0]

/-- The linear index of OUT that loop values select. -/
def outputIndex (j : Job) (i : List Nat) : Nat := linearIndex j.out ((evalTerms j.map.out j.out i).map Int.toNat)

/-- Loop values select an element of OUT (R257). -/
def outputInside (j : Job) (i : List Nat) : Bool := inExtents j.out (evalTerms j.map.out j.out i)

/-- The inputs that reach an output over the tiles of its group, in ascending linear input index (R196). In keyed form they are the elements
whose key is the output's linear index (R197; log 107). -/
def outputInputs (s : State) (j : Job) (ts : List Tile) (i : List Nat) : List (List Nat) :=
  ascending j id
    (if isKeyed j.c then
      (if outputInside j i then ts.flatMap (fun t => (keyedInputs j t).filter (fun e => elementKey s j e = outputIndex j i)) else [])
    else ts.flatMap (fun t => tileInputs j t (j.map.loopsOf 3) i))

/-- One output tile of a member's REDUCE: its key, its last L2 tile, entries and values, SAT, INEXACT. -/
structure RedGroup where
  key : Nat
  l2 : Nat
  outs : List (Nat × List Nat × Int)
  sat : Bool
  inexact : Bool
deriving DecidableEq, Repr

/-- Fold the inputs of one output over the tiles of its group: value, SAT, INEXACT. -/
def foldOutput (s : State) (j : Job) (ts : List Tile) (i : List Nat) (start : Int) : Int × Bool × Bool :=
  (outputInputs s j ts i).foldl (fun a e =>
    let x := reduceInput s j e
    let r := reduceStep (reduceOp j.c) a.1 x.1
    (r.1, a.2.1 || r.2, a.2.2 || x.2)) (start, false, false)

/-- Reduce one group from starting values. -/
def reduceGroup (s : State) (j : Job) (start : Nat → Int) (ts : List Tile) : RedGroup :=
  let t := ts.headD default
  let outs := (tileOutputs j t).map (fun e => (e, foldOutput s j ts e.2 (start e.1)))
  { key := outKey j t, l2 := (ts.getLast?.getD t).l2, outs := outs.map (fun o => (o.1.1, o.1.2, o.2.1))
    sat := outs.any (fun o => o.2.2.1), inexact := outs.any (fun o => o.2.2.2) }

/-- The clause leaves outputs in the banked accumulators: TARGET BANKED, or the keyed form (R197; log 107). -/
def usesBanks (j : Job) : Bool := cTarget j.c = 0 || isKeyed j.c

/-- The groups of a member. A clause that resumes held state starts the first one from it, entry by entry and with its status bits; an entry
that the state lists no value for holds zero (R268). -/
def memberGroups (resumed : Bool) (s : State) (j : Job) : List RedGroup :=
  if !usesBanks j then []
  else
    (groupTiles j (tileSeq j)).zipIdx.map (fun g =>
      let u := (s.cluster j.k).unit
      if resumed && g.2 = 0 then
        let r := reduceGroup s j (fun key => tget 0 u.acc key) g.1
        { r with sat := r.sat || u.sat, inexact := r.inexact || u.inexact }
      else reduceGroup s j (fun _ => reduceStart (reduceOp j.c)) g.1)

/-- Merge a part's group into the home's by the clause's own operation (R322). -/
def mergeGroup (op : Nat) (g h : RedGroup) : RedGroup :=
  let outs := g.outs.map (fun o =>
    match h.outs.find? (fun p => p.1 = o.1) with
    | some p => let r := reduceStep op o.2.2 p.2.2; ((o.1, o.2.1, r.1), r.2)
    | none => (o, false))
  { g with outs := outs.map (fun o => o.1), sat := g.sat || h.sat || outs.any (fun o => o.2), inexact := g.inexact || h.inexact }

/-- The home's groups with every part's merged in, ascending (R207, R322). -/
def mergedGroups (js : List (Job × List RedGroup)) (j : Job) (gs : List RedGroup) : List RedGroup :=
  if !splits j.map j.tile then gs
  else
    gs.map (fun g => (List.range (partCount j.map j.tile)).foldl (fun g p =>
      if p = 0 then g
      else
        match js.find? (fun e => e.1.member = memberOfPart j.map j.tile j.member p) with
        | none => g
        | some e =>
          match e.2.find? (fun h => h.key = g.key) with
          | some h => mergeGroup (reduceOp j.c) g h
          | none => g) g)

/-- What a group writes: bit writes and CLIP. -/
def groupWrites (s : State) (j : Job) (g : RedGroup) : List (Nat × Nat × Nat) × Bool :=
  formOutputs s j (requantOf j) (g.outs.map (fun o =>
    { idx := evalTerms j.map.out j.out o.2.1, ch := channelOf j o.2.1, acc := o.2.2 }))

/-- Bytes that a REDUCE tile reads. -/
def reduceReads (s : State) (j : Job) (st2 : List Nat) : List (Nat × Nat) :=
  slotReads s j st2 j.a j.map.a ++ tableReads s j st2 ++ outMetaReads s j st2
    ++ (if !isKeyed j.c then []
        else if cX j.c = cA j.c then
          (slotIndices j st2 j.a j.map.a).flatMap (fun i =>
            elemReads s j.plan j.k j.session j.a (i.take j.a.dims ++ [i.getD j.a.dims 0 + 1]))
        else (slotIndices j st2 j.a j.map.a).flatMap (elemReads s j.plan j.k j.session j.x))

/-- The outputs of a member's groups, to be written one group after another; elements of a BFP, BPK or BAM group may come from several
(log 92). -/
def groupItems (j : Job) (g : RedGroup) : List OutItem :=
  g.outs.map (fun o => { idx := evalTerms j.map.out j.out o.2.1, ch := channelOf j o.2.1, acc := o.2.2 })

/-- Write one group of a member with what waited before it: nothing after a stop; ACC_SAT before its writes (R82). -/
def writeRed (j : Job) (a : Walk × List (Nat × OutItem)) (g : RedGroup) : Walk × List (Nat × OutItem) :=
  if a.1.stop.isSome then a
  else if cTrapSat j.c && g.sat then
    (walkStop (walkBits a.1 j.f true g.inexact false) (some (atTile (faulted fAccSat) g.l2)), a.2)
  else
    let (ws, clip, rest) := formGroups a.1.s j (requantOf j) g.l2 a.2 (groupItems j g) false
    let w := walkGroup a.1 j g.l2 ws g.sat g.inexact clip
    (w, if w.stop.isSome then a.2 else rest)

/-- Write what still waits on a member, whole groups or not, also after a stop (log 92). -/
def flushRed (j : Job) (a : Walk × List (Nat × OutItem)) : Walk :=
  let (ws, clip, _) := formGroups a.1.s j (requantOf j) 0 a.2 [] true
  if ws.isEmpty then a.1
  else { walkGroup { a.1 with stop := none } j ((a.2.getLast?.map (fun x => x.1)).getD 0) ws false false clip with stop := a.1.stop }

/-- The groups that a member writes: those whole below its first bad tile, and with HOLD not the last one (R268). -/
def writtenGroups (limit : Nat) (j : Job) (gs : List RedGroup) : List RedGroup :=
  let gs := gs.filter (fun g => decide (g.l2 < limit))
  if !writesHere j then [] else if cHold j.c then gs.dropLast else gs

/-- Leave the last group's values held on a member, with the bits of its output tile (R80, R268). -/
def holdGroup (s : State) (j : Job) (g : Option RedGroup) : State :=
  let s := match g with
    | some g => noteBits s j.f g.sat g.inexact false
    | none => s
  s.modCluster j.k (fun c => { c with
    owner := some j.f.uid, held := some (heldBy j), slots := c.slots.filter (fun sl => sl.uid ≠ j.f.uid)
    unit := match g with
      | some g => { c.unit with
          acc := g.outs.foldl (fun a o => tset 0 a o.1 o.2.2) [], sat := c.unit.sat || g.sat, inexact := c.unit.inexact || g.inexact
          vectors := if cTarget j.c = 1 then 0 else (g.outs.map (fun o => o.1 / 128 + 1)).foldl max 0 }
      | none => c.unit })

/-- Release the accumulators of a member that does not hold. -/
def releaseUnit (s : State) (j : Job) : State :=
  s.modCluster j.k (fun c => { c with owner := none, unit := {}, idleSince := s.nowUs })

/-! ### Into the hash accumulator (R184 to R193, R196, R197) -/

/-- The updates that a member's REDUCE sends to the hash accumulator, each with its L2 tile, in ascending linear input index: with TARGET HASH
one for each element of SUM, and one for each output of MAX and MIN (R184, R196; log 32); in keyed form one for each element whose key
lies outside the output extent (R197; log 107). Outputs outside OUT's extents are none (R257). -/
def hashUpdates (s : State) (j : Job) : List (Nat × Nat × Int × Bool) :=
  let elem := fun (t : Tile) (key : Nat) (i : List Nat) => (i, (t.l2, key, (reduceInput s j i).1, false))
  if isKeyed j.c then
    (ascending j (fun (e : List Nat × (Nat × Nat × Int × Bool)) => e.1) ((tileSeq j).flatMap (fun t =>
      ((keyedInputs j t).filter (fun i => !keyInExtent j (elementKey s j i))).map (fun i => elem t (elementKey s j i) i)))).map
        (fun e => e.2)
  else if cTarget j.c = 0 then []
  else if reduceOp j.c = 0 then
    (ascending j (fun (e : List Nat × (Nat × Nat × Int × Bool)) => e.1) ((tileSeq j).flatMap (fun t =>
      ((tileOutputs j t).filter (fun o => outputInside j o.2)).flatMap (fun o =>
        (tileInputs j t (j.map.loopsOf 3) o.2).map (elem t (outputIndex j o.2)))))).map (fun e => e.2)
  else
    ((groupTiles j (tileSeq j)).map (reduceGroup s j (fun _ => reduceStart (reduceOp j.c)))).flatMap (fun g =>
      (g.outs.filter (fun o => outputInside j o.2.1)).map (fun o => (g.l2, outputIndex j o.2.1, o.2.2, g.sat)))

/-- The clause has been stopped. -/
def isStopped (s : State) (uid : Nat) : Bool := match flightOf s uid with | some f => f.stop.isSome | none => true

/-- Enter one update of an L2 tile into a member's hash accumulator, and write the record that it evicts (R186, R187, R191). -/
def hashEnter (j : Job) (s : State) (u : Nat × Nat × Int × Bool) : State :=
  if isStopped s j.f.uid then s
  else
    let s := s.modCluster j.k (fun c =>
      let x := hashApply c.unit u.2.1 u.2.2.1
      { c.modSlot j.f.uid (fun sl => { sl with l2 := u.1 }) with unit := { x with sat := x.sat || u.2.2.2 } })
    untilStill (fun s => after (execSpillRecordWrite j.k s) s) 9 s

/-- The clause uses the hash accumulator of a member. -/
def usesHash (s : State) (j : Job) : Bool := cTarget j.c = 1 || !(hashUpdates s j).isEmpty

/-- Take ownership on a member; the keyed form opens the spill area too when it will send keys there (R224). -/
def takeReduce (s : State) (j : Job) : State :=
  let opens := cTarget j.c = 0 && usesHash s j && !cResume j.c
  let s := takeOwner s j
  if opens then spillHeader s j.region j.k 0 0 0 else s

/-- Send a member's updates below its first bad tile to the hash accumulator. -/
def hashMember (bad : List (Nat × Verdict)) (s : State) (j : Job) : State :=
  ((hashUpdates s j).filter (fun u => decide (u.1 < limitOf bad j))).foldl (hashEnter j) s

/-- Drain a member's hash accumulator at the end of the clause (R189); ACC_SAT comes before it (R82). -/
def drainMember (s : State) (j : Job) : State :=
  if isStopped s j.f.uid || cHold j.c || !usesHash s j then s
  else
    let u := (s.cluster j.k).unit
    if trapped j u then trapMember s j.k j.f.uid (atTile (faulted fAccSat) (l2Count j - 1))
    else drainHash (noteBits s j.f u.sat false false) j

/-- What stopped the clause in its hash accumulators. -/
def hashStop (s : State) (uid : Nat) : Option Verdict := (flightOf s uid).bind (fun f => f.stop)

/-! ### The verb -/

/-- Members that resume state which their cluster holds. -/
def resumes (s : State) (j : Job) : Bool := cResume j.c && (s.cluster j.k).held.isSome

/-- REDUCE over all members, once every operand is at hand: the updates of the hash accumulators, the groups of the banked ones, and then the
drain, HOLD or release. -/
def reduceRun (ecc : Ecc) (s : State) (f : Flight) (js : List Job) : State :=
  let rs := readTiles reduceReads ecc s js
  let back := js.filter (resumes s)
  let s := js.foldl takeReduce rs.s
  let all := js.map (fun j => (j, memberGroups (back.contains j) s j))
  let s := js.foldl (hashMember rs.bad) s
  let full := hashStop s f.uid
  let w : Walk := all.foldl (fun w e =>
    let j := e.1
    let limit := min (limitOf rs.bad j) (match full with | some v => v.l2Tile | none => 0xFFFFFFFF)
    flushRed j ((writtenGroups limit j (mergedGroups all j e.2)).foldl (writeRed j) (w, []))) { s := s, ecc := rs.ecc }
  match full <|> badVerdict rs.bad <|> w.stop with
  | some v => stopVerb w.s f v
  | none =>
    let s := js.foldl drainMember w.s
    match hashStop s f.uid with
    | some v => stopVerb s f v
    | none => endVerb (all.foldl (fun s e => if cHold f.words then holdGroup s e.1 e.2.getLast? else releaseUnit s e.1) s) f

/-- The bit writes of a member's groups, for the granules that they need first. -/
def plannedGroups (all : List (Job × List RedGroup)) (s : State) : List (Job × List (Nat × Nat × Nat)) :=
  all.flatMap (fun e => (writtenGroups 0xFFFFFFFF e.1 (mergedGroups all e.1 e.2)).map (fun g => (e.1, (groupWrites s e.1 g).1)))

/-- The body of REDUCE. -/
def reduceBody (ecc : Ecc) (s : State) (f : Flight) (js : List Job) : State :=
  match neededFirst s (js.flatMap (fun j => (tilesOf j).map (fun e => (j, checkReads s j .clean (reduceReads s j e.2))))) with
  | some s => s
  | none =>
    let all := js.map (fun j => (j, memberGroups false s j))
    match neededFirst s ((plannedGroups all s).map (fun e => (e.1, checkWrites s e.1 .clean e.2))) with
    | some s => s
    | none => reduceRun ecc s f js

/-- REDUCE of one operation, not keyed. -/
def reduce (op t : Nat) (tag : BitVec 16) (ecc : Ecc) (s : State) : Res :=
  onVerb s t tag (fun c => cVerb c = 4 && !isKeyed c && reduceOp c = op) tiledReady (reduceBody ecc)

/-- REDUCE_SUM (R194). -/
def execReduceSum (t : Nat) (run : VerbRun) (s : State) : Res := reduce 0 t run.tag run.ecc s

/-- REDUCE_MAX (R194). -/
def execReduceMax (t : Nat) (run : VerbRun) (s : State) : Res := reduce 1 t run.tag run.ecc s

/-- REDUCE_MIN (R194). -/
def execReduceMin (t : Nat) (run : VerbRun) (s : State) : Res := reduce 2 t run.tag run.ecc s

/-- REDUCE_KEYED (R197). DESIGN CHOICE (log 107): R197 speaks of SUM; with MAX or MIN in OP the keys within the output extent take that
operation, and the others are added to their entries under R186. -/
def execReduceKeyed (t : Nat) (run : VerbRun) (s : State) : Res :=
  onVerb s t run.tag (fun c => cVerb c = 4 && isKeyed c) tiledReady (reduceBody run.ecc)

/-! ## RANK (R199, R204, R205, R322) -/

/-- Loop values of an element's ranking group: the ranked loop at 0 (R199), or every RED loop in list-merge form (R204). -/
def rankGroupIdx (j : Job) (i : List Nat) : List Nat :=
  (List.range 6).map (fun l =>
    if (cOp j.c = 0 ∧ l = cRankLoop j.c) ∨ (cOp j.c ≠ 0 ∧ j.map.cls l = 3) then 0 else i.getD l 0)

/-- The candidates that an element brings, with SAT and INEXACT (R204, R205, R223): a position word alone makes an entry empty, and a word
outside A's extents reads as zero (R257). -/
def elementCandidates (s : State) (j : Job) (i : List Nat) : List (Int × Nat) × Bool × Bool :=
  let idx := evalTerms j.map.a j.a i
  if cOp j.c = 0 then
    let x := accUnits j.a (cEacc j.c) (j.elem s j.a idx)
    ([(satAcc x.1, i.getD (cRankLoop j.c) 0)], satHit x.1, x.2)
  else
    let k := cK j.c
    let e := idx.getD j.a.dims 0
    ((List.range k).filterMap (fun (m : Nat) =>
      let word := fun (x : Nat) => j.elem s j.a (idx.take j.a.dims ++ [e * ((2 * k : Nat) : Int) + ((x : Nat) : Int)])
      let p := (word (2 * m + 1)).code % 2 ^ 32
      if p = 0xFFFFFFFF then none else some (wordAcc (word (2 * m)).code, p)), false, false)

/-- Bytes that a RANK tile reads. -/
def rankReads (s : State) (j : Job) (st2 : List Nat) : List (Nat × Nat) :=
  if cOp j.c = 0 then slotReads s j st2 j.a j.map.a
  else (slotIndices j st2 j.a j.map.a).flatMap (fun idx =>
    (List.range (2 * cK j.c)).flatMap (fun (m : Nat) =>
      elemReads s j.plan j.k j.session j.a
        (idx.take j.a.dims ++ [idx.getD j.a.dims 0 * ((2 * cK j.c : Nat) : Int) + ((m : Nat) : Int)])))

/-- A ranking group of a member: its loop values, its list, the last L2 tile that brings a candidate, SAT and INEXACT. -/
structure RankOut where
  idx : List Nat
  list : List (Int × Nat)
  l2 : Nat
  sat : Bool
  inexact : Bool
deriving DecidableEq, Repr

/-- The groups of a member. -/
def memberRanks (s : State) (j : Job) : List RankOut :=
  let els := (tilesOf j).flatMap (fun e => (elements j e.1 e.2).map (fun i => (e.1, i)))
  let groups := (els.map (fun e => rankGroupIdx j e.2)).dedup
  groups.map (fun g =>
    let mine := els.filter (fun e => rankGroupIdx j e.2 = g)
    let cs := mine.map (fun e => elementCandidates s j e.2)
    { idx := g, list := mergeRanks (cK j.c) [] (cs.flatMap (fun c => c.1)), l2 := (mine.map (fun e => e.1)).foldl max 0
      sat := cs.any (fun c => c.2.1), inexact := cs.any (fun c => c.2.2) })

/-- A group with the parts' lists of the same group merged in (R204, R322). -/
def mergedRank (all : List (Job × List RankOut)) (j : Job) (g : RankOut) : RankOut :=
  if !splits j.map j.tile then g
  else (List.range (partCount j.map j.tile)).foldl (fun g p =>
    if p = 0 then g
    else
      match all.find? (fun e => e.1.member = memberOfPart j.map j.tile j.member p) with
      | none => g
      | some e => (e.2.filter (fun x => x.idx = g.idx)).foldl (fun g x =>
          { g with list := mergeRanks (cK j.c) g.list x.list, sat := g.sat || x.sat, inexact := g.inexact || x.inexact }) g) g

/-- What every member writes: its groups with their bit writes. -/
def rankOuts (s : State) (js : List Job) : List (Job × RankOut × List (Nat × Nat × Nat)) :=
  let all := js.map (fun j => (j, memberRanks s j))
  all.flatMap (fun e => if writesHere e.1 then e.2.map (fun g =>
    let g := mergedRank all e.1 g
    (e.1, g, rankWrites s e.1 (cK e.1.c) g.idx g.list)) else [])

/-- The body of RANK. Its row of R263 lists no fault while running, so that saturation sets SAT only (log 69). -/
def rankBody (ecc : Ecc) (s : State) (f : Flight) (js : List Job) : State :=
  match neededFirst s (js.flatMap (fun j => (tilesOf j).map (fun e => (j, checkReads s j .clean (rankReads s j e.2))))) with
  | some s => s
  | none =>
    match neededFirst s ((rankOuts s js).map (fun o => (o.1, checkWrites s o.1 .clean o.2.2))) with
    | some s => s
    | none =>
      let rs := readTiles rankReads ecc s js
      let w : Walk := (rankOuts rs.s js).foldl (fun w o =>
        if o.2.1.l2 < limitOf rs.bad o.1 then walkGroup w o.1 o.2.1.l2 o.2.2 o.2.1.sat o.2.1.inexact false else w)
        { s := rs.s, ecc := rs.ecc }
      walkEnd { w with stop := badVerdict rs.bad <|> w.stop } f

/-- RANK_ELEMENTS (R205). -/
def execRankElements (t : Nat) (run : VerbRun) (s : State) : Res :=
  onVerb s t run.tag (fun c => cVerb c = 5 && cOp c = 0) tiledReady (rankBody run.ecc)

/-- RANK_LIST_MERGE (R204). -/
def execRankListMerge (t : Nat) (run : VerbRun) (s : State) : Res :=
  onVerb s t run.tag (fun c => cVerb c = 5 && cOp c = 1) tiledReady (rankBody run.ecc)

end Sys2Proof.Machine
end

