-- ==== Sys2Proof/Machine/Flash.lean ====
section
/-!
DEFINITION. Sys2Proof/Machine/Flash.lean: the flash and the EEPROM as bytes, the copies of R604 to R608 and their states, the ledger's
contents (R612 to R615, R632 to R634), the firmware image (R635), and the generation log (R611).
-/

namespace Sys2Proof.Machine

/-! ## Flash bytes -/

/-- An erased byte (R606). -/
def erasedByte : Byte := 0xFF

/-- Read flash. -/
def flashRead (s : State) (a n : Nat) : List Byte := readBytes erasedByte s.mem.flash a n

/-- Erase flash. -/
def flashErase (s : State) (a n : Nat) : State :=
  { s with mem := { s.mem with flash := clearRun s.mem.flash a n } }

/-- Program flash: a bit that is 1 can become 0, never the other way (PRESUMED for SPI NOR flash, log 41). -/
def flashProgram (s : State) (a : Nat) (bs : List Byte) : State :=
  { s with mem := { s.mem with
      flash := writeBytes erasedByte s.mem.flash a ((flashRead s a bs.length).zipWith (fun x y => x &&& y) bs) } }

/-- Every byte of an area reads erased. -/
def flashBlank (s : State) (a n : Nat) : Bool := s.mem.flash.all (fun e => ¬ (a ≤ e.1 ∧ e.1 < a + n))

/-- A list of n free bytes, from the counter up. -/
def freeBytes (s : State) (n : Nat) : List Byte := (List.range n).map (fun i => Config.freeByte (s.freeCtr + i))

/-! ## Copies (R604 to R608) -/

/-- A flash area: its offset and size. -/
structure Area where
  base : Nat
  size : Nat
deriving DecidableEq, Repr

/-- The ledger areas by number: 1 copy A, 2 copy B, 3 factory (R604, R636). -/
def ledgerArea (i : Nat) : Area := ⟨if i = 1 then 0x8000 else if i = 2 then 0x10000 else 0, 0x8000⟩

/-- The firmware areas: 0 copy A, 1 copy B (R604). -/
def firmwareArea (i : Nat) : Area := ⟨if i = 0 then 0x100000 else 0x500000, 0x400000⟩

/-- Offset of an area's commit page (R605). -/
def Area.page (a : Area) : Nat := a.base + a.size - 256

/-- The content of an area: everything before its commit page. -/
def areaContent (s : State) (a : Area) : List Byte := flashRead s a.base (a.size - 256)
def areaSequence (s : State) (a : Area) : Nat := leNat (flashRead s a.page 4)
def areaCrc (s : State) (a : Area) : Nat := leNat (flashRead s (a.page + 4) 4)
def areaCommit (s : State) (a : Area) : Nat := leNat (flashRead s (a.page + 8) 4)

/-- The value of COMMIT in a committed copy (R606). -/
def commitWord : Nat := 0x5A5AC3C3

/-- The CRC of a copy with a content and a STORE_SEQUENCE (R605). -/
def copyCrc (content : List Byte) (seq : Nat) : Nat := (crc32 (content ++ leBytes 4 seq)).toNat

/-- The CRC of an area matches (R605, R606). -/
def areaCrcOk (s : State) (a : Area) : Bool := copyCrc (areaContent s a) (areaSequence s a) = areaCrc s a

/-- The states of R636: 0 VALID, 1 BLANK, 2 STAGED, 3 REVOKED, 4 INVALID. -/
def areaState (s : State) (a : Area) (ok : List Byte → Bool) : Nat :=
  if flashBlank s a.base a.size then 1
  else if areaCommit s a = 0 then 3
  else if areaCrcOk s a && ok (areaContent s a) then
    (if areaCommit s a = commitWord then 0 else if areaCommit s a = 0xFFFFFFFF then 2 else 4)
  else 4

/-- Steps 1 to 3 of a store (R607): erase the area, program the content, STORE_SEQUENCE and CRC. -/
def writeCopy (s : State) (a : Area) (bs : List Byte) (seq : Nat) : State :=
  let content := bs ++ List.replicate (a.size - 256 - bs.length) erasedByte
  let s := flashErase s a.base a.size
  let s := flashProgram s a.base bs
  flashProgram s a.page (leBytes 4 seq ++ leBytes 4 (copyCrc content seq))

/-- Step 5 of a store (R607). -/
def commitCopy (s : State) (a : Area) : State := flashProgram s (a.page + 8) (leBytes 4 commitWord)

/-- A store that a device error abandons (R607): COMMIT is not programmed, STORE_FAILED is set (R675), and what stands in the rest of the
area is not stated. -/
def abandonStore (s : State) (a : Area) : State :=
  let n := a.size - 256 + 8
  let s := { flashErase s a.base a.size with sys := { s.sys with storeFailed := true } }
  let bs := freeBytes s n
  (flashProgram (flashProgram s a.base (bs.take (a.size - 256))) a.page (bs.drop (a.size - 256))).stepFree n

/-! ## EEPROM (R665, R666) -/

def eepromRead (s : State) (a n : Nat) : List Byte := readBytes 0 s.mem.eeprom a n

/-- The EEPROM passes its CRC and MAGIC (R666). -/
def eepromOk (s : State) : Bool :=
  decide (leNat (eepromRead s 0 4) = 0x45534143) &&
    decide ((crc32 (eepromRead s 0 0xFC)).toNat = leNat (eepromRead s 0xFC 4))

/-- CASING_SERIAL (R665, R666). -/
def eepromSerial (s : State) : DWord :=
  if eepromOk s then BitVec.ofNat 64 (leNat (eepromRead s 8 8)) else 0xFFFFFFFFFFFFFFFF

/-! ## Ledger contents (R632 to R634) -/

def entrySource (w : Nat) : Nat := bits w 7 7
def entryRim (w : Nat) : Nat := bits w 9 8
def entryPort (w : Nat) : Nat := bits w 10 10

/-- A ledger entry is in range, with no reserved encoding, and a factory entry has ADDED 0 (R633, R634). -/
def entryOk (e : LedgerEntry) : Bool :=
  let w := e.word0
  let k := entryKind w
  bits w 15 11 = 0 && decide (entryX w ≤ 34 ∧ entryY w ≤ 59) && (entrySource w = 1 || e.added = 0) &&
    (if k = 3 then pathExists (entryPath w) (entryRim w) (entryPort w) (entryX w) (entryY w)
     else decide (k = 1 ∨ k = 2 ∨ k = 4) && entryPath w = 0 && entryRim w = 0 && entryPort w = 0)

/-- Entry words strictly rise, SOURCE taken as zero (R634). -/
def keysRise : List LedgerEntry → Bool
  | [] => true
  | e :: rest => (match rest with | [] => true | f :: _ => decide (entryKey e.word0 < entryKey f.word0)) && keysRise rest

/-- The entries of a ledger content. -/
def ledgerEntries (bs : List Byte) : List LedgerEntry :=
  (List.range (leNat ((bs.drop 6).take 2))).map (fun i =>
    { word0 := leNat ((bs.drop (0x40 + 8 * i)).take 4), added := leNat ((bs.drop (0x44 + 8 * i)).take 4) })

/-- The content passes the checks of R634; with an EEPROM that is not valid none does (R666). -/
def ledgerOk (s : State) (bs : List Byte) : Bool :=
  let es := ledgerEntries bs
  decide (leNat (bs.take 4) = 0x5247444C) && decide (leNat ((bs.drop 4).take 2) = 1) && decide (es.length ≤ 4000)
    && decide (leNat ((bs.drop 8).take 2) = es.countP (fun e => entrySource e.word0 = 0))
    && decide (leNat ((bs.drop 0x0A).take 6) = 0) && decide (leNat ((bs.drop 0x18).take 40) = 0)
    && eepromOk s && decide (leNat ((bs.drop 0x10).take 8) = (eepromSerial s).toNat)
    && es.all entryOk && keysRise es

/-- State of a ledger area by number (R636). -/
def ledgerState (s : State) (i : Nat) : Nat := areaState s (ledgerArea i) (ledgerOk s)
def ledgerValid (s : State) (i : Nat) : Bool := ledgerState s i = 0
def ledgerSeq (s : State) (i : Nat) : Nat := areaSequence s (ledgerArea i)

/-- The newer of two copies: the valid one with the higher STORE_SEQUENCE, the first when they are equal (R608). -/
def newerOf (va vb : Bool) (a b sa sb : Nat) : Option Nat :=
  if va && (!vb || decide (sb ≤ sa)) then some a else if vb then some b else none

/-- The newer valid ledger copy, 1 A or 2 B (R608). -/
def newerLedger (s : State) : Option Nat :=
  newerOf (ledgerValid s 1) (ledgerValid s 2) 1 2 (ledgerSeq s 1) (ledgerSeq s 2)

/-- The ledger that step 2 selects: 1 A, 2 B, 3 factory, 0 none (R612). -/
def selectLedger (s : State) : Nat :=
  match newerLedger s with
  | some i => i
  | none => if ledgerValid s 3 then 3 else 0

/-- Target and STORE_SEQUENCE of the next ledger store (R608); copy A when neither copy is valid (log 42). -/
def ledgerTarget (s : State) : Nat × Nat :=
  match newerLedger s with
  | some 1 => (2, ledgerSeq s 1 + 1)
  | some _ => (1, ledgerSeq s 2 + 1)
  | none => (1, 1)

/-- An entry as a store with a STORE_SEQUENCE writes it: a field entry that no store has recorded gets it in ADDED (R633). -/
def stampEntry (seq : Nat) (e : LedgerEntry) : LedgerEntry :=
  if entrySource e.word0 = 1 ∧ e.added = 0 then { e with added := seq } else e

/-- Header and entries of a ledger (R632). -/
def ledgerBytes (s : State) (es : List LedgerEntry) : List Byte :=
  leBytes 4 0x5247444C ++ leBytes 2 1 ++ leBytes 2 es.length ++ leBytes 2 (es.countP (fun e => entrySource e.word0 = 0)) ++ zeros 6
    ++ leBytes 8 s.sys.serial.toNat ++ zeros 40 ++ es.flatMap (fun e => leBytes 4 e.word0 ++ leBytes 4 e.added)

/-- Put an entry at its place in a ledger that does not hold its key (R634). -/
def insertEntry (e : LedgerEntry) : List LedgerEntry → List LedgerEntry
  | [] => [e]
  | f :: rest => if entryKey e.word0 < entryKey f.word0 then e :: f :: rest else f :: insertEntry e rest

/-- Add an entry when its key is not there yet (R613). -/
def addEntry (es : List LedgerEntry) (e : LedgerEntry) : List LedgerEntry :=
  if es.any (fun f => entryKey f.word0 = entryKey e.word0) then es else insertEntry e es

/-- Drop the CLUSTER entry and the PATH entries of every cluster that has a ROUTER entry (R613). -/
def dropReplaced (es : List LedgerEntry) : List LedgerEntry :=
  es.filter (fun e =>
    ¬ ((entryKind e.word0 = 1 ∨ entryKind e.word0 = 3) ∧
      es.any (fun f => entryKind f.word0 = 2 && entryPhys f.word0 = entryPhys e.word0)))

/-- Word 0 of an entry for a cluster. -/
def entryWord (kind q : Nat) : Nat := kind + q % 35 * 65536 + q / 35 * 16777216

/-- A field entry with a key. -/
def fieldEntry (key : Nat) : LedgerEntry := { word0 := key + 128, added := 0 }

/-- The recorded ledger from a base, new DEFECTIVE entries and the clusters with WEAR (R613). -/
def recordLedger (base defects : List LedgerEntry) (wear : List Nat) : List LedgerEntry :=
  let es := defects.foldl addEntry base
  dropReplaced ((wear.map (fun q => fieldEntry (entryWord 4 q))).foldl addEntry es)

/-- Request a ledger store; one of more than 4,000 entries is not made (R615). -/
def requestLedger (s : State) (st : Store) : State :=
  if 4000 < s.silicon.recorded.length then { s with sys := { s.sys with ledgerFull := true } }
  else { s with sys := { s.sys with stores := s.sys.stores ++ [st] } }

/-- Write the recorded ledger into the target copy (R607, R608): true when it is committed. -/
def storeLedger (s : State) (deviceOk : Bool) : State × Bool :=
  let tgt := ledgerTarget s
  let a := ledgerArea tgt.1
  if 4000 < s.silicon.recorded.length then ({ s with sys := { s.sys with ledgerFull := true } }, false)
  else if !deviceOk then (abandonStore s a, false)
  else
    let es := s.silicon.recorded.map (stampEntry tgt.2)
    let s := { s with silicon := { s.silicon with recorded := es } }
    (commitCopy (writeCopy s a (ledgerBytes s es) tgt.2) a, true)

/-! ## Firmware copies (R620, R622, R635) -/

/-- The 64-byte header of a firmware image is in range (R635). DESIGN CHOICE (log 117): no check is given for the WELLHEAD major, so an image
with another major than 2 boots and shows it (R396, R620). -/
def firmwareHeaderOk (bs : List Byte) : Bool :=
  let size := leNat ((bs.drop 8).take 4)
  decide (leNat (bs.take 4) = 0x57464850) && decide (leNat ((bs.drop 4).take 2) = 1) && decide (size % 64 = 0 ∧ size ≤ 4193856)
    && decide (leNat ((bs.drop 0x0C).take 1) ≤ 3) && decide (leNat ((bs.drop 0x0D).take 51) = 0)

/-- Payload bytes, WELLHEAD of an image (R635). -/
def firmwareSize (bs : List Byte) : Nat := leNat ((bs.drop 8).take 4)
def firmwareWellhead (bs : List Byte) : Nat := leNat ((bs.drop 6).take 2)

/-- The signature block ends in 32 zero bytes and its signature checks (R620, R635). -/
def firmwareSigned (bs : List Byte) : Bool :=
  let n := 64 + firmwareSize bs + 128
  decide (leNat ((bs.drop (n - 32)).take 32) = 0) && Config.signatureOk (bs.take n)

def firmwareState (s : State) (i : Nat) : Nat := areaState s (firmwareArea i) firmwareHeaderOk
def firmwareValid (s : State) (i : Nat) : Bool := firmwareState s i = 0
def firmwareSeq (s : State) (i : Nat) : Nat := areaSequence s (firmwareArea i)
def firmwareContent (s : State) (i : Nat) : List Byte := areaContent s (firmwareArea i)

/-- The newer valid firmware copy (R608). -/
def newerFirmware (s : State) : Option Nat :=
  newerOf (firmwareValid s 0) (firmwareValid s 1) 0 1 (firmwareSeq s 0) (firmwareSeq s 1)

/-- The valid copies in descending STORE_SEQUENCE (R620). -/
def firmwareOrder (s : State) : List Nat :=
  match newerFirmware s with
  | none => []
  | some i => if firmwareValid s (1 - i) then [i, 1 - i] else [i]

/-- The valid copies whose header and signature pass, in the order in which the ROM tries them (R620). -/
def bootable (s : State) : List Nat := (firmwareOrder s).filter (fun i => firmwareSigned (firmwareContent s i))

/-! ## Generation log (R611) -/

def slotAt (sector i : Nat) : Nat := 0x19000 + 0x1000 * sector + 8 * i
def slotErased (s : State) (sector i : Nat) : Bool := flashBlank s (slotAt sector i) 8

/-- The value of a slot, when it is valid (R611). -/
def slotValue (s : State) (sector i : Nat) : Option Nat :=
  let g := leNat (flashRead s (slotAt sector i) 4)
  if leNat (flashRead s (slotAt sector i + 4) 4) = 0xFFFFFFFF - g then some g else none

/-- The highest valid G of a sector. -/
def sectorTop (s : State) (sector : Nat) : Option Nat :=
  ((List.range 512).filterMap (slotValue s sector)).max?

/-- The sector in use (R611). -/
def sectorInUse (s : State) : Nat :=
  match sectorTop s 0, sectorTop s 1 with
  | some a, some b => if a < b then 1 else 0
  | none, some _ => 1
  | _, none => 0

/-- The next GENERATION (R611 step 1). -/
def nextGeneration (s : State) : Nat :=
  match sectorTop s (sectorInUse s) with
  | some g => g + 1
  | none => 1

/-- The erased slots of a sector after its last slot that is not erased. -/
def freeSlots (s : State) (sector : Nat) : List Nat :=
  let used := (List.range 512).filter (fun i => !slotErased s sector i)
  (List.range 512).filter (fun i => used.all (fun j => decide (j < i)))

/-- A slot whose programming does not read back valid: its first word is not stated (R611). -/
def tearSlot (s : State) (sector i : Nat) : State :=
  let w := leNat (freeBytes s 4)
  (flashProgram s (slotAt sector i) (leBytes 4 w ++ leBytes 4 (Nat.xor (0xFFFFFFFF - w) 1))).stepFree 4

/-- Program G into the first of some slots that reads back valid; the first n slots tried do not. The slots not tried and the n left over
come with the result, with whether a slot was programmed (R611 step 2). -/
def programSlots (s : State) (g sector : Nat) : List Nat → Nat → State × Nat × Bool
  | [], n => (s, n, false)
  | i :: _, 0 => (flashProgram s (slotAt sector i) (leBytes 4 g ++ leBytes 4 (0xFFFFFFFF - g)), 0, true)
  | i :: rest, n + 1 => programSlots (tearSlot s sector i) g sector rest n

/-- GENERATION_RECORD (R611): take the next GENERATION and program it; slotFails slots do not read back valid. When none can be programmed,
STORE_FAILED is set and GENERATION is kept. -/
def recordGeneration (s : State) (slotFails : Nat) : State :=
  let g := nextGeneration s
  let u := sectorInUse s
  let a := programSlots s g u (freeSlots s u) slotFails
  let b := if a.2.2 then (a.1, true)
    else
      let t := flashErase a.1 (slotAt (1 - u) 0) 0x1000
      let r := programSlots t g (1 - u) (List.range 512) a.2.1
      (r.1, r.2.2)
  let s := b.1
  { s with sys := { s.sys with generation := g, storeFailed := s.sys.storeFailed || !b.2 } }

/-- Request the erase of the sector not in use when it is not wholly erased (R611). -/
def requestSectorErase (s : State) : State :=
  let k := 1 - sectorInUse s
  if flashBlank s (slotAt k 0) 0x1000 || s.sys.stores.contains (.generationErase k) then s
  else { s with sys := { s.sys with stores := s.sys.stores ++ [.generationErase k] } }

end Sys2Proof.Machine
end

