-- ==== Sys2Proof/Machine/Records.lean ====
section
/-!
DEFINITION. Sys2Proof/Machine/Records.lean: the telemetry record (R574 to R579), the tenant status block and the tag bitmap (R378), the
ledger status block (R636), the global page (R396) and the registers of a tenant page (R346) as bytes.
-/

namespace Sys2Proof.Machine

/-- An integer as n bytes of two's complement. -/
def leInt (n : Nat) (v : Int) : List Byte := leBytes n (unsignedOf (8 * n) v)

/-! ## Telemetry -/

/-- Highest value of a list, 0 for an empty one. -/
def maxOf (l : List Int) : Int := l.foldl max (l.headD 0)

/-- The clusters of a field that are not holes. -/
def fieldUsable (s : State) (f : Nat) : List Nat := (fieldClusters f).filter (usable s)

/-- The cluster is throttled: its thermal ceiling is below 64 (R567, R579; log 43). -/
def throttled (c : Cluster) : Bool := decide (c.avfs.thermalCeiling < 64)

/-- A quarter-degree reading in 0.1 °C, rounded down. -/
def tenths (q : Int) : Int := (q * 5).fdiv 2

/-- Numbers of `Config.measured` for what no command supplies (log 5). -/
def meField (f : Nat) : Nat := f
def meSteps (f i : Nat) : Nat := 100 + 2 * f + i
def meRim (r i : Nat) : Nat := 300 + 4 * r + i

/-- A field entry (R576). Lowest and highest step of no awake cluster are not stated (log 5). -/
def fieldEntryBytes (s : State) (f : Nat) : List Byte :=
  let x := s.field f
  let cs := (fieldUsable s f).map s.cluster
  let awake := (cs.filter (fun c => c.awake)).map (fun c => c.avfs.step)
  let st := match x.state with | .running => 0 | .shutdown => 1 | .vpmFault => 2 | .unpowered => 3
  leBytes 1 st ++ leBytes 1 x.ceiling ++ leBytes 2 (if x.power = .good then x.railMv else 0) ++ leBytes 2 (Config.measured (meField f))
    ++ leInt 2 (tenths (maxOf (cs.map (fun c => c.avfs.reading))))
    ++ leBytes 1 (if awake.isEmpty then Config.measured (meSteps f 0) else awake.foldl min 64)
    ++ leBytes 1 (if awake.isEmpty then Config.measured (meSteps f 1) else awake.foldl max 0)
    ++ leBytes 1 (cs.countP (fun c => !c.awake)) ++ leBytes 1 (cs.countP throttled) ++ leBytes 4 x.throttleEvents

/-- Failed channel mask of a rim (R577). -/
def failedMask (x : Rim) : Nat := sumNat (((List.range 6).filter (fun i => x.failedChannels.contains i)).map (fun i => 2 ^ i))

/-- A rim entry (R577). -/
def rimEntryBytes (s : State) (r : Nat) : List Byte :=
  let x := s.rim r
  padTo 64 (leBytes 2 (Config.measured (meRim r 0)) ++ leBytes 1 (b2n x.online) ++ leBytes 1 (x.speed / 100) ++ leBytes 1 x.capacityGiB
    ++ leBytes 1 x.ranks ++ leBytes 1 x.deviceWidth ++ leBytes 1 (failedMask x)
    ++ leBytes 1 (Config.measured (meRim r 1)) ++ leBytes 1 (Config.measured (meRim r 2)) ++ leBytes 2 (Config.measured (meRim r 3))
    ++ (List.range 6).flatMap (fun i => leBytes 4 (s.channel (6 * r + i)).corrected ++ leBytes 2 (s.channel (6 * r + i)).scrubErrors)
    ++ leBytes 4 x.poisonedLines)

/-- A link status byte (R498). -/
def linkStatusByte (x : Link) : Nat := x.status + 16 * b2n x.conflictPeer

/-- A link entry (R578). -/
def linkEntryBytes (s : State) (l : Nat) : List Byte :=
  let x := s.link l
  leBytes 1 (linkStatusByte x) ++ leBytes 1 x.spareFor ++ leBytes 2 x.malformed ++ leBytes 4 x.fecCorrected ++ leBytes 4 x.replayed
    ++ leBytes 2 x.retrains ++ leBytes 2 x.downs

/-- A cluster entry (R579). -/
def clusterEntryBytes (s : State) (k : Nat) : List Byte :=
  let c := s.cluster k
  let on := usable s k
  let powered := decide ((s.field (fieldOfLogical k)).power = .good)
  let wear := s.silicon.wear.contains (physIdx (physX s.silicon.live (k % 28) (k / 28)) (k / 28))
  leBytes 1 c.avfs.step ++ leInt 1 (if on && powered then c.avfs.reading.fdiv 4 else 0)
    ++ leBytes 1 (b2n (on && !c.awake) + 2 * b2n (throttled c) + 4 * b2n c.avfs.refLost + 8 * b2n wear)
    ++ leBytes 1 (c.avfs.millivolts / 4)

/-- Input power in W (R573, R575). -/
def inputWatts (s : State) : Nat := s.casing.vinMv * s.casing.iinDa / 10000

/-- The header (R575). -/
def telemetryHeader (s : State) : List Byte :=
  let c := s.casing
  let lost := s.clusters.any (fun e => e.2.avfs.refLost)
  padTo 64 (leBytes 4 0x454C4554 ++ leBytes 2 1
    ++ leBytes 2 (b2n c.coolantWarn + 2 * b2n (decide (c.ilimitCeiling < 64)) + 4 * b2n lost)
    ++ leBytes 4 s.sys.sample ++ leBytes 2 c.vinMv ++ leBytes 2 c.iinDa ++ leBytes 4 (inputWatts s) ++ leInt 2 c.inletD ++ leInt 2 c.outletD
    ++ leBytes 2 c.flowD ++ leBytes 1 c.policyCeiling ++ leBytes 1 c.ilimitCeiling ++ leBytes 1 c.coolantCeiling ++ leBytes 1 0
    ++ leBytes 2 s.sys.peerDrops ++ leBytes 2 s.sys.wellhead.toNat ++ leBytes 1 0xB0 ++ leBytes 1 s.sys.runningCopy
    ++ leBytes 4 s.sys.fwSequence ++ leBytes 1 (b2n s.sys.fallback + 2 * b2n s.sys.primarySouth))

/-- The telemetry record, 8,544 bytes (R574). -/
def telemetryRecord (s : State) : List Byte :=
  telemetryHeader s ++ (List.range 70).flatMap (fieldEntryBytes s) ++ (List.range 4).flatMap (rimEntryBytes s)
    ++ (List.range 24).flatMap (linkEntryBytes s) ++ (List.range 1680).flatMap (clusterEntryBytes s)

/-- The snapshot, all zero before the first refresh (log 1). -/
def telemetryNow (s : State) : List Byte := padTo 8544 s.sys.snapshot

/-! ## QUERY blocks -/

/-- In-flight clauses of a tenant in a class. -/
def inFlightClass (s : State) (t p : Nat) : Nat := (tenantFlights s t).countP (fun f => f.prio = p)

/-- The TENANT_STATUS block (R378). -/
def tenantStatus (s : State) (t : Nat) : List Byte :=
  let x := s.tenant t
  let ms := ((planRegions s t).flatMap (fun r => r.members)).dedup
  padTo 32 ((List.range 4).flatMap (fun p => leBytes 2 (inFlightClass s t p))
    ++ (List.range 4).flatMap (fun p => leBytes 2 (x.ring p).waiting.length)
    ++ leBytes 1 x.halted.toNat ++ leBytes 1 x.epoch.toNat
    ++ leBytes 2 (s.work.sessions.countP (fun e => e.2.openFlag && decide (e.2.tenant = t)))
    ++ leBytes 4 (min 0xFFFFFFFF (sumNat (ms.map (fun k => (s.cluster k).ecc)))))

/-- A bitmap of n bytes with bit t set for each tag t of a list (R378). -/
def tagBitmap (tags : List Nat) (n : Nat) : List Byte :=
  (List.range n).map (fun i => BitVec.ofNat 8 (sumNat (((List.range 8).filter (fun b => tags.contains (8 * i + b))).map (fun b => 2 ^ b))))

/-- The IN_FLIGHT_TAGS bitmap (R378). -/
def tagBlock (s : State) (t : Nat) : List Byte :=
  tagBitmap ((tenantFlights s t).map (fun f => f.tag)) (if (s.tenant t).bl then 512 else 8192)

/-- STORE_SEQUENCE of the newest valid ledger copy (R636). -/
def newestSequence (s : State) : Nat :=
  match newerLedger s with
  | some i => ledgerSeq s i
  | none => if ledgerValid s 3 then ledgerSeq s 3 else 0

/-- The ledger status block (R636). -/
def ledgerStatus (s : State) : List Byte :=
  let y := s.sys
  padTo 64 (leBytes 1 y.selected ++ [ledgerState s 1, ledgerState s 2, ledgerState s 3, firmwareState s 0, firmwareState s 1].flatMap (leBytes 1)
    ++ leBytes 1 y.runningCopy
    ++ leBytes 1 (b2n y.ledgerLost + 2 * b2n y.fallback + 4 * b2n (!y.stores.isEmpty) + 8 * b2n y.storeFailed + 16 * b2n y.ledgerFull)
    ++ leBytes 4 y.generation ++ leBytes 4 y.ledgerSequence ++ leBytes 4 (newestSequence s)
    ++ leBytes 2 (min 0xFFFF s.silicon.live.undecided) ++ leBytes 2 (min 0xFFFF s.silicon.live.transient.length))

/-- QUERY LEDGER's result (R636). -/
def ledgerBlock (s : State) : List Byte :=
  ledgerStatus s ++ ledgerBytes s (s.silicon.recorded.map (stampEntry (ledgerTarget s).2))

/-! ## The global page and the tenant pages -/

/-- BOOT_STEP: the lowest-numbered step that has not ended, 0 when READY (R396, R583). -/
def bootStep (s : State) : Nat :=
  if s.sys.state = 1 then 0
  else
    match (List.range 9).find? (fun i => !bit s.sys.stepEnded.toNat i) with
    | some i => i + 1
    | none => 0

/-- A register of the global page (R396); other offsets read as zero. -/
def globalReg (s : State) (off : Nat) : Nat :=
  let y := s.sys
  match off with
  | 0x00 => 0x30375756
  | 0x04 => y.wellhead.toNat + 0xB00000
  | 0x08 => y.state.toNat + 16 * bootStep s + 256 * b2n y.belowGuarantee + 512 * b2n y.primarySouth + 1024 * b2n y.noStandby
  | 0x0C => y.usableCount + 65536 * y.holeCount
  | 0x10 => y.generation
  | 0x14 => y.waferNumber + 256 * y.waferCount
  | 0x18 => y.heartbeat.toNat
  | 0x1C => y.failovers
  | 0x20 => y.alertStatus.toNat
  | 0x24 => y.alertEnable.toNat
  | 0x28 => b2n y.forceFailover
  | 0x30 => y.serial.toNat % 2 ^ 32
  | 0x34 => y.serial.toNat / 2 ^ 32
  | _ => 0

/-- Bytes 0x000 to 0x037 of the global page (R659). -/
def globalPage (s : State) : List Byte := (List.range 14).flatMap (fun i => leBytes 4 (globalReg s (4 * i)))

/-- A register of a tenant page (R346); other offsets read as zero. -/
def tenantReg (s : State) (t off : Nat) : Nat :=
  let x := s.tenant t
  match off with
  | 0x1000 => x.dropCount + 2 ^ 16 * b2n x.overrun + 2 ^ 17 * b2n x.malformed + 2 ^ 24 * (64 - x.requestRing.length)
  | 0x1004 => x.noticeHead
  | 0x1008 => x.tail + 2 ^ 12 * b2n x.tailPhase + 2 ^ 13 * x.heldNotices.length + 2 ^ 20 * b2n x.noticeLost
  | 0x100C => x.lostCount + 2 ^ 16 * x.discarded
  | 0x1010 => x.expected.toNat + 2 ^ 16 * b2n x.gap + 2 ^ 17 * b2n x.ringSet
  | 0x1014 => b2n x.enabled + 2 * b2n x.bl + 4 * b2n x.plan.isSome + 16 * x.halted.toNat + 256 * x.epoch.toNat
      + 65536 * (tenantFlights s t).length
  | _ => 0

end Sys2Proof.Machine
end

