-- ==== Sys2Proof/Machine/HostPorts.lean ====
section
/-!
DEFINITION. Sys2Proof/Machine/HostPorts.lean: register writes (R21, R22, R345, R346, R351, R371, R396, R502, R505, R540), the apertures
(R511, R514, R530, R539), MSI-X (R517, R518) and the state of the host ports (R503, R508, R509, R648, R649).
-/

namespace Sys2Proof.Machine

/-! ## Registers -/

/-- Write REQ_STATUS: OVERRUN clears OVERRUN, MALFORMED and DROP_COUNT together, MALFORMED clears itself (R346, R351). -/
def writeReqStatus (x : Tenant) (v : Nat) : Tenant :=
  if bit v 16 then { x with overrun := false, malformed := false, dropCount := 0 }
  else if bit v 17 then { x with malformed := false } else x

/-- Entries of the ring that the host has not passed once HEAD is h (R371, log 10). -/
def ringUsedAfter (x : Tenant) (h : Nat) : Nat :=
  let n := (x.tail + 4096 - h) % 4096
  if n = 0 && x.ringUsed = 4096 && h = x.noticeHead then 4096 else n

/-- Write NOTICE_HEAD (R346, R371). -/
def writeNoticeHead (x : Tenant) (v : Nat) : Tenant :=
  let h := v % 4096
  { x with noticeHead := h, ringUsed := ringUsedAfter x h }

/-- Write NOTICE_STATUS: NOTICE_LOST clears with LOST_COUNT (R346). -/
def writeNoticeStatus (x : Tenant) (v : Nat) : Tenant :=
  if bit v 20 then { x with noticeLost := false, lostCount := 0 } else x

/-- The engine writes what it holds for a tenant, while its firmware runs (R372). -/
def flushTenant (s : State) (t : Nat) : State := if ready s then flushHeld (flushResults s t) t 66 else s

/-- Write one whole register of a live tenant page (R346); the others are read-only or reserved. -/
def writeTenantReg (s : State) (t r v : Nat) : State :=
  if r = 0x1000 then s.modTenant t (fun x => writeReqStatus x v)
  else if r = 0x1004 then flushTenant (s.modTenant t (fun x => writeNoticeHead x v)) t
  else if r = 0x1008 then s.modTenant t (fun x => writeNoticeStatus x v)
  else s

/-- Writes to the global page take effect from a port (R505). -/
def adminPort (s : State) (p : Nat) : Bool := (s.tenant 0).bound && decide ((s.tenant 0).hostPort = p)

/-- Ring the standby doorbell, which wakes a standby when there is one (R389, R395). -/
def ringStandby (s : State) : State :=
  if s.sys.noStandby then s else { s with sys := { s.sys with standbyRung := true } }

/-- Write one whole register of the global page from a port (R396, R505). -/
def writeGlobalReg (s : State) (p r v : Nat) : State :=
  if !adminPort s p then s
  else if r = 0x20 then { s with sys := { s.sys with alertStatus := s.sys.alertStatus &&& ~~~ (BitVec.ofNat 5 v) } }
  else if r = 0x24 then { s with sys := { s.sys with alertEnable := BitVec.ofNat 5 v } }
  else if r = 0x28 then
    if bit v 0 then ringStandby { s with sys := { s.sys with forceFailover := true } } else s
  else s

/-- Write one whole register of BAR0 (R345). -/
def writeReg (s : State) (p off v : Nat) : State :=
  if off < 0x100000 then
    if pageLive s p (off / 0x10000) then writeTenantReg s (off / 0x10000) (off % 0x10000) v else s
  else writeGlobalReg s p (off - 0x100000) v

/-- What a read of the 32-bit register at an offset of BAR0 gives on a port: a register of a live tenant page, one of the global page, and zero
at every other offset (R345, R346, R396, R502, R504). -/
def bar0Read (s : State) (p off : Nat) : Nat :=
  if off < 0x100000 then
    if pageLive s p (off / 0x10000) then tenantReg s (off / 0x10000) (off % 0x10000) else 0
  else globalReg s (off - 0x100000)

/-- What a read of the 32-bit word at an offset of BAR4 gives: the MSI-X table, the pending bits, and zero elsewhere (R540). -/
def bar4Read (s : State) (p off : Nat) : Nat :=
  let x := s.port p
  if off < 17 * 16 then leNat ((List.range 4).map (fun i => msixByte x (off + i)))
  else if off = 0x1000 then sumNat ((x.msixPending.filter (fun v => decide (v < 32))).map (fun v => 2 ^ v))
  else 0

/-- A host access reaches a port: the wafer is powered, the link is up, and no TAP has taken the rim's I/O (R630). -/
def portReached (s : State) (p : Nat) : Bool := poweredUp s && (s.port p).linkUp && !rimTaken s p

/-- A write of one whole register; with EP set it is ignored and logged (R514). -/
def hostRegWrite (s : State) (p off v : Nat) (ep : Bool) : Res :=
  if !portReached s p then .next s
  else if ep then .next (logPoison s p true)
  else .next (writeReg s p off v)

/-- OVERRUN_CLEAR (R351). -/
def execOverrunClear (p t : Nat) (ep : Bool) (s : State) : Res := hostRegWrite s p (t * 0x10000 + 0x1000) (2 ^ 16) ep

/-- MALFORMED_CLEAR (R346, R21). -/
def execMalformedClear (p t : Nat) (ep : Bool) (s : State) : Res := hostRegWrite s p (t * 0x10000 + 0x1000) (2 ^ 17) ep

/-- NOTICE_HEAD_WRITE (R371, R372). -/
def execNoticeHeadWrite (p t : Nat) (value : Word) (ep : Bool) (s : State) : Res :=
  hostRegWrite s p (t * 0x10000 + 0x1004) value.toNat ep

/-- NOTICE_LOST_CLEAR (R346). -/
def execNoticeLostClear (p t : Nat) (ep : Bool) (s : State) : Res := hostRegWrite s p (t * 0x10000 + 0x1008) (2 ^ 20) ep

/-- ALERT_STATUS_CLEAR (R396, R505). -/
def execAlertStatusClear (p : Nat) (value : Word) (ep : Bool) (s : State) : Res := hostRegWrite s p 0x100020 value.toNat ep

/-- FORCE_FAILOVER (R389, R396, R505). -/
def execForceFailover (p : Nat) (value : Word) (ep : Bool) (s : State) : Res := hostRegWrite s p 0x100028 value.toNat ep

/-! ## What a port reports and sets (R500, R512) -/

/-- The identity registers of a port (R500). -/
structure PortIdentity where
  vendor : BitVec 16
  device : BitVec 16
  revision : Byte
  classCode : BitVec 24
  subsystemVendor : BitVec 16
  subsystem : BitVec 16
deriving DecidableEq, Repr

/-- The identity that port p reports: the stepping as Revision ID, and the port number in Subsystem ID (R500, R670). -/
def portIdentity (p : Nat) : PortIdentity where
  vendor := Config.vendorId
  device := 0x0070
  revision := 0xB0
  classCode := 0x120000
  subsystemVendor := Config.vendorId
  subsystem := BitVec.ofNat 16 (0x7000 + p)

/-- What a port's function supports (R499); rates in tenths of GT/s. -/
structure PortCapabilities where
  functions : Nat := 1
  rates : List Nat := [320, 160, 80, 50, 25]
  widths : List Nat := [16, 8, 4, 2, 1]
  maxPayload : List Nat := [128, 256, 512]
  maxReadCompleted : Nat := 4096
  msixVectors : Nat := 17
  interruptPin : Nat := 0
  aer : Bool := true
  ecrc : Bool := true
  tenBitTags : Bool := true
  d3hot : Bool := true
  dataLinkFeature : Bool := true
  laneMargining : Bool := true
  sriov : Bool := false
  pasid : Bool := false
  pri : Bool := false
  ats : Bool := false
  atomicOps : Bool := false
  msi : Bool := false
  functionLevelReset : Bool := false
  aspm : Bool := false
  resizableBar : Bool := false
deriving DecidableEq, Repr

/-- The capabilities of each of the four ports (R499). -/
def portCapabilities : PortCapabilities := {}

/-- Sizes of BAR0, BAR2 and BAR4 of each port (R501). -/
def barSizes : List Nat := [0x200000, 0x1000000000, 0x2000]

/-- What a configuration read gives at the dwords that hold the identity (R500; the offsets are PRESUMED from PCI Express, log 4); none at
other dwords, which no rule gives. -/
def configRead (p off : Nat) : Option Nat :=
  let i := portIdentity p
  match off with
  | 0x00 => some (i.vendor.toNat + 2 ^ 16 * i.device.toNat)
  | 0x08 => some (i.revision.toNat + 2 ^ 8 * i.classCode.toNat)
  | 0x2C => some (i.subsystemVendor.toNat + 2 ^ 16 * i.subsystem.toNat)
  | _ => none

/-- The engine's writes to a host (R512). -/
inductive HostWrite where
  | queryResult
  | noticeFirst
  | noticeRest
  | msixMessage
deriving DecidableEq, Repr

/-- The Relaxed Ordering attribute of an engine write on a port: set on QUERY result writes and on the first write of each notice when the
port enables it, and on no other (R512). -/
def writeRelaxed (s : State) (p : Nat) (w : HostWrite) : Bool :=
  (s.port p).relaxed && (match w with
    | .queryResult => true
    | .noticeFirst => true
    | .noticeRest => false
    | .msixMessage => false)

/-! ## MSI-X (R517, R518, R540) -/

/-- Send a pending vector once it is unmasked and the port can write (R508, R518). -/
def flushVector (s : State) (p v : Nat) : State :=
  let x := s.port p
  if x.msixEnable && x.msixPending.contains v && !msixMasked x v && portWritable x then
    let s := s.setPort p { x with msixPending := x.msixPending.filter (fun w => w ≠ v) }
    if rimTaken s p then s else s.emit (.msix p v)
  else s

/-- Send every pending vector that can be sent. -/
def flushVectors (s : State) (p : Nat) : State := (List.range 17).foldl (fun s v => flushVector s p v) s

/-- Write one byte of the MSI-X table. -/
def writeMsixByte (x : Port) (off : Nat) (b : Byte) : Port :=
  { x with msixTable := tset (msixDefault off) x.msixTable off b }

/-- Write one dword of BAR4 (R540): a dword of the table; of the vector control only the mask bit is kept (PCIe, log 4). -/
def writeBar4 (s : State) (p off v : Nat) : State :=
  if off < 17 * 16 then
    let w := if off % 16 = 12 then v % 2 else v
    let x := ((leBytes 4 w).zipIdx).foldl (fun (x : Port) e => writeMsixByte x (off + e.2) e.1) (s.port p)
    flushVector (s.setPort p x) p (off / 16)
  else s

/-- MSIX_UNMASK (R518). -/
def execMsixUnmask (p v : Nat) (s : State) : Res :=
  if portReached s p then .next (writeBar4 s p (16 * v + 12) 0) else .next s

/-- Apply a word write at each dword that the byte enables cover whole (R502). -/
def eachDword (f : State → Nat → Nat → State) (s : State) (off : Nat) (enables : List Bool) (data : List Byte) : State :=
  (List.range (data.length / 4)).foldl (fun s i =>
    if ((enables.drop (4 * i)).take 4).all id then f s (off + 4 * i) (leNat ((data.drop (4 * i)).take 4)) else s) s

/-- A write into BAR0 that is not a message: one into a live POST window is malformed (R349, R502). -/
def writeBar0 (s : State) (p off : Nat) (enables : List Bool) (data : List Byte) : State :=
  if off < 0x100000 ∧ off % 0x10000 < 0x1000 then
    if pageLive s p (off / 0x10000) then s.modTenant (off / 0x10000) (fun x => dropPost x false) else s
  else eachDword (fun s o v => writeReg s p o v) s off enables data

/-- REGISTER_WRITE (R21, R22, R345, R502, R505, R514, R540). -/
def execRegisterWrite (p : Nat) (space : RegSpace) (off : Nat) (ep : Bool) (enables : List Bool) (data : List Byte) (s : State) : Res :=
  if !portReached s p then .next s
  else
    match space with
    | .bar0 =>
      if ep then
        let s := logPoison s p true
        if off < 0x100000 ∧ off % 0x10000 < 0x1000 then .next (writeBar0 s p off enables data) else .next s
      else .next (writeBar0 s p off enables data)
    | .bar4 => if ep then .next (logPoison s p true) else .next (eachDword (fun s o v => writeBar4 s p o v) s off enables data)
    | .msixEnable => .next (flushVectors (s.setPort p { s.port p with msixEnable := bit (leNat data) 0 }) p)
    | .relaxedOrdering => .next (s.setPort p { s.port p with relaxed := bit (leNat data) 0 })

/-! ## Apertures (R504, R511, R514, R530, R534, R539) -/

/-- The DDR offset that a byte of BAR2 maps to, when it is mapped on the port now. -/
def apertureByte (s : State) (p a : Nat) : Option Nat :=
  let t := a / 2 ^ 32
  let x := s.tenant t
  if pageLive s p t && x.configuring.isNone && decide (t < 16) && decide (a % 2 ^ 32 < min x.granuleCount 4 * 2 ^ 30) then
    some (x.granuleFirst * 2 ^ 30 + a % 2 ^ 32)
  else none

/-- Write mapped bytes. -/
def writeMapped (s : State) (p off : Nat) : List Byte → State
  | [] => s
  | b :: rest =>
    let s := match apertureByte s p off with
      | some o => { s with mem := { s.mem with ddr := tset 0 s.mem.ddr o b } }
      | none => s
    writeMapped s p (off + 1) rest

/-- DDR offsets of the mapped bytes of a range. -/
def mappedBytes (s : State) (p off n : Nat) : List Nat := (List.range n).filterMap (fun i => apertureByte s p (off + i))

/-- The lines of a list of DDR offsets. -/
def linesIn (os : List Nat) : List Nat := (os.map (fun o => o / 64)).dedup

/-- A write covers a whole line. -/
def coversLine (os : List Nat) (l : Nat) : Bool := (List.range 64).all (fun i => os.contains (l * 64 + i))

/-- Clear the poison mark of the lines that a write covers whole (R530). -/
def clearMarks (s : State) (ls : List Nat) : State :=
  { s with mem := { s.mem with poisoned := s.mem.poisoned.filter (fun l => ¬ ls.contains l) } }

/-- DDR offsets of this wafer as bit ranges of global addresses. -/
def hostRanges (s : State) (os : List Nat) : List (Nat × Nat) := os.map (fun o => (gDdr s.sys.waferNumber o * 8, 8))

/-- What the merge of a partial write finds in its first partly covered line (R530). -/
def mergeFinding (s : State) (found : ScrubFinding) (ls : List Nat) : State :=
  match ls with
  | [] => s
  | l :: _ =>
    match found with
    | .clean => s
    | .corrected => countCorrection s (channelOfOffset s (l * 64))
    | .uncorrectable => poisonLine s l

/-- BAR2_WRITE (R511, R513, R514, R530, R539). -/
def execBar2Write (p off : Nat) (relaxed ep : Bool) (ecc : ScrubFinding) (data : List Byte) (s : State) : Res :=
  if !portReached s p then .next s
  else
    let os := mappedBytes s p off data.length
    let ls := linesIn os
    let s := logPoison s p ep
    let s := raceHost (writeMapped s p off data) p (off / 2 ^ 32) relaxed true (hostRanges s os)
    let s := clearMarks s (ls.filter (coversLine os))
    let s := mergeFinding s ecc (ls.filter (fun l => !coversLine os l))
    .next (if ep then ls.foldl poisonLine s else s)

/-- A byte of an aperture as the host reads it (R504, R539). -/
def apertureRead (s : State) (p a : Nat) : Byte :=
  match apertureByte s p a with
  | some o => tget 0 s.mem.ddr o
  | none => 0

/-- BAR2_READ (R511, R514, R539): the bytes as stored; EP when a line is poisoned or uncorrectable. -/
def execBar2Read (p off len : Nat) (ecc : Ecc) (s : State) : Res :=
  if !portReached s p then .next s
  else
    let os := mappedBytes s p off len
    let s := raceHost s p (off / 2 ^ 32) false false (hostRanges s os)
    let ls := linesIn os
    let fresh := match ecc with | .ddrLine l => ls.filter (fun x => x = l) | _ => []
    let ep := !fresh.isEmpty || ls.any (fun l => s.mem.poisoned.contains l)
    let data := (List.range len).map (fun i => apertureRead s p (off + i))
    let s := fresh.foldl poisonLine s
    let s := match ecc with | .corrected => mergeFinding s .corrected ls | _ => s
    .next (s.emit (.bar2Completion p ep data))

/-- UNSUPPORTED_REQUEST (R514). -/
def execUnsupportedRequest (p : Nat) (_what : BadRequest) (s : State) : Res :=
  if portReached s p then .next ((s.setPort p { s.port p with aerUnsupported := true }).emit (.unsupported p)) else .next s

/-! ## Port state -/

/-- The port's configuration space and MSI-X table at their PCIe defaults; pending alerts and sticky AER bits stay (R509, log 4). -/
def resetPort (x : Port) : Port :=
  { x with busMaster := false, d3hot := false, msixEnable := false, relaxed := false, msixTable := [] }

/-- Bind every tenant to a port (R503). -/
def bindAll (s : State) (p : Nat) : State :=
  (List.range 16).foldl (fun s t => s.modTenant t (fun x => { x with bound := true, hostPort := p })) s

/-- What is held for tenant t is written when its port is p (R508). -/
def resumeTenant (s : State) (p t : Nat) : State :=
  let x := s.tenant t
  if x.bound && decide (x.hostPort = p) then flushTenant s t else s

/-- Write what is held for a port (R508). -/
def resumePort (s : State) (p : Nat) : State :=
  flushVectors ((List.range 16).foldl (fun s t => resumeTenant s p t) s) p

/-- The link comes up: the tenants are bound when the engine is READY and none is (R503). -/
def linkComesUp (s : State) (p : Nat) : State :=
  let s := if (s.port p).linkUp then s else s.setPort p { resetPort (s.port p) with linkUp := true }
  let s := if decide (s.sys.state = 1) && !(s.tenant 0).bound then bindAll s p else s
  resumePort s p

/-- The port's rim has power. -/
def rimOn (s : State) (r : Nat) : Bool := poweredUp s && decide ((s.rim r).power = .good)

/-- PORT_LINK_UP (R503, R583, R648): with only receptacle 2p + 1 cabled the port does not train. -/
def execPortLinkUp (p : Nat) (receptacle0 : Bool) (s : State) : Res :=
  if rimOn s p && receptacle0 then .next (linkComesUp s p) else .next s

/-- PORT_LINK_DOWN (R508). -/
def execPortLinkDown (p : Nat) (cause : PortCause) (s : State) : Res :=
  let x := s.port p
  .next (s.setPort p (match cause with
    | .link => { x with linkUp := false }
    | .busMaster => { x with busMaster := false }
    | .d3hot => { x with d3hot := true }))

/-- PORT_RESUME (R508). -/
def execPortResume (p : Nat) (cause : PortCause) (s : State) : Res :=
  if !rimOn s p then .next s
  else
    match cause with
    | .link => .next (linkComesUp s p)
    | .busMaster => .next (resumePort (s.setPort p { s.port p with busMaster := (s.port p).linkUp }) p)
    | .d3hot => .next (resumePort (s.setPort p { s.port p with d3hot := false }) p)

/-- HOT_RESET (R509). -/
def execHotReset (p : Nat) (s : State) : Res := .next (s.setPort p (resetPort (s.port p)))

/-- PERST (R649). -/
def execPerst (receptacle : Nat) (s : State) : Res :=
  if receptacle % 2 = 0 then .next (s.setPort (receptacle / 2) (resetPort (s.port (receptacle / 2)))) else .next s

end Sys2Proof.Machine
end

