-- ==== Sys2Proof/Machine/Boot.lean ====
section
/-!
DEFINITION. Sys2Proof/Machine/Boot.lean: the steps of cold boot (R580 to R585), the start of a firmware copy (R588, R620), the restart
of R624, the power-down of R549, and what a store cut by a loss of power leaves (R626).
-/

namespace Sys2Proof.Machine

/-! ## Steps -/

/-- Step n of cold boot has ended (R580). -/
def stepDone (s : State) (n : Nat) : Bool := bit s.sys.stepEnded.toNat (n - 1)

/-- End step n; the next one begins now. -/
def endStep (s : State) (n : Nat) : State :=
  { s with sys := { s.sys with stepEnded := s.sys.stepEnded ||| (1#9 <<< (n - 1)), stepAt := s.nowUs } }

/-- The primary's firmware runs. -/
def firmwareRuns (s : State) : Bool :=
  poweredUp s && stepDone s 2 && !s.casing.hold && !s.sys.pumphouseDead && decide (s.sys.state ≠ 2)

/-- Step n of 3 to 9 is the one that runs: the steps before it have ended and it has not (R580). -/
def stepRuns (s : State) (n : Nat) : Bool :=
  firmwareRuns s && ((List.range n).drop 1).all (stepDone s) && !stepDone s n

/-! ## Answers of the management agent (R657, R658) -/

def State.agentSession (s : State) (i : Nat) : AgentSession := tget {} s.casing.sessions i
def State.setAgentSession (s : State) (i : Nat) (x : AgentSession) : State :=
  { s with casing := { s.casing with sessions := tset {} s.casing.sessions i x } }

/-- Answer a request (R657), behind the answers of the session that wait (R658). -/
def agentReply (s : State) (sess cmd : Nat) (tag : Word) (status : Nat) (payload : List Byte) : State :=
  let x := s.agentSession sess
  if x.answers.isEmpty then s.emit (.agent sess cmd tag status payload)
  else s.setAgentSession sess { x with answers := x.answers ++ [{ cmd := cmd, tag := tag.toNat, result := some (status, payload) }] }

/-- A request is answered later (R664). -/
def agentWait (s : State) (sess cmd : Nat) (tag : Word) : State :=
  let x := s.agentSession sess
  s.setAgentSession sess { x with answers := x.answers ++ [{ cmd := cmd, tag := tag.toNat }] }

/-- Give the first answer that waits for a request its result. -/
def fillAnswer (cmd tag : Nat) (r : Nat × List Byte) : List AgentAnswer → List AgentAnswer
  | [] => []
  | a :: rest => if a.cmd = cmd ∧ a.tag = tag ∧ a.result = none then { a with result := some r } :: rest else a :: fillAnswer cmd tag r rest

/-- Send the answers up to the first that has no result yet. -/
def sendAnswers (s : State) (sess : Nat) : List AgentAnswer → State
  | [] => s.setAgentSession sess { s.agentSession sess with answers := [] }
  | a :: rest =>
    match a.result with
    | some r => sendAnswers (s.emit (.agent sess a.cmd (BitVec.ofNat 32 a.tag) r.1 r.2)) sess rest
    | none => s.setAgentSession sess { s.agentSession sess with answers := a :: rest }

/-- A request that had to wait is answered, and the answers behind it go out (R658); a session that has closed hears nothing. -/
def agentDone (s : State) (sess cmd tag status : Nat) (payload : List Byte) : State :=
  sendAnswers s sess (fillAnswer cmd tag (status, payload) (s.agentSession sess).answers)

/-! ## STOPPED -/

/-- A fabric configuration record that waits for its store is not stored any more: the agent answers BUSY (R664, log 49). -/
def dropRecords (s : State) : State :=
  let s := s.sys.stores.foldl (fun s st => match st with
    | .fabricConfig sess tag _ => agentDone s sess 0x05 tag 4 []
    | .ledger => s
    | .requalify => s
    | .firmware _ _ => s
    | .generationErase _ => s) s
  { s with sys := { s.sys with stores := s.sys.stores.filter (fun st => match st with
      | .fabricConfig _ _ _ => false
      | .ledger => true
      | .requalify => true
      | .firmware _ _ => true
      | .generationErase _ => true) } }

/-- The engine enters STOPPED (R395, R582, R662). -/
def enterStopped (s : State) : State :=
  dropRecords (raiseAlert { s with sys := { s.sys with state := 2 } } alStopped)

/-! ## Losses of power -/

/-- What the store at the head of the queue leaves when power is lost (R626): it had not begun, it was cut before its copy was whole, or
it was cut while COMMIT was programmed, whose bits may then be programmed or not. The copy of a REQUALIFY is never selected then, and
that of an FW_STAGE has no COMMIT yet. -/
def cutStore (s : State) : State :=
  let n := Config.freeNat s.freeCtr
  let s := s.stepFree 1
  let cutCopy (a : Area) (bs : List Byte) (seq : Nat) (commits mayWhole : Bool) : State :=
    if n % 3 = 0 then s
    else if n % 3 = 1 then { abandonStore s a with sys := s.sys }
    else
      let s := writeCopy s a bs seq
      let word := (leBytes 4 commitWord).zipWith (fun x y => x ||| y) (freeBytes s 4)
      if commits && (mayWhole || decide (leNat word ≠ commitWord)) then (flashProgram s (a.page + 8) word).stepFree 4
      else s
  match s.sys.stores with
  | [] => s
  | .ledger :: _ =>
    let tgt := ledgerTarget s
    cutCopy (ledgerArea tgt.1) (ledgerBytes s (s.silicon.recorded.map (stampEntry tgt.2))) tgt.2 true true
  | .requalify :: _ =>
    let tgt := ledgerTarget s
    cutCopy (ledgerArea tgt.1) (ledgerBytes s (s.silicon.recorded.map (stampEntry tgt.2))) tgt.2 true false
  | .firmware _ image :: _ =>
    let i := 1 - s.sys.runningCopy
    cutCopy (firmwareArea i) image (match newerFirmware s with | some j => firmwareSeq s j + 1 | none => 1) false false
  | .fabricConfig _ _ record :: _ =>
    if n % 2 = 0 then s else flashProgram (flashErase s 0x18000 0x1000) 0x18000 (record.take (n / 2 % 32))
  | .generationErase k :: _ => flashErase s (slotAt k 0) (8 * (n % 513))

/-- The power-down of R549: no engine state survives. What does is the Casing's standby domain (R643), flash, EEPROM, the host's own
memory, and the modules in the cages. Control registers of the engine's PMBus target return to their defaults. -/
def powerDown (s : State) : State :=
  let s := dropRecords (if s.casing.powered then cutStore s else s)
  { State.reset with
    pending := s.pending, nowUs := s.nowUs, freeCtr := s.freeCtr, out := s.out
    casing := { s.casing with
      powered := false, powerGood := false, upAt := 0, iLimit := 450, ilimitCeiling := 64, lastFall := 0, belowSince := none
      lastIlimitRise := 0, policyCeiling := 44, selectedField := 0, telePage := 0, teleLatch := [] }
    fabric := { cages := s.fabric.cages.map (fun e => (e.1, { e.2 with lowPower := true })) }
    mem := { flash := s.mem.flash, eeprom := s.mem.eeprom, host := s.mem.host } }

/-! ## Starting -/

/-- Number of rim and field converters in power-up order: 0 to 3 the rims North, South, East and West, then the fields by the position of
R546. -/
def orderTable : List Nat :=
  [64, 65, 66, 67, 68, 69, 70, 43, 42, 41, 40, 39, 38, 37, 44, 21, 20, 19, 18, 17, 36, 45, 22, 7, 6, 5, 16, 35]
    ++ [46, 23, 8, 1, 4, 15, 34, 47, 24, 9, 2, 3, 14, 33, 48, 25, 10, 11, 12, 13, 32, 49, 26, 27, 28, 29, 30, 31]
    ++ [50, 51, 52, 53, 54, 55, 56, 63, 62, 61, 60, 59, 58, 57]

/-- Position k of a field in the order of R546. -/
def fieldPosition (f : Nat) : Nat := orderTable.getD f 0

/-- The field at position k of the order. -/
def fieldAt (k : Nat) : Nat := orderTable.findIdx (fun x => x = k)

/-- Start time of the converter at place pos (0 to 3 rims, 4 to 73 fields), in µs from 42 V (R545). -/
def startTime (pos : Nat) : Nat := if pos < 4 then 3000 * pos else 12000 + 4000 * (pos - 4)

/-- Power state of the converter at place pos. -/
def converter (s : State) (pos : Nat) : Power := if pos < 4 then (s.rim pos).power else (s.field (fieldAt (pos - 3))).power

/-- Set it. -/
def setConverter (s : State) (pos : Nat) (x : Power) : State :=
  if pos < 4 then s.setRim pos { s.rim pos with power := x } else s.modField (fieldAt (pos - 3)) (fun f => { f with power := x })

/-- Step 2 of cold boot begins: the ROM lists the copies it will try (R580, R620). -/
def beginStep2 (s : State) : State :=
  if s.sys.romStartedAt.isSome then s
  else { s with sys := { s.sys with romStartedAt := some s.nowUs, romTries := bootable s } }

/-- Power-on (R545, R643): the converters start in their order. With HOLD in effect the Pumphouses stay in reset and STATE is STOPPED. -/
def powerUp (s : State) : State :=
  let s := { s with
    casing := { s.casing with powered := true, powerGood := false, upAt := s.nowUs }
    sys := { s.sys with serial := eepromSerial s } }
  let s := (List.range 74).foldl (fun s pos => setConverter s pos .ramping) s
  if s.casing.hold then enterStopped s else s

/-- Power on when the three conditions of R643 hold, the bank is above 42 V (R641) and no overvoltage shutdown is waiting (R639). -/
def tryPowerUp (s : State) : State :=
  let c := s.casing
  if !c.powered && c.standby && c.enablePin && !c.powerOffLatch && c.bankAbove && !c.overvoltageOff then powerUp s else s

/-- Power down when powered. -/
def tryPowerDown (s : State) : State := if s.casing.powered then powerDown s else s

/-- A cluster after its compute domain is reset: its thermal sensor and AVFS loop run on (R550, R624). -/
def clusterRestarted (now : Nat) (c : Cluster) : Cluster := { avfs := { c.avfs with wear := false }, idleSince := now }

/-- A field after a restart: its power and its shutdown stay, the firmware's FIELD resets go (R624, log 46). -/
def fieldRestarted (x : Field) : Field :=
  { x with resetSeqs := [], liftAt := none, fenced := decide (x.state = .shutdown ∨ x.state = .vpmFault), throttleEvents := 0 }

/-- The fabric side after a restart: links and modules stay, discovery begins again (R624, log 46). -/
def fabricRestarted (x : Fabric) : Fabric := { links := x.links, cages := x.cages }

/-- The restart of R624: cold boot from step 2. All firmware state is lost. The host ports, the rims, DDR contents, the alert registers
and the ceilings stay (log 46). -/
def restart (s : State) : State :=
  let s := { s with
    sys := { serial := s.sys.serial, alertStatus := s.sys.alertStatus, alertEnable := s.sys.alertEnable
             stepEnded := s.sys.stepEnded &&& 1 }
    silicon := {}
    fields := (List.range 70).foldl (fun fs i => tset {} fs i (fieldRestarted (tget {} fs i))) s.fields
    channels := []
    tenants := []
    work := {}
    clusters := (List.range 1680).foldl (fun cs k => tset {} cs k (clusterRestarted s.nowUs (tget {} cs k))) s.clusters
    fabric := fabricRestarted s.fabric
    mem := { s.mem with cistern := [] }
    mirror := {} }
  beginStep2 s

/-! ## Step 2 (R586 to R588, R620) -/

/-- Step 2 runs: it has begun, the Pumphouses are not held, and nothing has started yet. -/
def step2Runs (s : State) : Bool :=
  poweredUp s && s.sys.romStartedAt.isSome && !stepDone s 2 && !s.casing.hold && decide (s.sys.state = 0)

/-- The fabric configuration record as stored (R496). -/
def fabricRecord (s : State) : List Byte := flashRead s 0x18000 32

/-- The record is present, its CRC matches and every value is in range (R496, R497). -/
def recordOk (bs : List Byte) : Bool :=
  let u (o n : Nat) : Nat := leNat ((bs.drop o).take n)
  decide (bs.length = 32) && decide (u 0 4 = 0x42465756) && decide (u 4 4 < 2 ^ 24) && decide (1 ≤ u 8 1 ∧ u 8 1 ≤ 128)
    && decide (1 ≤ u 9 1 ∧ u 9 1 ≤ 128) && decide (100 ≤ u 0x0A 2 ∧ u 0x0A 2 ≤ 4000) && decide (5 ≤ u 0x0C 2 ∧ u 0x0C 2 ≤ 500)
    && decide (u 0x0E 2 = 0) && decide (u 0x14 12 = 0) && decide ((crc32 (zeroAt bs 0x10)).toNat = u 0x10 4)

/-- Take the record, or the defaults as a whole with FABRIC set (R497). -/
def loadRecord (s : State) : State :=
  let bs := fabricRecord s
  let u (o n : Nat) : Nat := leNat ((bs.drop o).take n)
  if recordOk bs then
    { s with fabric := { s.fabric with
        linkEnable := BitVec.ofNat 24 (u 4 4), maxWafers := u 8 1, minWafers := u 9 1, window := u 0x0A 2, settle := u 0x0C 2 } }
  else
    raiseAlert { s with fabric := { s.fabric with linkEnable := 0xFFFFFF, maxWafers := 128, minWafers := 1, window := 1000, settle := 20 } }
      alFabric

/-- What the primary reads within step 2: the EEPROM, the fabric record and the ledgers (R588, R612, R666). -/
def readStores (s : State) : State :=
  let sel := selectLedger s
  let es := if sel = 0 then [] else ledgerEntries (areaContent s (ledgerArea sel))
  let s := { s with
    sys := { s.sys with
      selected := sel, ledgerSequence := if sel = 0 then 0 else ledgerSeq s sel, ledgerLost := decide (sel = 0) }
    silicon := { s.silicon with live := { s.silicon.live with stored := es } } }
  loadRecord (if eepromOk s then s else raiseAlert s alFabric)

/-- The copy at the head of the ROM's list starts and reports so: step 2 ends. The primary is North, or South when North has no power; a
standby exists when the other rim has power (R548, R588). -/
def startCopy (s : State) (i : Nat) : State :=
  let content := firmwareContent s i
  let south := decide ((s.rim 0).power ≠ .good)
  let alone := south || decide ((s.rim 1).power ≠ .good)
  let s := { s with sys := { s.sys with
    runningCopy := i, fallback := decide (newerFirmware s ≠ some i), fwSequence := firmwareSeq s i
    wellhead := BitVec.ofNat 16 (firmwareWellhead content), primarySouth := south, noStandby := alone, lastBeat := s.nowUs } }
  let s := if alone then raiseAlert s alNoStandby else s
  readStores (endStep s 2)

/-- PUMPHOUSE_BOOT (R588, R612, R620, R666): the first copy of the ROM's list that passes its checks starts; when none is left the engine is
STOPPED (R582). -/
def execPumphouseBoot (s : State) : Res :=
  if step2Runs s then
    match s.sys.romTries with
    | [] => .next (enterStopped s)
    | i :: _ => .next (startCopy s i)
  else .next s

/-- FIRMWARE_START_TIMEOUT (R582, R620): after 50 ms the copy is abandoned and the next one is tried, or the engine is STOPPED. -/
def execFirmwareStartTimeout (s : State) : Res :=
  match s.sys.romStartedAt with
  | none => .next s
  | some t0 =>
    if step2Runs s && decide (t0 + 50000 ≤ s.nowUs) then
      let s := { s with sys := { s.sys with romTries := s.sys.romTries.drop 1, romStartedAt := some s.nowUs } }
      if s.sys.romTries.isEmpty then .next (enterStopped s) else .next s
    else .next s

/-! ## READY (R503, R585) -/

/-- Step 9 ends and STATE becomes READY: the tenants are bound to the lowest port that is up, and the sector of the generation log that is
not in use is erased when it needs it (R585, R503, R611). -/
def bootReady (s : State) : State :=
  let s := endStep s 9
  let s := { s with sys := { s.sys with state := 1, lastBeat := s.nowUs } }
  let s := match lowestUp s with
    | some p => bindAll s p
    | none => s
  requestSectorErase s

end Sys2Proof.Machine
end

