-- ==== Sys2Proof/Machine/Bringup.lean ====
section
/-!
DEFINITION. Sys2Proof/Machine/Bringup.lean: steps 3 to 8 of cold boot (R555, R589 to R603, R611 to R615, R674) and REQUALIFY (R616, R617).
-/

namespace Sys2Proof.Machine

/-! ## Step 3: the reference tree (R555) -/

def State.phys (s : State) (q : Nat) : Phys := tget {} s.silicon.phys q
def State.setPhys (s : State) (q : Nat) (x : Phys) : State :=
  { s with silicon := { s.silicon with phys := tset {} s.silicon.phys q x } }

/-- Field of a physical cluster. -/
def physField (q : Nat) : Nat := q % 35 / 5 + 7 * (q / 35 / 6)

/-- The cluster's field has power (R548). -/
def physPowered (s : State) (q : Nat) : Bool := decide ((s.field (physField q)).power = .good)

/-- Physical neighbours (R33). -/
def physNeighbour (a b : Nat) : Bool :=
  (decide (a / 35 = b / 35) && decide (a + 1 = b ∨ b + 1 = a)) || decide (a + 35 = b ∨ b + 35 = a)

/-- The rims whose RIM links reach a cluster in flood state: North and South on columns i ≤ 3, West at x = 0, East at x = 34 (R589). -/
def rimsAt (q : Nat) : List Nat :=
  (if q / 35 = 0 ∧ q % 5 ≤ 3 then [0] else []) ++ (if q / 35 = 59 ∧ q % 35 % 5 ≤ 3 then [1] else [])
    ++ (if q % 35 = 34 then [2] else []) ++ (if q % 35 = 0 then [3] else [])

/-- Depth of what a reference comes from, when it is locked there: a rim root is at depth 0 (R555). -/
def sourceDepth (s : State) (q : Nat) : RefSource → Option Nat
  | .rim => if (rimsAt q).any (fun r => decide ((s.rim r).power = .good)) then some 0 else none
  | .cluster p =>
    if physNeighbour p q && (s.phys p).locked && !(s.phys p).holdover then some (s.phys p).depth else none

/-- Every cluster has locked. -/
def allLocked (s : State) : Bool := (List.range 2100).all (fun q => (s.phys q).locked)

/-- The physical neighbour of a cluster in a direction: 0 north, 1 east, 2 south, 3 west (R33). -/
def facing (q d : Nat) : Option Nat :=
  match d with
  | 0 => if 35 ≤ q then some (q - 35) else none
  | 1 => if q % 35 < 34 then some (q + 1) else none
  | 2 => if q + 35 < 2100 then some (q + 35) else none
  | _ => if 0 < q % 35 then some (q - 1) else none

/-- Send claims (R590). -/
def sendClaims (s : State) (cs : List (Nat × Int × Int)) : State :=
  { s with out := cs.map (fun c => Output.claim c.1 c.2.1 c.2.2) ++ s.out }

/-- The claims that a cluster with a coordinate sends its neighbours (R590). -/
def claimsFrom (q : Nat) (x y : Int) : List (Nat × Int × Int) :=
  [(0, x, y - 1), (1, x + 1, y), (2, x, y + 1), (3, x - 1, y)].filterMap (fun (c : Nat × Int × Int) =>
    (facing q c.1).map (fun n => (n, c.2)))

/-- Step 3 ends, and step 4 begins with the claims of the West rim, when it has power: (0, y) to the cluster on its port for row y (R590). -/
def beginFlood (s : State) : State :=
  let s := if (s.rim 3).power = .good then sendClaims s ((List.range 60).map (fun y => (physIdx 0 y, 0, (y : Int)))) else s
  endStep s 3

/-- REFERENCE_LOCK (R555): a cluster without a parent adopts the source, unless that is at depth 40. -/
def execReferenceLock (q : Nat) (src : RefSource) (s : State) : Res :=
  match sourceDepth s q src with
  | none => .next s
  | some d =>
    if stepRuns s 3 && physPowered s q && !(s.phys q).locked && decide (d < 40) then
      let s := s.setPhys q { s.phys q with locked := true, parent := some src, depth := d + 1 }
      .next (if allLocked s then beginFlood s else s)
    else .next s

/-- REFERENCE_LOCK_TIMEOUT (R580): step 3 ends after 5 ms. -/
def execReferenceLockTimeout (s : State) : Res :=
  if stepRuns s 3 && decide (s.sys.stepAt + 5000 ≤ s.nowUs) then .next (beginFlood s) else .next s

/-! ## Step 4: the coordinate flood (R590, R591) -/

/-- Take a claim: the first is adopted, a later one that differs is a conflict (R590, R591). -/
def takeClaim (x : Phys) (c : Int × Int) : Phys :=
  match x.coord with
  | none => { x with coord := some c }
  | some d => if d = c then x else { x with conflict := true }

/-- Every cluster that holds a locked reference has a coordinate. -/
def allClaimed (s : State) : Bool := (List.range 2100).all (fun q => !(s.phys q).locked || (s.phys q).coord.isSome)

/-- A cluster is a transient hole (R591). -/
def isTransient (x : Phys) : Bool := !x.locked || x.coord.isNone || x.conflict

/-- Step 4 ends: the transient holes are known (R591). -/
def endFlood (s : State) : State :=
  let ts := (List.range 2100).filter (fun q => isTransient (s.phys q))
  endStep { s with silicon := { s.silicon with
    live := { s.silicon.live with transient := ts }, round := 0, reports := [] } } 4

/-- COORDINATE_CLAIM (R590, R591): the claim that gives a cluster its coordinate goes on to its neighbours. Step 4 ends with the flood once
every cluster has reported; a claim that comes after that is not one of the flood. -/
def execCoordinateClaim (q : Nat) (x y : Int) (s : State) : Res :=
  if stepRuns s 4 && (s.phys q).locked then
    let s := if (s.phys q).coord.isNone then sendClaims s (claimsFrom q x y) else s
    .next (s.setPhys q (takeClaim (s.phys q) (x, y)))
  else .next s

/-- FLOOD_TIMEOUT (R591): step 4 ends when every cluster has reported, or after 2 ms. -/
def execFloodTimeout (s : State) : Res :=
  if stepRuns s 4 && (allClaimed s || decide (s.sys.stepAt + 2000 ≤ s.nowUs)) then .next (endFlood s) else .next s

/-! ## Step 5: the neighbour test (R592 to R599) -/

/-- Rounds of step 5: four, or eight when each runs twice (R592, R616). -/
def roundCount (s : State) : Nat := if s.sys.requalify.isSome then 8 else 4

/-- Direction of the running round: 0 north, 1 east, 2 south, 3 west (R592). -/
def roundDirection (s : State) : Nat := if s.sys.requalify.isSome then s.silicon.round / 2 else s.silicon.round

/-- The rim whose test engine faces a direction: South faces north, West faces east, North faces south, East faces west. -/
def rimFacing (d : Nat) : Nat := match d with | 0 => 1 | 1 => 3 | 2 => 0 | _ => 2

/-- A report of the running round comes from a tester that faces its target; neither is a transient hole (R591, R592). -/
def reportFits (s : State) (r : TestReport) : Bool :=
  let holes := s.silicon.live.transient
  let d := roundDirection s
  !holes.contains r.target && decide (r.target < 2100) &&
    (match r.tester with
     | some q => !holes.contains q && decide (facing q d = some r.target)
     | none => (rimsAt r.target).contains (rimFacing d))

/-- Two reports of one tester on one cluster. -/
def sameTest (a b : TestReport) : Bool := decide (a.target = b.target) && decide (a.tester = b.tester)

/-- Keep the first of the reports of each tester on each cluster. -/
def firstReports (rs : List TestReport) : List TestReport :=
  rs.foldl (fun acc r => if acc.any (sameTest r) then acc else acc ++ [r]) []

/-- The report of a test that ran twice: PASS only where both runs pass (R616). -/
def bothRuns (a b : TestReport) : TestReport :=
  { a with
    router := a.router && b.router
    arrayStep := match a.arrayStep, b.arrayStep with | some x, some y => some (min x y) | _, _ => none
    cistern := a.cistern && b.cistern
    others := a.others && b.others
    aging := max a.aging b.aging
    paths := a.paths.filterMap (fun p => (b.paths.find? (fun z => z.1 = p.1)).map (fun z => (p.1, p.2 && z.2))) }

/-- Pair the two runs of each test; a test that reported once does not count (R595, log 47). -/
def pairRuns : List TestReport → List TestReport
  | [] => []
  | r :: rest =>
    match rest.find? (sameTest r) with
    | some q => bothRuns r q :: pairRuns rest
    | none => pairRuns rest

inductive TestVerdict where
  | good
  | defective
  | undecided
deriving DecidableEq, Repr

/-- R595. -/
def verdictOf (passes fails : Nat) : TestVerdict :=
  if 2 ≤ passes ∧ fails < passes then .good else if 2 ≤ fails ∧ passes < fails then .defective else .undecided

/-- COMPUTE of a report (R593). -/
def computePass (r : TestReport) : Bool := r.arrayStep.isSome && r.cistern && r.others

/-- ROUTER verdict from a list of reports. -/
def routerVerdict (rs : List TestReport) (q : Nat) : TestVerdict :=
  let mine := rs.filter (fun r => r.target = q)
  verdictOf (mine.countP (fun r => r.router)) (mine.countP (fun r => !r.router))

/-- COMPUTE verdict. -/
def computeVerdict (rs : List TestReport) (q : Nat) : TestVerdict :=
  let mine := rs.filter (fun r => r.target = q)
  verdictOf (mine.countP computePass) (mine.countP (fun r => !computePass r))

/-- The far end of a path, when it is a cluster (R674). -/
def farEnd (key : Nat) : Option Nat :=
  let q := entryPhys key
  match entryPath key with
  | 0 => some (q + 1)
  | 1 => some (q + 35)
  | 2 => some (q + 34)
  | 3 => some (q + 36)
  | 4 => some (q + 2)
  | 5 => none
  | 6 => some (q + 2)
  | _ => some (q + 3)

/-- A tester is at an end of a path: one of its two clusters, or the rim of a rim path (R674). -/
def endsPath (key : Nat) : Option Nat → Bool
  | none => entryPath key = 5
  | some q => q = entryPhys key || decide (farEnd key = some q)

/-- The reports on a path, one for each of its testers. -/
def pathReports (rs : List TestReport) (key : Nat) : List (Option Nat × Bool) :=
  rs.foldl (fun acc r =>
    if endsPath key r.tester && !(acc.any (fun (e : Option Nat × Bool) => e.1 = r.tester)) then
      match r.paths.find? (fun p => p.1 = key) with
      | some p => acc ++ [(r.tester, p.2)]
      | none => acc
    else acc) []

/-- PATH verdict. -/
def pathVerdict (rs : List TestReport) (key : Nat) : TestVerdict :=
  let es := pathReports rs key
  verdictOf (es.countP (fun e => e.2)) (es.countP (fun e => !e.2))

/-- Every path of R674, by its ledger key (R633). -/
def allPaths : List Nat :=
  (List.range 2100).flatMap (fun q => (List.range 8).flatMap (fun p => (List.range 4).flatMap (fun r => (List.range 2).filterMap (fun o =>
    if pathExists p r o (q % 35) (q / 35) then some (pathKey p r o (q % 35) (q / 35)) else none))))

/-- The reports that count in the second count: those of testers whose own router is DEFECTIVE go (R596). -/
def secondCount (rs : List TestReport) : List TestReport :=
  rs.filter (fun r => match r.tester with
    | none => true
    | some q => decide (routerVerdict rs q ≠ .defective))

/-- The lowest of the highest passing steps of the counted reports whose COMPUTE is PASS (R599). -/
def fmaxFrom (rs : List TestReport) (q : Nat) : Nat :=
  ((rs.filter (fun r => decide (r.target = q) && computePass r)).filterMap (fun r => r.arrayStep)).foldl min 64

/-- The reading D of a cluster: the highest that a counted report gives (log 47). -/
def agingFrom (rs : List TestReport) (q : Nat) : Nat :=
  ((rs.filter (fun r => r.target = q)).map (fun r => r.aging)).foldl max 0

/-- The live ledger from the reports that count and the stored entries that apply (R597 to R600). -/
def liveFrom (s : State) (stored : List LedgerEntry) (rs : List TestReport) : Live :=
  let qs := (List.range 2100).filter (fun q => !s.silicon.live.transient.contains q)
  let routers := qs.map (fun q => (q, routerVerdict rs q))
  let computes := qs.map (fun q => (q, computeVerdict rs q))
  let paths := allPaths.map (fun k => (k, pathVerdict rs k))
  let only (v : TestVerdict) (l : List (Nat × TestVerdict)) : List Nat :=
    (l.filter (fun (e : Nat × TestVerdict) => e.2 = v)).map (fun e => e.1)
  { stored := stored
    routerGood := only .good routers
    computeGood := only .good computes
    pathGood := only .good paths
    defective := ((only .defective routers).map (fun q => fieldEntry (entryWord 2 q)))
      ++ ((only .defective computes).map (fun q => fieldEntry (entryWord 1 q))) ++ ((only .defective paths).map fieldEntry)
    transient := s.silicon.live.transient
    fmax := (only .good computes).foldl (fun m q => tset 0 m q (fmaxFrom rs q)) []
    depth := qs.foldl (fun m q => tset 0 m q (s.phys q).depth) []
    undecided := (only .undecided routers).length + (only .undecided computes).length + (only .undecided paths).length
    mapped := true }

/-- Clusters with a WEAR entry in a ledger. -/
def wearEntries (es : List LedgerEntry) : List Nat := (es.filter (fun e => entryKind e.word0 = 4)).map (fun e => entryPhys e.word0)

/-- Clusters that measure D of at least a threshold, in 0.1 %. -/
def wornFrom (s : State) (rs : List TestReport) (d : Nat) : List Nat :=
  (List.range 2100).filter (fun q => !s.silicon.live.transient.contains q && decide (d ≤ agingFrom rs q))

/-- A logical cluster as bring-up leaves it: dormant, at the lowest of its ceilings (R547, R559). -/
def clusterFresh (c : Cluster) (d : Nat) : Cluster :=
  { avfs := { c.avfs with settled := [], trim := 0, refLost := false, sleepStep := 64, agingD := d } }

/-- Every logical cluster after bring-up, with the D measured for it and its step. -/
def freshClusters (s : State) (rs : List TestReport) : State :=
  (List.range 1680).foldl (fun s k =>
    let s := s.modCluster k (fun c => { clusterFresh c (agingFrom rs (physOf s k)) with idleSince := s.nowUs })
    s.modCluster k (fun c => { c with avfs := { c.avfs with
      step := if usable s k then clusterCeiling s k else 0, wear := s.silicon.wear.contains (physOf s k) } })) s

/-- Step 8: the counts of the global page (R603, R26). -/
def writeCounts (s : State) : State :=
  let n := usableTotal s.silicon.live
  { s with sys := { s.sys with usableCount := n, holeCount := 1680 - n, belowGuarantee := decide (n < 1600) } }

/-- Step 8: each cluster is given its logical coordinate, and its router the routes (R51, R603). -/
def writeIdentity (s : State) : State :=
  let l := s.silicon.live
  writeRoutes { s with silicon := { s.silicon with
    phys := s.silicon.phys.map (fun e =>
      (e.1, { e.2 with logical := (logicalX l (e.1 % 35) (e.1 / 35)).map (fun x => e.1 / 35 * 28 + x) })) } }

/-- Step 8: the live ledger, and with it the table, is mirrored to the standby (R603, R388). -/
def mirrorLive (s : State) : State :=
  if s.sys.noStandby then s else { s with mirror := { s.mirror with live := s.silicon.live } }

/-- The reports of step 5 as they count (R596, R616). -/
def finalReports (s : State) : List TestReport :=
  secondCount (if s.sys.requalify.isSome then pairRuns s.silicon.reports else s.silicon.reports)

/-- Steps 5 to 8 end in a cold boot (R597 to R603, R611, R613), and step 9 begins (R465). -/
def finishBringup (s : State) (slotFails : Nat) : State :=
  let rs := finalReports s
  let live := liveFrom s s.silicon.live.stored rs
  let wear := (wearEntries live.stored ++ wornFrom s rs 30).dedup
  let s := { s with silicon := { s.silicon with
    live := live, wear := wear, reports := [], round := 0, recorded := recordLedger live.stored live.defective wear } }
  let s := requestLedger (recordGeneration s slotFails) .ledger
  let s := mirrorLive (writeCounts (writeIdentity (freshClusters s rs)))
  beginDiscovery (endStep (endStep (endStep (endStep s 5) 6) 7) 8)

/-- The factory ledger's entries, when it is valid (R616). -/
def factoryEntries (s : State) : List LedgerEntry :=
  if ledgerValid s 3 then ledgerEntries (areaContent s (ledgerArea 3)) else []

/-- The retest of a REQUALIFY ends (R616 steps 2 to 4): WEAR entries stay for clusters that still measure 2.0 %, and come for those that
measure 3.0 %. -/
def finishRetest (s : State) (slotFails : Nat) : State :=
  let rs := finalReports s
  let base := factoryEntries s
  let live := liveFrom s base rs
  let kept := (s.silicon.recorded.filter (fun e => entryKind e.word0 = 4 && (wornFrom s rs 20).contains (entryPhys e.word0)))
  let recorded := recordLedger (kept.foldl addEntry base) live.defective (wornFrom s rs 30)
  let s := { s with
    silicon := { s.silicon with live := live, wear := wearEntries recorded, reports := [], round := 0, recorded := recorded }
    sys := { s.sys with requalTested := true, ledgerSequence := 0, selected := if ledgerValid s 3 then 3 else 0 } }
  let s := recordGeneration s slotFails
  let s := { requestLedger s .requalify with sys := { (requestLedger s .requalify).sys with
    requalStored := decide (s.silicon.recorded.length ≤ 4000) } }
  let s := mirrorLive (writeCounts (writeIdentity (freshClusters s rs)))
  endStep (endStep (endStep (endStep s 5) 6) 7) 8

/-- R594: the first tester to reach a cistern assigns its spare rows; the assignment then stays. -/
def assignSpares (m : Tab (Option (List (Nat × Nat)))) (r : TestReport) : Tab (Option (List (Nat × Nat))) :=
  if (tget none m r.target).isSome then m else tset none m r.target (some r.spares)

/-- NEIGHBOUR_TEST_ROUND (R592 to R603, R611, R613, R616). -/
def execNeighbourTestRound (reports : List TestReport) (slotFails : Nat) (s : State) : Res :=
  if stepRuns s 5 then
    let rs := firstReports (reports.filter (reportFits s))
    let s := { s with silicon := { s.silicon with
      reports := s.silicon.reports ++ rs, round := s.silicon.round + 1, spares := rs.foldl assignSpares s.silicon.spares } }
    if s.silicon.round < roundCount s then .next s
    else if s.sys.requalify.isSome then .next (finishRetest s slotFails)
    else .next (finishBringup s slotFails)
  else .next s

/-! ## REQUALIFY (R616, R617) -/

/-- No tenant holds a plan or a clause in flight (R365). -/
def drained (s : State) : Bool :=
  s.work.flights.isEmpty && (List.range 16).all (fun t => (s.tenant t).plan.isNone)

/-- A cluster when REQUALIFY starts: accumulators and LUT slots are zeroed (R617). -/
def clusterRetest (now : Nat) (c : Cluster) : Cluster :=
  { avfs := c.avfs, idleSince := now, bells := c.bells.map (fun b => { b with slots := 0 }) }

/-- Steps 3 to 8 run again, every field fenced, every cistern zeroed (R616, R617). -/
def startRetest (s : State) (seq : Nat) : State :=
  let s := (List.range 70).foldl (fun s f => s.modField f (fun x => { x with fenced := true })) s
  let s := (List.range 1680).foldl (fun s k => s.modCluster k (clusterRetest s.nowUs)) s
  { s with
    mem := { s.mem with cistern := [] }
    silicon := { s.silicon with phys := [], round := 0, reports := [], routers := [], spares := [] }
    sys := { s.sys with requalify := some seq, requalTested := false, requalStored := false
                        stepEnded := s.sys.stepEnded &&& 0x103, stepAt := s.nowUs } }

/-- REQUALIFY's effect (R365, R616). -/
def beginRequalify (s : State) (seq : Nat) : State :=
  if drained s then startRetest s seq else replyRejected s 0 seq 0x0E rBusy

/-- A REQUALIFY comes to its turn: it is BUSY at once, or waits for an earlier one (R357, R365). -/
def requalify (s : State) (m : List Word) : State :=
  if s.sys.requalify.isSome && drained s then { s with sys := { s.sys with requalifyQueue := s.sys.requalifyQueue ++ [mSeq m] } }
  else beginRequalify s (mSeq m)

/-- REQUALIFY. -/
def execRequalify (t : Nat) (s : State) : Res := onMessage s t 0x0E (adminOnly t (cleanOnly t [] requalify))

/-- Lift the fence of every field that is not shut down (R616); one with a FIELD reset in progress stays fenced (R434). Routes open with
it. -/
def liftFences (s : State) : State :=
  writeRoutes ((List.range 70).foldl (fun s f => s.modField f (fun x =>
    if x.state = .running ∧ x.resetSeqs.isEmpty then { x with fenced := false } else x)) s)

end Sys2Proof.Machine
end

