-- ==== Sys2Proof/Machine/Firmware.lean ====
section
/-!
DEFINITION. Sys2Proof/Machine/Firmware.lean: the stores of the flash (R607 to R611, R675) and the firmware messages with the engine's
reads of host memory (R514, R515, R622 to R624).
-/

namespace Sys2Proof.Machine

/-! ## FW_ACTIVATE (R365, R623, R624) -/

/-- Program the COMMIT of a STAGED copy (R623). -/
def commitStaged (s : State) (i : Nat) : State := commitCopy s (firmwareArea i)

/-- Revoke a copy: its COMMIT becomes zero (R606, R623). -/
def revokeCopy (s : State) (i : Nat) : State := flashProgram s ((firmwareArea i).page + 8) (leBytes 4 0)

/-- FW_ACTIVATE's effect (R365, R623): commit, revoke or leave, then the REPLY, then the restart. -/
def fwActivate (s : State) (m : List Word) : State :=
  let i := bits (word m 0) 0 0
  let finish (s : State) : State := restart (replyOk s 0 (mSeq m) 0x0D)
  if !drained s then replyRejected s 0 (mSeq m) 0x0D rBusy
  else if i = s.sys.runningCopy then finish s
  else if firmwareState s i = 2 && firmwareSigned (firmwareContent s i) then finish (commitStaged s i)
  else if firmwareValid s i then finish (revokeCopy s s.sys.runningCopy)
  else replyRejected s 0 (mSeq m) 0x0D rBadMessage

/-- Stores that were requested earlier are still to be made (R609). -/
def storesPending (s : State) : Bool := !s.sys.stores.isEmpty || !s.sys.fwStaging.isEmpty || s.sys.requalify.isSome

/-- An FW_ACTIVATE comes to its turn: it is BUSY at once, or waits behind the stores requested before it (R357, R365, R609). -/
def queueActivate (s : State) (m : List Word) : State :=
  if drained s && (storesPending s || !s.sys.activations.isEmpty) then { s with sys := { s.sys with activations := s.sys.activations ++ [m] } }
  else fwActivate s m

/-- FW_ACTIVATE. -/
def execFwActivate (t : Nat) (s : State) : Res :=
  onMessage s t 0x0D (adminOnly t (cleanOnly t [1] queueActivate))

/-- The FW_ACTIVATEs that have waited act in order once no store is left; a restart ends them all. -/
def runActivations (s : State) : Nat → State
  | 0 => s
  | n + 1 =>
    match s.sys.activations with
    | [] => s
    | m :: rest =>
      if storesPending s then s else runActivations (fwActivate { s with sys := { s.sys with activations := rest } } m) n

/-- What waits for the end of a store goes on. -/
def afterStore (s : State) : State := runActivations s (s.sys.activations.length + 1)

/-- Take the store at the head of the queue off it (R609). -/
def popStore (s : State) : State := { s with sys := { s.sys with stores := s.sys.stores.drop 1 } }

/-- LEDGER_STORE (R607 to R609, R614, R615). -/
def execLedgerStore (deviceOk : Bool) (s : State) : Res :=
  match s.sys.stores with
  | .ledger :: _ => if firmwareRuns s then .next (afterStore (storeLedger (popStore s) deviceOk).1) else .next s
  | _ => .next s

/-- GENERATION_SECTOR_ERASE (R611): a device error leaves the sector as it is. -/
def execGenerationSectorErase (deviceOk : Bool) (s : State) : Res :=
  match s.sys.stores with
  | .generationErase k :: _ =>
    if ready s then .next (afterStore (if deviceOk then flashErase (popStore s) (slotAt k 0) 0x1000 else popStore s)) else .next s
  | _ => .next s

/-! ## The end of REQUALIFY (R616, R617) -/

/-- The fence is lifted and the REPLY written, OK or BUSY (R616, R617). -/
def endRequalify (s : State) (seq : Nat) (ok : Bool) : State :=
  let s := liftFences { s with sys := { s.sys with requalify := none, requalTested := false, requalStored := false } }
  if (s.tenant 0).unanswered.contains (seq, 0x0E) then
    requestSectorErase (if ok then replyOk s 0 seq 0x0E else replyRejected s 0 seq 0x0E rBusy)
  else requestSectorErase s

/-- The next REQUALIFY that waits begins. -/
def nextRequalify (s : State) : State :=
  match s.sys.requalifyQueue with
  | [] => s
  | q :: rest => beginRequalify { s with sys := { s.sys with requalifyQueue := rest } } q

/-- REQUALIFY_DONE (R616, R617): the rebuilt ledger's store commits or is abandoned, or was not made. -/
def execRequalifyDone (deviceOk : Bool) (s : State) : Res :=
  match s.sys.requalify with
  | none => .next s
  | some seq =>
    if !ready s || !s.sys.requalTested then .next s
    else if !s.sys.requalStored then .next (afterStore (nextRequalify (endRequalify s seq false)))
    else
      match s.sys.stores with
      | .requalify :: rest =>
        let r := storeLedger { s with sys := { s.sys with stores := rest } } deviceOk
        .next (afterStore (nextRequalify (endRequalify r.1 seq r.2)))
      | _ => .next s

/-! ## FW_STAGE (R515, R622) -/

/-- SIZE of an image is in range: a header, a payload of whole 64-byte units of at most 4,193,856 bytes, and a signature block (R635). -/
def stageSizeOk (size : Nat) : Bool := decide (192 ≤ size ∧ size ≤ 64 + 4193856 + 128 ∧ size % 64 = 0)

/-- Read the source of the first FW_STAGE that waits (R515). -/
def askSource (s : State) : State :=
  match s.sys.fwStaging with
  | [] => s
  | (_, src, size) :: _ =>
    { s with sys := { s.sys with fwStageBytes := [] } }.emit (.hostRead (s.tenant 0).hostPort src size)

/-- Take the first FW_STAGE off those that read their source, and go on with the next. -/
def nextSource (s : State) : State :=
  askSource { s with sys := { s.sys with fwStaging := s.sys.fwStaging.drop 1, fwStageBytes := [] } }

/-- FW_STAGE's effect: its source is read; a SIZE out of range reads nothing and comes to its store as an image that fails (R622). -/
def fwStage (s : State) (m : List Word) : State :=
  if stageSizeOk (word m 2) then
    let e := (mSeq m, dword m 0, word m 2)
    let first := s.sys.fwStaging.isEmpty
    let s := { s with sys := { s.sys with fwStaging := s.sys.fwStaging ++ [e] } }
    if first then askSource s else s
  else { s with sys := { s.sys with stores := s.sys.stores ++ [.firmware (mSeq m) []] } }

/-- FW_STAGE (R622). -/
def execFwStage (t : Nat) (s : State) : Res :=
  onMessage s t 0x0C (adminOnly t (cleanOnly t [0xFFFFFFFF, 0xFFFFFFFF, 0xFFFFFFFF] fwStage))

/-- A failed read answers the FW_STAGE with BAD_ADDRESS and stages nothing (R515). -/
def sourceFailed (s : State) : State :=
  match s.sys.fwStaging with
  | [] => s
  | (seq, _, _) :: _ => nextSource (replyRejected s 0 seq 0x0C rBadAddress)

/-- Data of a read arrives; when the source is complete, its store is requested (R609, R622). -/
def sourceData (s : State) (data : List Byte) : State :=
  match s.sys.fwStaging with
  | [] => s
  | (seq, _, size) :: _ =>
    let bs := s.sys.fwStageBytes ++ data
    if bs.length < size then { s with sys := { s.sys with fwStageBytes := bs } }
    else nextSource { s with sys := { s.sys with stores := s.sys.stores ++ [.firmware seq (bs.take size)] } }

/-- AER of a completion: a poisoned one, and one with status UR or CA (R514). -/
def logCompletion (x : Port) (st : CplStatus) (ep : Bool) : Port :=
  { x with
    aerPoisoned := x.aerPoisoned || ep
    aerUnsupported := x.aerUnsupported || decide (st ≠ .success) }

/-- An engine read is outstanding: only FW_STAGE makes one (R515). -/
def readOutstanding (s : State) : Bool := firmwareRuns s && !s.sys.fwStaging.isEmpty

/-- ENGINE_READ_COMPLETION (R514, R515). -/
def execEngineReadCompletion (st : CplStatus) (ep : Bool) (data : List Byte) (s : State) : Res :=
  if readOutstanding s then
    let p := (s.tenant 0).hostPort
    let s := s.setPort p (logCompletion (s.port p) st ep)
    .next (afterStore (if st = .success && !ep then sourceData s data else sourceFailed s))
  else .next s

/-- COMPLETION_TIMEOUT (R514, R515). -/
def execCompletionTimeout (s : State) : Res :=
  if readOutstanding s then
    let p := (s.tenant 0).hostPort
    .next (afterStore (sourceFailed (s.setPort p { s.port p with aerTimeout := true })))
  else .next s

/-- The firmware copy that is not running (R622). -/
def otherCopy (s : State) : Nat := 1 - s.sys.runningCopy

/-- SIZE and the header are in range (R622). -/
def firmwareHeadOk (bs : List Byte) : Bool :=
  stageSizeOk bs.length && firmwareHeaderOk bs && decide (64 + firmwareSize bs + 128 = bs.length)

/-- The image passes the checks of R622: its SIZE, header and signature. -/
def firmwareImageOk (bs : List Byte) : Bool := firmwareHeadOk bs && firmwareSigned bs

/-- Store an image into the copy that is not running, under steps 1 to 4 of R607, and answer: STAGED and OK, or erased and BAD_MESSAGE. The
signature is checked over the bytes read back, after the store. A store that is abandoned is REJECTED with a REASON of R375 that the spec
does not state (log 48). -/
def storeImage (s : State) (seq : Nat) (bs : List Byte) (deviceOk : Bool) : State :=
  let a := firmwareArea (otherCopy s)
  let bad := replyRejected (flashErase s a.base a.size) 0 seq 0x0C rBadMessage
  if !firmwareHeadOk bs then bad
  else if !deviceOk then
    let why := rBusy + Config.freeNat s.freeCtr % 6
    replyRejected (abandonStore (s.stepFree 1) a) 0 seq 0x0C why
  else if !firmwareSigned bs then bad
  else
    let n := match newerFirmware s with | some j => firmwareSeq s j + 1 | none => 1
    replyOk (writeCopy s a bs n) 0 seq 0x0C

/-- FW_STAGE_DONE (R607, R622, R675). -/
def execFwStageDone (deviceOk : Bool) (s : State) : Res :=
  match s.sys.stores with
  | .firmware seq bs :: _ => if ready s then .next (afterStore (storeImage (popStore s) seq bs deviceOk)) else .next s
  | _ => .next s

/-! ## The fabric configuration record (R610, R664) -/

/-- FABRIC_CONFIG_STORE (R610, R664, R675): steps 1 to 4 of R607 in the single area; the agent answers when the store ends. After a device
error the record is not whole, so that it fails its CRC. -/
def execFabricConfigStore (deviceOk : Bool) (s : State) : Res :=
  match s.sys.stores with
  | .fabricConfig sess tag record :: _ =>
    if firmwareRuns s then
      let s := flashErase (popStore s) 0x18000 0x1000
      if deviceOk then
        .next (afterStore (agentDone (flashProgram s 0x18000 record) sess 0x05 tag 0 []))
      else
        let n := Config.freeNat s.freeCtr % 32
        let s := flashProgram { (s.stepFree 1) with sys := { s.sys with storeFailed := true } } 0x18000 (record.take n)
        .next (afterStore (agentDone s sess 0x05 tag 5 []))
    else .next s
  | _ => .next s

end Sys2Proof.Machine
end

