-- ==== Sys2Proof/Machine/Power.lean ====
section
/-!
DEFINITION. Sys2Proof/Machine/Power.lean: the power input, the power sequencer and its converters (R541 to R549, R637 to R643, R653).
-/

namespace Sys2Proof.Machine

/-- The absolute maximum of the input voltage, in mV (R637). -/
def maxInput : Nat := 65000

/-- A command with the input voltage: beyond the absolute maximum no operation is defined (R637). -/
def withInput (mV : Nat) (s : State) (f : State → State) : Res :=
  if maxInput < mV then .fault .outsideRatings
  else .next (f { s with casing := { s.casing with vinMv := mV } })

/-- INPUT_POWER_UP (R541, R545, R641, R643): the bank exceeds 42 V. -/
def execInputPowerUp (mV : Nat) (s : State) : Res :=
  withInput mV s (fun s =>
    if 42000 < mV then tryPowerUp { s with casing := { s.casing with bankAbove := true, standby := true } } else s)

/-- STANDBY_START (R643): the input exceeds 36 V. -/
def execStandbyStart (mV : Nat) (s : State) : Res :=
  withInput mV s (fun s => if 36000 < mV then tryPowerUp { s with casing := { s.casing with standby := true } } else s)

/-- The Casing when the standby domain stops: the management controller's volatile state goes (log 50). -/
def standbyGone (c : Casing) : Casing :=
  { c with
    standby := false, bankAbove := false, overvoltageOff := false, overvoltageBit := false, hold := false, powerOffLatch := false
    cycleAt := none, sessions := [], lockHolder := none, windowAt := none
    coolantWarn := false, coolantCeiling := 64, badSamples := 0, clearSamples := 0, lowFlowSamples := 0 }

/-- STANDBY_LOSS (R549, R643): the input is at 36 V or below. -/
def execStandbyLoss (mV : Nat) (s : State) : Res :=
  if 36000 < mV then .next s
  else
    let s := tryPowerDown { s with casing := { s.casing with vinMv := mV } }
    .next { s with casing := standbyGone s.casing }

/-- UNDERVOLTAGE (R549, R626): the input has stayed below 38 V for 1 ms. -/
def execUndervoltage (mV : Nat) (s : State) : Res :=
  if 38000 ≤ mV then .next s
  else .next (tryPowerDown { s with casing := { s.casing with vinMv := mV, bankAbove := false } })

/-- INPUT_OVERVOLTAGE (R639): the input has stayed above 61 V for 1 ms. -/
def execInputOvervoltage (mV : Nat) (s : State) : Res :=
  withInput mV s (fun s =>
    if 61000 < mV then tryPowerDown { s with casing := { s.casing with overvoltageBit := true, overvoltageOff := true } } else s)

/-- OVERVOLTAGE_RECOVERY (R639): the input falls below 59 V. -/
def execOvervoltageRecovery (mV : Nat) (s : State) : Res :=
  withInput mV s (fun s =>
    if mV < 59000 then tryPowerUp { s with casing := { s.casing with overvoltageOff := false } } else s)

/-- ENABLE (R642, R643). -/
def execEnable (level : Bool) (s : State) : Res :=
  let s := { s with casing := { s.casing with enablePin := level } }
  .next (if level then tryPowerUp s else tryPowerDown s)

/-- LID_OPEN (R653). -/
def execLidOpen (s : State) : Res := .next (tryPowerDown s)

/-! ## The power-signal connector (R642) -/

/-- The signals that the Casing drives: PWR_GOOD, PRESENT_N, STBY_OK; a signal that is high is true. -/
def pwrGood (s : State) : Bool := s.casing.powerGood
def presentN : Bool := false
def stbyOk (s : State) : Bool := s.casing.standby

/-- The status LEDs: POWER, READY, FAULT (14, front panel). -/
def ledPower (s : State) : Bool := poweredUp s
def ledReady (s : State) : Bool := poweredUp s && decide (s.sys.state = 1)
def ledFault (s : State) : Bool := decide (s.sys.alertStatus ≠ 0)

/-! ## Converters (R545, R548) -/

/-- A converter is ramping. -/
def isRamping (s : State) (pos : Nat) : Bool := decide (converter s pos = .ramping)

/-- When the running ramp of a converter began: in the order of R545, or at a FIELD reset (R434). -/
def rampBegan (s : State) (pos : Nat) : Nat :=
  if stepDone s 1 then (s.field (fieldAt (pos - 3))).rampAt else s.casing.upAt + startTime pos

/-- Step 2 begins at North's power good, or at South's when North stays unpowered (R548, R580). -/
def step2Start (s : State) : State :=
  if (s.rim 0).power = .good || ((s.rim 0).power = .failed && decide ((s.rim 1).power = .good)) then beginStep2 s else s

/-- Step 1 ends when no converter is ramping any more; PWR_GOOD goes high (R545, R580, R642). -/
def step1End (s : State) : State :=
  if !stepDone s 1 && (List.range 74).all (fun pos => !isRamping s pos) then
    let s := endStep s 1
    { s with casing := { s.casing with powerGood := true } }
  else s

/-- A field whose rail comes up in the power-up sequence runs (R576). -/
def fieldUp (s : State) (pos : Nat) : State :=
  if pos < 4 ∨ stepDone s 1 then s
  else s.modField (fieldAt (pos - 3)) (fun x => { x with state := .running, railMv := 600 })

/-- POWER_GOOD (R545, R580). -/
def execPowerGood (pos : Nat) (s : State) : Res :=
  if poweredUp s && isRamping s pos && decide (rampBegan s pos ≤ s.nowUs) then
    .next (step1End (step2Start (fieldUp (setConverter s pos .good) pos)))
  else .next s

/-- POWER_GOOD_TIMEOUT (R548): 5 ms after its start a converter without power good stays unpowered. -/
def execPowerGoodTimeout (pos : Nat) (s : State) : Res :=
  if poweredUp s && isRamping s pos && decide (rampBegan s pos + 5000 ≤ s.nowUs) then
    let s := setConverter s pos .failed
    let s := if pos < 4 then s else s.modField (fieldAt (pos - 3)) (fun x => { x with state := .unpowered })
    .next (step1End (step2Start s))
  else .next s

end Sys2Proof.Machine
end

