-- ==== Sys2Proof/Machine/Sensors.lean ====
section
/-!
DEFINITION. Sys2Proof/Machine/Sensors.lean: current, temperature, coolant, voltage and step of the clusters (R543, R559 to R571), the
reference tree at run time (R556, R557), aging (R618, R619), telemetry (R574), and the DDR controllers (R519 to R531, R584).
-/

namespace Sys2Proof.Machine

/-! ## Input current (R563) -/

/-- The current-limit ceiling after a sample of the input current, in 0.1 A. -/
def currentCeiling (c : Casing) (now dA : Nat) : Casing :=
  if (c.iLimit - 10) * 10 < dA then
    if c.lastFall + 2 ≤ now then { c with ilimitCeiling := c.ilimitCeiling - 1, lastFall := now, belowSince := none }
    else { c with belowSince := none }
  else if dA < (c.iLimit - 30) * 10 then
    let since := c.belowSince.getD now
    if since + 1000 ≤ now ∧ c.lastIlimitRise + 1000 ≤ now then
      { c with ilimitCeiling := min 64 (c.ilimitCeiling + 1), lastIlimitRise := now, belowSince := some since }
    else { c with belowSince := some since }
  else { c with belowSince := none }

/-- CURRENT_SAMPLE (R563, R564, R573): of the current that the load asks for, the input stage draws at most 450 A, and the hold-up bank
supplies the rest. -/
def execCurrentSample (dA mV : Nat) (s : State) : Res :=
  withInput mV s (fun s =>
    let c := { s.casing with iinDa := min 4500 dA, bankDa := dA - 4500 }
    { s with casing := if poweredUp s then currentCeiling c s.nowUs c.iinDa else c })

/-! ## Temperature (R566 to R569) -/

/-- Thermal ceiling, throttle count and run of readings at 110.0 °C after a reading in quarters of a degree (R567, R568). -/
def thermalStep (a : Avfs) (now : Nat) (q : Int) : Avfs :=
  let a := { a with reading := q, awaitsSample := false, hot := if 440 ≤ q then a.hot + 1 else 0 }
  if 380 ≤ q then { a with thermalCeiling := a.thermalCeiling - 1, lastRise := now }
  else if q < 368 then
    if a.lastRise + 1000 ≤ now ∧ a.thermalCeiling < 64 then { a with thermalCeiling := a.thermalCeiling + 1, lastRise := now } else a
  else { a with lastRise := now }

/-- Within 50 ms of the lift of a FIELD reset one reading of 110.0 °C shuts the field down; otherwise two in succession do (R568, R569). -/
def tooHot (s : State) (f : Nat) (a : Avfs) : Bool :=
  decide (2 ≤ a.hot) ||
    (decide (1 ≤ a.hot) && (match (s.field f).liftAt with
      | some l => decide (s.nowUs ≤ l + 50000)
      | none => false))

/-- THERMAL_SAMPLE (R566 to R569). -/
def execThermalSample (k : Nat) (quarterC : Int) (s : State) : Res :=
  let f := fieldOfLogical k
  if (s.field f).power = .good then
    let old := (s.cluster k).avfs
    let a := thermalStep old s.nowUs quarterC
    let s := s.modCluster k (fun c => { c with avfs := a })
    let s := if old.thermalCeiling = 64 ∧ a.thermalCeiling < 64 then
        s.modField f (fun x => { x with throttleEvents := satInc 0xFFFFFFFF x.throttleEvents })
      else s
    .next (if tooHot s f a && decide ((s.field f).state = .running) then shutField s f .shutdown else s)
  else .next s

/-- VPM_FAULT (R568): the VPM reports its own over-temperature or loses power good. -/
def execVpmFault (f : Nat) (s : State) : Res :=
  let x := s.field f
  if poweredUp s && decide (x.power = .good ∨ x.power = .ramping) then
    if x.state = .running then .next (shutField s f .vpmFault)
    else .next (s.modField f (fun x => { x with state := .vpmFault, power := .off, fenced := true }))
  else .next s

/-! ## Coolant (R571) -/

/-- COOLANT_WARN, the coolant ceiling and the sample counts after a sample (10 samples are 1 s, 100 are 10 s). -/
def coolantStep (c : Casing) (inletD outletD : Int) (flowD : Nat) : Casing :=
  let bad := decide (flowD < 270 ∨ 340 < inletD)
  let c := { c with
    inletD := inletD, outletD := outletD, flowD := flowD
    badSamples := if bad then c.badSamples + 1 else 0
    clearSamples := if bad then 0 else c.clearSamples + 1
    lowFlowSamples := if flowD < 150 then c.lowFlowSamples + 1 else 0 }
  if 10 ≤ c.badSamples then { c with coolantWarn := true, coolantCeiling := 20 }
  else if 100 ≤ c.clearSamples then { c with coolantWarn := false, coolantCeiling := 64 } else c

/-- COOLANT_SAMPLE (R571): at low flow for 1 s every field is shut down. -/
def execCoolantSample (inletD outletD : Int) (flowD : Nat) (s : State) : Res :=
  if s.casing.standby then
    let s := { s with casing := coolantStep s.casing inletD outletD flowD }
    if poweredUp s && decide (10 ≤ s.casing.lowFlowSamples) then
      .next ((List.range 70).foldl (fun s f => if (s.field f).power = .good then shutField s f .shutdown else s) s)
    else .next s
  else .next s

/-! ## Voltage and step (R543, R559 to R561) -/

/-- AVFS_ADJUST (R560): at most once in 10 µs the voltage falls by 5 mV when all eight monitors report positive slack, and rises by 5 mV
otherwise, from 580 to 900 mV (R543); it is then the voltage settled at the step (log 52). -/
def adjustVoltage (a : Avfs) (now : Nat) (slack : List Bool) : Avfs :=
  let v := if slack.all id then max 580 (a.millivolts - 5) else min 900 (a.millivolts + 5)
  { a with millivolts := v, lastAdjust := some now, settled := tset 0 a.settled a.step v }

/-- 10 µs have passed since the last adjustment. -/
def adjustDue (a : Avfs) (now : Nat) : Bool :=
  match a.lastAdjust with
  | none => true
  | some l => decide (l + 10 ≤ now)

/-- AVFS_ADJUST. -/
def execAvfsAdjust (k : Nat) (slack : List Bool) (s : State) : Res :=
  let c := s.cluster k
  if c.awake && adjustDue c.avfs s.nowUs then
    .next (holdRail (s.setCluster k { c with avfs := adjustVoltage c.avfs s.nowUs slack }) (fieldOfLogical k))
  else .next s

/-- A higher step: it takes effect when the rail covers its voltage, and asks for the rail otherwise (R561). -/
def raiseStep (s : State) (k n : Nat) : State :=
  let c := s.cluster k
  let v := stepVoltage c.avfs n
  let f := fieldOfLogical k
  if v + 30 ≤ (s.field f).railMv then
    holdRail (s.setCluster k { c with avfs := { c.avfs with step := n, millivolts := v, request := 0 } }) f
  else holdRail (s.setCluster k { c with avfs := { c.avfs with request := v } }) f

/-- STEP_CHANGE (R552, R559, R561): a changed ceiling reaches the cluster. -/
def execStepChange (k : Nat) (s : State) : Res :=
  if !usable s k then .next s
  else
    let c := s.cluster k
    if !c.awake then .next (s.setCluster k { c with avfs := { c.avfs with step := dormantStep s k } })
    else
      let n := clusterCeiling s k
      if n ≤ c.avfs.step then .next (s.setCluster k { c with avfs := { c.avfs with step := n, request := 0 } })
      else .next (raiseStep s k n)

/-! ## The reference at run time (R556, R557) -/

/-- FLL_WINDOW (R556): one window of 1,024 reference cycles is 4.096 µs, in which f = 0.55 GHz + step × 12.5 MHz counts 2252.8 + 51.2 ×
step cycles; the trim follows the sign of the error, and stays in holdover (R557). -/
def execFllWindow (k : Nat) (cycles : Nat) (s : State) : Res :=
  let c := s.cluster k
  let want := 22528 + 512 * c.avfs.step
  if (s.field (fieldOfLogical k)).power = .good && !c.avfs.refLost then
    let d : Int := if want < 10 * cycles then -1 else if 10 * cycles < want then 1 else 0
    .next (s.setCluster k { c with avfs := { c.avfs with trim := c.avfs.trim + d } })
  else .next s

/-- The logical cluster that a physical one occupies, if any. -/
def logicalOf (s : State) (q : Nat) : Option Nat :=
  (logicalX s.silicon.live (q % 35) (q / 35)).map (fun x => q / 35 * 28 + x)

/-- Show REF_LOST of the logical cluster at a physical position. -/
def setRefLost (s : State) (q : Nat) (lost : Bool) : State :=
  match logicalOf s q with
  | some k => s.modCluster k (fun c => { c with avfs := { c.avfs with refLost := lost } })
  | none => s

/-- REFERENCE_LOSS (R557): the cluster enters holdover. -/
def execReferenceLoss (q : Nat) (s : State) : Res :=
  if (s.phys q).locked then .next (setRefLost (s.setPhys q { s.phys q with holdover := true }) q true) else .next s

/-- q stands below p in the reference tree. -/
def below (s : State) (p : Nat) : Nat → Nat → Bool
  | 0, _ => false
  | n + 1, q =>
    match (s.phys q).parent with
    | some (.cluster r) => r = p || below s p n r
    | _ => false

/-- The neighbours that can take a cluster in holdover: locked, at depth 39 or less, and not below it (R557). -/
def newParents (s : State) (q : Nat) : List Nat :=
  (List.range 2100).filter (fun p =>
    physNeighbour p q && (s.phys p).locked && !(s.phys p).holdover && decide ((s.phys p).depth ≤ 39) && !below s q 64 p)

/-- Move a cluster under a parent, and the subtree below it with it (R557). -/
def reparent (s : State) (q p : Nat) : State :=
  let old := (s.phys q).depth
  let d := (s.phys p).depth + 1
  let subtree := (List.range 2100).filter (fun r => below s q 64 r)
  let s := s.setPhys q { s.phys q with parent := some (.cluster p), depth := d, holdover := false }
  let s := subtree.foldl (fun s r => s.setPhys r { s.phys r with depth := (s.phys r).depth + d - old }) s
  setRefLost s q false

/-- CLUSTER_REPARENT (R557): which of several neighbours it takes is not stated. -/
def execClusterReparent (q : Nat) (s : State) : Res :=
  if firmwareRuns s && (s.phys q).holdover then
    let ps := newParents s q
    if ps.isEmpty then .next s
    else .next (reparent (s.stepFree 1) q (ps.getD (Config.freeNat s.freeCtr % ps.length) 0))
  else .next s

/-! ## Aging (R618, R619) -/

/-- WEAR is raised: the bit is set in the record and a ledger store with its entry is requested (R619). -/
def raiseWear (s : State) (k : Nat) : State :=
  let q := physOf s k
  let s := s.modCluster k (fun c => { c with avfs := { c.avfs with wear := true } })
  let s := { s with silicon := { s.silicon with
    wear := if s.silicon.wear.contains q then s.silicon.wear else s.silicon.wear ++ [q]
    recorded := recordLedger s.silicon.recorded [] [q] } }
  requestLedger s .ledger

/-- AGING_MEASURE (R618, R619). -/
def execAgingMeasure (k d : Nat) (s : State) : Res :=
  if firmwareRuns s && usable s k && (s.cluster k).awake then
    let s := s.modCluster k (fun c => { c with avfs := { c.avfs with agingD := d } })
    .next (if 30 ≤ d ∧ ¬ s.silicon.wear.contains (physOf s k) then raiseWear s k else s)
  else .next s

/-! ## Telemetry (R574) -/

/-- Take a new snapshot. -/
def refreshTelemetry (s : State) : State :=
  let s := { s with sys := { s.sys with sample := satInc 0xFFFFFFFF s.sys.sample } }
  { s with sys := { s.sys with snapshot := telemetryRecord s } }

/-- TELEMETRY_REFRESH (R574). -/
def execTelemetryRefresh (s : State) : Res := if firmwareRuns s then .next (refreshTelemetry s) else .next s

/-! ## DDR (R519 to R531, R584) -/

/-- DDR_REFRESH (R531): tREFI and command rate follow the hottest device temperature. -/
def execDdrRefresh (ch : Nat) (deviceC : Int) (s : State) : Res :=
  if rimOn s (ch / 6) && (s.rim (ch / 6)).trained then
    .next (s.setChannel ch { s.channel ch with
      deviceC := deviceC, trefi := if 85 < deviceC then 1950 else 3900, halved := decide (95 < deviceC) })
  else .next s

/-- PATROL_SCRUB (R528, R529): a correction is counted and written back, an uncorrectable line is marked poisoned. -/
def execPatrolScrub (line : Nat) (found : ScrubFinding) (s : State) : Res :=
  if poweredUp s && decide (line < granules s * 2 ^ 24) then .next (mergeFinding s found [line]) else .next s

/-- ONDIE_SCRUB_READ (R527, R577). -/
def execOndieScrubRead (ch errors : Nat) (s : State) : Res :=
  if rimOn s (ch / 6) && (s.rim (ch / 6)).trained then
    .next (s.setChannel ch { s.channel ch with scrubErrors := min 0xFFFF errors })
  else .next s

/-- The channels of all rims with a module whose SPD reads and that R519 accepts, by global number. -/
def acceptedDimms (s : State) : List (Nat × Dimm) :=
  (List.range 24).filterMap (fun ch =>
    match (s.rim (ch / 6)).dimms.getD (ch % 6) none with
    | some d =>
      if d.accepted && [16, 32, 64, 96, 128].contains d.capacityGiB && (d.ranks = 1 || d.ranks = 2) && (d.deviceWidth = 4 || d.deviceWidth = 8)
      then some (ch, d) else none
    | none => none)

/-- Capacity, ranks and device width (R520). -/
def dimmConfig (d : Dimm) : Nat × Nat × Nat := (d.capacityGiB, d.ranks, d.deviceWidth)

/-- The key that most elements have; at a tie the one that comes first (R520, R521). -/
def mostFrequent {α : Type} [DecidableEq α] (l : List α) : Option α :=
  match l with
  | [] => none
  | x :: rest => some (rest.foldl (fun best y => if l.count best < l.count y then y else best) x)

/-- The speed of all channels (R521): the highest that every accepted module lists, else the one listed most, the higher at a tie. -/
def ddrSpeed (ds : List Dimm) : Nat :=
  let speeds := [6400, 5600, 4800]
  match speeds.find? (fun v => ds.all (fun d => d.speeds.contains v)) with
  | some v => v
  | none => speeds.foldl (fun best v =>
      if ds.countP (fun d => d.speeds.contains best) < ds.countP (fun d => d.speeds.contains v) then v else best) 6400

/-- The channels of a rim that are failed: the module is absent, differs, does not list the speed, or fails training (R520, R521). -/
def failedIn (s : State) (r : Nat) (cfg : Option (Nat × Nat × Nat)) (speed : Nat) : List Nat :=
  (List.range 6).filter (fun i =>
    match (acceptedDimms s).find? (fun e => e.1 = 6 * r + i) with
    | some e => !(decide (cfg = some (dimmConfig e.2)) && e.2.speeds.contains speed && e.2.trained)
    | none => true)

/-- The outcome of training on every rim that has ended it (R520 to R522). -/
def settleDdr (s : State) : State :=
  let ds := acceptedDimms s
  let cfg := mostFrequent (ds.map (fun e => dimmConfig e.2))
  let speed := ddrSpeed (ds.map (fun e => e.2))
  (List.range 4).foldl (fun s r =>
    let x := s.rim r
    if x.trained then
      let failed := failedIn s r cfg speed
      s.setRim r { x with
        failedChannels := failed, online := failed.isEmpty, speed := speed
        capacityGiB := match cfg with | some c => c.1 | none => 0
        ranks := match cfg with | some c => c.2.1 | none => 0
        deviceWidth := match cfg with | some c => c.2.2 | none => 0 }
    else s) s

/-- DDR_TRAINING (R520 to R522, R584): once for each power-up, before step 8 numbers the granules (R603). -/
def execDdrTraining (r : Nat) (dimms : List (Option Dimm)) (s : State) : Res :=
  if rimOn s r && !(s.rim r).trained && !stepDone s 8 then
    .next (settleDdr (s.setRim r { s.rim r with dimms := dimms, trained := true }))
  else .next s

end Sys2Proof.Machine
end

