-- ==== Sys2Proof/Machine/Pmbus.lean ====
section
/-!
DEFINITION. Sys2Proof/Machine/Pmbus.lean: the engine's PMBus target (R573). Words carry integers in the units of the telemetry record
(log 53).
-/

namespace Sys2Proof.Machine

/-- The target answers while the wafer is powered; otherwise nobody acknowledges. -/
def pmbusTarget (s : State) (f : State → State) : Res :=
  if poweredUp s then .next (f s) else .next (s.emit .pmbusNack)

/-- A thermal ceiling is below 64 somewhere (R567). -/
def anyThrottled (s : State) : Bool := s.clusters.any (fun e => throttled e.2)

/-- ALERT_N of the power-signal connector, low while the engine target asserts ALERT# (R642). -/
def alertN (s : State) : Bool :=
  !(poweredUp s && Config.pmbusAlert s.casing.overvoltageBit (decide (s.casing.ilimitCeiling < 64)) (anyThrottled s || s.casing.coolantWarn))

/-- STATUS_WORD (R563, R567, R571, R573, R639). -/
def execStatusWord (s : State) : Res :=
  pmbusTarget s (fun s => s.emit (.pmbusStatus s.casing.overvoltageBit (decide (s.casing.ilimitCeiling < 64))
    (anyThrottled s || s.casing.coolantWarn)))

/-- IIN_OC_WARN_LIMIT (R563, R573): 100 to 450 A; other values are NACKed. -/
def execIinOcWarnLimit (write : Option Nat) (s : State) : Res :=
  pmbusTarget s (fun s =>
    match write with
    | none => s.emit (.pmbusData s.casing.iLimit)
    | some v => if 100 ≤ v ∧ v ≤ 450 then { s with casing := { s.casing with iLimit := v } } else s.emit .pmbusNack)

/-- READ_VIN (R573), in mV. -/
def execReadVin (s : State) : Res := pmbusTarget s (fun s => s.emit (.pmbusData s.casing.vinMv))

/-- READ_IIN (R573), in 0.1 A. -/
def execReadIin (s : State) : Res := pmbusTarget s (fun s => s.emit (.pmbusData s.casing.iinDa))

/-- READ_PIN (R573), in W. -/
def execReadPin (s : State) : Res := pmbusTarget s (fun s => s.emit (.pmbusData (inputWatts s)))

/-- The hottest junction of the usable clusters of powered fields, in 0.1 °C. -/
def hottest (s : State) : Int :=
  tenths (maxOf (((List.range 1680).filter (fun k => usable s k && decide ((s.field (fieldOfLogical k)).power = .good))).map
    (fun k => (s.cluster k).avfs.reading)))

/-- READ_TEMPERATURE_1 (R573), as 16 bits of two's complement. -/
def execReadTemperature1 (s : State) : Res := pmbusTarget s (fun s => s.emit (.pmbusData (unsignedOf 16 (hottest s))))

/-- MFR_POLICY_CEILING (R559, R573): 0 to 64; a write of any other value is NACKed (log 53). -/
def execMfrPolicyCeiling (write : Option Nat) (s : State) : Res :=
  pmbusTarget s (fun s =>
    match write with
    | none => s.emit (.pmbusData s.casing.policyCeiling)
    | some v => if v ≤ 64 then { s with casing := { s.casing with policyCeiling := v } } else s.emit .pmbusNack)

/-- MFR_FIELD_CEILING (R559, R573): a write selects the field and sets its ceiling; a read gives the selected field's block. -/
def execMfrFieldCeiling (write : Option (Nat × Nat)) (s : State) : Res :=
  pmbusTarget s (fun s =>
    match write with
    | none =>
      s.emit (.pmbusBlock (leBytes 1 s.casing.selectedField ++ leBytes 1 (s.field s.casing.selectedField).ceiling))
    | some (f, v) =>
      if f < 70 ∧ v ≤ 64 then
        { s.modField f (fun x => { x with ceiling := v }) with casing := { s.casing with selectedField := f } }
      else s.emit .pmbusNack)

/-- MFR_TELEMETRY_PAGE (R573): page 0 latches a new snapshot; a page above 66 is NACKed (log 53). -/
def execMfrTelemetryPage (page : Nat) (s : State) : Res :=
  pmbusTarget s (fun s =>
    if 66 < page then s.emit .pmbusNack
    else if page = 0 then { s with casing := { s.casing with telePage := 0, teleLatch := telemetryNow s } }
    else { s with casing := { s.casing with telePage := page } })

/-- MFR_TELEMETRY_READ (R573): 128 bytes of the latched snapshot, zero beyond the record. -/
def execMfrTelemetryRead (s : State) : Res :=
  pmbusTarget s (fun s => s.emit (.pmbusBlock (padTo 128 ((s.casing.teleLatch.drop (128 * s.casing.telePage)).take 128))))

/-- Command codes of R573. -/
def pmbusCodes : List Byte := [0x79, 0x5D, 0x88, 0x89, 0x97, 0x8D, 0xD0, 0xD1, 0xD4, 0xD5]

/-- PMBUS_UNSUPPORTED (R573): a command that is not in the table is NACKed; the commands of the table have rows of their own. -/
def execPmbusUnsupported (code : Byte) (s : State) : Res :=
  if pmbusCodes.contains code then .next s else .next (s.emit .pmbusNack)

end Sys2Proof.Machine
end

