-- ==== Sys2Proof/Machine/Agent.lean ====
section
/-!
DEFINITION. Sys2Proof/Machine/Agent.lean: the management agent (R625, R650, R651, R655 to R667).
-/

namespace Sys2Proof.Machine

/-! ## Sessions, window, lock -/

/-- The TRUST_SET window is open (R656): ten minutes after SERVICE was held for 3 s. -/
def windowOpen (s : State) : Bool :=
  match s.casing.windowAt with
  | none => false
  | some w => decide (s.nowUs < w + 600000000)

/-- A client is accepted: its certificate chains to a stored anchor, or, with no anchor stored, in the window without one (R655, R656). -/
def clientOk (s : State) (cert : List Byte) : Bool :=
  if s.casing.anchors.isEmpty then cert.isEmpty && windowOpen s else s.casing.anchors.any (fun a => Config.chainsTo cert a.2)

/-- AGENT_CONNECT (R655, R656, R658): at most four sessions. -/
def execAgentConnect (cert : List Byte) (s : State) : Res :=
  if !s.casing.standby then .next s
  else if !clientOk s cert then .next (s.emit .agentRefused)
  else
    match (List.range 4).find? (fun i => !(s.agentSession i).openFlag) with
    | none => .next (s.emit .agentRefused)
    | some i => .next ((s.setAgentSession i { openFlag := true, openedAt := s.nowUs }).emit (.agentAccepted i))

/-- AGENT_DISCONNECT (R659): a session that closes frees the lock. -/
def execAgentDisconnect (sess : Nat) (s : State) : Res :=
  let s := s.setAgentSession sess {}
  .next { s with casing := { s.casing with
    lockHolder := if s.casing.lockHolder = some sess then none else s.casing.lockHolder } }

/-- STATUS codes (R660). -/
def agOk : Nat := 0
def agBadCmd : Nat := 1
def agBadLength : Nat := 2
def agDenied : Nat := 3
def agBusy : Nat := 4
def agDevice : Nat := 5

/-- A response as it goes to the client: the 16-byte header with CMD, STATUS, LENGTH and TAG, and the payload (R657); `Output.agent` carries
its fields. -/
def agentFrame (cmd status : Nat) (tag : Word) (payload : List Byte) : List Byte :=
  leBytes 2 cmd ++ leBytes 2 status ++ leBytes 4 payload.length ++ leBytes 4 tag.toNat ++ zeros 4 ++ payload

/-- A request of an open session. -/
def onSession (s : State) (sess : Nat) (f : State → State) : Res :=
  if s.casing.standby && (s.agentSession sess).openFlag then .next (f s) else .next s

/-- A request whose payload matches its command; else BAD_LENGTH (R660). -/
def matched (fits : Bool) (sess cmd : Nat) (tag : Word) (f : State → State) (s : State) : State :=
  if fits then f s else agentReply s sess cmd tag agBadLength []

/-- A request that needs the control lock (R659): BUSY while another session holds it; the first such command takes it (log 54). -/
def locked (sess cmd : Nat) (tag : Word) (f : State → State) (s : State) : State :=
  match s.casing.lockHolder with
  | none => f { s with casing := { s.casing with lockHolder := some sess } }
  | some h => if h = sess then f s else agentReply s sess cmd tag agBusy []

/-! ## PMBUS (R542, R544, R650, R651) -/

/-- The row of R573 that a transaction on the engine's target is. A write of a read-only register is ignored, and a read of a write-only one
returns zero (R21); any other command is NACKed. -/
def engineTransaction (s : State) (code : Nat) (isRead : Bool) (data : List Byte) : Res :=
  let v := leNat data
  match code, isRead with
  | 0x79, true => execStatusWord s
  | 0x5D, true => execIinOcWarnLimit none s
  | 0x5D, false => execIinOcWarnLimit (some v) s
  | 0x88, true => execReadVin s
  | 0x89, true => execReadIin s
  | 0x97, true => execReadPin s
  | 0x8D, true => execReadTemperature1 s
  | 0xD0, true => execMfrPolicyCeiling none s
  | 0xD0, false => execMfrPolicyCeiling (some v) s
  | 0xD1, true => execMfrFieldCeiling none s
  | 0xD1, false => execMfrFieldCeiling (some (v % 256, v / 256)) s
  | 0xD4, false => execMfrTelemetryPage v s
  | 0xD5, true => execMfrTelemetryRead s
  | 0x79, false => pmbusTarget s id
  | 0x88, false => pmbusTarget s id
  | 0x89, false => pmbusTarget s id
  | 0x97, false => pmbusTarget s id
  | 0x8D, false => pmbusTarget s id
  | 0xD5, false => pmbusTarget s id
  | 0xD4, true => pmbusTarget s (fun s => s.emit (.pmbusData 0))
  | _, _ => .next (s.emit .pmbusNack)

/-- What the target answered, as the agent's STATUS and payload: a NACK is DEVICE_ERROR (R660). -/
def relayed : List Output → Nat × List Byte
  | .pmbusNack :: _ => (agDevice, [])
  | .pmbusData v :: _ => (agOk, leBytes 2 v)
  | .pmbusBlock bs :: _ => (agOk, bs)
  | .pmbusStatus a b c :: _ => (agOk, leBytes 2 (Config.statusWord a b c))
  | _ => (agOk, [])

/-- Relay a transaction on the engine's target. -/
def relayEngine (s : State) (sess cmd : Nat) (tag : Word) (code : Nat) (isRead : Bool) (data : List Byte) : State :=
  match engineTransaction { s with out := [] } code isRead data with
  | .next t =>
    let r := relayed t.out
    agentReply { t with out := s.out } sess cmd tag r.1 r.2
  | .fault _ => s
  | .refused _ => s

/-- A transaction on a regulator: what it answers is not stated (log 58). -/
def relayBridge (s : State) (sess cmd : Nat) (tag : Word) (target code : Nat) (isRead : Bool) (count : Nat) (data : List Byte) : State :=
  let acked := decide (Config.freeNat s.freeCtr % 2 = 0)
  let t := s.stepFree 1
  let bs := if isRead then freeBytes t count else []
  let u := (t.stepFree bs.length).emit (.pmbusBridge (BitVec.ofNat 8 target) (BitVec.ofNat 8 code) isRead data)
  if acked then agentReply u sess cmd tag agOk bs else agentReply u sess cmd tag agDevice []

/-- A target number names a device: the Casing segment or a VPM (R542, R659). -/
def targetOk (t : Nat) : Bool := decide (t ≤ 0xC5)

/-- The PMBUS payload: TARGET, CODE, DIR, COUNT, and COUNT bytes for a write (R659). -/
def pmbusFits (p : List Byte) : Bool :=
  let u (i : Nat) : Nat := (p.getD i 0).toNat
  decide (4 ≤ p.length) && targetOk (u 0) && decide (u 2 ≤ 1) && decide (p.length = 4 + (if u 2 = 0 then u 3 else 0))

/-- PMBUS's effect: the engine's target, a rim regulator or a VPM; no other address answers. -/
def pmbusEffect (sess cmd : Nat) (tag : Word) (p : List Byte) (s : State) : State :=
  let u (i : Nat) : Nat := (p.getD i 0).toNat
  if u 0 = 0x40 then relayEngine s sess cmd tag (u 1) (u 2 = 1) (p.drop 4)
  else if (0x48 ≤ u 0 ∧ u 0 ≤ 0x4B) ∨ 0x80 ≤ u 0 then relayBridge s sess cmd tag (u 0) (u 1) (u 2 = 1) (u 3) (p.drop 4)
  else agentReply s sess cmd tag agDevice []

/-- PMBUS (R542, R573, R650, R651, R659). -/
def execPmbus (sess : Nat) (tag : Word) (payload : List Byte) (s : State) : Res :=
  onSession s sess (matched (pmbusFits payload) sess 0x01 tag (pmbusEffect sess 0x01 tag payload))

/-! ## Reads -/

/-- TELEMETRY (R659). -/
def execTelemetry (sess : Nat) (tag : Word) (payload : List Byte) (s : State) : Res :=
  onSession s sess (matched payload.isEmpty sess 0x02 tag (fun s => agentReply s sess 0x02 tag agOk (telemetryNow s)))

/-- EEPROM_READ (R659, R667). -/
def execEepromRead (sess : Nat) (tag : Word) (payload : List Byte) (s : State) : Res :=
  onSession s sess (matched payload.isEmpty sess 0x03 tag (fun s => agentReply s sess 0x03 tag agOk (eepromRead s 0 256)))

/-- STATUS_READ (R659): zero while the Pumphouses are held or the wafer is off. -/
def execStatusRead (sess : Nat) (tag : Word) (payload : List Byte) (s : State) : Res :=
  onSession s sess (matched payload.isEmpty sess 0x04 tag (fun s =>
    agentReply s sess 0x04 tag agOk (if s.casing.hold || !poweredUp s then zeros 56 else globalPage s)))

/-! ## The fabric record, power, HOLD -/

/-- FABRIC_CONFIG (R610, R664): BUSY while the Pumphouses are held or STATE is not READY, else answered when the store ends. -/
def execFabricConfig (sess : Nat) (tag : Word) (payload : List Byte) (s : State) : Res :=
  onSession s sess (matched (payload.length = 32) sess 0x05 tag (fun s =>
    if ready s then
      agentWait { s with sys := { s.sys with stores := s.sys.stores ++ [.fabricConfig sess tag.toNat payload] } } sess 0x05 tag
    else agentReply s sess 0x05 tag agBusy []))

/-- POWER OFF (R643, R663). -/
def powerOffEffect (s : State) : State := tryPowerDown { s with casing := { s.casing with powerOffLatch := true } }

/-- POWER ON (R663): clears the request and any HOLD; a wafer that was held goes through cold boot from step 1 (log 55). -/
def powerOnEffect (s : State) : State :=
  let s := if s.casing.hold then tryPowerDown s else s
  tryPowerUp { s with casing := { s.casing with powerOffLatch := false, hold := false, cycleAt := none } }

/-- POWER_OFF (R659, R663). -/
def execPowerOff (sess : Nat) (tag : Word) (payload : List Byte) (s : State) : Res :=
  onSession s sess (locked sess 0x06 tag (matched (payload = [0]) sess 0x06 tag (fun s => agentReply (powerOffEffect s) sess 0x06 tag agOk [])))

/-- POWER_ON (R659, R663). -/
def execPowerOn (sess : Nat) (tag : Word) (payload : List Byte) (s : State) : Res :=
  onSession s sess (locked sess 0x06 tag (matched (payload = [1]) sess 0x06 tag (fun s => agentReply (powerOnEffect s) sess 0x06 tag agOk [])))

/-- POWER_CYCLE (R659, R663). -/
def execPowerCycle (sess : Nat) (tag : Word) (payload : List Byte) (s : State) : Res :=
  onSession s sess (locked sess 0x06 tag (matched (payload = [2]) sess 0x06 tag (fun s =>
    let s := powerOffEffect s
    agentReply { s with casing := { s.casing with cycleAt := some s.nowUs } } sess 0x06 tag agOk [])))

/-- POWER_CYCLE_RESUME (R663): 2 s after the OFF. -/
def execPowerCycleResume (s : State) : Res :=
  match s.casing.cycleAt with
  | none => .next s
  | some t => if t + 2000000 ≤ s.nowUs then .next (powerOnEffect s) else .next s

/-- HOLD 1 (R586, R662): the engine enters STOPPED, with no failover. -/
def holdEffect (s : State) : State :=
  if s.casing.hold then s
  else
    let s := { s with casing := { s.casing with hold := true } }
    if poweredUp s then enterStopped s else s

/-- HOLD 0 (R624, R662). -/
def releaseEffect (s : State) : State :=
  if s.casing.hold then
    let s := { s with casing := { s.casing with hold := false } }
    if poweredUp s then restart s else s
  else s

/-- HOLD_ASSERT (R659, R662). -/
def execHoldAssert (sess : Nat) (tag : Word) (payload : List Byte) (s : State) : Res :=
  onSession s sess (locked sess 0x07 tag (matched (payload = [1]) sess 0x07 tag (fun s => agentReply (holdEffect s) sess 0x07 tag agOk [])))

/-- HOLD_RELEASE (R659, R662). -/
def execHoldRelease (sess : Nat) (tag : Word) (payload : List Byte) (s : State) : Res :=
  onSession s sess (locked sess 0x07 tag (matched (payload = [0]) sess 0x07 tag (fun s => agentReply (releaseEffect s) sess 0x07 tag agOk [])))

/-! ## Flash (R625, R661) -/

/-- OFFSET and COUNT of a payload. -/
def payOff (p : List Byte) : Nat := leNat (p.take 4)
def payCount (p : List Byte) : Nat := leNat ((p.drop 4).take 4)

/-- Bytes lie in the two firmware areas (R604, R661). -/
def inFirmware (off n : Nat) : Bool := n = 0 || decide (0x100000 ≤ off ∧ off + n ≤ 0x900000)

/-- A flash command while HOLD is in effect; else DENIED (R661). No command says that the device errs: these meet no device error (log 118). -/
def held (sess cmd : Nat) (tag : Word) (f : State → State) (s : State) : State :=
  if s.casing.hold then f s else agentReply s sess cmd tag agDenied []

/-- FLASH_READ (R659, R661). -/
def execFlashRead (sess : Nat) (tag : Word) (payload : List Byte) (s : State) : Res :=
  onSession s sess (locked sess 0x08 tag
    (matched (payload.length = 8 && decide (payCount payload ≤ 65536)) sess 0x08 tag (held sess 0x08 tag (fun s =>
      agentReply s sess 0x08 tag agOk (flashRead s (payOff payload) (payCount payload))))))

/-- FLASH_ERASE (R625, R659, R661). -/
def execFlashErase (sess : Nat) (tag : Word) (payload : List Byte) (s : State) : Res :=
  onSession s sess (locked sess 0x09 tag
    (matched (payload.length = 8 && payOff payload % 4096 = 0 && payCount payload % 4096 = 0) sess 0x09 tag (held sess 0x09 tag (fun s =>
      if inFirmware (payOff payload) (payCount payload) then
        agentReply (flashErase s (payOff payload) (payCount payload)) sess 0x09 tag agOk []
      else agentReply s sess 0x09 tag agDenied []))))

/-- FLASH_PROGRAM (R625, R659, R661). -/
def execFlashProgram (sess : Nat) (tag : Word) (payload : List Byte) (s : State) : Res :=
  onSession s sess (locked sess 0x0A tag
    (matched (decide (4 ≤ payload.length ∧ payload.length ≤ 65536) && payOff payload % 256 = 0) sess 0x0A tag (held sess 0x0A tag (fun s =>
      if inFirmware (payOff payload) (payload.length - 4) then
        agentReply (flashProgram s (payOff payload) (payload.drop 4)) sess 0x0A tag agOk []
      else agentReply s sess 0x0A tag agDenied []))))

/-! ## Network and trust -/

/-- NET_CONFIG (R655, R659): MODE, then address, prefix and gateway, which are kept as they come. -/
def execNetConfig (sess : Nat) (tag : Word) (payload : List Byte) (s : State) : Res :=
  let mode := (payload.headD 2).toNat
  onSession s sess (matched (!payload.isEmpty && decide (mode ≤ 1)) sess 0x0B tag (fun s =>
    let s := { s with casing := { s.casing with netStatic := if mode = 1 then some (payload.drop 1) else none } }
    agentReply s sess 0x0B tag agOk []))

/-- TRUST_SET is accepted: in the window, from a connection made within it (R656). -/
def mayTrust (s : State) (sess : Nat) : Bool :=
  windowOpen s && (match s.casing.windowAt with
    | none => false
    | some w => decide (w ≤ (s.agentSession sess).openedAt))

/-- TRUST_SET (R655, R656, R659). -/
def execTrustSet (sess : Nat) (tag : Word) (payload : List Byte) (s : State) : Res :=
  let slot := (payload.headD 4).toNat
  onSession s sess (matched (decide (2 ≤ payload.length) && decide (slot ≤ 3)) sess 0x0C tag (fun s =>
    if mayTrust s sess then
      agentReply { s with casing := { s.casing with anchors := tset [] s.casing.anchors slot (payload.drop 1) } } sess 0x0C tag agOk []
    else agentReply s sess 0x0C tag agDenied []))

/-- BAD_CMD (R659, R660): the codes that the table gives have rows of their own. -/
def execBadCmd (sess : Nat) (tag : Word) (code : BitVec 16) (s : State) : Res :=
  if 1 ≤ code.toNat ∧ code.toNat ≤ 0x0C then .next s
  else onSession s sess (fun s => agentReply s sess code.toNat tag agBadCmd [])

/-- SERVICE_HOLD_3S (R656). -/
def execServiceHold3s (s : State) : Res :=
  if s.casing.standby then .next { s with casing := { s.casing with windowAt := some s.nowUs } } else .next s

/-- SERVICE_HOLD_15S (R656). -/
def execServiceHold15s (s : State) : Res :=
  if s.casing.standby then .next { s with casing := { s.casing with anchors := [], netStatic := none } } else .next s

/-- TRUST_WINDOW_EXPIRY (R656). -/
def execTrustWindowExpiry (s : State) : Res :=
  if windowOpen s then .next s else .next { s with casing := { s.casing with windowAt := none } }

end Sys2Proof.Machine
end

