-- ==== Sys2Proof/Machine/Jtag.lean ====
section
/-!
DEFINITION. Sys2Proof/Machine/Jtag.lean: the four TAPs of the test-access port (R627 to R631).
-/

namespace Sys2Proof.Machine

/-- Select an instruction on a TAP (R627). -/
def selectTap (s : State) (r : Nat) (op : Byte) (f : Tap → Tap) : Res :=
  .next ((s.setTap r (f { s.tap r with instruction := op, drives := false, floats := false })).emit (.tapSelected r op))

/-- IDCODE of rim r: stepping, part number, manufacturer, 1 (R628). -/
def idcodeOf (r : Nat) : Word := BitVec.ofNat 32 (0x10000000 + (0x7070 + r) * 4096 + Config.jep106.toNat * 2 + 1)

/-- TEST_LOGIC_RESET: IDCODE is selected (R627). -/
def execTestLogicReset (r : Nat) (s : State) : Res := selectTap s r 0x01 id

/-- EXTEST: the boundary register takes the pins shifted in and drives the rim I/O (R627, R629, R630). -/
def execExtest (r : Nat) (pins : List Bool) (s : State) : Res := selectTap s r 0x00 (fun x => { x with boundary := pins, drives := true })

/-- IDCODE (R627, R628). -/
def execIdcode (r : Nat) (s : State) : Res :=
  match selectTap s r 0x01 id with
  | .next t => .next (t.emit (.idcode r (idcodeOf r)))
  | .fault e => .fault e
  | .refused e => .refused e

/-- SAMPLE_PRELOAD: the boundary register takes the pins; the rim I/O stays with the engine (R627, R629). -/
def execSamplePreload (r : Nat) (pins : List Bool) (s : State) : Res := selectTap s r 0x02 (fun x => { x with boundary := pins })

/-- CLAMP: the boundary register drives the rim I/O (R627, R630). -/
def execClamp (r : Nat) (s : State) : Res := selectTap s r 0x03 (fun x => { x with drives := true })

/-- HIGHZ: the rim I/O floats (R627, R630). -/
def execHighz (r : Nat) (s : State) : Res := selectTap s r 0x04 (fun x => { x with floats := true })

/-- BYPASS: opcode 0xFF, and every opcode that R627 does not list. -/
def execBypass (r : Nat) (opcode : Byte) (s : State) : Res :=
  if opcode.toNat ≤ 4 then .next s else selectTap s r opcode id

end Sys2Proof.Machine
end

