-- ==== Sys2Proof/Machine/Requests.lean ====
section
/-!
DEFINITION. Sys2Proof/Machine/Requests.lean: requests that arrive at this wafer and the answers to its own (R400, R401, R436, R437, R440 to
R442, R461 to R464, R479, R484, R494, R495), and the peer inbox (R383 to R385).
-/

namespace Sys2Proof.Machine

/-! ## Packets that arrive -/

/-- The global address that a packet names on its target wafer (R480, R494). -/
def packetGlobal (p : Packet) : Nat := p.dstWafer.toNat * 2 ^ 56 + p.addr.toNat

/-- Bytes that a packet's LEN names. -/
def packetLen (p : Packet) : Nat := 64 * p.len.toNat

/-- A packet of one kind for this wafer, with no reserved encoding and with the wafer's ORIENT (R479, R495). -/
def forThis (s : State) (kind : Nat) (p : Packet) : Bool :=
  poweredUp s && decide (p.kind.toNat = kind) && decide (p.dstWafer.toNat = s.sys.waferNumber) && p.orient == s.fabric.orient
    && !packetReserved (packetBytes p)

/-- A packet is taken up: it no longer waits among those that have arrived. -/
def takeUp (s : State) (p : Packet) : State :=
  { s with fabric := { s.fabric with arrived := s.fabric.arrived.erase p } }

/-- Take up a packet of one kind and act on it. -/
def onPacket (s : State) (kind : Nat) (p : Packet) (f : State → State) : Res :=
  if forThis s kind p then .next (f (takeUp s p)) else .next (takeUp s p)

/-! ## Requests (R401, R462) -/

/-- Send the answer to a request (R461, R494). -/
def answer (s : State) (p : Packet) (kind : Nat) (len : BitVec 3) (code : Nat) (data : List Byte) : State :=
  sendPacket s { p with
    kind := BitVec.ofNat 4 kind, len := len, down := false, srcWafer := BitVec.ofNat 7 s.sys.waferNumber, dstWafer := p.srcWafer
    code := BitVec.ofNat 2 code, orient := s.fabric.orient, data := data }

/-- R437: a request from this wafer whose epoch is older than the target region's reset epoch. -/
def staleRequest (s : State) (p : Packet) : Bool :=
  let g := packetGlobal p
  decide (p.srcWafer.toNat = s.sys.waferNumber) && decide (gSpace g = 1) &&
    (planRegions s p.tenant.toNat).any (fun r =>
      r.members.contains (gCluster g) && decide (128 ≤ (p.epoch.toNat + 256 - r.resetEpoch.toNat) % 256))

/-- The cluster whose cistern the request names, when it is dormant (R442, R484). -/
def dormantTarget (s : State) (g : Nat) : Option Nat :=
  if gSpace g = 1 ∧ (s.cluster (gCluster g)).awake = false then some (gCluster g) else none

/-- No route leads from the rims to the cluster that a request names (R47). -/
def cutOff (s : State) (g : Nat) : Bool :=
  decide (gSpace g = 1) && !(List.range 4).any (fun r => rimJoined s.silicon.routers r (gCluster g))

/-- Serve a request: discard it, answer it with a NACK, or wake its target and carry it out (R401, R437, R442, R462); one whose target no
route reaches gets no answer (R47, log 115). -/
def serve (p : Packet) (f : State → State) (s : State) : State :=
  if staleRequest s p then s
  else
    match accessNack s p.tenant.toNat (packetGlobal p) (packetLen p) with
    | some code => answer s p 4 0 code []
    | none =>
      if cutOff s (packetGlobal p) then s else f (match dormantTarget s (packetGlobal p) with
         | some k => wakeDone s k
         | none => s)

/-- The bit ranges of a request. -/
def requestRange (p : Packet) : List (Nat × Nat) := [(packetGlobal p * 8, 8 * packetLen p)]

/-- Carry out a READ: what its ECC finds is recorded, and the bytes are answered (R307, R461, R526, R529; log 59). -/
def serveRead (p : Packet) (ecc : Ecc) (s : State) : State :=
  let data := bytesAt s (packetGlobal p) (packetLen p)
  answer (applyEcc s (gCluster (packetGlobal p)) ecc (requestRange p)) p 2 p.len 0 data

/-- What the ECC finds in the lines that a WRITE covers only in part, because its ADDR lies inside a granule (R530). -/
def mergeWrite (p : Packet) (ecc : Ecc) (s : State) : State :=
  if p.addr.toNat % 64 = 0 then s else applyEcc s (gCluster (packetGlobal p)) ecc (requestRange p)

/-- Carry out a WRITE: the bytes become visible, then WRITE_ACK is sent (R463). -/
def serveWrite (p : Packet) (ecc : Ecc) (s : State) : State :=
  answer (putBytes (mergeWrite p ecc s) (packetGlobal p) (p.data.take (packetLen p))) p 3 0 0 []

/-- READ (R401). -/
def execRead (pkt : Packet) (ecc : Ecc) (s : State) : Res := onPacket s 0 pkt (serve pkt (serveRead pkt ecc))

/-- WRITE (R463). -/
def execWrite (pkt : Packet) (ecc : Ecc) (s : State) : Res := onPacket s 1 pkt (serve pkt (serveWrite pkt ecc))

/-! ## Answers (R436, R463) -/

/-- The record that an answer matches: transaction and epoch (R436). -/
def recordOf (s : State) (p : Packet) : Option Outstanding :=
  s.work.outstanding.find? (fun o => decide (o.txn = p.txn.toNat) && o.epoch == p.epoch)

/-- Drop a record. -/
def dropOutstanding (s : State) (o : Outstanding) : State :=
  { s with work := { s.work with outstanding := s.work.outstanding.erase o } }

/-- Keep the bytes that a READ brought. -/
def landGranule (s : State) (o : Outstanding) (data : List Byte) : State :=
  { s with work := { s.work with
      fetched := writeBytes 0 s.work.fetched o.addr data, landed := s.work.landed ++ [(o.uid, o.cluster, o.addr)] } }

/-- READ_DATA (R436): accepted when it matches the record of a READ. -/
def execReadData (pkt : Packet) (s : State) : Res :=
  onPacket s 2 pkt (fun s =>
    match recordOf s pkt with
    | none => s
    | some o => if o.isWrite then s else landGranule (dropOutstanding s o) o (pkt.data.take (64 * o.len)))

/-- WRITE_ACK (R463): the remote write is complete. -/
def execWriteAck (pkt : Packet) (s : State) : Res :=
  onPacket s 3 pkt (fun s =>
    match recordOf s pkt with
    | none => s
    | some o => if o.isWrite then dropOutstanding s o else s)

/-- NACK (R401, R441): the requesting clause stops with REMOTE_ABSENT or ACCESS_DENIED. -/
def execNack (pkt : Packet) (s : State) : Res :=
  onPacket s 4 pkt (fun s =>
    match recordOf s pkt with
    | none => s
    | some o => faultMember (dropOutstanding s o) o.cluster o.uid (nackVerdict pkt.code.toNat))

/-- REQUEST_TIMEOUT (R440): a request without an answer for its tenant's request timeout stops its clause with TIMEOUT. -/
def execRequestTimeout (txn : Nat) (s : State) : Res :=
  match s.work.outstanding.find? (fun o => o.txn = txn) with
  | none => .next s
  | some o =>
    if o.issuedAt + requestTimeout (s.tenant o.tenant) ≤ s.nowUs then
      .next (faultMember (dropOutstanding s o) o.cluster o.uid { status := stTimeout })
    else .next s

/-! ## The peer inbox (R383 to R385) -/

/-- Word 0 of a peer message and its fields: TYPE, the source wafer and SEQ (R385). -/
def peerWord0 (m : PeerMsg) : Nat := leNat (m.data.take 4)
def peerType (m : PeerMsg) : Nat := bits (peerWord0 m) 7 0
def peerSrc (m : PeerMsg) : Nat := bits (peerWord0 m) 14 8
def peerSeq (m : PeerMsg) : Nat := bits (peerWord0 m) 31 16

/-- ADDR of the peer inbox: offset 0 of the control space, with CLUSTER 0x7FF (R480, R483). -/
def inboxAddr : Nat := 3 * 2 ^ 52 + 0x7FF * 2 ^ 41

/-- A CONTROL packet that carries a peer message: 64 bytes for the peer inbox (R383, R461, R483). -/
def isPeerPacket (p : Packet) : Bool := decide (p.addr.toNat = inboxAddr) && decide (p.len.toNat = 1) && decide (p.data.length = 64)

/-- A message reaches the peer inbox, or finds it full (R383, R384). -/
def deliverPeer (msg : PeerMsg) (s : State) : State :=
  if s.fabric.inbox.length < 256 then { s with fabric := { s.fabric with inbox := s.fabric.inbox ++ [msg] } }
  else { s with sys := { s.sys with peerDrops := satInc 0xFFFF s.sys.peerDrops } }

/-- CONTROL (R383, R384, R483): the packet is taken up, and its message goes into the peer inbox; one for another place of the control space
changes nothing. -/
def execControl (msg : ControlMsg) (s : State) : Res :=
  onPacket s 5 msg.pkt (fun s => if isPeerPacket msg.pkt then deliverPeer { data := msg.pkt.data, body := msg.body } s else s)

/-- R385: SEQ is above the last one accepted from that source, modulo 2^16; nothing has been accepted yet where the table holds 0. -/
def freshSeq (last seq : Nat) : Bool :=
  decide (last = 0) || (let d := (seq + 65537 - last) % 65536; decide (1 ≤ d ∧ d ≤ 32767))

/-- TYPE of contents, as R487 numbers them; 0 for none of these. -/
def bodyType : PeerBody → Nat
  | .other => 0
  | .hello .. => 1
  | .links .. => 2
  | .map .. => 3
  | .routes .. => 4
  | .status .. => 5
  | .switch .. => 6
  | .primary .. => 7

/-- TYPE is one that R487 lists, and the contents are of that type. -/
def knownPeer (m : PeerMsg) : Bool := peerType m = bodyType m.body && bodyType m.body ≠ 0

/-- One message of the inbox is accepted or discarded (R385, R487). -/
def pollMessage (x : Fabric) (m : PeerMsg) : Fabric :=
  if knownPeer m && freshSeq (tget 0 x.lastSeq (peerSrc m)) (peerSeq m) then
    { x with lastSeq := tset 0 x.lastSeq (peerSrc m) (peerSeq m + 1), accepted := x.accepted ++ [m] }
  else x

/-- PEER_INBOX_POLL (R383, R385): the accepted messages wait for their commands. -/
def execPeerInboxPoll (s : State) : Res :=
  if firmwareRuns s then .next { s with fabric := s.fabric.inbox.foldl pollMessage { s.fabric with inbox := [] } } else .next s

end Sys2Proof.Machine
end

