-- ==== Sys2Proof/Machine/Discovery.lean ====
section
/-!
DEFINITION. Sys2Proof/Machine/Discovery.lean: what a wafer knows of the fabric's links, numbers, ranks and routes, and the shared operations
of discovery and routing (R465 to R474, R478, R479, R487 to R491, R497).
-/

namespace Sys2Proof.Machine

/-! ## The graph of UP links -/

/-- A wafer's UP links: link, peer serial, peer link. -/
abbrev UpLink := Nat × Nat × Nat

/-- A report's link is UP or UP_SPARED (R498). -/
def reportUp (r : LinkReport) : Bool := decide (r.state.toNat = 2 ∨ r.state.toNat = 3)

/-- What this wafer reports of one of its links (R487). -/
def ownReport (s : State) (l : Nat) : LinkReport :=
  let x := s.link l
  { state := BitVec.ofNat 4 x.status, peerSerial := x.peerSerial, peerLink := BitVec.ofNat 5 x.peerLink }

/-- The reports of all the links of a wafer, by its serial: this wafer's own, or those of its LINKS messages. -/
def reportsOf (s : State) (serial : DWord) : List (Nat × LinkReport) :=
  if serial = s.sys.serial then (List.range 24).map (fun l => (l, ownReport s l))
  else
    match s.fabric.wafers.find? (fun w => w.serial = serial) with
    | none => []
    | some w => (List.range 4).flatMap (fun part =>
        (tget [] w.reports part).mapIdx (fun i r => (6 * part + i, r)))

/-- The UP links of a wafer as it reports them. -/
def claimedLinks (s : State) (serial : DWord) : List UpLink :=
  (reportsOf s serial).filterMap (fun e => if reportUp e.2 then some (e.1, e.2.peerSerial.toNat, e.2.peerLink.toNat) else none)

/-- The UP links of a wafer that both ends report. -/
def upLinks (s : State) (serial : DWord) : List UpLink :=
  (claimedLinks s serial).filter (fun e =>
    (claimedLinks s (BitVec.ofNat 64 e.2.1)).contains (e.2.2, serial.toNat, e.1))

/-- Serials at the other ends of a wafer's UP links, ascending. -/
def neighbours (s : State) (serial : DWord) : List Nat :=
  (((upLinks s serial).map (fun e => e.2.1)).dedup).insertionSort (· ≤ ·)

/-- Every wafer that this one or a report names (R465). -/
def knownWafers (s : State) : List Nat :=
  (s.sys.serial.toNat :: (claimedLinks s s.sys.serial).map (fun e => e.2.1)
    ++ s.fabric.wafers.flatMap (fun w => w.serial.toNat :: (claimedLinks s w.serial).map (fun e => e.2.1))).dedup

/-- A wafer has reported all its links. -/
def reportedAll (s : State) (serial : Nat) : Bool :=
  decide (serial = s.sys.serial.toNat) ||
    s.fabric.wafers.any (fun w => decide (w.serial.toNat = serial) && (List.range 4).all (fun part => !(tget [] w.reports part).isEmpty))

/-! ## Numbers and ranks (R467 to R470) -/

/-- The number of a serial. -/
def numberOf (x : Fabric) (serial : Nat) : Option Nat := (x.serials.find? (fun e => e.2.toNat = serial)).map (fun e => e.1)

/-- The lowest free number (R467, R470), below MAX_WAFERS. -/
def freeNumber (x : Fabric) : Option Nat := (List.range x.maxWafers).find? (fun n => tget 0 x.serials n = 0)

/-- A wafer's number: its former one, or the lowest free one (R467, R470). Its level is one more than its lowest-level numbered neighbour's;
in the numbering of a new fabric this is its hop distance from wafer 0 (R468). -/
def giveNumber (s : State) (x : Fabric) (serial : Nat) : Fabric :=
  let near := ((neighbours s (BitVec.ofNat 64 serial)).filterMap (numberOf x)).filter (fun n => x.present.contains n)
  let level := match near.map (tget 0 x.levels) with
    | [] => 0
    | n :: ns => ns.foldl min n + 1
  let take (x : Fabric) (n : Nat) : Fabric :=
    if x.present.contains n then x
    else { x with
      serials := tset 0 x.serials n (BitVec.ofNat 64 serial), present := (n :: x.present).insertionSort (· ≤ ·)
      levels := tset 0 x.levels n level }
  match numberOf x serial with
  | some n => take x n
  | none =>
    match freeNumber x with
    | some n => take x n
    | none => x

/-- Number the wafers breadth-first from a queue: the neighbours of each wafer in ascending serial (R467). -/
def numberFrom (s : State) : Nat → List Nat → List Nat → Fabric → Fabric
  | 0, _, _, x => x
  | _, [], _, x => x
  | n + 1, w :: queue, seen, x =>
    let x := giveNumber s x w
    let next := (neighbours s (BitVec.ofNat 64 w)).filter (fun p => !seen.contains p)
    numberFrom s n (queue ++ next) (seen ++ next) x

/-- Number every wafer that the coordinator can reach (R467, R470). -/
def numberWafers (s : State) : State :=
  let own := s.sys.serial.toNat
  setFabric s (numberFrom s (knownWafers s).length [own] [own])

/-- The level of every present wafer as its hop distance from a wafer, for R479. -/
def hopLevels (s : State) (own : DWord) : Nat → List Nat → Tab Nat → Tab Nat
  | 0, _, t => t
  | n + 1, ring, t =>
    let next := (((ring.flatMap (fun w => neighbours s (tget 0 s.fabric.serials w))).filterMap (numberOf s.fabric)).filter (fun w =>
      s.fabric.present.contains w && decide (tget 0 t w = 0) && decide (tget 0 s.fabric.serials w ≠ own))).dedup
    let d := match ring with
      | [] => 0
      | w :: _ => tget 0 t w
    if next.isEmpty then t else hopLevels s own n next (next.foldl (fun t w => tset 0 t w (d + 1)) t)

/-- The wafer that levels count from: wafer 0, or the coordinator's own while wafer 0 is not present (R468). -/
def rootWafer (s : State) : Nat := if s.fabric.present.contains 0 then 0 else s.fabric.number.getD 0

/-- Levels recomputed with the numbers unchanged (R479). -/
def freshLevels (s : State) : Tab Nat :=
  let r := rootWafer s
  hopLevels s (tget 0 s.fabric.serials r) s.fabric.present.length [r] []

/-! ## Routes (R473, R474) -/

/-- A distance that no route has. -/
def farAway : Nat := 1000

/-- Rank a is below rank b (R468). -/
def rankBelow (lv : Tab Nat) (a b : Nat) : Bool :=
  decide (tget 0 lv a < tget 0 lv b) || (decide (tget 0 lv a = tget 0 lv b) && decide (a < b))

/-- The present wafers at the other ends of a wafer's UP links: link and number. -/
def wafersNear (s : State) (n : Nat) : List (Nat × Nat) :=
  (upLinks s (tget 0 s.fabric.serials n)).filterMap (fun e =>
    match numberOf s.fabric e.2.1 with
    | some m => if s.fabric.present.contains m && m ≠ n then some (e.1, m) else none
    | none => none)

/-- The present wafers in ascending rank. -/
def byRank (s : State) (lv : Tab Nat) : List Nat := s.fabric.present.insertionSort (fun a b => a = b || rankBelow lv a b)

/-- Least of some distances, plus one hop. -/
def hopAfter (ds : List Nat) : Nat := min farAway (ds.foldl min farAway + 1)

/-- Length of the shortest route of descents to a wafer, from each wafer: those of higher rank come first. -/
def downTable (s : State) (lv : Tab Nat) (dest : Nat) : Tab Nat :=
  (byRank s lv).reverse.foldl (fun t n =>
    let v := if n = dest then 0 else
      hopAfter (((wafersNear s n).filter (fun e => rankBelow lv n e.2)).map (fun e => tget farAway t e.2))
    tset farAway t n v) []

/-- Length of the shortest legal route to a wafer, from each wafer: those of lower rank come first (R473). -/
def anyTable (s : State) (lv : Tab Nat) (down : Tab Nat) : Tab Nat :=
  (byRank s lv).foldl (fun t n =>
    let climb := hopAfter (((wafersNear s n).filter (fun e => rankBelow lv e.2 n)).map (fun e => tget farAway t e.2))
    tset farAway t n (min (tget farAway down n) climb)) []

/-- A mask of links. -/
def linkMask (ls : List Nat) : BitVec 24 := BitVec.ofNat 24 (ls.dedup.foldl (fun m l => m + 2 ^ l) 0)

/-- The table entry of one wafer for one destination (R474). -/
def routeTo (s : State) (lv : Tab Nat) (me dest : Nat) : Route :=
  if dest = me then { state := 0 }
  else if s.fabric.present.contains dest then
    let down := downTable s lv dest
    let any := anyTable s lv down
    let near := wafersNear s me
    let downs := near.filter (fun e => rankBelow lv me e.2 && decide (tget farAway down e.2 < farAway))
    let climbs := near.filter (fun e => rankBelow lv e.2 me && decide (tget farAway any e.2 < farAway))
    { state := 1
      mAny := linkMask ((downs.filter (fun e => tget farAway down e.2 + 1 = tget farAway any me)
        ++ climbs.filter (fun e => tget farAway any e.2 + 1 = tget farAway any me)).map (fun e => e.1))
      mDown := linkMask ((downs.filter (fun e => tget farAway down e.2 + 1 = tget farAway down me)).map (fun e => e.1)) }
  else if tget 0 s.fabric.serials dest ≠ 0 then { state := 2 }
  else { state := 3 }

/-- The whole table of one wafer. -/
def routeTable (s : State) (lv : Tab Nat) (me : Nat) : Tab Route :=
  (List.range 128).foldl (fun t d => tset {} t d (routeTo s lv me d)) []

/-- Wafers that links join, whatever their orientation, to the coordinator's. -/
def reachable (s : State) : List Nat :=
  let lv := freshLevels s
  s.fabric.present.filter (fun n => decide (n = rootWafer s) || decide (tget 0 lv n ≠ 0))

/-- Every joined wafer has a legal route to every other (R478). -/
def allLegal (s : State) (lv : Tab Nat) : Bool :=
  let ws := reachable s
  ws.all (fun d =>
    let any := anyTable s lv (downTable s lv d)
    ws.all (fun n => decide (tget farAway any n < farAway)))

/-! ## Sending peer messages (R487) -/

/-- Wafers other than this one that are present. -/
def others (s : State) : List Nat := s.fabric.present.filter (fun n => some n ≠ s.fabric.number)

/-- The coordinator's number as this wafer knows it, 0 before it has a map. -/
def coordinatorNumber (s : State) : Nat := (numberOf s.fabric s.fabric.candidate.toNat).getD 0

/-- The source wafer number of this wafer's messages (R385): a wafer that has no number yet sends a free one (log 79). -/
def ownSource (s : State) : Nat :=
  match s.fabric.number with
  | some n => n % 128
  | none => Config.freeNat s.freeCtr % 128

/-- Send a peer message with its word 0, TYPE, source and SEQ (R385). -/
def emitPeer (s : State) (dst : Option Nat) (b : PeerBody) : State :=
  let w := bodyType b + 2 ^ 8 * ownSource s + 2 ^ 16 * s.fabric.sendSeq.toNat
  ({ s with
      fabric := { s.fabric with sendSeq := s.fabric.sendSeq + 1 }
      freeCtr := if s.fabric.number.isNone then s.freeCtr + 1 else s.freeCtr }).emit (.peer dst w b)

/-- Send something to each of some wafers. -/
def emitEach (s : State) (ws : List Nat) (bodies : Nat → List PeerBody) : State :=
  ws.foldl (fun s w => (bodies w).foldl (fun s b => emitPeer s (some w) b) s) s

/-- HELLO on each UP link. -/
def emitHello (s : State) : State :=
  let x := s.fabric
  ((List.range 24).filter (fun l => linkUp (s.link l))).foldl (fun s l =>
    emitPeer s none (.hello (Fin.ofNat 24 l) s.sys.serial (BitVec.ofNat 5 l) x.fabricId x.candidate
      (BitVec.ofNat 8 (x.number.getD 0xFF)) x.level)) s

/-- LINKS in its four parts. -/
def emitLinks (s : State) : State :=
  if s.fabric.coordinator then s
  else
    emitEach s [coordinatorNumber s] (fun _ => (List.range 4).map (fun part =>
      .links s.sys.serial (Fin.ofNat 4 part) ((List.range 6).map (fun i => ownReport s (6 * part + i)))))

/-- Cut a list into parts of n. -/
def chunksOf {α : Type} (n : Nat) : Nat → List α → List (List α)
  | 0, _ => []
  | _, [] => []
  | fuel + 1, l => l.take n :: chunksOf n fuel (l.drop n)

/-- MAP in parts of six entries. -/
def emitMap (s : State) : State :=
  let x := s.fabric
  if x.coordinator && x.number.isSome then
    emitEach s (others s) (fun _ => (chunksOf 6 128 x.serials).map (fun es =>
      .map x.fabricId x.maxWafers x.present.length (BitVec.ofNat 128 (x.present.foldl (fun m n => m + 2 ^ n) 0)) es))
  else s

/-- The sixteen parts of a table. -/
def routeParts (g : Nat) (orient shadow : Bool) (t : Tab Route) : List PeerBody :=
  (List.range 16).map (fun i => .routes g orient shadow ((List.range 8).map (fun j =>
    let r := tget {} t (8 * i + j)
    { dest := BitVec.ofNat 7 (8 * i + j), state := BitVec.ofNat 2 r.state, mAny := r.mAny, mDown := r.mDown })))

/-- ROUTES: every wafer's table, and its shadow table while one is being set up. -/
def emitRoutes (s : State) : State :=
  let x := s.fabric
  if x.coordinator && x.number.isSome then
    emitEach s (others s) (fun w =>
      routeParts x.generation x.orient false (routeTable s x.levels w)
        ++ (if x.generation < x.shadowGeneration then routeParts x.shadowGeneration (!x.orient) true (routeTable s x.shadowLevels w) else []))
  else s

/-- STATUS. -/
def emitStatus (s : State) : State :=
  let x := s.fabric
  match x.number with
  | none => s
  | some n =>
    if x.coordinator then s
    else
      emitEach s [coordinatorNumber s] (fun _ =>
        [.status (BitVec.ofNat 7 n) x.generation x.shadowGeneration x.orient
          (linkMask ((List.range 24).filter (fun l => linkUp (s.link l))))])

/-- SWITCH, while some wafer has not reported the new ORIENT. -/
def emitSwitch (s : State) : State :=
  let x := s.fabric
  if x.coordinator && x.switching then emitEach s (others s) (fun _ => [.switch (max x.generation x.shadowGeneration)]) else s

/-- PRIMARY, for 1 s after a failover. -/
def emitPrimary (s : State) : State :=
  if s.nowUs < s.fabric.primaryUntil then
    emitEach s (others s) (fun _ => [.primary s.sys.primarySouth (BitVec.ofNat 8 s.sys.failovers)])
  else s

/-! ## Entering the states of discovery (R465) -/

/-- The wafer has left discovery: step 9 ends when it is the step that runs. -/
def leaveDiscovery (s : State) : State := if stepRuns s 9 then bootReady s else s

/-- RUNNING. -/
def enterRunning (s : State) : State := leaveDiscovery (setFabric s (fun x => { x with phase := .running }))

/-- EXCLUDED or CONFLICT: the links carry no traffic (R465, R472, R491, R498). -/
def enterIsolated (s : State) (phase : Discovery) : State :=
  let s := (List.range 24).foldl (fun s l =>
    let x := s.link l
    if linkUp x || decide (x.status = 4) then s.setLink l { freshLink x with status := 9, txq := [] } else s) s
  leaveDiscovery (raiseAlert (setFabric s (fun x => { x with phase := phase, coordinator := false })) alFabric)

/-- The outcome of numbering in the global page (R396, R472). -/
def showNumber (s : State) : State :=
  { s with sys := { s.sys with waferNumber := s.fabric.number.getD 0, waferCount := max 1 s.fabric.present.length } }

/-- Every present wafer but this one has reported something. -/
def allReport (s : State) (ok : WaferInfo → Bool) : Bool :=
  (others s).all (fun n => s.fabric.wafers.any (fun w => decide (w.serial = tget 0 s.fabric.serials n) && ok w))

/-- NUMBER becomes RUNNING once every numbered wafer reports the generation installed (R465). -/
def tryRunning (s : State) : State :=
  if s.fabric.phase = .number && allReport s (fun w => decide (w.installed = s.fabric.generation)) then enterRunning s else s

/-- New masks under the unchanged ranks (R478). -/
def recompute (s : State) : State :=
  let x := s.fabric
  let s := setFabric s (fun y => { y with
    generation := max x.generation x.shadowGeneration + 1, routes := routeTable s x.levels (x.number.getD 0) })
  emitRoutes (emitMap (showNumber s))

/-- Stop injecting new requests (R479). -/
def pauseInjection (s : State) : State := setFabric s (fun x => { x with pausedAt := some (x.pausedAt.getD s.nowUs) })

/-- Once every wafer has the shadow installed, SWITCH is sent, and this wafer pauses too (R479). -/
def trySwitch (s : State) : State :=
  let x := s.fabric
  if x.coordinator && !x.switching && decide (x.generation < x.shadowGeneration)
      && allReport s (fun w => decide (w.shadow = x.shadowGeneration)) then
    pauseInjection (emitSwitch (setFabric s (fun x => { x with switching := true })))
  else s

/-- Reorient: levels recomputed with the numbers unchanged, tables sent as a shadow set (R479). -/
def reorient (s : State) : State :=
  let x := s.fabric
  let lv := freshLevels s
  let s := setFabric s (fun y => { y with
    shadowLevels := lv, shadowGeneration := max x.generation x.shadowGeneration + 1
    shadowRoutes := routeTable s lv (x.number.getD 0), switching := false })
  trySwitch (emitRoutes (emitMap (showNumber s)))

/-- The coordinator recomputes the routes after a change of the UP links or the present wafers (R478, R479); while a SWITCH is under way, not
before it is over. -/
def reroute (s : State) : State := if s.fabric.switching then s else if allLegal s s.fabric.levels then recompute s else reorient s

/-- When no link to a present wafer is UP, from when on (R490). -/
def noteCut (s : State) : State :=
  setFabric s (fun x => { x with wafers := x.wafers.map (fun w =>
    if (neighbours s w.serial).isEmpty then { w with cutAt := some (w.cutAt.getD s.nowUs) } else { w with cutAt := none }) })

/-- The coordinator numbers the fabric: numbers, ranks, routes, MAP and ROUTES (R465, R467 to R469). With a numbering from before its
election it keeps every number and FABRIC_ID and sets the ranks anew by a shadow set (R488; log 60). -/
def numberFabric (s : State) : State :=
  let again := s.fabric.number.isSome
  let s := setFabric s (fun x => { x with phase := .number, coordinator := true, present := [] })
  let s := numberWafers s
  let s := setFabric s (fun x => { x with
    number := numberOf x s.sys.serial.toNat, level := 0, lost := 0, fabricId := if x.fabricId = 0 then s.sys.serial else x.fabricId })
  tryRunning (if again then reorient s else recompute s)

/-- COLLECT becomes NUMBER when enough wafers are known and each has reported all its links, or the window has passed (R465). -/
def tryNumber (s : State) : State :=
  let ws := knownWafers s
  if s.fabric.phase = .collect &&
      ((decide (s.fabric.minWafers ≤ ws.length) && ws.all (reportedAll s)) || decide (s.fabric.stepStart + 1000 * s.fabric.window ≤ s.nowUs))
  then numberFabric s
  else s

/-- A change of the links that this wafer knows of: the coordinator numbers wafers that have come and recomputes, a member reports its
links (R470, R478, R487). -/
def linksChanged (s : State) : State :=
  let s := noteCut s
  if !firmwareRuns s then s
  else if !s.fabric.coordinator then emitLinks s
  else if s.fabric.phase = .number || s.fabric.phase = .running then tryRunning (reroute (numberWafers s))
  else tryNumber s

end Sys2Proof.Machine
end

