-- ==== Sys2Proof/Machine/Links.lean ====
section
/-!
DEFINITION. Sys2Proof/Machine/Links.lean: frames, skip frames, lane failures, training and modules of the fabric's links (R446 to R461, R474,
R477, R479, R489, R491, R493, R495, R498, R646, R647).
-/

namespace Sys2Proof.Machine

/-! ## Receiving a frame (R452 to R459) -/

/-- A frame is good (R454): FEC decoding has succeeded, the CRC matches, and FSEQ is one above the last good one. -/
def frameGood (x : Link) (fec : Option Nat) (msg : List Byte) : Bool :=
  fec.isSome && frameCrcOk msg && decide ((frameOf msg).fseq = (x.lastGood + 1) % 4096)

/-- Count the symbols that FEC corrected (R578). -/
def countFec (x : Link) (fec : Option Nat) : Link := { x with fecCorrected := min 0xFFFFFFFF (x.fecCorrected + fec.getD 0) }

/-- A frame of the replay buffer is at or before an ACK_SEQ (R455): 512 frames span less than half of the sequence. -/
def ackCovers (ack fseq : Nat) : Bool := decide ((ack + 4096 - fseq) % 4096 < 2048)

/-- What the header of a good frame says: acknowledgement and credits (R455, R459). -/
def takeHeader (x : Link) (f : Frame) : Link :=
  let kept := x.replay.filter (fun e => !ackCovers f.ack e.1)
  { x with
    lastGood := f.fseq, replay := kept, nakCount := if kept.length < x.replay.length then 0 else x.nakCount
    credits := if f.creditVc < 3 then modAt x.credits f.creditVc (· + f.credits) else x.credits }

/-- Send the frames of the replay buffer again, with REPLAYED set (R455). -/
def resendAll (s : State) (l : Nat) : State :=
  (s.link l).replay.foldl (fun s e =>
    let x := s.link l
    emitFrame (s.setLink l { headerSent x with replayed := satInc 0xFFFFFFFF x.replayed }) l
      (frameMessage (linkFrame x e.1 true e.2.1 e.2.2))) s

/-- A NAK: resend, or retrain at the sixteenth without progress (R455). -/
def takeNak (s : State) (l : Nat) : State :=
  let x := s.link l
  if 16 ≤ x.nakCount + 1 then goRetrain s l else resendAll (s.setLink l { x with nakCount := x.nakCount + 1 }) l

/-- Append the slots of a good frame to the streams of their channels (R458). -/
def takeSlots (x : Link) (f : Frame) : Link :=
  { x with streams := (List.range 3).map (fun v =>
      x.streams.getD v [] ++ (List.range 25).flatMap (fun i => if f.vcs.getD i 3 = v then (f.payload.drop (16 * i)).take 16 else [])) }

/-! ## Packets out of the streams (R458, R461, R495) -/

/-- Bytes of the packet that a stream begins with: its header and, unless it is a READ or its LEN is reserved, LEN granules. -/
def streamPacketBytes (bs : List Byte) : Nat :=
  let h := leNat (bs.take 16)
  if bits h 3 0 = 0 ∨ 5 ≤ bits h 6 4 then 16 else 16 + 64 * bits h 6 4

/-- The first whole packet of a stream and the rest of the stream. -/
def firstPacket (bs : List Byte) : Option (List Byte × List Byte) :=
  if bs.length < 16 ∨ bs.length < streamPacketBytes bs then none
  else some (bs.take (streamPacketBytes bs), bs.drop (streamPacketBytes bs))

/-- Every whole packet of a stream, and what is left. -/
def takePackets : Nat → List Byte → List (List Byte) × List Byte
  | 0, bs => ([], bs)
  | n + 1, bs =>
    match firstPacket bs with
    | none => ([], bs)
    | some (p, rest) => let r := takePackets n rest; (p :: r.1, r.2)

/-- A transit packet crosses from the rim of link l to that of the link chosen for it: inside one rim, or over on-wafer routes (R476, R477); where
no route joins the two rims it is lost. -/
def crosses (s : State) (l : Nat) (p : Packet) : Bool :=
  match chooseLink s p with
  | some m => decide (m / 6 = l / 6) || rimsJoined s.silicon.routers (l / 6) (m / 6)
  | none => false

/-- What a rim does with a packet of a link: it counts one with a reserved encoding, discards one of another ORIENT, keeps one for this
wafer and passes the others on (R474, R477, R479, R495). -/
def deliverPacket (s : State) (l : Nat) (bs : List Byte) : State :=
  let p := packetOf bs
  if packetReserved bs then s.setLink l { s.link l with malformed := satInc 0xFFFF (s.link l).malformed }
  else if p.orient ≠ s.fabric.orient then s
  else if p.dstWafer.toNat = s.sys.waferNumber then setFabric s (fun x => { x with arrived := x.arrived ++ [p] })
  else if crosses s l p then sendPacket s p else s

/-- Take the whole packets of one channel; the slots they leave are credits owed (R459). -/
def drainStream (s : State) (l v : Nat) : State :=
  let x := s.link l
  let bs := x.streams.getD v []
  let r := takePackets (bs.length / 16) bs
  let y := { x with
    streams := modAt x.streams v (fun _ => r.2), creditsOwed := modAt x.creditsOwed v (· + (bs.length - r.2.length) / 16) }
  r.1.foldl (fun s p => deliverPacket s l p) (s.setLink l y)

/-- Take the packets of the three channels, CTL first (R460). -/
def drainStreams (s : State) (l : Nat) : State := drainStream (drainStream (drainStream s l 2) l 1) l 0

/-! ## Answering a frame -/

/-- Send a header when one is owed and no frame has carried it (R454, R459; log 62). -/
def answerFrame (s : State) (l fseqBefore : Nat) (owed : Bool) : State :=
  let x := s.link l
  if owed && linkUp x && decide (x.fseq = fseqBefore) && decide (x.replay.length < 512) then sendFrame s l [] [] else s

/-- A good frame (R454 to R459). -/
def goodFrame (s : State) (l : Nat) (f : Frame) : State :=
  let n := (s.link l).fseq
  let s := s.setLink l (takeSlots (takeHeader (s.link l) f) f)
  let s := if f.nak then takeNak s l else s
  answerFrame (pumpAll (drainStreams s l) l) l n (f.vcs.any (fun v => decide (v < 3)))

/-- FRAME_RECEIVE (R454). -/
def execFrameReceive (l : Nat) (fec : Option Nat) (frame : List Byte) (s : State) : Res :=
  let msg := frame.take 416
  if poweredUp s && linkUp (s.link l) && !rimTaken s (l / 6) then
    let x := countFec (s.link l) fec
    if frameGood x fec msg then .next (goodFrame (s.setLink l x) l (frameOf msg))
    else .next (answerFrame (s.setLink l { x with nakOwed := true }) l x.fseq true)
  else .next s

/-- SKIP_FRAME (R457): after 4,096 frames. -/
def execSkipFrame (l : Nat) (s : State) : Res :=
  let x := s.link l
  if poweredUp s && linkUp x && decide (4096 ≤ x.sinceSkip) && decide (x.replay.length < 512) then
    let s := sendFrame s l [] []
    .next (s.setLink l { s.link l with sinceSkip := 0 })
  else .next s

/-! ## Lanes and training (R450, R451) -/

/-- LANE_FAILURE (R450, R491): a data lane of an UP link is spared by a retrain; a link on its spare goes DOWN. -/
def execLaneFailure (l lane : Nat) (s : State) : Res :=
  let x := s.link l
  if !poweredUp s then .next s
  else if x.status = 2 then
    if lane < 4 then .next (linksChanged (raiseAlert (goRetrain (s.setLink l { x with spareFor := lane }) l) alFabric)) else .next s
  else if x.status = 3 && decide (lane ≠ x.spareFor) then .next (linksChanged (goDown s l))
  else .next s

/-- STATE of a link whose training has succeeded: on an excluded or conflicting wafer it carries no traffic (R465, R498). -/
def trainedStatus (s : State) (x : Link) : Nat :=
  match s.fabric.phase with
  | .excluded => 9
  | .conflict => 9
  | .linkTrain => if x.spareFor < 4 then 3 else 2
  | .elect => if x.spareFor < 4 then 3 else 2
  | .collect => if x.spareFor < 4 then 3 else 2
  | .number => if x.spareFor < 4 then 3 else 2
  | .await => if x.spareFor < 4 then 3 else 2
  | .running => if x.spareFor < 4 then 3 else 2

/-- A training that fails leaves the link DOWN; it was not up, so this is none of the three falls of R451 (log 63). -/
def trainFailed (s : State) (l : Nat) : State :=
  raiseAlert (s.setLink l { s.link l with status := 5, downAt := s.nowUs }) alFabric

/-- A retrain ends well: what the replay buffer holds is sent again, and waiting packets go (R455, R489). -/
def retrained (s : State) (l : Nat) : State :=
  let x := s.link l
  let y := { x with status := trainedStatus s x, trainFails := 0, retrains := satInc 0xFFFF x.retrains }
  pumpAll (resendAll (s.setLink l y) l) l

/-- A retrain fails: after three in succession the link is DOWN (R451). -/
def retrainFailed (s : State) (l : Nat) : State :=
  let x := s.link l
  let y := { x with trainFails := x.trainFails + 1, retrains := satInc 0xFFFF x.retrains }
  if 3 ≤ y.trainFails then goDown (s.setLink l y) l else s.setLink l y

/-- LINK_TRAINING_DONE (R451). A cage without a module cannot train. -/
def execLinkTrainingDone (l : Nat) (ok : Bool) (s : State) : Res :=
  let x := s.link l
  if !poweredUp s then .next s
  else if x.status = 1 then
    if ok && (tget {} s.fabric.cages l).present then
      .next (linksChanged (s.setLink l { freshLink x with status := trainedStatus s x }))
    else .next (linksChanged (trainFailed s l))
  else if x.status = 4 then .next (linksChanged (if ok then retrained s l else retrainFailed s l))
  else .next s

/-- A link may train: it is enabled, and its cage holds no module in low-power mode (R646). -/
def mayTrain (s : State) (l : Nat) : Bool :=
  let cage := tget {} s.fabric.cages l
  poweredUp s && stepDone s 8 && bit s.fabric.linkEnable.toNat l && !(cage.present && cage.lowPower)

/-- LINK_RETRY (R451): a DOWN link tries again after 1 s. -/
def execLinkRetry (l : Nat) (s : State) : Res :=
  let x := s.link l
  if mayTrain s l && decide (x.status = 5) && decide (x.downAt + 1000000 ≤ s.nowUs) then .next (s.setLink l { x with status := 1 })
  else .next s

/-- LINK_HOLD_EXPIRY (R451): after 60 s a held link may train. -/
def execLinkHoldExpiry (l : Nat) (s : State) : Res :=
  let x := s.link l
  if mayTrain s l && decide (x.status = 6) && decide (x.downAt + 60000000 ≤ s.nowUs) then .next (s.setLink l { x with status := 1 })
  else .next s

/-! ## Modules (R646, R647) -/

/-- QSFP_INSERT (R646, R647): the module is read; at 16 W or less its link trains, otherwise it stays in low-power mode, the link DOWN.
While the wafer is off or before step 9, the module only stands in its cage. -/
def execQsfpInsert (l watts : Nat) (s : State) : Res :=
  let put (low : Bool) : State := setFabric s (fun x => { x with cages := tset {} x.cages l { present := true, watts := watts, lowPower := low } })
  if poweredUp s && stepDone s 8 && bit s.fabric.linkEnable.toNat l then
    if 16 < watts then .next (raiseAlert ((put true).setLink l { s.link l with status := 5, downAt := s.nowUs }) alFabric)
    else .next ((put false).setLink l { freshLink (s.link l) with status := 1 })
  else .next (put true)

/-- QSFP_REMOVE (R647): the link goes DOWN. -/
def execQsfpRemove (l : Nat) (s : State) : Res :=
  let t := setFabric s (fun x => { x with cages := tset {} x.cages l {} })
  let x := t.link l
  if poweredUp t && decide (x.status ≠ 0 ∧ x.status ≠ 5 ∧ x.status ≠ 6) then .next (linksChanged (goDown t l)) else .next t

end Sys2Proof.Machine
end

