-- ==== Sys2Proof/Machine/Messages.lean ====
section
/-!
DEFINITION. Sys2Proof/Machine/Messages.lean: the peer messages and the timers of discovery and routing (R386, R465 to R472, R478, R479, R487,
R488, R490, R491). A message's command acts on the head of the accepted messages.
-/

namespace Sys2Proof.Machine

/-! ## Acting on a message -/

/-- Take the head of the accepted messages. -/
def popPeer (s : State) : State := setFabric s (fun x => { x with accepted := x.accepted.drop 1 })

/-- Act on the head of the accepted messages when f knows its type. -/
def onPeer (s : State) (f : State → PeerBody → Option State) : Res :=
  if firmwareRuns s then
    match s.fabric.accepted with
    | [] => .next s
    | m :: _ =>
      match f (popPeer s) m.body with
      | some t => .next t
      | none => .next s
  else .next s

/-- The wafer takes part in the fabric: it is neither EXCLUDED nor in CONFLICT. -/
def partakes (s : State) : Bool := s.fabric.phase ≠ .excluded && s.fabric.phase ≠ .conflict

/-! ## HELLO (R465, R469 to R472) -/

/-- The candidate after a HELLO: the lowest serial heard; a wafer without a number that hears a numbered fabric takes that fabric's
coordinator, and a numbered wafer hears its own fabric only (log 60). In a new election the lost coordinator's serial is no candidate unless it comes from itself. -/
def candidateAfter (s : State) (serial fabricId candidate : DWord) : DWord :=
  let x := s.fabric
  let heard := if serial ≤ candidate then serial else candidate
  if x.lost ≠ 0 && heard = x.lost && serial ≠ x.lost then x.candidate
  else if x.number.isNone && x.fabricId = 0 && fabricId ≠ 0 then candidate
  else if x.number.isSome && fabricId ≠ x.fabricId then x.candidate
  else if heard < x.candidate then heard
  else x.candidate

/-- Adopt a candidate (R465); the coordinator of the part with the higher serial gives way (R472). -/
def adoptCandidate (s : State) (c : DWord) : State :=
  if c = s.fabric.candidate then s
  else setFabric s (fun x => { x with
    candidate := c, candidateAt := s.nowUs, coordinator := false
    phase := if x.coordinator && x.phase ≠ .running then .await else x.phase, lastMap := s.nowUs })

/-- STATE of a link after a HELLO: LOOPED when both ends are this wafer, FOREIGN when both FABRIC_IDs are set and differ (R471). -/
def helloStatus (s : State) (x : Link) (serial fabricId : DWord) : Nat :=
  if serial = s.sys.serial then 7
  else if s.fabric.fabricId ≠ 0 && fabricId ≠ 0 && s.fabric.fabricId ≠ fabricId then 8
  else x.status

/-- The peer lost a number conflict: its number belongs to a wafer of lower serial (R472, R498). -/
def peerConflicts (s : State) (serial fabricId : DWord) (number : Nat) : Bool :=
  let holder := if s.fabric.number = some number then s.sys.serial else tget 0 s.fabric.serials number
  decide (fabricId = s.fabric.fabricId ∧ fabricId ≠ 0 ∧ number ≠ 255 ∧ holder ≠ 0 ∧ holder < serial)

/-- This wafer loses a number conflict with a wafer of lower serial (R472). -/
def losesConflict (s : State) (serial fabricId : DWord) (number : Nat) : Bool :=
  decide (s.fabric.number = some number ∧ fabricId = s.fabric.fabricId ∧ fabricId ≠ 0 ∧ serial < s.sys.serial)

/-- A link that turns LOOPED or FOREIGN carries no traffic; FABRIC is set (R471, R491). -/
def setHelloStatus (s : State) (l n : Nat) : State :=
  if (s.link l).status = n then s else raiseAlert (rerouteAll (s.setLink l { s.link l with status := n }) l) alFabric

/-- What a HELLO does (R465, R471, R472, R487). -/
def hearHello (s : State) (l : Nat) (serial : DWord) (peerLink : Nat) (fabricId candidate : DWord) (number level : Nat) : State :=
  let x := s.link l
  if !linkUp x then s
  else
    let y := { x with
      peerSerial := serial, peerLink := peerLink, peerNumber := number, peerLevel := level, peerFabric := fabricId
      conflictPeer := peerConflicts s serial fabricId number }
    let t := setHelloStatus (s.setLink l y) l (helloStatus s x serial fabricId)
    let t :=
      if serial = s.sys.serial || !linkUp (t.link l) then t
      else if losesConflict s serial fabricId number then enterIsolated t .conflict
      else if partakes s then adoptCandidate t (candidateAfter s serial fabricId candidate)
      else t
    if x.peerSerial ≠ serial || x.peerLink ≠ peerLink || x.status ≠ (t.link l).status then linksChanged t else t

/-- HELLO. -/
def execHello (s : State) : Res :=
  onPeer s (fun s b => match b with
    | .hello l serial peerLink fabricId candidate number level =>
      some (hearHello s l serial peerLink.toNat fabricId candidate number.toNat level)
    | .links .. => none
    | .map .. => none
    | .routes .. => none
    | .status .. => none
    | .switch .. => none
    | .primary .. => none
    | .other => none)

/-! ## LINKS -/

/-- Record one part of a wafer's link report (R487). -/
def recordLinks (s : State) (serial : DWord) (part : Nat) (reports : List LinkReport) : State :=
  setFabric s (fun x =>
    let ws := if x.wafers.any (fun w => w.serial = serial) then
        x.wafers.map (fun w => if w.serial = serial then { w with reports := tset [] w.reports part reports } else w)
      else x.wafers ++ [{ serial := serial, reports := tset [] [] part reports, lastStatus := s.nowUs }]
    { x with wafers := ws })

/-- The part that the coordinator has of a wafer's report. -/
def partOf (s : State) (serial : DWord) (part : Nat) : List LinkReport :=
  match s.fabric.wafers.find? (fun w => w.serial = serial) with
  | some w => tget [] w.reports part
  | none => []

/-- LINKS (R465, R470, R478): a change makes the coordinator number or recompute. -/
def hearLinks (s : State) (serial : DWord) (part : Nat) (reports : List LinkReport) : State :=
  if !s.fabric.coordinator || !partakes s then s
  else if partOf s serial part = reports then tryNumber s
  else linksChanged (recordLinks s serial part reports)

/-- LINKS. -/
def execLinks (s : State) : Res :=
  onPeer s (fun s b => match b with
    | .links serial part reports => some (hearLinks s serial part reports)
    | .hello .. => none
    | .map .. => none
    | .routes .. => none
    | .status .. => none
    | .switch .. => none
    | .primary .. => none
    | .other => none)

/-! ## MAP (R469, R470, R472, R487) -/

/-- AWAIT ends when the wafer has its number and its routes (R465). -/
def tryAwaitEnd (s : State) : State :=
  if s.fabric.phase = .await && s.fabric.number.isSome && decide (0 < s.fabric.generation) then enterRunning s else s

/-- A level one above the lowest-level numbered neighbour's (R470; log 60). -/
def memberLevel (s : State) : Nat :=
  let ls := (List.range 24).filterMap (fun l =>
    let x := s.link l
    if linkUp x && decide (x.peerNumber ≠ 255) then some x.peerLevel else none)
  match ls with
  | [] => 0
  | n :: ns => ns.foldl min n + 1

/-- The wafers of a present bitmap. -/
def bitmapList (b : BitVec 128) : List Nat := (List.range 128).filter (fun n => bit b.toNat n)

/-- Every number that may be given is given, and none to this wafer (R467). -/
def leftOut (s : State) : Bool :=
  s.fabric.number.isNone && (List.range s.fabric.maxWafers).all (fun n => tget 0 s.fabric.serials n ≠ 0)

/-- A wafer that was present is not any more (R491). -/
def someAbsent (old new : List Nat) : Bool := old.any (fun n => !new.contains n)

/-- Install a part of the map. -/
def installMap (s : State) (fabricId : DWord) (maxWafers : Nat) (present : List Nat) (serials : List (Nat × DWord)) : State :=
  let first := s.fabric.number.isNone
  let gone := someAbsent s.fabric.present present
  let s := setFabric s (fun x =>
    let t := serials.foldl (fun t e => if e.1 < 128 then tset 0 t e.1 e.2 else t) x.serials
    { x with
      serials := t, present := present, maxWafers := maxWafers, lastMap := s.nowUs, lost := 0, fabricId := fabricId
      number := match x.number with
        | some n => some n
        | none => numberOf { x with serials := t } s.sys.serial.toNat })
  let s := if first && s.fabric.number.isSome then setFabric s (fun x => { x with level := memberLevel s }) else s
  let s := { s with sys := { s.sys with waferNumber := s.fabric.number.getD 0 } }
  if gone then raiseAlert s alFabric else s

/-- What a MAP does to a member of its fabric. -/
def hearMap (s : State) (fabricId : DWord) (maxWafers waferCount : Nat) (present : List Nat) (serials : List (Nat × DWord)) : State :=
  if s.fabric.coordinator || !partakes s || (s.fabric.fabricId ≠ 0 && s.fabric.fabricId ≠ fabricId) then s
  else
    let s := installMap s fabricId maxWafers present serials
    let s := { s with sys := { s.sys with waferCount := waferCount } }
    let other := match s.fabric.number with
      | some n => let h := tget 0 s.fabric.serials n; decide (h ≠ 0 ∧ h < s.sys.serial)
      | none => false
    if other then enterIsolated s .conflict
    else if leftOut s then enterIsolated s .excluded
    else tryAwaitEnd s

/-- MAP. -/
def execMap (s : State) : Res :=
  onPeer s (fun s b => match b with
    | .map fabricId maxWafers waferCount present serials =>
      some (hearMap s fabricId maxWafers waferCount (bitmapList present) serials)
    | .hello .. => none
    | .links .. => none
    | .routes .. => none
    | .status .. => none
    | .switch .. => none
    | .primary .. => none
    | .other => none)

/-! ## ROUTES (R474, R478, R479, R487) -/

/-- One destination of a ROUTES part. -/
def routeOf (e : RouteEntry) : Route := { state := e.state.toNat, mAny := e.mAny, mDown := e.mDown }

/-- Add a part to the table that is arriving; a part of another table starts afresh. -/
def stageRoutes (x : Fabric) (generation : Nat) (orient shadow : Bool) (entries : List RouteEntry) : Staging :=
  let g := x.staging
  let g := if g.generation = generation ∧ g.shadow = shadow ∧ g.orient = orient then g
    else { generation := generation, orient := orient, shadow := shadow, table := [], dests := [] }
  entries.foldl (fun g e => { g with
    table := tset {} g.table e.dest.toNat (routeOf e)
    dests := if g.dests.contains e.dest.toNat then g.dests else e.dest.toNat :: g.dests }) g

/-- Install the whole table that has arrived (R478, R479). -/
def installRoutes (s : State) : State :=
  let g := s.fabric.staging
  if g.dests.length < 128 then s
  else if g.shadow then
    setFabric s (fun x => { x with shadowRoutes := g.table, shadowGeneration := g.generation, staging := {} })
  else
    tryAwaitEnd (setFabric s (fun x => { x with routes := g.table, generation := g.generation, orient := g.orient, staging := {} }))

/-- What a part of ROUTES does: a table of the generation that is installed changes nothing. -/
def hearRoutes (s : State) (generation : Nat) (orient shadow : Bool) (entries : List RouteEntry) : State :=
  if s.fabric.coordinator || !partakes s then s
  else if generation = (if shadow then s.fabric.shadowGeneration else s.fabric.generation) then s
  else installRoutes (setFabric s (fun x => { x with staging := stageRoutes x generation orient shadow entries }))

/-- ROUTES. -/
def execRoutes (s : State) : Res :=
  onPeer s (fun s b => match b with
    | .routes generation orient shadow entries => some (hearRoutes s generation orient shadow entries)
    | .hello .. => none
    | .links .. => none
    | .map .. => none
    | .status .. => none
    | .switch .. => none
    | .primary .. => none
    | .other => none)

/-! ## STATUS and SWITCH (R479, R487) -/

/-- SWITCH has been taken up everywhere: every wafer reports the new ORIENT; routes that changed meanwhile are made now. -/
def trySwitchEnd (s : State) : State :=
  let x := s.fabric
  if x.switching && x.pausedAt.isNone && allReport s (fun w => w.orient == x.orient) then
    reroute (setFabric s (fun x => { x with switching := false }))
  else s

/-- Record a STATUS. -/
def recordStatus (s : State) (number installed shadow : Nat) (orient : Bool) (linksUp : BitVec 24) : State :=
  setFabric s (fun x => { x with wafers := x.wafers.map (fun w =>
    if w.serial = tget 0 x.serials number then
      { w with installed := installed, shadow := shadow, orient := orient, linksUp := linksUp, lastStatus := s.nowUs }
    else w) })

/-- What a STATUS does. -/
def hearStatus (s : State) (number installed shadow : Nat) (orient : Bool) (linksUp : BitVec 24) : State :=
  if !s.fabric.coordinator || !partakes s then s
  else trySwitchEnd (trySwitch (tryRunning (recordStatus s number installed shadow orient linksUp)))

/-- STATUS. -/
def execStatus (s : State) : Res :=
  onPeer s (fun s b => match b with
    | .status number installed shadow orient linksUp => some (hearStatus s number.toNat installed shadow orient linksUp)
    | .hello .. => none
    | .links .. => none
    | .map .. => none
    | .routes .. => none
    | .switch .. => none
    | .primary .. => none
    | .other => none)

/-- SWITCH (R479): stop injecting requests when the generation is the shadow set's and has not been switched to. -/
def hearSwitch (s : State) (generation : Nat) : State :=
  let x := s.fabric
  if partakes s && decide (generation = x.shadowGeneration) && decide (x.generation < x.shadowGeneration) then pauseInjection s else s

/-- SWITCH. -/
def execSwitch (s : State) : Res :=
  onPeer s (fun s b => match b with
    | .switch generation => some (hearSwitch s generation)
    | .hello .. => none
    | .links .. => none
    | .map .. => none
    | .routes .. => none
    | .status .. => none
    | .primary .. => none
    | .other => none)

/-- SWITCH_PAUSE_END (R479): after 300 µs the shadow set is used and ORIENT flips. -/
def execSwitchPauseEnd (s : State) : Res :=
  match s.fabric.pausedAt with
  | none => .next s
  | some t0 =>
    if t0 + 300 ≤ s.nowUs then
      let lv := memberLevel s
      .next (trySwitchEnd (setFabric s (fun x =>
        if x.generation < x.shadowGeneration then
          { x with
            pausedAt := none, routes := x.shadowRoutes, generation := x.shadowGeneration, orient := !x.orient
            levels := x.shadowLevels, level := if x.coordinator then tget 0 x.shadowLevels (x.number.getD 0) else lv }
        else { x with pausedAt := none })))
    else .next s

/-! ## PRIMARY -/

/-- PRIMARY (R487): which Pumphouse is primary on the wafer that sent it. -/
def execPrimary (s : State) : Res :=
  let src := ((s.fabric.accepted.head?).map peerSrc).getD 0
  onPeer s (fun s b => match b with
    | .primary south _ => some (setFabric s (fun x => { x with peerPrimary := tset false x.peerPrimary src south }))
    | .hello .. => none
    | .links .. => none
    | .map .. => none
    | .routes .. => none
    | .status .. => none
    | .switch .. => none
    | .other => none)

/-! ## Repetition (R386, R487) -/

/-- PEER_MESSAGE_REPEAT. -/
def execPeerMessageRepeat (kind : PeerType) (s : State) : Res :=
  if firmwareRuns s && stepDone s 8 && partakes s then
    match kind with
    | .hello => .next (emitHello s)
    | .links => .next (emitLinks s)
    | .map => .next (emitMap s)
    | .routes => .next (emitRoutes s)
    | .status => .next (emitStatus s)
    | .switch => .next (emitSwitch s)
    | .primary => .next (emitPrimary s)
  else .next s

/-! ## Timers of discovery (R465, R466, R488, R490) -/

/-- A link's training is settled: the link is not enabled, or UP, DOWN, LOOPED or FOREIGN (R465). -/
def settledLink (s : State) (l : Nat) : Bool :=
  let n := (s.link l).status
  !bit s.fabric.linkEnable.toNat l || n = 2 || n = 3 || n = 5 || n = 6 || n = 7 || n = 8

/-- LINK_TRAIN_EXIT (R465). -/
def execLinkTrainExit (s : State) : Res :=
  if firmwareRuns s && stepDone s 8 && s.fabric.phase = .linkTrain
      && ((List.range 24).all (settledLink s) || decide (s.fabric.stepStart + 200000 ≤ s.nowUs)) then
    .next (setFabric s (fun x => { x with phase := .elect, candidateAt := s.nowUs }))
  else .next s

/-- ELECT_SETTLE (R465): the candidate collects, every other wafer awaits and reports its links. -/
def execElectSettle (s : State) : Res :=
  if firmwareRuns s && s.fabric.phase = .elect && decide (s.fabric.candidateAt + 1000 * s.fabric.settle ≤ s.nowUs) then
    if s.fabric.candidate = s.sys.serial then .next (tryNumber (setFabric s (fun x => { x with phase := .collect, coordinator := true })))
    else .next (emitLinks (setFabric s (fun x => { x with phase := .await, lastMap := s.nowUs })))
  else .next s

/-- A wafer without a number at the end of step 9 becomes wafer 0 of its own fabric (R466). -/
def ownFabric (s : State) : State :=
  let s := setFabric s (fun x => { x with
    fabricId := s.sys.serial, candidate := s.sys.serial, coordinator := true, number := some 0, level := 0
    serials := [(0, s.sys.serial)], present := [0], levels := [], wafers := [] })
  enterRunning (raiseAlert (recompute s) alFabric)

/-- A state of discovery, before RUNNING, EXCLUDED and CONFLICT (R465). -/
def inDiscovery (x : Fabric) : Bool :=
  match x.phase with
  | .linkTrain => true
  | .elect => true
  | .collect => true
  | .number => true
  | .await => true
  | .running => false
  | .excluded => false
  | .conflict => false

/-- DISCOVERY_WINDOW (R465, R466): the coordinator numbers the fabric when the window has passed; step 9 ends 200 ms later at the latest. -/
def execDiscoveryWindow (s : State) : Res :=
  let x := s.fabric
  let due := x.stepStart + 1000 * x.window
  if firmwareRuns s && stepDone s 8 && inDiscovery x then
    if due + 200000 ≤ s.nowUs then
      if x.number.isNone then .next (ownFabric s) else .next (enterRunning s)
    else .next (tryNumber s)
  else .next s

/-- MAP_TIMEOUT (R488): after 500 ms without a MAP a member begins a new election and keeps every number and FABRIC_ID. -/
def execMapTimeout (s : State) : Res :=
  let x := s.fabric
  if firmwareRuns s && !x.coordinator && x.number.isSome && (x.phase = .running || x.phase = .await)
      && decide (x.lastMap + 500000 ≤ s.nowUs) then
    .next (emitHello (setFabric s (fun x => { x with
      phase := .elect, stepStart := s.nowUs, lost := x.candidate, candidate := s.sys.serial, candidateAt := s.nowUs, wafers := [] })))
  else .next s

/-- A wafer is lost: its links have been DOWN for 10 ms, or its STATUS missing for 20 ms (R490). -/
def waferLost (s : State) (serial : DWord) : Bool :=
  match s.fabric.wafers.find? (fun w => w.serial = serial) with
  | none => false
  | some w => decide (w.lastStatus + 20000 ≤ s.nowUs) ||
      (match w.cutAt with
       | some t0 => decide (t0 + 10000 ≤ s.nowUs)
       | none => false)

/-- WAFER_ABSENT (R490, R491): the coordinator marks the wafer ABSENT in every table; its number stays reserved. -/
def execWaferAbsent (w : Nat) (s : State) : Res :=
  let x := s.fabric
  if firmwareRuns s && x.coordinator && x.present.contains w && x.number ≠ some w && waferLost s (tget 0 x.serials w) then
    let s := setFabric s (fun x => { x with
      present := x.present.filter (fun n => n ≠ w), wafers := x.wafers.filter (fun i => i.serial ≠ tget 0 x.serials w) })
    .next (raiseAlert (tryRunning (reroute s)) alFabric)
  else .next s

end Sys2Proof.Machine
end

