-- ==== Sys2Proof/Machine/Failover.lean ====
section
/-!
DEFINITION. Sys2Proof/Machine/Failover.lean: the heartbeat, its watchdog, and failover to the standby Pumphouse (R387 to R395, R414, R439). The
new primary works from the mirror of R388, which every change of durable state has reached (State.setTenant, State.setSessions), and from the
notice rings (R391). What else survives is named in log 64.
-/

namespace Sys2Proof.Machine

/-! ## Heartbeat -/

/-- HEARTBEAT_TICK (R396): HEARTBEAT counts while the primary runs. -/
def execHeartbeatTick (s : State) : Res :=
  if firmwareRuns s then .next { s with sys := { s.sys with heartbeat := s.sys.heartbeat + 1, lastBeat := s.nowUs } } else .next s

/-- The last Pumphouse has failed (R395). -/
def losePumphouse (s : State) : State := enterStopped { s with sys := { s.sys with pumphouseDead := true } }

/-- HEARTBEAT_WATCHDOG (R389, R395): 20 ms without a heartbeat rings the standby; without a standby the engine is STOPPED. -/
def execHeartbeatWatchdog (s : State) : Res :=
  if firmwareRuns s && decide (s.sys.lastBeat + 20000 ≤ s.nowUs) then
    if s.sys.noStandby then .next (losePumphouse s) else .next (ringStandby s)
  else .next s

/-! ## The other Pumphouse takes over (R390, steps 3 and 4) -/

/-- What the failed primary was doing with its stores and messages is dropped: staging ends, and an image whose store had begun is not whole
(R607, log 64). -/
def dropStaging (s : State) : State :=
  let s := match s.sys.stores with
    | .firmware _ _ :: _ => { abandonStore s (firmwareArea (otherCopy s)) with sys := s.sys }
    | _ => s
  { s with sys := { s.sys with
      fwStaging := [], fwStageBytes := [], activations := [], requalifyQueue := []
      stores := s.sys.stores.filter (fun st => match st with
        | .firmware _ _ => false
        | .ledger => true
        | .requalify => true
        | .fabricConfig _ _ _ => true
        | .generationErase _ => true) } }

/-- FIELD resets of the failed primary are forgotten; their fields stay fenced (R434). -/
def dropFieldResets (s : State) : State :=
  (List.range 70).foldl (fun s f => s.modField f (fun x => { x with resetSeqs := [], liftAt := none })) s

/-- The other Pumphouse is primary; the failed one stays in reset (R390, R395). -/
def switchPrimary (s : State) : State :=
  { s with
    sys := { s.sys with
      primarySouth := !s.sys.primarySouth, noStandby := true, failovers := satInc 0xFF s.sys.failovers
      forceFailover := false, standbyRung := false, lastBeat := s.nowUs }
    fabric := { s.fabric with accepted := [], primaryUntil := s.nowUs + 1000000 } }

/-! ## Mirror and notice rings (R388, R390 step 5, R391) -/

/-- A tenant as the mirror gives it; registers of the rim and of the host, the epoch and what is held for the ring stay (log 64). -/
def takeDurable (d : Durable) (x : Tenant) : Tenant :=
  { x with
    enabled := d.enabled, bl := d.settings.bl, wakeMask := d.settings.wakeMask, idleDormant := d.settings.idleDormant
    timeout := d.settings.timeout, granuleFirst := d.settings.granuleFirst, granuleCount := d.settings.granuleCount
    bound := d.bound, hostPort := d.settings.hostPort, plan := d.plan, counters := d.counters, expected := d.expected
    ringSet := d.ringSet, noticeBase := d.noticeBase, alerts := d.alerts, tail := d.tail, tailPhase := d.tailPhase }

/-- The new primary reads the mirror: every tenant, the sessions and the live ledger (R388, R390, R603). -/
def takeMirror (s : State) : State :=
  let m := s.mirror
  let s := { s with work := { s.work with sessions := m.sessions }, silicon := { s.silicon with live := m.live } }
  (List.range 16).foldl (fun s t => s.modTenant t (takeDurable (tget (tenantDef t).durable m.tenants t))) s

/-- An entry of a notice ring. -/
def ringEntry (s : State) (x : Tenant) (e : Nat) : List Byte :=
  readBytes 0 s.mem.host (hostKey x.hostPort (x.noticeBase.toNat + 32 * e)) 32

/-- The tag that a CLAUSE notice frees. -/
def noticedTag (e : List Byte) : List Nat := if (e.getD 1 0).toNat = 1 then [leNat ((e.drop 2).take 2)] else []

/-- Read a notice ring forward from a tail: the first entry without the phase of its pass is the true tail; with it the entries passed and the
tags noticed in them (R391). -/
def readRing (s : State) (x : Tenant) : Nat → Nat → Bool → Nat × Bool × Nat × List Nat
  | 0, e, ph => (e, ph, 0, [])
  | n + 1, e, ph =>
    let b := ringEntry s x e
    if bit (b.getD 0 0).toNat 0 = ph then
      let r := readRing s x n ((e + 1) % 4096) (if e = 4095 then !ph else ph)
      (r.1, r.2.1, r.2.2.1 + 1, noticedTag b ++ r.2.2.2)
    else (e, ph, 0, [])

/-- Find the true tail of a tenant's ring and drop every tag that it shows as noticed from the clauses in flight (R391). -/
def findTail (s : State) (t : Nat) : State :=
  let x := s.tenant t
  if x.ringSet && x.bound && portWritable (s.port x.hostPort) then
    let r := readRing s x 4096 x.tail x.tailPhase
    let s := s.setTenant t { x with tail := r.1, tailPhase := r.2.1, ringUsed := min 4096 (x.ringUsed + r.2.2.1) }
    ((tenantFlights s t).filter (fun f => r.2.2.2.contains f.tag)).foldl (fun s f => removeFlight s f.uid) s
  else s

/-! ## Notices (R390 steps 6 and 7, R392) -/

/-- PUMPHOUSE_FAILOVER for a clause (R392). -/
def failClause (s : State) (f : Flight) : State := endClause s f { status := stFailover }

/-- The clauses waiting in a tenant's rings, URGENT first, as flights. -/
def waitingFlights (s : State) (t : Nat) : List Flight :=
  (List.range 4).flatMap (fun p => ((s.tenant t).ring p).waiting.map (waitingFlight s t p))

/-- PUMPHOUSE_FAILOVER for every clause in flight and waiting (R392); rings are empty and sentences begin anew. -/
def failClauses (s : State) (t : Nat) : State :=
  let waiting := waitingFlights s t
  let s := (tenantFlights s t).foldl failClause s
  waiting.foldl failClause (s.modTenant t (fun x => { x with rings := x.rings.map (fun r => newSentence { r with waiting := [] }) }))

/-- PUMPHOUSE_FAILOVER for every message started and not answered (R392). -/
def failMessages (s : State) (t : Nat) : State :=
  (s.tenant t).unanswered.foldl (fun s m => reply s t m.1 m.2 stFailover 0 0 0 0) s

/-- What the failed primary was doing for a tenant in the background is dropped; so are the messages that it had copied, and gap mode (R394,
log 64). -/
def dropBackground (x : Tenant) : Tenant :=
  { x with copied := [], gap := false, loading := [], clears := [], resets := [], deferred := [], configuring := none, configQueue := [] }

/-- The EVENT FAILOVER notice (R377, R392). -/
def failoverEvent (s : State) (t : Nat) : State :=
  let x := s.tenant t
  if x.ringSet then postNotice s t (eventNotice 1 x.expected.toNat x.epoch.toNat) else s

/-- Every ring of a tenant is OPEN (R392, R414). -/
def openRings (s : State) (t : Nat) : State := s.modTenant t (fun x => { x with halted := 0 })

/-- Steps 6 and 7 for one tenant (R390, R392, R439). -/
def failTenant (s : State) (t : Nat) : State :=
  openRings (failoverEvent (failMessages (failClauses (findTail ((bumpEpoch s t).modTenant t dropBackground) t) t) t) t) t

/-- Every sequencer slot is emptied, held accumulator state discarded (R390). -/
def emptyClusters (s : State) : State :=
  s.clusters.foldl (fun s e => s.setCluster e.1 (clusterReset s.nowUs e.2)) s

/-- FAILOVER (R390 to R395). The standby has been rung by the watchdog or by FORCE_FAILOVER; with neither, the primary has rung it for a
planned handover (R389, log 113). When the mirror's CRC does not match, the new primary cannot go on (log 64). -/
def execFailover (s : State) : Res :=
  if firmwareRuns s && !s.sys.noStandby then
    let s := switchPrimary (ringStandby s)
    if s.mirror.crcOk then
      let s := takeMirror (emptyClusters (dropFieldResets (dropStaging s)))
      let s := (List.range 16).foldl failTenant s
      .next (emitPrimary (raiseAlert s (alFailover ||| alNoStandby)))
    else .next (losePumphouse s)
  else .next s

end Sys2Proof.Machine
end

