-- ==== Sys2Proof/Machine/Queries.lean ====
section
/-!
DEFINITION. Sys2Proof/Machine/Queries.lean: the QUERY messages (R366, R378, R54, R574, R636).
-/

namespace Sys2Proof.Machine

/-- WHAT of a QUERY (R360). -/
def queryWhat (m : List Word) : Nat := bits (word m 0) 7 0

/-- Write a result behind the tenant's port, or hold it with its reply while the port cannot write (R366, R508, log 44). -/
def writeResult (s : State) (t a : Nat) (bs : List Byte) : State :=
  let x := s.tenant t
  if x.bound && portWritable (s.port x.hostPort) then hostWrite s x.hostPort a bs
  else s.setTenant t { x with heldResults := x.heldResults ++ [(a, bs)] }

/-- Answer a QUERY with a result: a misaligned DEST is BAD_ADDRESS, a LENGTH below the result is SHORT_BUFFER with the size needed and
nothing written; else the result is written at DEST, then the REPLY with the byte count (R360, R366, R374, R375). -/
def answerQuery (t : Nat) (bs : List Byte) (s : State) (m : List Word) : State :=
  if dword m 1 % 64 ≠ 0 then replyRejected s t (mSeq m) 0x09 rBadAddress
  else if word m 3 < bs.length then reply s t (mSeq m) 0x09 1 rShortBuffer 0 bs.length 0
  else reply (writeResult s t (dword m 1) bs) t (mSeq m) 0x09 0 0 0 bs.length 0

/-- Start the head message when it is a QUERY of some WHAT. -/
def onQuery (t : Nat) (whats : List Nat) (f : State → List Word → State) (s : State) : Res :=
  match headOf s t 0x09 with
  | none => .next s
  | some m =>
    if whats.contains (queryWhat m) then
      onMessage s t 0x09 (cleanOnly t [0xFF, 0xFFFFFFFF, 0xFFFFFFFF, 0xFFFFFFFF] f)
    else .next s

/-- QUERY TOPOLOGY, and QUERY of a reserved WHAT, which is BAD_MESSAGE (R54, R360, log 18). -/
def queryTopology (t : Nat) (s : State) (m : List Word) : State :=
  if queryWhat m = 0 then answerQuery t (topologyTable s) s m else replyRejected s t (mSeq m) 0x09 rBadMessage

/-- QUERY_TOPOLOGY (R54, R366). -/
def execQueryTopology (t : Nat) (s : State) : Res :=
  onQuery t (0 :: (List.range 251).map (fun i => 5 + i)) (queryTopology t) s

/-- QUERY_TENANT_STATUS (R378). -/
def execQueryTenantStatus (t : Nat) (s : State) : Res :=
  onQuery t [1] (fun s m => answerQuery t (tenantStatus s t) s m) s

/-- QUERY_IN_FLIGHT_TAGS (R378). -/
def execQueryInFlightTags (t : Nat) (s : State) : Res :=
  onQuery t [2] (fun s m => answerQuery t (tagBlock s t) s m) s

/-- QUERY_LEDGER (R636). -/
def execQueryLedger (t : Nat) (s : State) : Res :=
  onQuery t [3] (fun s m => answerQuery t (ledgerBlock s) s m) s

/-- QUERY_TELEMETRY (R574). -/
def execQueryTelemetry (t : Nat) (s : State) : Res :=
  onQuery t [4] (fun s m => answerQuery t (telemetryNow s) s m) s

end Sys2Proof.Machine
end

