-- ==== Sys2Proof/Machine/Dispatch.lean ====
section
/-!
DEFINITION. Sys2Proof/Machine/Dispatch.lean: the meaning of every command, one arm per constructor.
-/

namespace Sys2Proof.Machine

def exec (i : Instr) (s : State) : Host.Outcome State Fault Refusal :=
  match i with
  | .postWrite p t off ep data => Sys2Proof.Machine.execPostWrite p t off ep data s
  | .pumphouseVisit => Sys2Proof.Machine.execPumphouseVisit s
  | .clause t => Sys2Proof.Machine.execClause t s
  | .badType t => Sys2Proof.Machine.execBadType t s
  | .ringSetup t => Sys2Proof.Machine.execRingSetup t s
  | .planLoad t => Sys2Proof.Machine.execPlanLoad t s
  | .planLoadDone t => Sys2Proof.Machine.execPlanLoadDone t s
  | .planUnload t => Sys2Proof.Machine.execPlanUnload t s
  | .queueClear t => Sys2Proof.Machine.execQueueClear t s
  | .resetTenant t => Sys2Proof.Machine.execResetTenant t s
  | .resetRegion t => Sys2Proof.Machine.execResetRegion t s
  | .resetField t => Sys2Proof.Machine.execResetField t s
  | .fieldResetOutcome f => Sys2Proof.Machine.execFieldResetOutcome f s
  | .epochIncrement t => Sys2Proof.Machine.execEpochIncrement t s
  | .resetReply t => Sys2Proof.Machine.execResetReply t s
  | .sessionOpen t => Sys2Proof.Machine.execSessionOpen t s
  | .sessionClose t => Sys2Proof.Machine.execSessionClose t s
  | .queryTopology t => Sys2Proof.Machine.execQueryTopology t s
  | .queryTenantStatus t => Sys2Proof.Machine.execQueryTenantStatus t s
  | .queryInFlightTags t => Sys2Proof.Machine.execQueryInFlightTags t s
  | .queryLedger t => Sys2Proof.Machine.execQueryLedger t s
  | .queryTelemetry t => Sys2Proof.Machine.execQueryTelemetry t s
  | .ping t => Sys2Proof.Machine.execPing t s
  | .tenantConfig t => Sys2Proof.Machine.execTenantConfig t s
  | .tenantConfigDone t => Sys2Proof.Machine.execTenantConfigDone t s
  | .fwStage t => Sys2Proof.Machine.execFwStage t s
  | .fwStageDone deviceOk => Sys2Proof.Machine.execFwStageDone deviceOk s
  | .fwActivate t => Sys2Proof.Machine.execFwActivate t s
  | .requalify t => Sys2Proof.Machine.execRequalify t s
  | .requalifyDone deviceOk => Sys2Proof.Machine.execRequalifyDone deviceOk s
  | .overrunClear p t ep => Sys2Proof.Machine.execOverrunClear p t ep s
  | .malformedClear p t ep => Sys2Proof.Machine.execMalformedClear p t ep s
  | .noticeHeadWrite p t value ep => Sys2Proof.Machine.execNoticeHeadWrite p t value ep s
  | .noticeLostClear p t ep => Sys2Proof.Machine.execNoticeLostClear p t ep s
  | .alertStatusClear p value ep => Sys2Proof.Machine.execAlertStatusClear p value ep s
  | .forceFailover p value ep => Sys2Proof.Machine.execForceFailover p value ep s
  | .registerWrite p space off ep enables data => Sys2Proof.Machine.execRegisterWrite p space off ep enables data s
  | .bar2Write p off relaxed ep ecc data => Sys2Proof.Machine.execBar2Write p off relaxed ep ecc data s
  | .bar2Read p off len ecc => Sys2Proof.Machine.execBar2Read p off len ecc s
  | .unsupportedRequest p what => Sys2Proof.Machine.execUnsupportedRequest p what s
  | .msixUnmask p v => Sys2Proof.Machine.execMsixUnmask p v s
  | .portLinkUp p receptacle0 => Sys2Proof.Machine.execPortLinkUp p receptacle0 s
  | .portLinkDown p cause => Sys2Proof.Machine.execPortLinkDown p cause s
  | .portResume p cause => Sys2Proof.Machine.execPortResume p cause s
  | .hotReset p => Sys2Proof.Machine.execHotReset p s
  | .perst receptacle => Sys2Proof.Machine.execPerst receptacle s
  | .clusterWake k => Sys2Proof.Machine.execClusterWake k s
  | .polledWake k => Sys2Proof.Machine.execPolledWake k s
  | .clusterDormant k => Sys2Proof.Machine.execClusterDormant k s
  | .slotTake k => Sys2Proof.Machine.execSlotTake k s
  | .landingComplete k ecc => Sys2Proof.Machine.execLandingComplete k ecc s
  | .weightBlockLoad k => Sys2Proof.Machine.execWeightBlockLoad k s
  | .passIssue k => Sys2Proof.Machine.execPassIssue k s
  | .passCommit k => Sys2Proof.Machine.execPassCommit k s
  | .settlementEffect k => Sys2Proof.Machine.execSettlementEffect k s
  | .bankCombine k bank => Sys2Proof.Machine.execBankCombine k bank s
  | .requantVector k => Sys2Proof.Machine.execRequantVector k s
  | .hashUpdate k => Sys2Proof.Machine.execHashUpdate k s
  | .spillRecordWrite k => Sys2Proof.Machine.execSpillRecordWrite k s
  | .hashDrain k => Sys2Proof.Machine.execHashDrain k s
  | .rankAccept k => Sys2Proof.Machine.execRankAccept k s
  | .rankFloorUpdate k => Sys2Proof.Machine.execRankFloorUpdate k s
  | .rankGroupClose k => Sys2Proof.Machine.execRankGroupClose k s
  | .l2TileBoundary k => Sys2Proof.Machine.execL2TileBoundary k s
  | .contextRestore k => Sys2Proof.Machine.execContextRestore k s
  | .outWriteBack k ecc => Sys2Proof.Machine.execOutWriteBack k ecc s
  | .mergeSlotGrant k => Sys2Proof.Machine.execMergeSlotGrant k s
  | .mergeStep k => Sys2Proof.Machine.execMergeStep k s
  | .clauseComplete t tag => Sys2Proof.Machine.execClauseComplete t tag s
  | .contract t tag => Sys2Proof.Machine.execContract t tag s
  | .contractSparse t tag => Sys2Proof.Machine.execContractSparse t tag s
  | .pointwisePass t run => Sys2Proof.Machine.execPointwisePass t run s
  | .pointwiseAdd t run => Sys2Proof.Machine.execPointwiseAdd t run s
  | .pointwiseSub t run => Sys2Proof.Machine.execPointwiseSub t run s
  | .pointwiseMul t run => Sys2Proof.Machine.execPointwiseMul t run s
  | .pointwiseMax t run => Sys2Proof.Machine.execPointwiseMax t run s
  | .pointwiseMin t run => Sys2Proof.Machine.execPointwiseMin t run s
  | .reduceSum t run => Sys2Proof.Machine.execReduceSum t run s
  | .reduceMax t run => Sys2Proof.Machine.execReduceMax t run s
  | .reduceMin t run => Sys2Proof.Machine.execReduceMin t run s
  | .reduceKeyed t run => Sys2Proof.Machine.execReduceKeyed t run s
  | .rankElements t run => Sys2Proof.Machine.execRankElements t run s
  | .rankListMerge t run => Sys2Proof.Machine.execRankListMerge t run s
  | .gather t run => Sys2Proof.Machine.execGather t run s
  | .scatter t run => Sys2Proof.Machine.execScatter t run s
  | .pumpMapped t run => Sys2Proof.Machine.execPumpMapped t run s
  | .pumpBytes t run => Sys2Proof.Machine.execPumpBytes t run s
  | .compress t run => Sys2Proof.Machine.execCompress t run s
  | .expand t run => Sys2Proof.Machine.execExpand t run s
  | .bind t prio => Sys2Proof.Machine.execBind t prio s
  | .signal t tag => Sys2Proof.Machine.execSignal t tag s
  | .wait t tag => Sys2Proof.Machine.execWait t tag s
  | .waitTimeout t tag => Sys2Proof.Machine.execWaitTimeout t tag s
  | .fence t tag => Sys2Proof.Machine.execFence t tag s
  | .save t run => Sys2Proof.Machine.execSave t run s
  | .restore t run => Sys2Proof.Machine.execRestore t run s
  | .maskloadS24 t run => Sys2Proof.Machine.execMaskloadS24 t run s
  | .maskloadS24T t run => Sys2Proof.Machine.execMaskloadS24T t run s
  | .lutload t run => Sys2Proof.Machine.execLutload t run s
  | .read pkt ecc => Sys2Proof.Machine.execRead pkt ecc s
  | .write pkt ecc => Sys2Proof.Machine.execWrite pkt ecc s
  | .readData pkt => Sys2Proof.Machine.execReadData pkt s
  | .writeAck pkt => Sys2Proof.Machine.execWriteAck pkt s
  | .nack pkt => Sys2Proof.Machine.execNack pkt s
  | .control msg => Sys2Proof.Machine.execControl msg s
  | .requestTimeout txn => Sys2Proof.Machine.execRequestTimeout txn s
  | .peerInboxPoll => Sys2Proof.Machine.execPeerInboxPoll s
  | .frameReceive l fec frame => Sys2Proof.Machine.execFrameReceive l fec frame s
  | .skipFrame l => Sys2Proof.Machine.execSkipFrame l s
  | .laneFailure l lane => Sys2Proof.Machine.execLaneFailure l lane s
  | .linkTrainingDone l ok => Sys2Proof.Machine.execLinkTrainingDone l ok s
  | .linkRetry l => Sys2Proof.Machine.execLinkRetry l s
  | .linkHoldExpiry l => Sys2Proof.Machine.execLinkHoldExpiry l s
  | .qsfpInsert l watts => Sys2Proof.Machine.execQsfpInsert l watts s
  | .qsfpRemove l => Sys2Proof.Machine.execQsfpRemove l s
  | .hello => Sys2Proof.Machine.execHello s
  | .links => Sys2Proof.Machine.execLinks s
  | .map => Sys2Proof.Machine.execMap s
  | .routes => Sys2Proof.Machine.execRoutes s
  | .status => Sys2Proof.Machine.execStatus s
  | .switch => Sys2Proof.Machine.execSwitch s
  | .switchPauseEnd => Sys2Proof.Machine.execSwitchPauseEnd s
  | .primary => Sys2Proof.Machine.execPrimary s
  | .peerMessageRepeat kind => Sys2Proof.Machine.execPeerMessageRepeat kind s
  | .linkTrainExit => Sys2Proof.Machine.execLinkTrainExit s
  | .electSettle => Sys2Proof.Machine.execElectSettle s
  | .discoveryWindow => Sys2Proof.Machine.execDiscoveryWindow s
  | .mapTimeout => Sys2Proof.Machine.execMapTimeout s
  | .waferAbsent w => Sys2Proof.Machine.execWaferAbsent w s
  | .heartbeatTick => Sys2Proof.Machine.execHeartbeatTick s
  | .heartbeatWatchdog => Sys2Proof.Machine.execHeartbeatWatchdog s
  | .failover => Sys2Proof.Machine.execFailover s
  | .inputPowerUp mV => Sys2Proof.Machine.execInputPowerUp mV s
  | .powerGoodTimeout pos => Sys2Proof.Machine.execPowerGoodTimeout pos s
  | .undervoltage mV => Sys2Proof.Machine.execUndervoltage mV s
  | .inputOvervoltage mV => Sys2Proof.Machine.execInputOvervoltage mV s
  | .overvoltageRecovery mV => Sys2Proof.Machine.execOvervoltageRecovery mV s
  | .enable level => Sys2Proof.Machine.execEnable level s
  | .standbyStart mV => Sys2Proof.Machine.execStandbyStart mV s
  | .lidOpen => Sys2Proof.Machine.execLidOpen s
  | .currentSample dA mV => Sys2Proof.Machine.execCurrentSample dA mV s
  | .thermalSample k quarterC => Sys2Proof.Machine.execThermalSample k quarterC s
  | .vpmFault f => Sys2Proof.Machine.execVpmFault f s
  | .coolantSample inletD outletD flowD => Sys2Proof.Machine.execCoolantSample inletD outletD flowD s
  | .avfsAdjust k slack => Sys2Proof.Machine.execAvfsAdjust k slack s
  | .stepChange k => Sys2Proof.Machine.execStepChange k s
  | .fllWindow k cycles => Sys2Proof.Machine.execFllWindow k cycles s
  | .referenceLoss q => Sys2Proof.Machine.execReferenceLoss q s
  | .clusterReparent q => Sys2Proof.Machine.execClusterReparent q s
  | .agingMeasure k d => Sys2Proof.Machine.execAgingMeasure k d s
  | .telemetryRefresh => Sys2Proof.Machine.execTelemetryRefresh s
  | .ddrRefresh ch deviceC => Sys2Proof.Machine.execDdrRefresh ch deviceC s
  | .patrolScrub line found => Sys2Proof.Machine.execPatrolScrub line found s
  | .ondieScrubRead ch errors => Sys2Proof.Machine.execOndieScrubRead ch errors s
  | .ddrTraining r dimms => Sys2Proof.Machine.execDdrTraining r dimms s
  | .statusWord => Sys2Proof.Machine.execStatusWord s
  | .iinOcWarnLimit write => Sys2Proof.Machine.execIinOcWarnLimit write s
  | .readVin => Sys2Proof.Machine.execReadVin s
  | .readIin => Sys2Proof.Machine.execReadIin s
  | .readPin => Sys2Proof.Machine.execReadPin s
  | .readTemperature1 => Sys2Proof.Machine.execReadTemperature1 s
  | .mfrPolicyCeiling write => Sys2Proof.Machine.execMfrPolicyCeiling write s
  | .mfrFieldCeiling write => Sys2Proof.Machine.execMfrFieldCeiling write s
  | .mfrTelemetryPage page => Sys2Proof.Machine.execMfrTelemetryPage page s
  | .mfrTelemetryRead => Sys2Proof.Machine.execMfrTelemetryRead s
  | .pmbusUnsupported code => Sys2Proof.Machine.execPmbusUnsupported code s
  | .agentConnect cert => Sys2Proof.Machine.execAgentConnect cert s
  | .pmbus sess tag payload => Sys2Proof.Machine.execPmbus sess tag payload s
  | .telemetry sess tag payload => Sys2Proof.Machine.execTelemetry sess tag payload s
  | .eepromRead sess tag payload => Sys2Proof.Machine.execEepromRead sess tag payload s
  | .statusRead sess tag payload => Sys2Proof.Machine.execStatusRead sess tag payload s
  | .fabricConfig sess tag payload => Sys2Proof.Machine.execFabricConfig sess tag payload s
  | .fabricConfigStore deviceOk => Sys2Proof.Machine.execFabricConfigStore deviceOk s
  | .powerOff sess tag payload => Sys2Proof.Machine.execPowerOff sess tag payload s
  | .powerOn sess tag payload => Sys2Proof.Machine.execPowerOn sess tag payload s
  | .powerCycle sess tag payload => Sys2Proof.Machine.execPowerCycle sess tag payload s
  | .powerCycleResume => Sys2Proof.Machine.execPowerCycleResume s
  | .holdAssert sess tag payload => Sys2Proof.Machine.execHoldAssert sess tag payload s
  | .holdRelease sess tag payload => Sys2Proof.Machine.execHoldRelease sess tag payload s
  | .flashRead sess tag payload => Sys2Proof.Machine.execFlashRead sess tag payload s
  | .flashErase sess tag payload => Sys2Proof.Machine.execFlashErase sess tag payload s
  | .flashProgram sess tag payload => Sys2Proof.Machine.execFlashProgram sess tag payload s
  | .netConfig sess tag payload => Sys2Proof.Machine.execNetConfig sess tag payload s
  | .trustSet sess tag payload => Sys2Proof.Machine.execTrustSet sess tag payload s
  | .badCmd sess tag code => Sys2Proof.Machine.execBadCmd sess tag code s
  | .serviceHold3s => Sys2Proof.Machine.execServiceHold3s s
  | .serviceHold15s => Sys2Proof.Machine.execServiceHold15s s
  | .trustWindowExpiry => Sys2Proof.Machine.execTrustWindowExpiry s
  | .pumphouseBoot => Sys2Proof.Machine.execPumphouseBoot s
  | .firmwareStartTimeout => Sys2Proof.Machine.execFirmwareStartTimeout s
  | .referenceLock q src => Sys2Proof.Machine.execReferenceLock q src s
  | .referenceLockTimeout => Sys2Proof.Machine.execReferenceLockTimeout s
  | .coordinateClaim q x y => Sys2Proof.Machine.execCoordinateClaim q x y s
  | .floodTimeout => Sys2Proof.Machine.execFloodTimeout s
  | .neighbourTestRound reports slotFails => Sys2Proof.Machine.execNeighbourTestRound reports slotFails s
  | .ledgerStore deviceOk => Sys2Proof.Machine.execLedgerStore deviceOk s
  | .generationSectorErase deviceOk => Sys2Proof.Machine.execGenerationSectorErase deviceOk s
  | .testLogicReset r => Sys2Proof.Machine.execTestLogicReset r s
  | .extest r pins => Sys2Proof.Machine.execExtest r pins s
  | .idcode r => Sys2Proof.Machine.execIdcode r s
  | .samplePreload r pins => Sys2Proof.Machine.execSamplePreload r pins s
  | .clamp r => Sys2Proof.Machine.execClamp r s
  | .highz r => Sys2Proof.Machine.execHighz r s
  | .bypass r opcode => Sys2Proof.Machine.execBypass r opcode s
  | .powerGood pos => Sys2Proof.Machine.execPowerGood pos s
  | .standbyLoss mV => Sys2Proof.Machine.execStandbyLoss mV s
  | .agentDisconnect sess => Sys2Proof.Machine.execAgentDisconnect sess s
  | .engineReadCompletion st ep data => Sys2Proof.Machine.execEngineReadCompletion st ep data s
  | .completionTimeout => Sys2Proof.Machine.execCompletionTimeout s

end Sys2Proof.Machine
end

