-- ==== Sys2Proof/WellFormed.lean ====
section
/-!
DEFINITION. Sys2Proof/WellFormed.lean: which commands are well formed: the lists a command carries have the lengths the spec
gives them. Operands with a fixed range carry it in their type. A meaning is total all the same: a write of a wrong length, a
frame or a payload of a wrong length has the effect the spec gives it.
-/

namespace Sys2Proof

/-- A packet's granules number LEN, at most 4 (R461, R494); a READ is its header only. -/
def Packet.wf (pkt : Packet) : Bool :=
  decide (pkt.len.toNat ≤ 4) && decide (pkt.data.length = if pkt.kind = 0 then 0 else 64 * pkt.len.toNat)

/-- A LINKS part reports six links, a ROUTES part eight destinations and a MAP part at most six serials (R487). -/
def PeerBody.wf : PeerBody → Bool
  | .links _ _ reports => decide (reports.length = 6)
  | .routes _ _ _ entries => decide (entries.length = 8)
  | .map _ _ _ _ serials => decide (serials.length ≤ 6)
  | .hello .. => true
  | .status .. => true
  | .switch .. => true
  | .primary .. => true
  | .other => true

/-- A test report names clusters of the 35 × 60 array (R33, R593). -/
def TestReport.wf (r : TestReport) : Bool :=
  decide (r.target < 2100) && (match r.tester with | none => true | some q => decide (q < 2100))

/-- Well-formedness of a command. -/
def Instr.wf : Instr → Bool
  | .registerWrite _ _ off _ enables data =>
      decide (data.length = enables.length) && decide (data.length = 4 ∨ data.length = 8) && decide (off % data.length = 0)
  | .read pkt _ => pkt.wf
  | .write pkt _ => pkt.wf
  | .readData pkt => pkt.wf
  | .writeAck pkt => pkt.wf
  | .nack pkt => pkt.wf
  | .control msg => msg.pkt.wf && msg.body.wf
  | .frameReceive _ _ frame => decide (frame.length = 448)
  | .neighbourTestRound reports _ => reports.all TestReport.wf
  | .ddrTraining _ dimms => decide (dimms.length = 6)
  | .avfsAdjust _ slack => decide (slack.length = 8)
  | .coordinateClaim _ x y => decide (-1 ≤ x ∧ x ≤ 35 ∧ -1 ≤ y ∧ y ≤ 60)
  | _ => true

end Sys2Proof
end

