-- ==== Sys2Proof/Safety.lean ====
section
/-!
DEFINITION. Sys2Proof/Safety.lean: what counts as a sound state, in the terms the statements use.
-/

namespace Sys2Proof.Machine

/-- Every byte memory of the state is in canonical form. -/
def Mems.wf (m : Mems) : Bool :=
  Memory.wf 0 m.ddr && Memory.wf 0 m.cistern && Memory.wf 0xFF m.flash && Memory.wf 0 m.eeprom && Memory.wf 0 m.host

/-- A step answers a next state. -/
def Completes (o : Res) : Prop := ∃ t, o = .next t

end Sys2Proof.Machine
end

