-- ==== Sys2Proof/Certificates/Slice0/Obligations.lean ====
section
/-!
DEFINITION. Sys2Proof/Certificates/Slice0/Obligations.lean: the statements about the model, and the words they are made of.
-/

namespace Sys2Proof.Machine

/-! ## The words of the statements -/

/-- Message m is the only copied message of tenant t, the firmware runs, the tenant is heard, and R354 accepts m. -/
def Accepting (s : State) (t : Nat) (m : List Word) : Prop :=
  ready s = true ∧ (s.tenant t).copied = [m] ∧ acceptable (s.tenant t) m = true

/-- Message m is accepted and has a type that R359 lists. -/
def AtHead (s : State) (t : Nat) (m : List Word) (type : Nat) : Prop :=
  Accepting s t m ∧ badEnvelope m = false ∧ mType m = type

/-- What a message leaves of the request sequence (R354): it is consumed, EXPECTED is SEQ + 1, and gap mode is over. -/
def Consumed (s : State) (t : Nat) (m : List Word) : Prop :=
  (s.tenant t).copied = [] ∧ (s.tenant t).expected = BitVec.ofNat 16 (mSeq m + 1) ∧ (s.tenant t).gap = false

/-- A notice of the tenant can be written now, none is held or owed before it (R371, R372), and no TAP has taken the pins of its port
(R630). -/
def CanNotify (s : State) (t : Nat) : Prop :=
  noticeRoom s t = true ∧ (s.tenant t).heldNotices = [] ∧ (s.tenant t).lostOwed = false ∧ rimTaken s (s.tenant t).hostPort = false

/-- Host memory key of the ring slot at TAIL. -/
def tailKey (s : State) (t : Nat) : Nat :=
  hostKey (s.tenant t).hostPort ((s.tenant t).noticeBase.toNat + 32 * (s.tenant t).tail)

/-- The 32 bytes of a notice as they stand in the slot at TAIL: the phase byte of the tail, then the notice (R369, R370). -/
def slotBytes (s : State) (t : Nat) (body : List Byte) : List Byte :=
  BitVec.ofNat 8 (b2n (s.tenant t).tailPhase) :: (padTo 32 body).drop 1

/-- From s to s', the notice `body` was written at TAIL of the tenant's ring, TAIL advanced and its phase inverted at the wrap (R369, R370). -/
def Notified (s s' : State) (t : Nat) (body : List Byte) : Prop :=
  readBytes 0 s'.mem.host (tailKey s t) 32 = slotBytes s t body
    ∧ (s'.tenant t).tail = ((s.tenant t).tail + 1) % 4096
    ∧ (s'.tenant t).tailPhase = (if (s.tenant t).tail = 4095 then !(s.tenant t).tailPhase else (s.tenant t).tailPhase)

/-- Host memory is unchanged outside the ring slot at TAIL. -/
def HostOnlySlot (s s' : State) (t : Nat) : Prop :=
  ∀ a, a < tailKey s t ∨ tailKey s t + 32 ≤ a → tget 0 s'.mem.host a = tget 0 s.mem.host a

/-- Every part of the state but the tenants, their mirror, the memories and the model's counter of free values is unchanged. -/
def SameBeyondTenants (s s' : State) : Prop :=
  s'.pending = s.pending ∧ s'.nowUs = s.nowUs ∧ s'.out = s.out ∧ s'.casing = s.casing ∧ s'.sys = s.sys ∧ s'.silicon = s.silicon
    ∧ s'.fields = s.fields ∧ s'.rims = s.rims ∧ s'.channels = s.channels ∧ s'.ports = s.ports ∧ s'.work = s.work
    ∧ s'.clusters = s.clusters ∧ s'.fabric = s.fabric ∧ s'.taps = s.taps

/-- Every memory but the host's is unchanged. -/
def SameOwnMemory (s s' : State) : Prop :=
  s'.mem.ddr = s.mem.ddr ∧ s'.mem.cistern = s.mem.cistern ∧ s'.mem.flash = s.mem.flash ∧ s'.mem.eeprom = s.mem.eeprom
    ∧ s'.mem.poisoned = s.mem.poisoned

/-- A host page write from port p reaches tenant t's page. -/
def PageReached (s : State) (p t : Nat) : Prop := portReached s p = true ∧ pageLive s p t = true

/-- The tenants other than t are unchanged. -/
def OtherTenants (s s' : State) (t : Nat) : Prop := ∀ u, u ≠ t → s'.tenant u = s.tenant u

/-- The request ring and the sequence of a tenant are unchanged. -/
def SameSequence (x x' : Tenant) : Prop :=
  x'.requestRing = x.requestRing ∧ x'.copied = x.copied ∧ x'.expected = x.expected ∧ x'.gap = x.gap ∧ x'.discarded = x.discarded

/-- The clause of tenant t with a tag stands ready: it may start, every cluster it waits for is awake and has come to it, and its one
member runs job j. s1 is the state in which its work is done: its slots taken and the clause started. -/
def VerbStands (s : State) (t : Nat) (tag : BitVec 16) (ok : Clause → Bool) (isReady : State → Flight → Bool) (f : Flight) (s1 : State)
    (j : Job) : Prop :=
  verbFlight s t tag ok = some f ∧ flightOf s f.uid = some f ∧ isReady (f.waiting.foldl takeAll s) f = true
    ∧ s1 = markStarted (f.waiting.foldl takeAll s) f.uid ∧ jobsOf s1 f = [j]

/-- The clause has been carried out on every member; its bits are those it had and those of the work. -/
def VerbDone (s' : State) (f : Flight) (sat inexact clip : Bool) : Prop :=
  ∃ g, flightOf s' f.uid = some g ∧ g.done = true ∧ g.waiting = [] ∧ g.stop = none ∧ g.started = true
    ∧ g.sat = (f.sat || sat) ∧ g.inexact = (f.inexact || inexact) ∧ g.clip = (f.clip || clip)

/-- The clause has stopped everywhere with a verdict. -/
def VerbStopped (s' : State) (f : Flight) (v : Verdict) : Prop :=
  ∃ g, flightOf s' f.uid = some g ∧ g.waiting = [] ∧ g.stop = some v

/-- What one L2 tile of a verb writes with nothing waiting before it: its bit writes, CLIP, and the elements that would wait for the rest of
their group of OUT. -/
def tileOf (s : State) (j : Job) (l2 : Nat) (o : TileOut) : List (Nat × Nat × Nat) × Bool × Waiting :=
  tileWrites (fun ws => ws.map (fun w => w.2.2)) s j l2 o {} false

/-- One element operand of a clause in units of its accumulation exponent. -/
def operandOf (s : State) (j : Job) (n : Noun) (terms : List DWord) (i : List Nat) : Int :=
  (accUnits n (cEacc j.c) (j.elem s n (evalTerms terms n i))).1

/-- Input voltage in mV that a command brings; 0 for a command that brings none or only one below the limits of R637. -/
def inputOf : Instr → Nat
  | .inputPowerUp mV => mV
  | .standbyStart mV => mV
  | .inputOvervoltage mV => mV
  | .overvoltageRecovery mV => mV
  | .currentSample _ mV => mV
  | _ => 0

/-- The answer to a request (R461, R494): its fields with this wafer as source and the requester as destination. -/
def answerPacket (s : State) (p : Packet) (kind : Nat) (len : BitVec 3) (code : Nat) (data : List Byte) : Packet :=
  { p with
    kind := BitVec.ofNat 4 kind, len := len, down := false, srcWafer := BitVec.ofNat 7 s.sys.waferNumber, dstWafer := p.srcWafer
    code := BitVec.ofNat 2 code, orient := s.fabric.orient, data := data }

/-- From s to s', packet q was sent: without a link nothing goes out; on a link that can take it at once, one frame goes out that carries
the packet's bytes and the link's next FSEQ. -/
def Sent (s s' : State) (q : Packet) : Prop :=
  (chooseLink s q = none → s'.out = s.out)
    ∧ ∀ l, chooseLink s q = some l → (s.link l).txq = [] → canSend (s.link l) { q with down := q.down || descends s l } = true →
        rimTaken s (l / 6) = false →
        ∃ fr : Frame, s'.out = .frame l (frameMessage fr) :: s.out ∧ fr.fseq = (s.link l).fseq ∧ fr.replayed = false
          ∧ fr.payload = packetBytes { q with down := q.down || descends s l }
          ∧ fr.vcs = List.replicate (packetSlots q) (packetChannel q) ++ List.replicate (25 - packetSlots q) 3
          ∧ (s'.link l).replay = (s.link l).replay ++ [(fr.fseq, fr.vcs, fr.payload)]

/-- The firmware runs, and m is the first accepted peer message. -/
def AtPeer (s : State) (m : PeerMsg) (rest : List PeerMsg) : Prop := firmwareRuns s = true ∧ s.fabric.accepted = m :: rest

/-- The other links are unchanged. -/
def OtherLinks (s s' : State) (l : Nat) : Prop := ∀ i, i ≠ l → s'.link i = s.link i

/-- A bit of ALERT_STATUS. -/
def alertBit (s : State) (i : Nat) : Bool := s.sys.alertStatus.getLsbD i

/-- The wafer is off: the power-down of R549 has left nothing but the Casing, the modules in the cages, flash (when no store was under way),
the EEPROM, the host's memory and the model's own fields. -/
def PoweredOff (s s' : State) : Prop :=
  s'.casing.powered = false ∧ s'.casing.powerGood = false ∧ s'.sys = {} ∧ s'.silicon = {} ∧ s'.fields = [] ∧ s'.rims = [] ∧ s'.channels = []
    ∧ s'.ports = [] ∧ s'.tenants = [] ∧ s'.work = {} ∧ s'.clusters = [] ∧ s'.taps = [] ∧ s'.mem.ddr = [] ∧ s'.mem.cistern = []
    ∧ s'.mem.poisoned = [] ∧ s'.mem.eeprom = s.mem.eeprom ∧ s'.mem.host = s.mem.host ∧ (s.sys.stores = [] → s'.mem.flash = s.mem.flash)
    ∧ s'.mirror = {} ∧ s'.fabric = { cages := s'.fabric.cages } ∧ s'.pending = s.pending ∧ s'.nowUs = s.nowUs

/-- The wafer has been powered on: every converter ramps from now on, and the stores and the host's memory are as before. -/
def PoweredOn (s s' : State) : Prop :=
  s'.casing.powered = true ∧ s'.casing.upAt = s.nowUs ∧ (∀ pos, pos < 74 → converter s' pos = .ramping) ∧ s'.sys.serial = eepromSerial s
    ∧ s'.mem = s.mem ∧ s'.tenants = s.tenants ∧ (s.casing.hold = true → s'.sys.state = 2)

/-- Power-on is permitted but for what the command changes (R639, R641, R643). -/
def MayPower (s : State) : Prop := s.casing.powered = false ∧ s.casing.enablePin = true ∧ s.casing.powerOffLatch = false

/-- An open session of the agent, with the standby domain up, of which no request waits for a store (R658, R664). -/
def Open (s : State) (sess : Nat) : Prop :=
  s.casing.standby = true ∧ (s.agentSession sess).openFlag = true ∧ (s.agentSession sess).answers = []

/-- The control lock is free or this session's (R659). -/
def MayLock (s : State) (sess : Nat) : Prop := s.casing.lockHolder = none ∨ s.casing.lockHolder = some sess

/-- The agent answered a command of a session, and nothing else went out. -/
def Answered (s s' : State) (sess cmd : Nat) (tag : Word) (status : Nat) (payload : List Byte) : Prop :=
  s'.out = .agent sess cmd tag status payload :: s.out

end Sys2Proof.Machine

open Sys2Proof Sys2Proof.Machine

/-- For every command c, queue rest and state s: a step of s with c in front of rest is exec of c on s with rest waiting. (The queue is the
model's own, log 7.) With no command waiting, a step answers the same state with the time one microsecond later (the model's choice, log
7). -/
def Obligations.StepTakesFrontCommand : Prop :=
  (∀ (c : Instr) (rest : List Instr) (s : State),
    core.step ({ s with pending := c :: rest } : State) = exec c { s with pending := rest })
  ∧ (∀ s : State, s.pending = [] → step s = .next { s with nowUs := s.nowUs + 1 })

/-- For every command and state: exec answers a next state, unless the command brings an input voltage above 65 V, in which case it is the
fault outsideRatings of R637 or a next state; no command is ever refused. -/
def Obligations.EveryCommandCompletes : Prop :=
  (∀ (c : Instr) (s : State), (∀ r, exec c s ≠ .refused r))
    ∧ (∀ (c : Instr) (s : State), inputOf c ≤ 65000 → ∃ t, exec c s = .next t)

/-- For every state whose byte memories (DDR, cisterns, flash, EEPROM, host memory) list addresses in rising order and no byte equal to what an
unlisted address reads as: after any step that answers a next state, they still do. Equal memories are therefore equal data in every run.
-/
def Obligations.MemoryFormKept : Prop :=
  ∀ s t : State, s.mem.wf = true → step s = .next t → t.mem.wf = true

/-- At State.reset every byte memory is in its canonical form, the invariant that every step keeps. For every tenant t: at reset REQ_STATUS
reads REQ_FREE 64 and every other bit zero, NOTICE_HEAD zero, NOTICE_STATUS TAIL_PHASE 1 and every other bit zero, COUNTS and SEQ_STATUS
zero, and TENANT_STATE ENABLED 1 for tenant 0 and zero for the others. -/
def Obligations.ResetState : Prop :=
  (core.reset = State.reset ∧ State.reset.mem.wf = true)
  ∧ (∀ t : Fin 16,
    tenantReg State.reset t 0x1000 = 64 * 2 ^ 24
    ∧ tenantReg State.reset t 0x1004 = 0
    ∧ tenantReg State.reset t 0x1008 = 2 ^ 12
    ∧ tenantReg State.reset t 0x100C = 0
    ∧ tenantReg State.reset t 0x1010 = 0
    ∧ tenantReg State.reset t 0x1014 = (if t = 0 then 1 else 0))

/-- On a live page, a write of 64 bytes to a 64-byte aligned address without EP is appended to the request ring when the ring holds fewer than
64 entries, whatever its offset; with 64 entries it is dropped, DROP_COUNT increments and OVERRUN is set; any other write is dropped,
DROP_COUNT increments and MALFORMED is set. No other tenant and no memory changes. In state READY, when the tenant is disabled or not bound
to the port: a POST write, and a write of any of its page's registers, leave every tenant as it was, and a byte of its aperture reads as
zero. -/
def Obligations.PostWriteAppendsOrDrops : Prop :=
  (∀ (p : Fin 4) (t : Fin 16) (off : Nat) (ep : Bool) (data : List Byte) (s : State),
    pageLive s p t = true → off < 0x1000 →
    ∃ s', exec (.postWrite p t off ep data) s = .next s'
      ∧ (data.length = 64 ∧ off % 64 = 0 ∧ ep = false → (s.tenant t).requestRing.length < 64 →
          (s'.tenant t) = { s.tenant t with requestRing := (s.tenant t).requestRing ++ [data] })
      ∧ (data.length = 64 ∧ off % 64 = 0 ∧ ep = false → 64 ≤ (s.tenant t).requestRing.length →
          (s'.tenant t) = { s.tenant t with dropCount := min 0xFFFF ((s.tenant t).dropCount + 1), overrun := true })
      ∧ (¬ (data.length = 64 ∧ off % 64 = 0 ∧ ep = false) →
          (s'.tenant t) = { s.tenant t with dropCount := min 0xFFFF ((s.tenant t).dropCount + 1), malformed := true })
      ∧ OtherTenants s s' t ∧ s'.mem = s.mem ∧ s'.work = s.work ∧ s'.clusters = s.clusters ∧ s'.sys = s.sys)
  ∧ (∀ (p : Fin 4) (t : Fin 16) (s : State),
    s.sys.state = 1 → ((s.tenant t).enabled = false ∨ (s.tenant t).bound = false ∨ (s.tenant t).hostPort ≠ p) →
    (∀ off ep data, ∃ s', exec (.postWrite p t off ep data) s = .next s' ∧ s'.tenants = s.tenants)
    ∧ (∀ ep, ∃ s', exec (.overrunClear p t ep) s = .next s' ∧ s'.tenants = s.tenants)
    ∧ (∀ ep, ∃ s', exec (.malformedClear p t ep) s = .next s' ∧ s'.tenants = s.tenants)
    ∧ (∀ v ep, ∃ s', exec (.noticeHeadWrite p t v ep) s = .next s' ∧ s'.tenants = s.tenants)
    ∧ (∀ ep, ∃ s', exec (.noticeLostClear p t ep) s = .next s' ∧ s'.tenants = s.tenants)
    ∧ (∀ a : Nat, a / 2 ^ 32 = t.val → apertureRead s p a = 0))

/-- PUMPHOUSE_VISIT on a running firmware clears every request ring. Where a tenant had nothing copied and unconsumed and R354 accepts the
first message of its ring, every message of the ring waits for its start, in the order of the ring. A visit with one message m in tenant
t's ring, with no other message in a ring or copied, and with no clause that can be admitted: when m is not accepted, it is consumed and
counted in DISCARDED, and EXPECTED stays. When the tenant is disabled, or has no notice ring and m is no RING_SETUP, or m is a duplicate,
or gap mode is on, then no memory, no TAIL and no gap mode changes; otherwise gap mode is entered and a MESSAGE notice of kind SEQ_GAP is
posted. -/
def Obligations.VisitSortsMessages : Prop :=
  (∀ s : State, ready s = true →
    ∃ s', exec .pumphouseVisit s = .next s'
      ∧ (∀ t : Fin 16, (s'.tenant t).requestRing = [])
      ∧ (∀ (t : Fin 16) (es : List (List Byte)), (s.tenant t).copied = [] → (s.tenant t).requestRing = es →
          (∀ e ∈ es.head?, acceptable (s.tenant t) (leWords 16 e) = true) →
          (s'.tenant t).copied = es.map (leWords 16)))
  ∧ (∀ (t : Fin 16) (m : List Word) (e : List Byte) (s : State), ready s = true →
    (∀ u : Fin 16, u ≠ t → (s.tenant u).requestRing = [] ∧ (s.tenant u).copied = []) →
    (∀ (u : Fin 16) (p : Fin 4), canAdmit s u p = false) →
    (s.tenant t).copied = [] → (s.tenant t).requestRing = [e] → m = leWords 16 e → acceptable (s.tenant t) m = false →
    ∃ s', exec .pumphouseVisit s = .next s' ∧ (s'.tenant t).copied = [] ∧ (s'.tenant t).expected = (s.tenant t).expected
      ∧ (s'.tenant t).discarded = min 0xFFFF ((s.tenant t).discarded + 1)
      ∧ ((unheard (s.tenant t) m = true ∨ 32768 ≤ seqDistance (s.tenant t) m ∨ (s.tenant t).gap = true) →
          s'.mem = s.mem ∧ (s'.tenant t).gap = (s.tenant t).gap ∧ (s'.tenant t).tail = (s.tenant t).tail)
      ∧ (unheard (s.tenant t) m = false → seqDistance (s.tenant t) m < 32768 → (s.tenant t).gap = false → CanNotify s t →
          (s'.tenant t).gap = true
          ∧ Notified s s' t (messageNotice (mSeq m) 1 (mType m) (s.tenant t).expected.toNat)))

/-- With no message in a request ring or copied, and one clause waiting in one tenant's ring of one class and none in any other ring, when it
can be admitted: after the visit that ring is empty. When no check of R289 fails, it is no BIND and no member of its region is fenced, the
clause is in flight after every clause already in flight, with its tag, class, words and extents, not started, and no memory changes. When
a check fails, it is not in flight, its ring is HALTED, and its notice has STATUS REJECTED and the reason of the first failed check. For a
tenant whose ring of a class has an admissible BIND at its head, with every check passed and no fenced member, the BIND command takes it
from the ring and leaves it out of flight; its record of the map holds the extents that it gives, with 0xFFFFFFFF keeping the one in force,
unless its END flag closes the sentence; and its notice has STATUS OK, while a QUIET one changes no memory. -/
def Obligations.VisitAdmitsClauses : Prop :=
  (∀ (t : Fin 16) (p : Fin 4) (c : Clause) (s : State), ready s = true →
    (∀ u : Fin 16, (s.tenant u).requestRing = [] ∧ (s.tenant u).copied = []) → ((s.tenant t).ring p).waiting = [c] → canAdmit s t p = true →
    (∀ (u : Fin 16) (q : Fin 4), (u ≠ t ∨ q ≠ p) → ((s.tenant u).ring q).waiting = []) → headDeadline s t p < 8 →
    ∃ s', exec .pumphouseVisit s = .next s' ∧ ((s'.tenant t).ring p).waiting = []
      ∧ (rejectReason s t c = none → cVerb c ≠ 0x0B → regionFenced s ((s.tenant t).plan.getD {}) c = false →
          ∃ f, s'.work.flights = s.work.flights ++ [f] ∧ f.tenant = t.val ∧ f.tag = cTag (s.tenant t).bl c ∧ f.prio = p.val ∧ f.words = c
            ∧ f.started = false ∧ f.uid = s.work.nextUid ∧ f.extents = extentsFor ((s.tenant t).plan.getD {}) ((s.tenant t).ring p) (cMap c)
            ∧ s'.mem = s.mem)
      ∧ (∀ code, rejectReason s t c = some code → CanNotify s t → tenantFlights s t = [] → (s.tenant t).clears = [] →
          s'.work.flights = s.work.flights.filter (fun f => f.uid ≠ s.work.nextUid) ∧ bit (s'.tenant t).halted.toNat p = true
          ∧ ∃ f : Flight, f.tag = cTag (s.tenant t).bl c ∧ f.prio = p.val ∧ f.words = c ∧ f.sat = false ∧ f.inexact = false ∧ f.clip = false
            ∧ f.skipped = 0 ∧ f.issued = 0 ∧ Notified s s' t (clauseNotice f { status := 1, reason := code })))
  ∧ (∀ (t : Fin 16) (p : Fin 4) (c : Clause) (rest : List Clause) (s : State), ready s = true →
    ((s.tenant t).ring p).waiting = c :: rest → canAdmit s t p = true → cVerb c = 0x0B → rejectReason s t c = none →
    regionFenced s ((s.tenant t).plan.getD {}) c = false → (s.tenant t).clears = [] →
    ∃ s', exec (.bind t p) s = .next s' ∧ ((s'.tenant t).ring p).waiting = rest
      ∧ s'.work.flights = s.work.flights.filter (fun f => f.uid ≠ s.work.nextUid)
      ∧ (cEnd c = false → extentsFor ((s.tenant t).plan.getD {}) ((s'.tenant t).ring p) (cMap c)
          = bindExtents ((s.tenant t).plan.getD {}) ((s.tenant t).ring p) c)
      ∧ (cEnd c = true → ((s'.tenant t).ring p).binds = [] ∧ ((s'.tenant t).ring p).sentence = ((s.tenant t).ring p).sentence + 1)
      ∧ (cQuiet c = false → CanNotify s t →
          ∃ f : Flight, f.tag = cTag (s.tenant t).bl c ∧ f.prio = p.val ∧ f.words = c ∧ f.sat = false ∧ f.inexact = false ∧ f.clip = false
            ∧ f.skipped = 0 ∧ f.issued = 0 ∧ Notified s s' t (clauseNotice f {}))
      ∧ (cQuiet c = true → s'.mem = s.mem))

/-- An accepted CLAUSE message is consumed, EXPECTED becomes SEQ + 1, and its sixteen words wait at the end of the submission ring of its
priority class, the other classes' rings unchanged. When 512 clauses wait there it is not accepted: EXPECTED stays, gap mode is entered,
and a MESSAGE notice of kind RING_FULL is posted. A message with a reserved MSG_TYPE or a reserved envelope bit set is accepted in
sequence, and one MESSAGE notice of kind BAD_TYPE is posted; nothing else changes but the tenant's sequence and ring. TENANT_CONFIG,
FW_STAGE, FW_ACTIVATE and REQUALIFY sent by a tenant other than 0 are consumed and answered REJECTED with reason NOT_ADMIN, and nothing
else changes. -/
def Obligations.ClausesQueueAndBadMessagesAnswered : Prop :=
  (∀ (t : Fin 16) (m : List Word) (s : State), AtHead s t m 0x01 → (s.tenant t).rings.length = 4 →
    (((s.tenant t).ring (cPrio m)).waiting.length < 512 →
      ∃ s', exec (.clause t) s = .next s' ∧ Consumed s' t m
        ∧ ((s'.tenant t).ring (cPrio m)).waiting = ((s.tenant t).ring (cPrio m)).waiting ++ [m.take 16]
        ∧ (∀ q, q ≠ cPrio m → (s'.tenant t).ring q = (s.tenant t).ring q)
        ∧ OtherTenants s s' t ∧ s'.mem = s.mem ∧ SameBeyondTenants s s')
    ∧ (512 ≤ ((s.tenant t).ring (cPrio m)).waiting.length → CanNotify s t →
      ∃ s', exec (.clause t) s = .next s' ∧ (s'.tenant t).copied = [] ∧ (s'.tenant t).gap = true
        ∧ (s'.tenant t).expected = (s.tenant t).expected ∧ (s'.tenant t).rings = (s.tenant t).rings
        ∧ Notified s s' t (messageNotice (mSeq m) 3 0x01 (s.tenant t).expected.toNat) ∧ HostOnlySlot s s' t))
  ∧ (∀ (t : Fin 16) (m : List Word) (s : State), Accepting s t m → badEnvelope m = true → CanNotify s t →
    ∃ s', exec (.badType t) s = .next s' ∧ Consumed s' t m
      ∧ Notified s s' t (messageNotice (mSeq m) 2 (mType m) ((mSeq m + 1) % 65536))
      ∧ HostOnlySlot s s' t ∧ OtherTenants s s' t ∧ SameBeyondTenants s s' ∧ SameOwnMemory s s')
  ∧ (∀ (t : Fin 16) (m : List Word) (s : State) (type : Nat) (c : Instr), t ≠ 0 → AtHead s t m type → CanNotify s t →
    ((c = .tenantConfig t ∧ type = 0x0B) ∨ (c = .fwStage t ∧ type = 0x0C) ∨ (c = .fwActivate t ∧ type = 0x0D)
      ∨ (c = .requalify t ∧ type = 0x0E)) →
    ∃ s', exec c s = .next s' ∧ Consumed s' t m ∧ Notified s s' t (replyNotice (mSeq m) 1 type 0x0202 0 0 0)
      ∧ HostOnlySlot s s' t ∧ OtherTenants s s' t ∧ SameBeyondTenants s s' ∧ SameOwnMemory s s')

/-- With no clause of the tenant in flight, a 4 KiB aligned base, clean payload and nothing held: RING_SETUP sets NOTICE_BASE, ALERTS and
RING_SET and writes its own OK reply at entry 0 of the new ring with phase 1. With a clause in flight and an old ring it is answered BUSY
in the old ring; without a ring a rejected one is counted in DISCARDED. -/
def Obligations.RingSetupStartsRing : Prop :=
  ∀ (t : Fin 16) (m : List Word) (s : State), AtHead s t m 0x02 →
    (payloadClean m [0xFFFFFFFF, 0xFFFFFFFF, 1] = true → dword m 0 % 4096 = 0 → tenantFlights s t = [] →
      (s.tenant t).bound = true → portWritable (s.port (s.tenant t).hostPort) = true → (s.tenant t).heldNotices = [] →
      (s.tenant t).lostOwed = false → rimTaken s (s.tenant t).hostPort = false →
      ∃ s', exec (.ringSetup t) s = .next s' ∧ Consumed s' t m
        ∧ readBytes 0 s'.mem.host (hostKey (s.tenant t).hostPort (dword m 0)) 32
          = 1 :: (replyNotice (mSeq m) 0 0x02 0 0 0 0).drop 1
        ∧ (s'.tenant t).ringSet = true ∧ (s'.tenant t).noticeBase = BitVec.ofNat 64 (dword m 0)
        ∧ (s'.tenant t).alerts = bit (word m 2) 0 ∧ (s'.tenant t).tail = 1 ∧ (s'.tenant t).tailPhase = true
        ∧ (s'.tenant t).ringUsed = 1)
    ∧ (payloadClean m [0xFFFFFFFF, 0xFFFFFFFF, 1] = true → dword m 0 % 4096 = 0 → tenantFlights s t ≠ [] → (s.tenant t).ringSet = true →
      CanNotify s t →
      ∃ s', exec (.ringSetup t) s = .next s' ∧ Consumed s' t m ∧ Notified s s' t (replyNotice (mSeq m) 1 0x02 0x0201 0 0 0))
    ∧ ((s.tenant t).ringSet = false → tenantFlights s t ≠ [] →
      ∃ s', exec (.ringSetup t) s = .next s' ∧ Consumed s' t m ∧ (s'.tenant t).ringSet = false ∧ s'.mem = s.mem
        ∧ (s'.tenant t).discarded = min 0xFFFF ((s.tenant t).discarded + 1))

/-- For each of the five results: an accepted QUERY of a 64-byte aligned DEST whose LENGTH suffices, and whose result does not overlap the slot
at TAIL, writes the whole result at DEST and a REPLY at TAIL whose RESULT is the byte count, and no other byte of host memory; when LENGTH
is less than the result, nothing is written but the reply, REJECTED with SHORT_BUFFER and the size needed. An accepted PING with a clean
payload is answered with a REPLY of status OK that carries its cookie, in the slot at TAIL; with another payload bit set it is answered
BAD_MESSAGE. No other byte of a memory, no other tenant and, but for the mirror of the tenant and the free values' counter, no other part
of the state changes. -/
def Obligations.QueriesAndPingAnswered : Prop :=
  (∀ (t : Fin 16) (m : List Word) (s : State), AtHead s t m 0x09 → CanNotify s t → dword m 1 % 64 = 0 →
    payloadClean m [0xFF, 0xFFFFFFFF, 0xFFFFFFFF, 0xFFFFFFFF] = true →
    ∀ (c : Instr) (result : State → List Byte),
      ((c = .queryTopology t ∧ queryWhat m = 0 ∧ result = topologyTable)
        ∨ (c = .queryTenantStatus t ∧ queryWhat m = 1 ∧ result = fun s => tenantStatus s t)
        ∨ (c = .queryInFlightTags t ∧ queryWhat m = 2 ∧ result = fun s => tagBlock s t)
        ∨ (c = .queryLedger t ∧ queryWhat m = 3 ∧ result = ledgerBlock)
        ∨ (c = .queryTelemetry t ∧ queryWhat m = 4 ∧ result = telemetryNow)) →
      let bs := result s
      let dest := hostKey (s.tenant t).hostPort (dword m 1)
      (bs.length ≤ word m 3 → (dest + bs.length ≤ tailKey s t ∨ tailKey s t + 32 ≤ dest) →
        ∃ s', exec c s = .next s' ∧ Consumed s' t m ∧ readBytes 0 s'.mem.host dest bs.length = bs
          ∧ Notified s s' t (replyNotice (mSeq m) 0 0x09 0 0 bs.length 0)
          ∧ (∀ a, (a < tailKey s t ∨ tailKey s t + 32 ≤ a) → (a < dest ∨ dest + bs.length ≤ a) → tget 0 s'.mem.host a = tget 0 s.mem.host a))
      ∧ (word m 3 < bs.length →
        ∃ s', exec c s = .next s' ∧ Consumed s' t m ∧ HostOnlySlot s s' t
          ∧ Notified s s' t (replyNotice (mSeq m) 1 0x09 0x0204 0 bs.length 0)))
  ∧ (∀ (t : Fin 16) (m : List Word) (s : State), AtHead s t m 0x0A → CanNotify s t →
    ∃ s', exec (.ping t) s = .next s' ∧ Consumed s' t m
      ∧ (payloadClean m [0xFFFFFFFF, 0xFFFFFFFF] = true → Notified s s' t (replyNotice (mSeq m) 0 0x0A 0 0 0 (dword m 0)))
      ∧ (payloadClean m [0xFFFFFFFF, 0xFFFFFFFF] = false → Notified s s' t (replyNotice (mSeq m) 1 0x0A 0x0203 0 0 0))
      ∧ HostOnlySlot s s' t ∧ OtherTenants s s' t ∧ SameBeyondTenants s s' ∧ SameOwnMemory s s')

/-- While no notice of a tenant can be written: a PING's reply is held last when fewer than 64 are held; when 64 are held it is lost,
LOST_COUNT increments, NOTICE_LOST is set, and a NOTICES_LOST event is owed. Once a NOTICE_HEAD write makes room for all, the one notice
that is held is written at TAIL, and, when the loss is owed, the NOTICES_LOST event with LOST_COUNT after it. NOTICE_STATUS shows how many
notices are held. -/
def Obligations.NoticesHeldAndLost : Prop :=
  (∀ (t : Fin 16) (m : List Word) (s : State), AtHead s t m 0x0A → payloadClean m [0xFFFFFFFF, 0xFFFFFFFF] = true → noticeRoom s t = false →
    ∃ s', exec (.ping t) s = .next s' ∧ Consumed s' t m ∧ s'.mem = s.mem
      ∧ ((s.tenant t).heldNotices.length < 64 →
          (s'.tenant t).heldNotices = (s.tenant t).heldNotices ++ [replyNotice (mSeq m) 0 0x0A 0 0 0 (dword m 0)])
      ∧ (64 ≤ (s.tenant t).heldNotices.length → (s'.tenant t).heldNotices = (s.tenant t).heldNotices
          ∧ (s'.tenant t).lostCount = min 0xFFFF ((s.tenant t).lostCount + 1) ∧ (s'.tenant t).noticeLost = true
          ∧ (s'.tenant t).lostOwed = true))
  ∧ (∀ (p : Fin 4) (t : Fin 16) (v : Word) (b : List Byte) (s : State), PageReached s p t → ready s = true → (s.tenant t).ringSet = true →
    (s.tenant t).bound = true → (s.tenant t).hostPort = p → portWritable (s.port p) = true →
    (s.tenant t).heldNotices = [b] → (s.tenant t).heldResults = [] →
    ringUsedAfter (s.tenant t) (v.toNat % 4096) < 4095 → (s.tenant t).lostOwed = false →
    ∃ s', exec (.noticeHeadWrite p t v false) s = .next s' ∧ (s'.tenant t).heldNotices = [] ∧ Notified s s' t b ∧ HostOnlySlot s s' t)
  ∧ (∀ (p : Fin 4) (t : Fin 16) (v : Word) (b : List Byte) (s : State), PageReached s p t → ready s = true → (s.tenant t).ringSet = true →
    (s.tenant t).bound = true → (s.tenant t).hostPort = p → portWritable (s.port p) = true →
    (s.tenant t).heldNotices = [b] → (s.tenant t).tail + 1 < 4096 → (s.tenant t).noticeBase.toNat + 131072 ≤ 2 ^ 64 →
    ringUsedAfter (s.tenant t) (v.toNat % 4096) < 4095 → (s.tenant t).lostOwed = true →
    ∃ s', exec (.noticeHeadWrite p t v false) s = .next s' ∧ (s'.tenant t).heldNotices = [] ∧ (s'.tenant t).lostOwed = false
      ∧ (s'.tenant t).tail = ((s.tenant t).tail + 2) % 4096
      ∧ readBytes 0 s'.mem.host (tailKey s t) 64 = slotBytes s t b ++ slotBytes s t (eventNotice 2 (s.tenant t).lostCount 0))
  ∧ (∀ (t : Fin 16) (s : State), (s.tenant t).tail < 4096 → (s.tenant t).heldNotices.length ≤ 64 →
      bits (tenantReg s t 0x1008) 19 13 = (s.tenant t).heldNotices.length)

/-- An accepted PLAN_LOAD whose image address names 256-byte aligned DDR of this wafer inside the tenant's granules queues the load and answers
nothing yet; a misaligned one is answered BAD_ADDRESS. An accepted PLAN_UNLOAD of a tenant with no clause in flight leaves it without a
plan, with every cistern byte, LUT slot, accumulator and held state of every member cluster gone, and answers OK; with a clause in flight
it is answered BUSY. When the first image in a tenant's line is checked: with a failure, the load notice carries LOAD_REJECT, the reason
code and the index of the first one in the order of R342, and no plan, cluster or memory of the wafer changes; without one, the tenant
holds the plan of the image, every member cluster's LUT slots are empty and its error count zero, and the load notice is OK. -/
def Obligations.PlansComeAndGo : Prop :=
  (∀ (t : Fin 16) (m : List Word) (s : State), CanNotify s t →
    (∀ off, AtHead s t m 0x03 → payloadClean m [0xFFFFFFFF, 0xFFFFFFFF] = true → ownDdr s (dword m 0) = some off →
      (off % 256 = 0 → inGranules (s.tenant t) off 128 = true →
        ∃ s', exec (.planLoad t) s = .next s' ∧ Consumed s' t m ∧ (s'.tenant t).loading = (s.tenant t).loading ++ [(mSeq m, off)]
          ∧ s'.mem = s.mem ∧ OtherTenants s s' t ∧ SameBeyondTenants s s')
      ∧ (off % 256 ≠ 0 →
        ∃ s', exec (.planLoad t) s = .next s' ∧ Consumed s' t m ∧ (s'.tenant t).loading = (s.tenant t).loading
          ∧ Notified s s' t (replyNotice (mSeq m) 1 0x03 0x0206 0 0 0)))
    ∧ (AtHead s t m 0x04 → payloadClean m [] = true → tenantFlights s t = [] →
      ∃ s', exec (.planUnload t) s = .next s' ∧ Consumed s' t m ∧ (s'.tenant t).plan = none
        ∧ Notified s s' t (replyNotice (mSeq m) 0 0x04 0 0 0 0)
        ∧ ∀ r ∈ planRegions s t, ∀ k ∈ r.members,
            (s'.cluster k).owner = none ∧ (s'.cluster k).slots = [] ∧ (s'.cluster k).held = none ∧ (s'.cluster k).saved = []
            ∧ (s'.cluster k).luts = [] ∧ (s'.cluster k).unit = {} ∧ ∀ a, a < 2 ^ 21 → tget 0 s'.mem.cistern (cisKey k a) = 0)
    ∧ (AtHead s t m 0x04 → payloadClean m [] = true → tenantFlights s t ≠ [] →
      ∃ s', exec (.planUnload t) s = .next s' ∧ Consumed s' t m ∧ (s'.tenant t).plan = (s.tenant t).plan ∧ s'.clusters = s.clusters
        ∧ Notified s s' t (replyNotice (mSeq m) 1 0x04 0x0201 0 0 0)))
  ∧ (∀ (t : Fin 16) (seq off : Nat) (rest : List (Nat × Nat)) (s : State), (s.tenant t).loading = (seq, off) :: rest → CanNotify s t →
    let s1 := s.modTenant t (fun x => { x with loading := rest })
    (∀ code i, loadFailure s1 t off (imageAt s1 off) = some (code, i) →
      ∃ s', exec (.planLoadDone t) s = .next s' ∧ (s'.tenant t).loading = rest ∧ (s'.tenant t).plan = (s.tenant t).plan
        ∧ Notified s s' t (replyNotice seq 2 0x03 code i 0 0) ∧ HostOnlySlot s s' t ∧ OtherTenants s s' t ∧ SameOwnMemory s s'
        ∧ SameBeyondTenants s s')
    ∧ (loadFailure s1 t off (imageAt s1 off) = none →
      ∃ s' p, exec (.planLoadDone t) s = .next s' ∧ (s'.tenant t).loading = rest ∧ (s'.tenant t).plan = some p
        ∧ p.nouns = (readPlan s1 (imageAt s1 off)).nouns ∧ p.maps = (readPlan s1 (imageAt s1 off)).maps
        ∧ p.tiles = (readPlan s1 (imageAt s1 off)).tiles ∧ p.mcasts = (readPlan s1 (imageAt s1 off)).mcasts
        ∧ p.regions.map (fun r => r.members) = (readPlan s1 (imageAt s1 off)).regions.map (fun r => r.members)
        ∧ Notified s s' t (replyNotice seq 0 0x03 0 0 0 0)
        ∧ ∀ r ∈ p.regions, ∀ k ∈ r.members, (s'.cluster k).luts = [] ∧ (s'.cluster k).ecc = 0))

/-- With no clause of the tenant in flight: an accepted QUEUE_CLEAR leaves every ring that CLASSES names with nothing waiting, OPEN, at the
start of a new sentence and with no BIND in effect, and every other ring and HALTED bit as it was. When nothing waited in those rings, its
OK reply is the notice at TAIL. An accepted SESSION_OPEN of deadline class below 8, whose 256-byte aligned state region lies in the
tenant's granules, opens the lowest free session and returns its number in INDEX; without a free one it is answered NO_SESSION.
SESSION_CLOSE of an own open session that no clause in flight names closes it and answers OK; one that is not the tenant's is answered
NO_SESSION. -/
def Obligations.QueueClearAndSessions : Prop :=
  (∀ (t : Fin 16) (m : List Word) (s : State), AtHead s t m 0x05 → payloadClean m [0xF] = true → tenantFlights s t = [] →
    (s.tenant t).rings.length = 4 → (s.tenant t).clears = [] →
    ∃ s', exec (.queueClear t) s = .next s' ∧ Consumed s' t m
      ∧ (∀ p : Fin 4, bit (word m 0) p = true → ((s'.tenant t).ring p).waiting = [] ∧ ((s'.tenant t).ring p).binds = []
          ∧ ((s'.tenant t).ring p).atStart = true ∧ ((s'.tenant t).ring p).sentence = ((s.tenant t).ring p).sentence + 1
          ∧ bit (s'.tenant t).halted.toNat p = false)
      ∧ (∀ p : Fin 4, bit (word m 0) p = false → (s'.tenant t).ring p = (s.tenant t).ring p
          ∧ bit (s'.tenant t).halted.toNat p = bit (s.tenant t).halted.toNat p)
      ∧ s'.work.flights.filter (fun f => f.tenant = t.val) = [] ∧ (s'.tenant t).counters = (s.tenant t).counters
      ∧ s'.work.sessions = s.work.sessions
      ∧ ((∀ p : Fin 4, ((s.tenant t).ring p).waiting = []) → CanNotify s t →
          Notified s s' t (replyNotice (mSeq m) 0 0x05 0 0 0 0)))
  ∧ (∀ (t : Fin 16) (m : List Word) (s : State), CanNotify s t →
    (∀ off, AtHead s t m 0x07 → payloadClean m [0xFF, 0xFFFFFFFF, 0xFFFFFFFF, 0xFFFFFFFF] = true → bits (word m 0) 7 0 < 8 →
      ownDdr s (dword m 1) = some off → off % 256 = 0 → inGranules (s.tenant t) off (word m 3) = true →
      (∀ i, i < 256 → (s.session i).openFlag = false → (∀ j, j < i → (s.session j).openFlag = true) →
        ∃ s', exec (.sessionOpen t) s = .next s' ∧ Consumed s' t m ∧ Notified s s' t (replyNotice (mSeq m) 0 0x07 0 i 0 0)
          ∧ s'.session i = { openFlag := true, tenant := t, deadline := bits (word m 0) 7 0, stateBase := off, stateSize := word m 3 }
          ∧ ∀ j, j ≠ i → s'.session j = s.session j)
      ∧ ((∀ j, j < 256 → (s.session j).openFlag = true) →
        ∃ s', exec (.sessionOpen t) s = .next s' ∧ Consumed s' t m ∧ s'.work = s.work
          ∧ Notified s s' t (replyNotice (mSeq m) 1 0x07 0x0205 0 0 0)))
    ∧ (AtHead s t m 0x08 → payloadClean m [0xFF] = true →
      let i := bits (word m 0) 7 0
      ((s.session i).openFlag = true → (s.session i).tenant = t →
        (∀ f ∈ s.work.flights, cSessionEn f.words = true → cSession f.words ≠ i) →
        ∃ s', exec (.sessionClose t) s = .next s' ∧ Consumed s' t m ∧ Notified s s' t (replyNotice (mSeq m) 0 0x08 0 0 0 0)
          ∧ (s'.session i).openFlag = false ∧ ∀ j, j ≠ i → s'.session j = s.session j)
      ∧ (((s.session i).openFlag = false ∨ (s.session i).tenant ≠ t) →
        ∃ s', exec (.sessionClose t) s = .next s' ∧ Consumed s' t m ∧ s'.work = s.work
          ∧ Notified s s' t (replyNotice (mSeq m) 1 0x08 0x0205 0 0 0))))

/-- An accepted RESET of an allowed target whose last increment lies 10 µs or more back, with none deferred: TENANT increments the target's
epoch modulo 256, leaves it with no clause in flight or waiting, its rings open, its counters zero and its sessions closed, keeps a plan
where it has one, and records the new epoch for each of its regions. REGION increments the epoch, discards the members'
accumulator, held and saved state, and records the new epoch for that region. The reply is owed from now on. EPOCH_INCREMENT, with a
deferred reset and the last increment 10 µs or more back, increments the epoch modulo 256, notes the time, and takes the reset off the
deferred ones; with the last increment less than 10 µs back it changes nothing. RESET_REPLY writes the OK reply of the one reset owed, once
its timeout has run out since its increment. -/
def Obligations.ResetsAndReplies : Prop :=
  (∀ (t u : Fin 16) (m : List Word) (s : State), AtHead s t m 0x06 → payloadClean m [0xF03, 0xFF] = true → bits (word m 0) 11 8 = u →
    (t = 0 ∨ u = t) → incrementDue s u = true → (s.tenant u).deferred = [] →
    (bits (word m 0) 1 0 = 0 →
      ∃ s', exec (.resetTenant t) s = .next s' ∧ Consumed s' t m
        ∧ (s'.tenant u).epoch = (s.tenant u).epoch + 1 ∧ (s'.tenant u).lastIncrement = some s.nowUs
        ∧ tenantFlights s' u = [] ∧ (∀ p : Fin 4, ((s'.tenant u).ring p).waiting = []) ∧ (s'.tenant u).halted = 0
        ∧ (s'.tenant u).counters = [] ∧ (∀ e ∈ s'.work.sessions, e.2.openFlag = true → e.2.tenant ≠ u)
        ∧ (s'.tenant u).plan.isSome = (s.tenant u).plan.isSome ∧ (u ≠ t → (s'.tenant u).expected = (s.tenant u).expected)
        ∧ (∀ g ∈ planRegions s' u, g.resetEpoch = (s.tenant u).epoch + 1)
        ∧ (⟨mSeq m, s.nowUs, requestTimeout (s.tenant u)⟩ : ResetWait) ∈ (s'.tenant t).resets)
    ∧ (∀ r, bits (word m 0) 1 0 = 1 → bits (word m 1) 7 0 = r → r < (planRegions s u).length →
      ∃ s', exec (.resetRegion t) s = .next s' ∧ Consumed s' t m
        ∧ (s'.tenant u).epoch = (s.tenant u).epoch + 1 ∧ ((planRegions s' u).getD r {}).resetEpoch = (s.tenant u).epoch + 1
        ∧ regionFlights s' u r = []
        ∧ (∀ k ∈ ((planRegions s u).getD r {}).members, (s'.cluster k).slots = [] ∧ (s'.cluster k).owner = none
            ∧ (s'.cluster k).held = none ∧ (s'.cluster k).saved = [] ∧ (s'.cluster k).unit = {} ∧ (s'.cluster k).run = none)
        ∧ s'.mem.cistern = s.mem.cistern
        ∧ (⟨mSeq m, s.nowUs, requestTimeout (s.tenant u)⟩ : ResetWait) ∈ (s'.tenant t).resets))
  ∧ ((∀ (t : Fin 16) (d : Deferred) (rest : List Deferred) (s : State), (s.tenant t).deferred = d :: rest →
      (incrementDue s t = true →
        ∃ s', exec (.epochIncrement t) s = .next s' ∧ (s'.tenant t).epoch = (s.tenant t).epoch + 1
          ∧ (s'.tenant t).lastIncrement = some s.nowUs ∧ (s'.tenant t).deferred = rest)
      ∧ (∀ l, (s.tenant t).lastIncrement = some l → s.nowUs < l + 10 → exec (.epochIncrement t) s = .next s))
  ∧ (∀ (t : Fin 16) (r : ResetWait) (s : State), (s.tenant t).resets = [r] → CanNotify s t →
      (r.incrementAt + r.timeout ≤ s.nowUs →
        ∃ s', exec (.resetReply t) s = .next s' ∧ (s'.tenant t).resets = [] ∧ Notified s s' t (replyNotice r.seq 0 0x06 0 0 0 0)
          ∧ HostOnlySlot s s' t ∧ OtherTenants s s' t ∧ SameBeyondTenants s s' ∧ SameOwnMemory s s')
      ∧ (s.nowUs < r.incrementAt + r.timeout → exec (.resetReply t) s = .next s)))

/-- An accepted RESET FIELD from tenant 0 fences the field, leaves every other field as it was, and owes a reply; when no tenant has a region
there, and none has a reset of it deferred, it starts the ramp at once, with the field's clusters dormant and their cisterns zero. The
outcome, with one reply owed and no reset of it deferred: within 50 ms of the ramp, with the rail good and every cluster below 110 °C, the
fence lifts and the field runs; 50 ms after the lift, and the tenants' request timeouts after the increment, the reply is OK; when the
fence has not lifted 50 ms after the ramp, the reply is REJECTED with BUSY and the fence stays as it is. -/
def Obligations.FieldReset : Prop :=
  (∀ (f : Fin 70) (m : List Word) (s : State), AtHead s 0 m 0x06 → payloadClean m [0xF03, 0xFF] = true → bits (word m 0) 1 0 = 2 →
      bits (word m 1) 7 0 = f →
      ∃ s', exec (.resetField 0) s = .next s' ∧ Consumed s' 0 m ∧ (s'.field f).fenced = true
        ∧ (s'.field f).resetSeqs = (s.field f).resetSeqs ++ [mSeq m] ∧ (∀ g : Fin 70, g ≠ f → s'.field g = s.field g)
        ∧ ((∀ u : Fin 16, regionsInField s u f = []) → (∀ u : Fin 16, Deferred.fieldReset f.val ∉ (s.tenant u).deferred) →
            (s'.field f).rampAt = s.nowUs ∧ (∀ k ∈ fieldClusters f, (s'.cluster k).awake = false
              ∧ ∀ a, a < 2 ^ 21 → tget 0 s'.mem.cistern (cisKey k a) = 0)))
  ∧ (∀ (f : Fin 70) (q : Nat) (s : State), (s.field f).resetSeqs = [q] → (∀ u : Fin 16, Deferred.fieldReset f.val ∉ (s.tenant u).deferred) →
      ((s.field f).liftAt = none → s.nowUs ≤ (s.field f).rampAt + 50000 → canLift s f = true →
        ∃ s', exec (.fieldResetOutcome f) s = .next s' ∧ (s'.field f).fenced = false ∧ (s'.field f).state = .running
          ∧ (s'.field f).liftAt = some s.nowUs ∧ s'.mem = s.mem ∧ s'.tenants = s.tenants)
      ∧ (∀ l, (s.field f).liftAt = some l → (s.field f).fenced = false → l + 50000 ≤ s.nowUs → fieldReplyAt s f ≤ s.nowUs → CanNotify s 0 →
        ∃ s', exec (.fieldResetOutcome f) s = .next s' ∧ (s'.field f).resetSeqs = [] ∧ (s'.field f).fenced = false
          ∧ Notified s s' 0 (replyNotice q 0 0x06 0 0 0 0))
      ∧ ((s.field f).liftAt = none → (s.field f).rampAt + 50000 < s.nowUs → fieldReplyAt s f ≤ s.nowUs → CanNotify s 0 →
        ∃ s', exec (.fieldResetOutcome f) s = .next s' ∧ (s'.field f).resetSeqs = [] ∧ (s'.field f).fenced = (s.field f).fenced
          ∧ Notified s s' 0 (replyNotice q 1 0x06 0x0201 0 0 0)))

/-- An accepted TENANT_CONFIG of a tenant without a plan and with none in progress, with a legal timeout and granules that are free, is in
progress, the granules and every DDR byte as before; of a tenant with a plan it is answered BUSY. When it is done, with no reset of the
tenant deferred, none waiting behind it and no message of the tenant copied, the settings are in force, the tenant is bound to its port,
RING_SET is kept only when the port is unchanged, every granule that the range adds reads zero and is not poisoned, every other DDR byte is
as before, no open session of the tenant has its state outside the range, and the reply to tenant 0 is OK. -/
def Obligations.TenantConfigured : Prop :=
  (∀ (u : Fin 16) (m : List Word) (s : State), AtHead s 0 m 0x0B →
      payloadClean m [0x30F, 0xFFFF000F, 0x3FF, 0x0FFF0FFF, 0x3] = true → bits (word m 0) 3 0 = u → (s.tenant u).configuring = none →
      ((settingsOf m).timeout = 0 ∨ (10 ≤ (settingsOf m).timeout ∧ (settingsOf m).timeout ≤ 800)) →
      badGranules (noteStarted (acceptHead s 0 m) 0 m) u (settingsOf m) = false →
      ((s.tenant u).plan = none →
        ∃ s', exec (.tenantConfig 0) s = .next s' ∧ Consumed s' 0 m ∧ (s'.tenant u).configuring = some (mSeq m, settingsOf m)
          ∧ (s'.tenant u).granuleFirst = (s.tenant u).granuleFirst ∧ s'.mem.ddr = s.mem.ddr)
      ∧ ((s.tenant u).plan ≠ none → CanNotify s 0 →
        ∃ s', exec (.tenantConfig 0) s = .next s' ∧ Consumed s' 0 m ∧ (s'.tenant u).configuring = none
          ∧ Notified s s' 0 (replyNotice (mSeq m) 1 0x0B 0x0201 0 0 0)))
  ∧ (∀ (u : Fin 16) (seq : Nat) (st : Settings) (s : State), (s.tenant u).configuring = some (seq, st) → (s.tenant u).deferred = [] →
      (s.tenant u).configQueue = [] → (s.tenant u).copied = [] → CanNotify s 0 →
      ∃ s', exec (.tenantConfigDone u) s = .next s' ∧ (s'.tenant u).configuring = none ∧ (s'.tenant u).enabled = st.enable
        ∧ (s'.tenant u).bl = st.bl ∧ (s'.tenant u).granuleFirst = st.granuleFirst ∧ (s'.tenant u).granuleCount = st.granuleCount
        ∧ (s'.tenant u).timeout = st.timeout ∧ (s'.tenant u).wakeMask = st.wakeMask ∧ (s'.tenant u).idleDormant = st.idleDormant
        ∧ (s'.tenant u).hostPort = st.hostPort ∧ (s'.tenant u).bound = true ∧ (s'.tenant u).expected = (s.tenant u).expected
        ∧ ((s'.tenant u).ringSet = true ↔ ((s.tenant u).ringSet = true ∧ (s.tenant u).hostPort = st.hostPort))
        ∧ Notified s s' 0 (replyNotice seq 0 0x0B 0 0 0 0)
        ∧ (∀ g ∈ addedGranules (s.tenant u) st, (∀ i, i < 2 ^ 30 → tget 0 s'.mem.ddr (g * 2 ^ 30 + i) = 0)
            ∧ ∀ l ∈ s'.mem.poisoned, l / 2 ^ 24 ≠ g)
        ∧ (∀ a, a / 2 ^ 30 ∉ addedGranules (s.tenant u) st → tget 0 s'.mem.ddr a = tget 0 s.mem.ddr a)
        ∧ (∀ e ∈ s'.work.sessions, e.2.openFlag = true → e.2.tenant = u →
            inRange st.granuleFirst st.granuleCount e.2.stateBase e.2.stateSize = true))

/-- An accepted FW_STAGE of a legal size with no other under way asks the host for its source; a size out of range comes to its store as an
empty image, which fails. The whole source queues its store. With no FW_ACTIVATE waiting: a failed completion or a completion timeout
answers BAD_ADDRESS and logs its error; a good image is stored into the copy that does not run, with the next STORE_SEQUENCE and COMMIT
erased, no byte outside that copy changed, and answered OK; a bad image leaves that copy erased, no byte outside it changed, and is
answered BAD_MESSAGE. -/
def Obligations.FirmwareImageStaged : Prop :=
  (∀ (m : List Word) (s : State), AtHead s 0 m 0x0C → payloadClean m [0xFFFFFFFF, 0xFFFFFFFF, 0xFFFFFFFF] = true →
      (stageSizeOk (word m 2) = true → s.sys.fwStaging = [] →
        ∃ s', exec (.fwStage 0) s = .next s' ∧ Consumed s' 0 m ∧ s'.sys.fwStaging = [(mSeq m, dword m 0, word m 2)]
          ∧ s'.out = .hostRead (s.tenant 0).hostPort (dword m 0) (word m 2) :: s.out ∧ s'.mem = s.mem)
      ∧ (stageSizeOk (word m 2) = false →
        ∃ s', exec (.fwStage 0) s = .next s' ∧ Consumed s' 0 m ∧ s'.sys.stores = s.sys.stores ++ [.firmware (mSeq m) []]))
  ∧ (∀ (seq src size : Nat) (data : List Byte) (s : State), firmwareRuns s = true → s.sys.fwStaging = [(seq, src, size)] →
      (s.sys.fwStageBytes = [] → size ≤ data.length →
        ∃ s', exec (.engineReadCompletion .success false data) s = .next s' ∧ s'.sys.fwStaging = []
          ∧ s'.sys.stores = s.sys.stores ++ [.firmware seq (data.take size)])
      ∧ (∀ st ep, (st ≠ .success ∨ ep = true) → CanNotify s 0 → s.sys.activations = [] →
        ∃ s', exec (.engineReadCompletion st ep data) s = .next s' ∧ s'.sys.fwStaging = [] ∧ s'.sys.stores = s.sys.stores
          ∧ Notified s s' 0 (replyNotice seq 1 0x0C 0x0206 0 0 0)
          ∧ (ep = true → (s'.port (s.tenant 0).hostPort).aerPoisoned = true)
          ∧ (st ≠ .success → (s'.port (s.tenant 0).hostPort).aerUnsupported = true))
      ∧ (CanNotify s 0 → s.sys.activations = [] →
        ∃ s', exec .completionTimeout s = .next s' ∧ s'.sys.fwStaging = [] ∧ (s'.port (s.tenant 0).hostPort).aerTimeout = true
          ∧ Notified s s' 0 (replyNotice seq 1 0x0C 0x0206 0 0 0)))
  ∧ (∀ (seq : Nat) (bs : List Byte) (rest : List Store) (s : State), ready s = true → s.sys.stores = .firmware seq bs :: rest → CanNotify s 0 →
      s.sys.activations = [] →
      let a := firmwareArea (1 - s.sys.runningCopy)
      (firmwareImageOk bs = true →
        ∃ s', exec (.fwStageDone true) s = .next s' ∧ s'.sys.stores = rest ∧ Notified s s' 0 (replyNotice seq 0 0x0C 0 0 0 0)
          ∧ flashRead s' a.base bs.length = bs ∧ areaCommit s' a = 0xFFFFFFFF
          ∧ areaSequence s' a = (match newerFirmware s with | some j => firmwareSeq s j + 1 | none => 1) % 2 ^ 32
          ∧ ∀ x, x < a.base ∨ a.base + a.size ≤ x → tget erasedByte s'.mem.flash x = tget erasedByte s.mem.flash x)
      ∧ (firmwareImageOk bs = false →
        ∃ s', exec (.fwStageDone true) s = .next s' ∧ s'.sys.stores = rest ∧ Notified s s' 0 (replyNotice seq 1 0x0C 0x0203 0 0 0)
          ∧ (∀ x, a.base ≤ x → x < a.base + a.size → tget erasedByte s'.mem.flash x = erasedByte)
          ∧ ∀ x, x < a.base ∨ a.base + a.size ≤ x → tget erasedByte s'.mem.flash x = tget erasedByte s.mem.flash x))

/-- An accepted FW_ACTIVATE of tenant 0 with no FW_ACTIVATE waiting. With no plan and no clause in flight, no store, FW_STAGE and REQUALIFY
under way: of the running copy it changes no flash byte; of the other copy, STAGED with a good signature, it programs that copy's COMMIT;
of the other copy, VALID, it sets the running copy's COMMIT to zero. In each case the OK reply stands in the ring and the engine restarts:
the state is BOOT, of the steps only step 1 has ended, no tenant, work, cistern or silicon state is left, and DDR and the ports are as they
were. With a store under way it waits. With a clause in flight or a plan it is answered BUSY and no system state changes. -/
def Obligations.FirmwareActivated : Prop :=
  ∀ (m : List Word) (s : State), AtHead s 0 m 0x0D → payloadClean m [1] = true → s.sys.activations = [] → CanNotify s 0 →
    let i := bits (word m 0) 0 0
    (drained s = true → s.sys.stores = [] → s.sys.fwStaging = [] → s.sys.requalify = none →
        (i = s.sys.runningCopy ∨ (firmwareState s i = 2 ∧ firmwareSigned (firmwareContent s i) = true)
        ∨ (firmwareState s i = 0)) →
      ∃ s', exec (.fwActivate 0) s = .next s' ∧ s'.sys.state = 0 ∧ s'.sys.stepEnded = s.sys.stepEnded &&& 1
        ∧ s'.work = {} ∧ s'.tenants = [] ∧ s'.silicon = {} ∧ s'.mem.cistern = [] ∧ s'.mem.ddr = s.mem.ddr ∧ s'.ports = s.ports
        ∧ readBytes 0 s'.mem.host (tailKey s 0) 32 = slotBytes s 0 (replyNotice (mSeq m) 0 0x0D 0 0 0 0)
        ∧ (i ≠ s.sys.runningCopy → firmwareState s i = 2 → areaCommit s' (firmwareArea i) = commitWord)
        ∧ (i ≠ s.sys.runningCopy → firmwareState s i = 0 → areaCommit s' (firmwareArea s.sys.runningCopy) = 0)
        ∧ (i = s.sys.runningCopy → s'.mem.flash = s.mem.flash))
    ∧ (drained s = true → s.sys.stores ≠ [] →
      ∃ s', exec (.fwActivate 0) s = .next s' ∧ Consumed s' 0 m ∧ s'.sys = { s.sys with activations := [m] } ∧ s'.mem = s.mem)
    ∧ (drained s = false →
      ∃ s', exec (.fwActivate 0) s = .next s' ∧ Consumed s' 0 m ∧ s'.sys = s.sys ∧ Notified s s' 0 (replyNotice (mSeq m) 1 0x0D 0x0201 0 0 0))

/-- With no plan, no clause in flight and no other REQUALIFY, an accepted REQUALIFY fences all 70 fields, zeroes every cistern, accumulator and
LUT slot, and steps 3 and 8 of bring-up have not ended any more while step 9 has. When the retest has ended, no further REQUALIFY and no
FW_ACTIVATE waits, and the rebuilt ledger's store commits, the fence of every field that runs and is not being reset lifts and the reply is
OK; when the store is abandoned, the reply is BUSY and STORE_FAILED is set. -/
def Obligations.RequalifyRuns : Prop :=
  (∀ (m : List Word) (s : State), AtHead s 0 m 0x0E → payloadClean m [] = true → s.sys.requalify = none → drained s = true →
      ∃ s', exec (.requalify 0) s = .next s' ∧ Consumed s' 0 m ∧ s'.sys.requalify = some (mSeq m) ∧ s'.mem.cistern = []
        ∧ (∀ f : Fin 70, (s'.field f).fenced = true) ∧ (∀ k : Fin 1680, (s'.cluster k).unit = {} ∧ (s'.cluster k).luts = [])
        ∧ stepDone s' 3 = false ∧ stepDone s' 8 = false ∧ stepDone s' 9 = stepDone s 9)
  ∧ (∀ (seq : Nat) (rest : List Store) (s : State), s.sys.requalify = some seq → ready s = true → s.sys.requalTested = true →
      s.sys.requalStored = true → s.sys.stores = .requalify :: rest → s.silicon.recorded.length ≤ 4000 →
      (s.tenant 0).unanswered = [(seq, 0x0E)] → CanNotify s 0 → s.sys.requalifyQueue = [] → s.sys.activations = [] →
      (∃ s', exec (.requalifyDone true) s = .next s' ∧ s'.sys.requalify = none ∧ Notified s s' 0 (replyNotice seq 0 0x0E 0 0 0 0)
        ∧ areaCommit s' (ledgerArea (ledgerTarget s).1) = commitWord
        ∧ ∀ f : Fin 70, (s'.field f).fenced =
            (if (s.field f).state = .running ∧ (s.field f).resetSeqs = [] then false else (s.field f).fenced))
      ∧ (∃ s', exec (.requalifyDone false) s = .next s' ∧ s'.sys.requalify = none ∧ s'.sys.storeFailed = true
        ∧ Notified s s' 0 (replyNotice seq 1 0x0E 0x0201 0 0 0)))

/-- In step 2, PUMPHOUSE_BOOT starts the first copy of the ROM's list and ends step 2, or, with none left, the engine is STOPPED; after 50 ms
without a start the next copy is tried, or the engine is STOPPED. In step 3 a powered cluster without a parent locks one deeper than its
source, unless that stands at depth 40, and step 3 ends after 5 ms. In step 4 the first claim gives a cluster its coordinate and the cluster
sends each neighbour the one it would have, a differing claim marks a conflict, and the step ends after 2 ms with every cluster that is
unlocked, unclaimed or in conflict a transient hole. -/
def Obligations.BootStepsEnd : Prop :=
  (∀ (s : State), step2Runs s = true →
      (∀ i rest, s.sys.romTries = i :: rest →
        ∃ s', exec .pumphouseBoot s = .next s' ∧ stepDone s' 2 = true ∧ s'.sys.runningCopy = i ∧ s'.sys.fwSequence = firmwareSeq s i
          ∧ s'.sys.state = 0 ∧ s'.mem = s.mem)
      ∧ (s.sys.romTries = [] → ∃ s', exec .pumphouseBoot s = .next s' ∧ s'.sys.state = 2 ∧ s'.sys.alertStatus.getLsbD 4 = true)
      ∧ (∀ t0 i, s.sys.romStartedAt = some t0 → t0 + 50000 ≤ s.nowUs →
        (s.sys.romTries = [i] → ∃ s', exec .firmwareStartTimeout s = .next s' ∧ s'.sys.state = 2)
        ∧ (∀ j rest, s.sys.romTries = i :: j :: rest →
          ∃ s', exec .firmwareStartTimeout s = .next s' ∧ s'.sys.romTries = j :: rest ∧ s'.sys.romStartedAt = some s.nowUs ∧ s'.sys.state = 0)))
  ∧ (∀ (q : Fin 2100) (src : RefSource) (d : Nat) (s : State), sourceDepth s q src = some d → stepRuns s 3 = true → physPowered s q = true →
      (s.phys q).locked = false →
      (d < 40 → ∃ s', exec (.referenceLock q src) s = .next s' ∧ (s'.phys q).locked = true ∧ (s'.phys q).depth = d + 1
        ∧ (s'.phys q).parent = some src ∧ ∀ r, r ≠ q.val → s'.phys r = s.phys r)
      ∧ (40 ≤ d → exec (.referenceLock q src) s = .next s))
  ∧ (∀ s : State, stepRuns s 3 = true → s.sys.stepAt + 5000 ≤ s.nowUs →
      ∃ s', exec .referenceLockTimeout s = .next s' ∧ stepDone s' 3 = true ∧ s'.silicon = s.silicon)
  ∧ (∀ (q : Fin 2100) (x y : Int) (s : State), stepRuns s 4 = true → (s.phys q).locked = true →
      ∃ s', exec (.coordinateClaim q x y) s = .next s' ∧ (∀ r, r ≠ q.val → s'.phys r = s.phys r)
        ∧ ((s.phys q).coord = none → (s'.phys q).coord = some (x, y)
          ∧ (∀ n, facing q 0 = some n → Output.claim n x (y - 1) ∈ s'.out) ∧ (∀ n, facing q 1 = some n → Output.claim n (x + 1) y ∈ s'.out)
          ∧ (∀ n, facing q 2 = some n → Output.claim n x (y + 1) ∈ s'.out) ∧ (∀ n, facing q 3 = some n → Output.claim n (x - 1) y ∈ s'.out))
        ∧ (∀ c, (s.phys q).coord = some c → c ≠ (x, y) → (s'.phys q).conflict = true ∧ (s'.phys q).coord = some c))
  ∧ (∀ s : State, stepRuns s 4 = true → s.sys.stepAt + 2000 ≤ s.nowUs →
      ∃ s', exec .floodTimeout s = .next s' ∧ stepDone s' 4 = true
        ∧ ∀ q : Fin 2100, q.val ∈ s'.silicon.live.transient ↔
            ((s.phys q).locked = false ∨ (s.phys q).coord = none ∨ (s.phys q).conflict = true))

/-- A round of the neighbour test that is not the last keeps the first report of each tester that faces its target; the last of a cold boot
ends steps 5 to 8, takes the live ledger from the reports that count, counts the usable clusters, takes the next GENERATION and requests
the ledger's store, unless LEDGER_FULL is set. With no FW_ACTIVATE waiting, LEDGER_STORE writes its target copy with the next
STORE_SEQUENCE and its COMMIT word and leaves every byte outside that copy; GENERATION_SECTOR_ERASE leaves its sector erased and every
other byte. -/
def Obligations.NeighbourTestAndStores : Prop :=
  (∀ (rs : List TestReport) (n : Nat) (s : State), stepRuns s 5 = true → s.silicon.round + 1 < roundCount s →
      ∃ s', exec (.neighbourTestRound rs n) s = .next s' ∧ s'.silicon.round = s.silicon.round + 1
        ∧ s'.silicon.reports = s.silicon.reports ++ firstReports (rs.filter (reportFits s)) ∧ s'.sys = s.sys ∧ s'.mem = s.mem)
  ∧ (∀ (rs : List TestReport) (n : Nat) (s : State), stepRuns s 5 = true → s.sys.requalify = none → s.silicon.round = 3 →
      ∃ s', exec (.neighbourTestRound rs n) s = .next s' ∧ s'.sys.generation = nextGeneration s
        ∧ stepDone s' 5 = true ∧ stepDone s' 6 = true ∧ stepDone s' 7 = true ∧ stepDone s' 8 = true
        ∧ s'.silicon.live = liveFrom s s.silicon.live.stored (secondCount (s.silicon.reports ++ firstReports (rs.filter (reportFits s))))
        ∧ s'.sys.usableCount = usableTotal s'.silicon.live ∧ s'.sys.holeCount = 1680 - usableTotal s'.silicon.live
        ∧ (s'.sys.stores = s.sys.stores ++ [.ledger] ∨ s'.sys.ledgerFull = true))
  ∧ (∀ (rest : List Store) (s : State), firmwareRuns s = true → s.sys.stores = .ledger :: rest → s.silicon.recorded.length ≤ 4000 →
      s.sys.activations = [] →
      let tgt := ledgerTarget s
      let a := ledgerArea tgt.1
      ∃ s', exec (.ledgerStore true) s = .next s' ∧ s'.sys.stores = rest ∧ areaCommit s' a = commitWord
        ∧ areaSequence s' a = tgt.2 % 2 ^ 32 ∧ s'.silicon.recorded = s.silicon.recorded.map (stampEntry tgt.2)
        ∧ flashRead s' a.base (ledgerBytes s s'.silicon.recorded).length = ledgerBytes s s'.silicon.recorded
        ∧ ∀ x, x < a.base ∨ a.base + a.size ≤ x → tget erasedByte s'.mem.flash x = tget erasedByte s.mem.flash x)
  ∧ (∀ (k : Nat) (rest : List Store) (s : State), ready s = true → s.sys.stores = .generationErase k :: rest → s.sys.activations = [] →
      ∃ s', exec (.generationSectorErase true) s = .next s' ∧ s'.sys.stores = rest ∧ flashBlank s' (slotAt k 0) 0x1000 = true
        ∧ ∀ x, x < slotAt k 0 ∨ slotAt k 0 + 0x1000 ≤ x → tget erasedByte s'.mem.flash x = tget erasedByte s.mem.flash x)

/-- On a powered wafer, through the port that serves the page: a write of 1 to OVERRUN clears OVERRUN, MALFORMED and DROP_COUNT together; to
MALFORMED only MALFORMED; to NOTICE_LOST it clears NOTICE_LOST and LOST_COUNT; a write of NOTICE_HEAD with nothing held sets HEAD to bits
11 to 0 and counts the entries from there on. Nothing else of the state changes but the mirror of the tenant. With EP set the write is
ignored and the port logs a poisoned TLP. Through the port bound to tenant 0, a write of ALERT_STATUS clears the bits written with 1, one
of ALERT_ENABLE sets it, and one of FORCE_FAILOVER with bit 0 set sets it and rings the standby when there is one; through any other port
they change nothing. -/
def Obligations.PageAndGlobalRegistersWritten : Prop :=
  (∀ (p : Fin 4) (t : Fin 16) (s : State), PageReached s p t →
    exec (.overrunClear p t false) s
        = .next (s.setTenant t { s.tenant t with overrun := false, malformed := false, dropCount := 0 })
    ∧ exec (.malformedClear p t false) s = .next (s.setTenant t { s.tenant t with malformed := false })
    ∧ exec (.noticeLostClear p t false) s = .next (s.setTenant t { s.tenant t with noticeLost := false, lostCount := 0 })
    ∧ (∀ v : Word, (s.tenant t).heldNotices = [] → (s.tenant t).lostOwed = false → (s.tenant t).heldResults = [] →
        exec (.noticeHeadWrite p t v false) s = .next (s.setTenant t { s.tenant t with
          noticeHead := v.toNat % 4096, ringUsed := ringUsedAfter (s.tenant t) (v.toNat % 4096) }))
    ∧ (∀ c : Instr, (c = .overrunClear p t true ∨ c = .malformedClear p t true ∨ c = .noticeLostClear p t true
          ∨ (∃ v, c = .noticeHeadWrite p t v true) ∨ (∃ v, c = .alertStatusClear p v true) ∨ (∃ v, c = .forceFailover p v true)) →
        exec c s = .next (s.setPort p { s.port p with aerPoisoned := true })))
  ∧ (∀ (p : Fin 4) (v : Word) (s : State), portReached s p = true →
    ((s.tenant 0).bound = true → (s.tenant 0).hostPort = p →
      (∃ s', exec (.alertStatusClear p v false) s = .next s'
        ∧ s' = { s with sys := { s.sys with alertStatus := s.sys.alertStatus &&& ~~~ (BitVec.ofNat 5 v.toNat) } })
      ∧ (∃ s', exec (.registerWrite p .bar0 0x100024 false [true, true, true, true] (leBytes 4 v.toNat)) s = .next s'
        ∧ s' = { s with sys := { s.sys with alertEnable := BitVec.ofNat 5 v.toNat } })
      ∧ (∃ s', exec (.forceFailover p v false) s = .next s' ∧ (bit v.toNat 0 = true → s'.sys.forceFailover = true)
        ∧ (bit v.toNat 0 = true → s.sys.noStandby = false → s'.sys.standbyRung = true) ∧ (bit v.toNat 0 = false → s' = s)
        ∧ s'.tenants = s.tenants ∧ s'.mem = s.mem ∧ s'.work = s.work))
    ∧ (((s.tenant 0).bound = false ∨ (s.tenant 0).hostPort ≠ p) →
      exec (.alertStatusClear p v false) s = .next s ∧ exec (.forceFailover p v false) s = .next s
      ∧ exec (.registerWrite p .bar0 0x100024 false [true, true, true, true] (leBytes 4 v.toNat)) s = .next s))

/-- A 4-byte write of BAR0 with every byte enabled writes one register, one with a byte not enabled writes none; an 8-byte write writes two. A
write of a dword of the MSI-X table that is not vector control is stored there. MSI-X Enable and Relaxed Ordering enable take bit 0 of what
is written. -/
def Obligations.RegisterWriteForms : Prop :=
  ∀ (p : Fin 4) (s : State), portReached s p = true →
    (∀ (off v : Nat), v < 2 ^ 32 → ¬ (off < 0x100000 ∧ off % 0x10000 < 0x1000) →
      exec (.registerWrite p .bar0 off false [true, true, true, true] (leBytes 4 v)) s = .next (writeReg s p off v)
      ∧ (∀ es : List Bool, es.length = 4 → false ∈ es →
          exec (.registerWrite p .bar0 off false es (leBytes 4 v)) s = .next s))
    ∧ (∀ (off v w : Nat), v < 2 ^ 32 → w < 2 ^ 32 → ¬ (off < 0x100000 ∧ off % 0x10000 < 0x1000) →
      exec (.registerWrite p .bar0 off false (List.replicate 8 true) (leBytes 4 v ++ leBytes 4 w)) s
        = .next (writeReg (writeReg s p off v) p (off + 4) w))
    ∧ (∀ (t : Fin 16) (es : List Bool) (bs : List Byte) (off : Nat), off < 0x1000 → pageLive s p t = true →
      exec (.registerWrite p .bar0 (t * 0x10000 + off) false es bs) s
        = .next (s.setTenant t { s.tenant t with dropCount := min 0xFFFF ((s.tenant t).dropCount + 1), malformed := true }))
    ∧ (∀ (i : Fin 68) (v : Nat), v < 2 ^ 32 → i.val % 4 ≠ 3 → (s.port p).msixPending = [] →
      ∃ s', exec (.registerWrite p .bar4 (4 * i.val) false [true, true, true, true] (leBytes 4 v)) s = .next s'
        ∧ (List.range 4).map (fun j => msixByte (s'.port p) (4 * i + j)) = leBytes 4 v
        ∧ ∀ o, (o < 4 * i.val ∨ 4 * i.val + 4 ≤ o) → msixByte (s'.port p) o = msixByte (s.port p) o)
    ∧ (∀ v : Nat, (s.port p).msixPending = [] →
      ∃ s', exec (.registerWrite p .msixEnable 0 false [true, true, true, true] (leBytes 4 v)) s = .next s'
        ∧ (s'.port p).msixEnable = bit v 0 ∧ s'.out = s.out)
    ∧ (∀ v : Nat, exec (.registerWrite p .relaxedOrdering 0 false [true, true, true, true] (leBytes 4 v)) s
        = .next (s.setPort p { s.port p with relaxed := bit v 0 }))

/-- While no access is on record that a new one could meet without an order (R513): a write into the aperture of a live tenant, wholly inside
its mapped granules, puts each of its bytes at the granule range's offset and changes no other DDR byte; the poison mark of a line it covers
whole goes; with EP set every line it touches is marked and the error logged. A write wholly outside the mapped part changes no memory. A read
of mapped bytes is completed with those bytes, and nothing but that record changes; EP is clear when no line of it is poisoned and the ECC
finds nothing, and set when a line is poisoned or its ECC error is uncorrectable, which also marks that line. A read of bytes that are not
mapped returns zeros. -/
def Obligations.ApertureAccessed : Prop :=
  (∀ (p : Fin 4) (t : Fin 16) (a : Nat) (ro : Bool) (data : List Byte) (s : State), PageReached s p t → (s.tenant t).configuring = none →
    s.work.touches = [] → a + data.length ≤ min (s.tenant t).granuleCount 4 * 2 ^ 30 →
    let o := (s.tenant t).granuleFirst * 2 ^ 30 + a
    (∃ s', exec (.bar2Write p (t * 2 ^ 32 + a) ro false .clean data) s = .next s'
      ∧ readBytes 0 s'.mem.ddr o data.length = data ∧ (∀ x, x < o ∨ o + data.length ≤ x → tget 0 s'.mem.ddr x = tget 0 s.mem.ddr x)
      ∧ (∀ l, l ∈ s'.mem.poisoned ↔ (l ∈ s.mem.poisoned ∧ ¬ (o ≤ l * 64 ∧ l * 64 + 64 ≤ o + data.length)))
      ∧ s'.tenants = s.tenants ∧ s'.ports = s.ports ∧ s'.rims = s.rims ∧ s'.mem.host = s.mem.host)
    ∧ (∃ s', exec (.bar2Write p (t * 2 ^ 32 + a) ro true .clean data) s = .next s'
      ∧ readBytes 0 s'.mem.ddr o data.length = data ∧ (s'.port p).aerPoisoned = true
      ∧ (∀ i, i < data.length → (o + i) / 64 ∈ s'.mem.poisoned)))
  ∧ (∀ (p : Fin 4) (t : Fin 16) (a : Nat) (ro : Bool) (data : List Byte) (s : State), PageReached s p t →
    min (s.tenant t).granuleCount 4 * 2 ^ 30 ≤ a → a + data.length ≤ 2 ^ 32 →
    ∃ s', exec (.bar2Write p (t * 2 ^ 32 + a) ro false .clean data) s = .next s' ∧ s'.mem = s.mem)
  ∧ (∀ (p : Fin 4) (t : Fin 16) (a n : Nat) (s : State), PageReached s p t → (s.tenant t).configuring = none → s.work.touches = [] →
    (a + n ≤ min (s.tenant t).granuleCount 4 * 2 ^ 30 →
      let o := (s.tenant t).granuleFirst * 2 ^ 30 + a
      ((∀ i, i < n → (o + i) / 64 ∉ s.mem.poisoned) →
        ∃ ts, exec (.bar2Read p (t * 2 ^ 32 + a) n .clean) s
          = .next (State.emit { s with work := { s.work with touches := ts } } (.bar2Completion p false (readBytes 0 s.mem.ddr o n))))
      ∧ ((∃ i, i < n ∧ (o + i) / 64 ∈ s.mem.poisoned) →
        ∃ ts, exec (.bar2Read p (t * 2 ^ 32 + a) n .clean) s
          = .next (State.emit { s with work := { s.work with touches := ts } } (.bar2Completion p true (readBytes 0 s.mem.ddr o n))))
      ∧ (∀ l, (∃ i, i < n ∧ (o + i) / 64 = l) →
        ∃ s', exec (.bar2Read p (t * 2 ^ 32 + a) n (.ddrLine l)) s = .next s' ∧ l ∈ s'.mem.poisoned ∧ s'.mem.ddr = s.mem.ddr
          ∧ s'.out = .bar2Completion p true (readBytes 0 s.mem.ddr o n) :: s.out))
    ∧ (min (s.tenant t).granuleCount 4 * 2 ^ 30 ≤ a → a + n ≤ 2 ^ 32 →
      exec (.bar2Read p (t * 2 ^ 32 + a) n .clean) s = .next (s.emit (.bar2Completion p false (zeros n)))))

/-- An alert of a masked vector sets its pending bit and sends nothing; of an unmasked vector, on a port that can write, it sends one message.
With MSI-X enabled and the port able to write, MSIX_UNMASK clears the mask and the pending bit of its vector, and sends one message when
the bit was set and none otherwise. An UNSUPPORTED_REQUEST is answered with Unsupported Request and logged. A tenant bound to a port whose
link is up and Bus Master set, with one notice held and nothing else held or owed for any tenant: while the engine is READY, the port's
return from D3hot writes the notice at TAIL and sends every pending vector that is not masked. -/
def Obligations.MsixAndHeldNotices : Prop :=
  ((∀ (p : Fin 4) (v : Fin 17) (s : State), portReached s p = true → (s.port p).msixEnable = true → portWritable (s.port p) = true →
      ∃ s', exec (.msixUnmask p v) s = .next s' ∧ msixMasked (s'.port p) v = false ∧ v.val ∉ (s'.port p).msixPending
        ∧ s'.out = (if v.val ∈ (s.port p).msixPending then .msix p v :: s.out else s.out) ∧ s'.tenants = s.tenants ∧ s'.mem = s.mem
        ∧ ∀ w : Fin 17, w ≠ v → msixMasked (s'.port p) w = msixMasked (s.port p) w)
  ∧ (∀ (p : Fin 4) (v : Nat) (s : State), (s.port p).msixEnable = true →
      (msixMasked (s.port p) v = true → v ∈ ((sendMsix s p v).port p).msixPending ∧ (sendMsix s p v).out = s.out)
      ∧ (msixMasked (s.port p) v = false → portWritable (s.port p) = true → rimTaken s p = false → sendMsix s p v = s.emit (.msix p v)))
  ∧ (∀ (p : Fin 4) (what : BadRequest) (s : State), portReached s p = true →
      exec (.unsupportedRequest p what) s
        = .next ((s.setPort p { s.port p with aerUnsupported := true }).emit (.unsupported p))))
  ∧ (∀ (p : Fin 4) (t : Fin 16) (b : List Byte) (s : State), rimOn s p = true → rimTaken s p = false → ready s = true → (s.port p).linkUp = true →
    (s.port p).busMaster = true → (s.tenant t).bound = true → (s.tenant t).hostPort = p → (s.tenant t).ringSet = true →
    (s.tenant t).ringUsed < 4096 → (s.tenant t).heldNotices = [b] → (s.tenant t).lostOwed = false →
    (∀ u : Fin 16, (s.tenant u).heldResults = [] ∧ (u ≠ t → (s.tenant u).heldNotices = [] ∧ (s.tenant u).lostOwed = false)) →
    ∃ s', exec (.portResume p .d3hot) s = .next s' ∧ (s'.tenant t).heldNotices = [] ∧ Notified s s' t b ∧ HostOnlySlot s s' t
      ∧ (∀ v, v ∈ (s.port p).msixPending → (s.port p).msixEnable = true → msixMasked (s.port p) v = false → v < 17 →
          v ∉ (s'.port p).msixPending ∧ Output.msix p v ∈ s'.out))

/-- With its rim powered and receptacle 2p cabled, a port's link comes up with Bus Master and MSI-X off; when the engine is READY and no tenant
is bound, every tenant is bound to it. A loss of the link, of Bus Master or a D3hot stops its writes; a resume undoes it. HOT_RESET, and
PERST on receptacle 2p, put its registers at their defaults and leave its link, and with it every other port, as it was; PERST on
receptacle 2p + 1 changes nothing. -/
def Obligations.PortStateChanges : Prop :=
  ∀ (p : Fin 4) (s : State),
    (rimOn s p = true → (s.port p).linkUp = false →
      (∃ s', exec (.portLinkUp p true) s = .next s' ∧ (s'.port p).linkUp = true ∧ (s'.port p).busMaster = false
        ∧ (s'.port p).msixEnable = false
        ∧ (s.sys.state = 1 → (s.tenant 0).bound = false → ∀ t : Fin 16, (s'.tenant t).bound = true ∧ (s'.tenant t).hostPort = p)
        ∧ (s.sys.state ≠ 1 → ∀ t : Fin 16, (s'.tenant t).hostPort = (s.tenant t).hostPort ∧ (s'.tenant t).bound = (s.tenant t).bound))
      ∧ exec (.portLinkUp p false) s = .next s
      ∧ ∃ s', exec (.portResume p .link) s = .next s' ∧ (s'.port p).linkUp = true)
    ∧ (∃ s', exec (.portLinkDown p .link) s = .next s' ∧ (s'.port p).linkUp = false ∧ portWritable (s'.port p) = false ∧ s'.tenants = s.tenants)
    ∧ (∃ s', exec (.portLinkDown p .busMaster) s = .next s' ∧ portWritable (s'.port p) = false ∧ (s'.port p).linkUp = (s.port p).linkUp)
    ∧ (∃ s', exec (.portLinkDown p .d3hot) s = .next s' ∧ portWritable (s'.port p) = false ∧ (s'.port p).linkUp = (s.port p).linkUp)
    ∧ (rimOn s p = true →
      (∃ s', exec (.portResume p .busMaster) s = .next s' ∧ (s'.port p).busMaster = (s.port p).linkUp)
      ∧ ∃ s', exec (.portResume p .d3hot) s = .next s' ∧ (s'.port p).d3hot = false)
    ∧ (∀ c : Instr, (c = .hotReset p ∨ ∃ r : Fin 8, r.val = 2 * p.val ∧ c = .perst r) →
      ∃ s', exec c s = .next s' ∧ (s'.port p).linkUp = (s.port p).linkUp ∧ (s'.port p).busMaster = false ∧ (s'.port p).d3hot = false
        ∧ (s'.port p).msixEnable = false ∧ (s'.port p).relaxed = false ∧ (s'.port p).msixTable = []
        ∧ (∀ q, q ≠ p.val → s'.port q = s.port q) ∧ s'.tenants = s.tenants ∧ s'.work = s.work ∧ s'.mem = s.mem)
    ∧ (∀ r : Fin 8, r.val = 2 * p.val + 1 → exec (.perst r) s = .next s)

/-- CLUSTER_WAKE of a usable, dormant, unfenced cluster whose WAKING doorbell is rung or whose wake has been requested powers its domain at the
lower of the step it slept at and its ceiling, and the field's rail follows; POLLED_WAKE does so for a POLLED ring while the firmware runs.
CLUSTER_DORMANT, with no slot, no doorbell bit, no held or saved state and the tenant's idle time over, powers it down at 500 mV. No other
cluster, no memory and no tenant changes. SLOT_TAKE on an awake cluster with a rung slot: the slot taken is of a class at least as high as
that of every other rung slot, its clause's slot is marked taken, its doorbell bit is clear, and no other slot or doorbell of the cluster,
no other cluster, no memory and no tenant changes. -/
def Obligations.ClustersWakeAndTakeSlots : Prop :=
  (∀ (k : Fin 1680) (s : State),
    (usable s k = true → clusterFenced s k = false → (s.cluster k).awake = false →
      ((s.cluster k).bells.any (fun b => b.waking && b.slots ≠ 0) = true ∨ (s.cluster k).wakeAt.isSome = true) →
      ∃ s', exec (.clusterWake k) s = .next s' ∧ (s'.cluster k).awake = true ∧ (s'.cluster k).wakeAt = none
        ∧ (s'.cluster k).avfs.step = min (s.cluster k).avfs.sleepStep (clusterCeiling s k) ∧ (s'.cluster k).slots = (s.cluster k).slots
        ∧ (s'.cluster k).bells = (s.cluster k).bells ∧ (s'.field (fieldOfLogical k)).railMv = railFor s' (fieldOfLogical k)
        ∧ (∀ q, q ≠ k.val → s'.cluster q = s.cluster q) ∧ s'.mem = s.mem ∧ s'.tenants = s.tenants ∧ s'.work = s.work)
    ∧ (ready s = true → usable s k = true → clusterFenced s k = false → (s.cluster k).awake = false →
      (s.cluster k).bells.any (fun b => !b.waking && b.slots ≠ 0) = true →
      ∃ s', exec (.polledWake k) s = .next s' ∧ (s'.cluster k).awake = true
        ∧ (s'.cluster k).avfs.step = min (s.cluster k).avfs.sleepStep (clusterCeiling s k)
        ∧ (∀ q, q ≠ k.val → s'.cluster q = s.cluster q) ∧ s'.mem = s.mem ∧ s'.tenants = s.tenants ∧ s'.work = s.work)
    ∧ (∀ n, idleLimit s k = some n → (s.cluster k).awake = true → (s.cluster k).slots = [] →
      (∀ b ∈ (s.cluster k).bells, b.slots = 0) → (s.cluster k).held = none → (s.cluster k).saved = [] → (s.cluster k).idleSince + n ≤ s.nowUs →
      ∃ s', exec (.clusterDormant k) s = .next s' ∧ (s'.cluster k).awake = false ∧ (s'.cluster k).avfs.millivolts = 500
        ∧ (s'.cluster k).avfs.sleepStep = (s.cluster k).avfs.step ∧ (s'.cluster k).luts = (s.cluster k).luts
        ∧ (∀ q, q ≠ k.val → s'.cluster q = s.cluster q) ∧ s'.mem = s.mem ∧ s'.tenants = s.tenants ∧ s'.work = s.work))
  ∧ (∀ (k : Fin 1680) (sl : Slot) (s : State), (s.cluster k).awake = true → nextTake (s.cluster k) = some sl →
    ∃ s', exec (.slotTake k) s = .next s' ∧ sl ∈ (s.cluster k).slots
      ∧ (∀ x ∈ (s.cluster k).slots, x.taken = false → (((s.cluster k).bells.getD x.prio {}).slots >>> x.number) &&& 1 = 1 → sl.prio ≤ x.prio)
      ∧ (s'.cluster k).slots = (s.cluster k).slots.map (fun x => if x.uid = sl.uid then { x with taken := true } else x)
      ∧ ((s'.cluster k).bells.getD sl.prio {}).slots = ((s.cluster k).bells.getD sl.prio {}).slots &&& ~~~ (1#8 <<< sl.number)
      ∧ (∀ p, p ≠ sl.prio → (s'.cluster k).bells.getD p {} = (s.cluster k).bells.getD p {})
      ∧ (∀ q, q ≠ k.val → s'.cluster q = s.cluster q) ∧ s'.mem = s.mem ∧ s'.work = s.work ∧ s'.tenants = s.tenants)

/-- LANDING_COMPLETE of one operand for one member, with which its L2 tile is not whole yet: the operand's bytes are in the landed copy of that
tile beside what has landed before, each as memory holds it, and no memory changes. With nothing to land, for a tile that has landed whole: it
starts, with no pass issued and no memory changed; one whose landing met a fault stops the clause with that fault. On a cluster that runs a
contraction tile: WEIGHT_BLOCK_LOAD brings the block or lane set that comes next into the shadow register. PASS_ISSUE, with nothing in
flight, no settlement and no gating, makes the clause the owner and issues the next pass, one cycle later with the weight register as it
stands, or, when its block must be swapped in, after the load with the shadow register's block; in an unstructured mode every lane that can
issues its next pass in the one cycle. -/
def Obligations.TilesLandAndPassesIssue : Prop :=
  (∀ (k : Fin 1680) (j m : Job) (i : LandItem) (s : State), pumpWork s k = some (j, [i]) → i.members = [m] → s.work.touches = [] →
    let l0 := (landedFor (s.cluster m.k) m.f.uid i.l2).getD {}
    (namedSlots m).all (fun x => (l0.copies ++ [i.slot]).contains x) = false →
    let s1 := if startsClause [i] then markStarted s j.f.uid else s
    checkReads s1 j .clean (itemReads s1 i) = .ok →
    ∃ s' l, exec (.landingComplete k .clean) s = .next s' ∧ landedFor (s'.cluster m.k) m.f.uid i.l2 = some l
      ∧ l.copies = l0.copies ++ [i.slot] ∧ l.whole = false ∧ (∀ e ∈ l.cells, e ∈ l0.cells ∨ e.2 = byteAt s e.1) ∧ (∀ e ∈ l0.cells, e ∈ l.cells)
      ∧ (i.slot ∈ landingSlots m → ∀ b ∈ itemReads s1 i, ∀ n, n < (rangeBytes b).2 →
          ((rangeBytes b).1 + n, byteAt s ((rangeBytes b).1 + n)) ∈ l.cells)
      ∧ (startsClause [i] = true → ∀ f, flightOf s' j.f.uid = some f → f.started = true)
      ∧ s'.mem = s.mem ∧ s'.tenants = s.tenants ∧ ∀ q, q ≠ m.k → s'.cluster q = s.cluster q)
  ∧ (∀ (k : Fin 1680) (sl : Slot) (j : Job) (t : Tile) (l : Landed) (s : State), pumpWork s k = none → currentJob s k = some (sl, j) →
    runningTile (s.cluster k) sl.uid = none → tileFrom j sl.l2 = some t → landedFor (s.cluster k) j.f.uid t.l2 = some l → l.whole = true →
    (l.bad = none →
      ∃ s' r, exec (.landingComplete k .clean) s = .next s' ∧ (s'.cluster k).run = some r ∧ r.uid = j.f.uid ∧ r.l2 = t.l2 ∧ r.l1 = t.l1
        ∧ r.cycle = 0 ∧ r.issued = 0 ∧ r.inFlight = [] ∧ s'.mem = s.mem ∧ s'.tenants = s.tenants ∧ ∀ q, q ≠ k.val → s'.cluster q = s.cluster q)
    ∧ (∀ v f, l.bad = some v → (s.cluster k).forming = [] → flightOf s j.f.uid = some f → f.stop = none →
      ∃ s' g, exec (.landingComplete k .clean) s = .next s' ∧ flightOf s' j.f.uid = some g ∧ g.stop = some (atTile v t.l2)
        ∧ runningTile (s'.cluster k) j.f.uid = none ∧ (s'.cluster k).owner ≠ some j.f.uid ∧ s'.mem = s.mem))
  ∧ (∀ (k : Fin 1680) (j : Job) (r : TileRun) (t : Tile) (s : State), currentRun s k = some (j, r) → tileAt j r.l2 r.l1 = some t →
    (∀ b, runFinished j (s.cluster k) r = false →
      (if r.unstructured then setToLoad r = some b else blockToLoad (seekPass r) = some b ∧ r.shadowOf ≠ some b) →
      ∃ s' r', exec (.weightBlockLoad k) s = .next s' ∧ (s'.cluster k).run = some r' ∧ r'.shadowOf = some b ∧ r'.weightsOf = r.weightsOf
        ∧ (s'.cluster k).shadow = (if r.unstructured then laneSet r b else { block := b, cells := blockCells r b })
        ∧ (s'.cluster k).weights = (s.cluster k).weights ∧ r'.inFlight = r.inFlight ∧ r'.cycle = r.cycle
        ∧ s'.mem = s.mem ∧ s'.work = s.work ∧ ∀ q, q ≠ k.val → s'.cluster q = s.cluster q)
    ∧ (r.inFlight = [] → r.settled = [] → r.decision = 0 →
      (∀ p, r.unstructured = false → nextPass (seekPass r) = some p →
        (needsSwap (seekPass r) p = false →
          ∃ s' r', exec (.passIssue k) s = .next s' ∧ (s'.cluster k).owner = some j.f.uid ∧ (s'.cluster k).run = some r'
            ∧ r'.inFlight = [withUpdates (s.cluster k).weights (seekPass r) { p with cycle := r.cycle + 1 }]
            ∧ r'.issued = r.issued + 1 ∧ r'.cycle = r.cycle + 1 ∧ (s'.cluster k).weights = (s.cluster k).weights
            ∧ s'.tenants = s.tenants ∧ ∀ q, q ≠ k.val → s'.cluster q = s.cluster q)
        ∧ (needsSwap (seekPass r) p = true → shadowHolds (seekPass r) p.block = true →
          ∃ s' r', exec (.passIssue k) s = .next s' ∧ (s'.cluster k).owner = some j.f.uid ∧ (s'.cluster k).run = some r'
            ∧ r.cycle < r'.cycle ∧ r.loadFrom + r.loadCycles < r'.cycle
            ∧ r'.inFlight = [withUpdates (s.cluster k).shadow (seekPass r) { p with cycle := r'.cycle }]
            ∧ r'.issued = r.issued + 1 ∧ (s'.cluster k).weights = (s.cluster k).shadow ∧ r'.weightsOf = some p.block ∧ r'.shadowOf = none
            ∧ s'.tenants = s.tenants ∧ ∀ q, q ≠ k.val → s'.cluster q = s.cluster q))
      ∧ (∀ n, r.unstructured = true → nothingLeft r = false → laneCycle [] r = some n →
          ∃ s' r', exec (.passIssue k) s = .next s' ∧ (s'.cluster k).owner = some j.f.uid ∧ (s'.cluster k).run = some r' ∧ r'.cycle = n
            ∧ r'.lanes = (lanesAt [] r n).map (fun o => o.1)
            ∧ r'.inFlight = ((lanesAt [] r n).filterMap (fun o => o.2.1)).map (withUpdates (s'.cluster k).weights r)
            ∧ r'.issued = r.issued + r'.inFlight.length ∧ s'.tenants = s.tenants ∧ ∀ q, q ≠ k.val → s'.cluster q = s.cluster q)))

/-- PASS_COMMIT of a due pass leaves every accumulator entry and adds, to the committed partial sum of each entry (its value and what is queued
for it), exactly the sum of the pass's updates of that entry; the pass is no longer in flight. BANK_COMBINE takes the first four updates of
its bank's queue: an entry they name holds its value plus the exact sum of theirs, saturated to 56 bits, SAT being set when saturation
changed it; every other entry and every other bank's queue is unchanged. -/
def Obligations.PassesCommitAndCombine : Prop :=
  (∀ (k : Fin 1680) (j : Job) (r : TileRun) (t : Tile) (p : PassRef) (s : State), currentRun s k = some (j, r) → tileAt j r.l2 r.l1 = some t →
      dueCommit (s.cluster k) r = some p →
      ∃ s' r', exec (.passCommit k) s = .next s' ∧ (s'.cluster k).run = some r' ∧ r'.inFlight = r.inFlight.erase p
        ∧ (s'.cluster k).unit.acc = (s.cluster k).unit.acc
        ∧ (∀ key, partialSum (s'.cluster k) key = partialSum (s.cluster k) key
            + ((p.updates.filter (fun u => u.1 = key)).map (fun u => u.2)).sum)
        ∧ s'.mem = s.mem ∧ s'.work = s.work ∧ ∀ q, q ≠ k.val → s'.cluster q = s.cluster q)
  ∧ (∀ (k : Fin 1680) (b : Fin 32) (s : State),
      let q := tget [] (s.cluster k).queues b
      let sumOf := fun (key : Nat) => (((q.take 4).filter (fun u => u.1 = key)).map (fun u => u.2)).sum
      ∃ s', exec (.bankCombine k b) s = .next s' ∧ tget [] (s'.cluster k).queues b = q.drop 4
        ∧ (∀ c, c ≠ b.val → tget [] (s'.cluster k).queues c = tget [] (s.cluster k).queues c)
        ∧ (∀ key, tget 0 (s'.cluster k).unit.acc key
            = (if key ∈ (q.take 4).map (fun u => u.1) then satAcc (tget 0 (s.cluster k).unit.acc key + sumOf key)
               else tget 0 (s.cluster k).unit.acc key))
        ∧ ((s'.cluster k).unit.sat = true ↔ ((s.cluster k).unit.sat = true
            ∨ ∃ key ∈ (q.take 4).map (fun u => u.1), satHit (tget 0 (s.cluster k).unit.acc key + sumOf key) = true))
        ∧ s'.mem = s.mem ∧ s'.work = s.work ∧ ∀ c, c ≠ k.val → s'.cluster c = s.cluster c)

/-- For a column's cells and a vector's activations of integer formats with N weight and M activation planes (two's complement where the top
plane is negative): the values that the passes of all N times M plane pairs add, by the rule of one pass, sum to the sum over the column's
active rows of weight times activation, exactly. For BIPOLAR, the single pass adds the dot product of the values +1 and −1. -/
def Obligations.PassesSumToDotProduct : Prop :=
  (∀ (r : TileRun) (cells : List WCell) (acts : List AElem), r.bfp = false → r.bipolar = false → 1 ≤ r.n → 1 ≤ r.m →
      ((planePairs r.n r.m).map (fun p => (passValue r p.1 p.2 cells acts).1)).sum
        = (cells.map (fun w => if (actAt acts w).on then
            (if r.wNeg then signed r.n w.code else ((w.code % 2 ^ r.n : Nat) : Int))
              * (if r.aNeg then signed r.m (actAt acts w).code else (((actAt acts w).code % 2 ^ r.m : Nat) : Int)) else 0)).sum)
  ∧ (∀ (r : TileRun) (cells : List WCell) (acts : List AElem), r.bfp = false → r.bipolar = true → r.n = 1 → r.m = 1 →
      ((planePairs r.n r.m).map (fun p => (passValue r p.1 p.2 cells acts).1)).sum
        = (cells.map (fun w => if (actAt acts w).on then codeValue 2 1 w.code * codeValue 2 1 (actAt acts w).code else 0)).sum)

/-- For integer operands and a column of at most K_g cells: the sum of the passes of significance below s lies between −L and U of R106, and,
with Q = 0, an output that settles low or high against its threshold at that boundary has that very outcome once the remaining passes have
been added, for either sign of the scale. SETTLEMENT_EFFECT on a run with settlements that are due: every waiting settlement of the
earliest due cycle is in effect afterwards, every other settlement is as it was, and the rest of the run, the accumulators, memory, the
other clusters, the clauses and the tenants are unchanged. -/
def Obligations.GatingBoundsAndSettlement : Prop :=
  (∀ (r : TileRun) (cells : List WCell) (acts : List AElem) (sg : Nat), r.bfp = false → cells.length ≤ r.kg →
    (r.bipolar = true → r.n = 1 ∧ r.m = 1) →
    let x := (((planePairs r.n r.m).filter (fun p => decide (p.1 + p.2 < sg))).map (fun p => (passValue r p.1 p.2 cells acts).1)).sum
    (-((bounds r sg).2 : Int) ≤ x ∧ x ≤ ((bounds r sg).1 : Int))
    ∧ (∀ (d : Nat) (a t : Int) (b : Bool), settleTest d 0 (.upTo t) a (bounds r sg).1 (bounds r sg).2 = some b → (a + x ≤ t ↔ b = false))
    ∧ (∀ (d : Nat) (a t : Int) (b : Bool), settleTest d 0 (.downTo t) a (bounds r sg).1 (bounds r sg).2 = some b → (t ≤ a + x ↔ b = false)))
  ∧ (∀ (k : Fin 1680) (j : Job) (r : TileRun) (n : Nat) (s : State), currentRun s k = some (j, r) →
    (∃ e ∈ r.settled, e.effectAt = n ∧ e.inEffect = false) → due r n = true →
    (∀ e ∈ r.settled, e.inEffect = false → due r e.effectAt = true → n ≤ e.effectAt) →
    ∃ s', exec (.settlementEffect k) s = .next s'
      ∧ (s'.cluster k).run = some { r with settled := r.settled.map (fun e => if e.effectAt = n then { e with inEffect := true } else e) }
      ∧ (s'.cluster k).unit = (s.cluster k).unit ∧ s'.mem = s.mem ∧ s'.work = s.work ∧ s'.tenants = s.tenants
      ∧ ∀ q, q ≠ k.val → s'.cluster q = s.cluster q)

/-- REQUANT_VECTOR of a vector that is ready, in a clause that does not rank, with no error in memory and no overlapping access of another
clause: the outputs that the vector completes go to the cistern when the OUT noun is a local cistern noun and else to the OUT half of the
L2 tile, and those that wait for the rest of their group are kept; every accumulator entry of the vector is zero, every other entry as
before, and the next vector is due. With TRAP_SAT set and SAT set, and no output waiting for its group, the clause is stopped with ACC_SAT
instead. -/
def Obligations.RequantizerDrainsVector : Prop :=
  ∀ (k : Fin 1680) (j : Job) (r : TileRun) (t : Tile) (s : State), currentRun s k = some (j, r) → tileAt j r.l2 r.l1 = some t →
    cDecision j.c ≠ 3 → vectorReady j (s.cluster k) r = true → s.work.touches = [] →
    (trapped j (s.cluster k).unit = false →
      let o := vectorOutputs s j t r r.drained
      ∃ s' r', exec (.requantVector ⟨k, .clean⟩) s = .next s' ∧ (s'.cluster k).run = some r' ∧ r'.drained = r.drained + 1
        ∧ (∀ key, key / 128 = r.drained → tget 0 (s'.cluster k).unit.acc key = 0)
        ∧ (∀ key, key / 128 ≠ r.drained → tget 0 (s'.cluster k).unit.acc key = tget 0 (s.cluster k).unit.acc key)
        ∧ (s'.cluster k).forming = o.2.2
        ∧ (localCistern j.out = true → s'.mem = (putAll s o.1).mem ∧ (s'.cluster k).outHalf = (s.cluster k).outHalf)
        ∧ (localCistern j.out = false → s'.mem = s.mem ∧ (s'.cluster k).outHalf = (if o.1 = [] then (s.cluster k).outHalf
            else addHalf (s.cluster k).outHalf j.f.uid r.l2 (some (halfRange j 0 (r.l2 % 2))) o.1))
        ∧ s'.tenants = s.tenants ∧ ∀ q, q ≠ k.val → s'.cluster q = s.cluster q)
    ∧ (∀ f, trapped j (s.cluster k).unit = true → (s.cluster k).forming = [] → flightOf s r.uid = some f → f.stop = none →
      ∃ s' g, exec (.requantVector ⟨k, .clean⟩) s = .next s' ∧ flightOf s' r.uid = some g
        ∧ g.stop = some { status := 2, reason := 0x0301, l2Tile := r.l2 } ∧ (s'.cluster k).owner ≠ some r.uid ∧ s'.mem = s.mem)

/-- HASH_UPDATE of the first waiting total with room in the spill queue: on a hit it is added to the entry under R79; on a miss with a free
way, the lowest-numbered free way takes the key with the update as its value; on a miss in a full set, the way named by NEXT_VICTIM is
queued as a spill record and takes the key, and NEXT_VICTIM advances by 1 modulo 4. SPILL_RECORD_WRITE puts the first queued record at
place COUNT of the owner's spill area and counts it; at the area's capacity it raises SPILL_FULL with COUNT. HASH_DRAIN at the end of the
clause, with the queue empty and room for every resident entry, writes them and the header and empties the hash accumulator. -/
def Obligations.HashUpdatesAndSpills : Prop :=
  (∀ (k : Fin 1680) (j : Job) (r : TileRun) (t : Tile) (key : Nat) (v : Int) (rest : List (Nat × Int)) (s : State),
    currentRun s k = some (j, r) → tileAt j r.l2 r.l1 = some t → cTarget j.c = 1 → (s.cluster k).owner = some r.uid →
    r.totals = (key, v) :: rest → (s.cluster k).unit.spillQueue.length < 8 →
    let u := (s.cluster k).unit
    let st := key * 0x9E3779B9 % 2 ^ 32 / 2 ^ 22
    ∃ s', exec (.hashUpdate k) s = .next s' ∧ s'.mem = s.mem ∧ s'.work = s.work ∧ (∀ q, q ≠ k.val → s'.cluster q = s.cluster q)
      ∧ (∃ r', (s'.cluster k).run = some r' ∧ r'.totals = rest)
      ∧ (∀ w, w < 4 → (tget {} u.hash (4 * st + w)).valid = true → (tget {} u.hash (4 * st + w)).key = key →
          (∀ x, x < w → ¬ ((tget {} u.hash (4 * st + x)).valid = true ∧ (tget {} u.hash (4 * st + x)).key = key)) →
          tget {} (s'.cluster k).unit.hash (4 * st + w) = ⟨true, key, satAcc ((tget {} u.hash (4 * st + w)).value + v)⟩
          ∧ (∀ i, i ≠ 4 * st + w → tget {} (s'.cluster k).unit.hash i = tget {} u.hash i) ∧ (s'.cluster k).unit.spillQueue = u.spillQueue)
      ∧ (∀ w, w < 4 → (∀ x, x < 4 → ¬ ((tget {} u.hash (4 * st + x)).valid = true ∧ (tget {} u.hash (4 * st + x)).key = key)) →
          (tget {} u.hash (4 * st + w)).valid = false → (∀ x, x < w → (tget {} u.hash (4 * st + x)).valid = true) →
          tget {} (s'.cluster k).unit.hash (4 * st + w) = ⟨true, key, satAcc v⟩
          ∧ (∀ i, i ≠ 4 * st + w → tget {} (s'.cluster k).unit.hash i = tget {} u.hash i) ∧ (s'.cluster k).unit.spillQueue = u.spillQueue)
      ∧ ((∀ x, x < 4 → (tget {} u.hash (4 * st + x)).valid = true ∧ (tget {} u.hash (4 * st + x)).key ≠ key) →
          let w := tget 0 u.victim st
          tget {} (s'.cluster k).unit.hash (4 * st + w) = ⟨true, key, satAcc v⟩
          ∧ (∀ i, i ≠ 4 * st + w → tget {} (s'.cluster k).unit.hash i = tget {} u.hash i)
          ∧ (s'.cluster k).unit.spillQueue
              = u.spillQueue ++ [((tget {} u.hash (4 * st + w)).value, (tget {} u.hash (4 * st + w)).key)]
          ∧ tget 0 (s'.cluster k).unit.victim st = (w + 1) % 4))
  ∧ (∀ (k : Fin 1680) (j : Job) (s : State), ownerJob s k = some j →
    (∀ e rest, (s.cluster k).unit.spillQueue = e :: rest → (s.cluster k).unit.spillCount < j.region.spillCapacity →
      ∃ s', exec (.spillRecordWrite k) s = .next s' ∧ s'.mem = (putRecord s j.region k (s.cluster k).unit.spillCount e).mem
        ∧ (s'.cluster k).unit = { (s.cluster k).unit with
            spillQueue := rest, spillCount := (s.cluster k).unit.spillCount + 1, evictions := (s.cluster k).unit.evictions + 1 }
        ∧ s'.work = s.work ∧ ∀ q, q ≠ k.val → s'.cluster q = s.cluster q)
    ∧ (∀ e rest f, (s.cluster k).unit.spillQueue = e :: rest → j.region.spillCapacity ≤ (s.cluster k).unit.spillCount →
      flightOf s j.f.uid = some f → f.stop = none →
      ∃ s' g v, exec (.spillRecordWrite k) s = .next s' ∧ flightOf s' j.f.uid = some g ∧ g.stop = some v ∧ v.status = 2 ∧ v.reason = 0x0302
        ∧ v.element = (s.cluster k).unit.spillCount ∧ (s'.cluster k).owner ≠ some j.f.uid)
    ∧ (cTarget j.c = 1 → cHold j.c = false → (s.cluster k).drainDone = false → (s.cluster k).unit.spillQueue = [] →
      (s.cluster k).slots.any (fun sl => sl.uid = j.f.uid && sl.finished) = true → trapped j (s.cluster k).unit = false →
      (s.cluster k).unit.spillCount + (hashRecords (s.cluster k).unit).length ≤ j.region.spillCapacity →
      ∃ s', exec (.hashDrain k) s = .next s' ∧ (s'.cluster k).unit.hash = [] ∧ s'.mem = (drainHash s j).mem ∧ s'.tenants = s.tenants))

/-- For any candidates: the list that the rank unit keeps is in order (value descending, position ascending), holds at most k of them, all of
them when there are at most k, and no candidate left out comes before one kept; in memory the list of fewer than k is followed by empty
entries. RANK_ACCEPT of a ready vector of a ranking clause queues its candidates, clears its accumulator entries and goes on to the next
vector. RANK_FLOOR_UPDATE gives the first accepted vector's candidates to their groups. RANK_GROUP_CLOSE writes the first group that has
seen its last candidate as a rank list of k entries and closes it. -/
def Obligations.RankListsAndUnit : Prop :=
  ((∀ (k : Nat) (cs : List (Int × Nat)), (∀ c ∈ cs, c.2 ≠ 0xFFFFFFFF) →
      let l := mergeRanks k [] cs
      List.Pairwise (fun a b => b.1 < a.1 ∨ (a.1 = b.1 ∧ a.2 ≤ b.2)) l ∧ l.length = min k cs.length
      ∧ (∃ out, List.Perm (l ++ out) cs ∧ ∀ a ∈ l, ∀ b ∈ out, b.1 < a.1 ∨ (a.1 = b.1 ∧ a.2 ≤ b.2)))
  ∧ (∀ (k : Nat) (l : List (Int × Nat)), l.length ≤ k →
      rankListBytes k l = l.flatMap (fun c => pairBytes c.1 c.2) ++ (List.replicate (k - l.length) emptyPair).flatten))
  ∧ ((∀ (k : Fin 1680) (j : Job) (r : TileRun) (t : Tile) (s : State), currentRun s k = some (j, r) → tileAt j r.l2 r.l1 = some t →
      cDecision j.c = 3 → vectorReady j (s.cluster k) r = true → trapped j (s.cluster k).unit = false →
      ∃ s' r', exec (.rankAccept k) s = .next s' ∧ (s'.cluster k).run = some r' ∧ r'.drained = r.drained + 1
        ∧ (s'.cluster k).rankPending = (s.cluster k).rankPending ++ [vectorCandidates j (s.cluster k) t r r.drained]
        ∧ (∀ key, tget 0 (s'.cluster k).unit.acc key = if key / 128 = r.drained then 0 else tget 0 (s.cluster k).unit.acc key)
        ∧ s'.mem = s.mem ∧ s'.work = s.work ∧ ∀ q, q ≠ k.val → s'.cluster q = s.cluster q)
  ∧ (∀ (k : Fin 1680) (b : List (Nat × Int × Nat)) (rest : List (List (Nat × Int × Nat))) (s : State), (s.cluster k).rankPending = b :: rest →
      ∃ s', exec (.rankFloorUpdate k) s = .next s' ∧ (s'.cluster k).rankPending = rest
        ∧ (s'.cluster k).unit.ranks = b.foldl (rankOne (s.cluster k).unit.rankK) (s.cluster k).unit.ranks
        ∧ (s'.cluster k).unit.acc = (s.cluster k).unit.acc ∧ s'.mem = s.mem ∧ s'.work = s.work ∧ ∀ q, q ≠ k.val → s'.cluster q = s.cluster q)
  ∧ (∀ (k : Fin 1680) (j : Job) (g : RankGroup) (s : State), ownerJob s k = some j → (s.cluster k).unit.ranks.find? (groupFull j) = some g →
      cDecision j.c = 3 →
      ∃ s', exec (.rankGroupClose k) s = .next s' ∧ (s'.cluster k).unit.ranks = (s.cluster k).unit.ranks.erase g
        ∧ s'.mem = (deliver s j (tileNow (s.cluster k) j) (rankWrites s j (s.cluster k).unit.rankK (groupIdx j g.key) g.list)).mem
        ∧ s'.tenants = s.tenants))

/-- MERGE_SLOT_GRANT on the home of a split output with a free merge slot moves the outbound tile of the lowest part neither merged nor granted
to the lowest free merge slot, and its words into that slot's place in the merge area. MERGE_STEP, with the home's own passes done, adds
the first granted tile of the clause, and its part counts as merged: without PART_REQUANT, or with an OUT of format ACC, a word of it,
shifted by the difference of the exponents, is one saturating update of its entry, and SAT and INEXACT are passed on; under PART_REQUANT,
after the first addition, a value of it is added without a bound. -/
def Obligations.PartsMerge : Prop :=
  (∀ (k : Fin 1680) (j : Job) (r : TileRun) (p : Nat) (o : Partial) (s : State), currentRun s k = some (j, r) → isHome j = true → r.last = true →
      keptByHold j r = false → (s.cluster k).merging.length < j.region.mergeSlots →
      (partsOf j (runKey j r)).find? (fun p => !(s.cluster k).merged.contains p
        && (s.cluster k).merging.all (fun m => m.uid ≠ r.uid || m.part ≠ p)) = some p →
      (s.cluster (partCluster j p)).outbound.find? (fun o => o.uid = r.uid ∧ o.part = p ∧ o.key = runKey j r) = some o →
      let o' := { o with slot := lowestSlot (s.cluster k).merging }
      ∃ s', exec (.mergeSlotGrant k) s = .next s' ∧ (s'.cluster k).merging = (s.cluster k).merging ++ [o']
        ∧ (s'.cluster (partCluster j p)).outbound = (s.cluster (partCluster j p)).outbound.erase o
        ∧ s'.mem = (storePartial s j k o'.slot r.colOn.length o').mem ∧ s'.tenants = s.tenants)
  ∧ (∀ (k : Fin 1680) (j : Job) (r : TileRun) (t : Tile) (m : Partial) (key : Nat) (v : Int) (s : State),
      currentRun s k = some (j, r) → tileAt j r.l2 r.l1 = some t → (s.cluster k).merging.find? (fun m => m.uid = r.uid) = some m →
      (s.cluster k).owner = some r.uid → tileDone r = true → queuesEmpty (s.cluster k) = true → m.vals = [(key, v)] →
      ∃ s', exec (.mergeStep k) s = .next s' ∧ (s'.cluster k).merging = (s.cluster k).merging.erase m
        ∧ (s'.cluster k).merged = (s.cluster k).merged ++ [m.part] ∧ s'.mem = s.mem ∧ s'.work = s.work ∧ s'.tenants = s.tenants
        ∧ (∀ q, q ≠ k.val → s'.cluster q = s.cluster q)
        ∧ (j.tile.partRequant = false ∨ nKind j.out = 4 → r.settled = [] ∨ (s.cluster k).merged ≠ [] →
            let y := alignShift v (m.eacc - r.eacc)
            let x := tget 0 (s.cluster k).unit.acc key + satAcc y
            tget 0 (s'.cluster k).unit.acc key = satAcc x
            ∧ (∀ i, i ≠ key → tget 0 (s'.cluster k).unit.acc i = tget 0 (s.cluster k).unit.acc i)
            ∧ (s'.cluster k).unit.sat = ((s.cluster k).unit.sat || m.sat || satHit y || satHit x)
            ∧ (s'.cluster k).unit.inexact = ((s.cluster k).unit.inexact || m.inexact || alignDrops v (m.eacc - r.eacc)))
        ∧ (j.tile.partRequant = true → nKind j.out ≠ 4 → (s.cluster k).merged ≠ [] →
            tget 0 (s'.cluster k).unit.acc key = tget 0 (s.cluster k).unit.acc key + v
            ∧ (∀ i, i ≠ key → tget 0 (s'.cluster k).unit.acc i = tget 0 (s.cluster k).unit.acc i)))

/-- L2_TILE_BOUNDARY of the owner at the end of an L2 tile, on a member that sends no partial tile, with a further tile and no higher class
waiting: the slot stands at the next L2 tile, with no tile staged where it has not landed, and with its first L1 tile staged where it has
landed without a fault. With a higher class waiting and a class below URGENT, the clause's accumulator state is saved for its class and the
cluster has no owner. At the end of its last tile a part with a free outbound slot puts its partial tile there. A stopped clause, with no
output waiting for its group, is dropped: the clause no longer waits for the cluster. CONTEXT_RESTORE gives a free, awake cluster back to
the best saved context, with the accumulator state saved. -/
def Obligations.BoundariesYieldAndRestore : Prop :=
  (∀ (k : Fin 1680) (j : Job) (r : TileRun) (t : Tile) (s1 s : State), currentRun s k = some (j, r) → stoppedSlot s (s.cluster k) = none →
      (s.cluster k).owner = some r.uid → l2Done j (s.cluster k) r = true → leaveTile s j r = some s1 → tileAfter j r.l2 r.l1 = some t →
      tileFrom j t.l2 = some t → isPart j = false →
      (higherWaits (s.cluster k) j.f.prio = false →
        (landedFor (s.cluster k) j.f.uid t.l2 = none →
          ∃ s', exec (.l2TileBoundary k) s = .next s' ∧ (s'.cluster k).run = none ∧ (s'.cluster k).owner = some r.uid
            ∧ (∀ sl ∈ (s'.cluster k).slots, sl.uid = j.f.uid → sl.l2 = t.l2) ∧ s'.mem = s.mem)
        ∧ (∀ l, landedFor (s.cluster k) j.f.uid t.l2 = some l → l.whole = true → l.bad = none →
          ∃ s' r', exec (.l2TileBoundary k) s = .next s' ∧ (s'.cluster k).run = some r' ∧ r'.l2 = t.l2 ∧ r'.l1 = t.l1 ∧ r'.issued = 0
            ∧ (s'.cluster k).owner = some r.uid ∧ (∀ sl ∈ (s'.cluster k).slots, sl.uid = j.f.uid → sl.l2 = t.l2) ∧ s'.mem = s.mem))
      ∧ (higherWaits (s.cluster k) j.f.prio = true → j.f.prio ≠ 0 →
        ∃ s' v, exec (.l2TileBoundary k) s = .next s' ∧ (s'.cluster k).owner = none ∧ (s'.cluster k).saved = v :: (s.cluster k).saved
          ∧ v.uid = r.uid ∧ v.prio = j.f.prio ∧ v.unit.acc = (s.cluster k).unit.acc
          ∧ v.unit.hash = (s.cluster k).unit.hash ∧ v.unit.ranks = (s.cluster k).unit.ranks))
  ∧ (∀ (k : Fin 1680) (j : Job) (r : TileRun) (t : Tile) (s : State), currentRun s k = some (j, r) → stoppedSlot s (s.cluster k) = none →
      (s.cluster k).owner = some r.uid → runFinished j (s.cluster k) r = true → tileAt j r.l2 r.l1 = some t → tileAfter j r.l2 r.l1 = none →
      isPart j = true → r.last = true → keptByHold j r = false → (s.cluster k).outbound.length < j.region.outSlots →
      (s.cluster k).forming = [] →
      ∃ s', exec (.l2TileBoundary k) s = .next s' ∧ (s'.cluster k).outbound = (s.cluster k).outbound ++ [(outboundOf s j t r).1]
        ∧ (s'.cluster k).unit.acc = [] ∧ (∀ sl ∈ (s'.cluster k).slots, sl.uid = j.f.uid → sl.finished = true))
  ∧ (∀ (k : Fin 1680) (sl : Slot) (f : Flight) (s : State), stoppedSlot s (s.cluster k) = some sl → flightOf s sl.uid = some f →
      atBoundary (jobOf s k sl.uid) (s.cluster k) sl.uid = true → (s.cluster k).forming = [] →
      ∃ s' g, exec (.l2TileBoundary k) s = .next s' ∧ flightOf s' sl.uid = some g ∧ g.waiting = f.waiting.erase k.val
        ∧ (s'.cluster k).owner ≠ some sl.uid ∧ (∀ x ∈ (s'.cluster k).slots, x.uid = sl.uid → x.finished = true) ∧ s'.mem = s.mem)
  ∧ (∀ (k : Fin 1680) (v : Saved) (s : State), bestSaved (s.cluster k).saved = some v → (s.cluster k).awake = true →
      (s.cluster k).owner = none → higherWaits (s.cluster k) v.prio = false →
      ∃ s', exec (.contextRestore ⟨k, .clean⟩) s = .next s' ∧ (s'.cluster k).owner = some v.uid ∧ (s'.cluster k).unit = v.unit
        ∧ (s'.cluster k).run = v.run ∧ (s'.cluster k).held = v.held ∧ (s'.cluster k).saved = (s.cluster k).saved.erase v
        ∧ s'.mem = s.mem ∧ s'.work = s.work ∧ ∀ q, q ≠ k.val → s'.cluster q = s.cluster q)

/-- OUT_WRITE_BACK of the OUT half that is next, whose writes are allowed and meet no error, stores its writes, and the cluster no longer holds
it. CLAUSE_COMPLETE of a clause that nothing waits for, with no request outstanding, takes it out of flight and writes its notice with
STATUS OK and its bits and counts, or no notice when it is QUIET; a stopped clause, quiet in every cluster and with no WRITE outstanding,
completes with the verdict that stopped it, and one of a halting status leaves its ring HALTED. -/
def Obligations.WriteBackAndCompletion : Prop :=
  (∀ (k : Fin 1680) (j : Job) (h : OutHalf) (s : State), readyHalf (s.cluster k) = some h → jobOf s k h.uid = some j →
      checkWrites s j .clean h.writes = .ok →
      ∃ s', exec (.outWriteBack k .clean) s = .next s' ∧ (s'.cluster k).outHalf = (s.cluster k).outHalf.erase h
        ∧ s'.mem = (storeOutputs s j .clean h.writes).mem ∧ s'.tenants = s.tenants)
  ∧ (∀ (t : Fin 16) (tag : BitVec 16) (f : Flight) (s : State), flightTag s t tag.toNat = some f → (s.tenant t).clears = [] →
      (f.stop = none → f.waiting = [] → (∀ o ∈ s.work.outstanding, o.uid ≠ f.uid) → (cVerb f.words < 0x0C ∨ 0x0E < cVerb f.words) →
        ∃ s', exec (.clauseComplete t tag) s = .next s' ∧ (∀ g, g ∈ s'.work.flights ↔ (g ∈ s.work.flights ∧ g.uid ≠ f.uid))
          ∧ (s'.tenant t).halted = (s.tenant t).halted
          ∧ (cQuiet f.words = false → CanNotify s t → Notified s s' t (clauseNotice f {}) ∧ HostOnlySlot s s' t)
          ∧ (cQuiet f.words = true → s'.mem = s.mem))
      ∧ (∀ v, f.stop = some v → quiet s f.uid = true → (∀ o ∈ s.work.outstanding, o.uid = f.uid → o.isWrite = false) → f.prio < 4 →
        v.status ≠ 0 → CanNotify s t → tenantFlights s t = [f] →
        ∃ s', exec (.clauseComplete t tag) s = .next s' ∧ tenantFlights s' t = [] ∧ Notified s s' t (clauseNotice f v)
          ∧ (bit (s'.tenant t).halted.toNat f.prio = (bit (s.tenant t).halted.toNat f.prio || halts v.status))))

/-- For a contraction in flight, the command repeats the round in which every cluster that still runs the clause does each of its units' next
step (take, land, load, settle, issue, commit, combine, hash, spill, merge, requantize, rank, write back, boundary, restore), and ends
where a further round changes nothing, within the bound that only serves the recursion. -/
def Obligations.ContractionsRunRounds : Prop :=
  ∀ (t : Fin 16) (tag : BitVec 16) (f : Flight) (s : State), flightTag s t tag.toNat = some f →
    ∀ c : Instr, ((c = .contract t tag ∧ cVerb f.words = 1) ∨ (c = .contractSparse t tag ∧ cVerb f.words = 2)) →
    ∃ s' n, exec c s = .next s' ∧ n ≤ roundBound ∧ s' = (clauseRound f.uid)^[n] s ∧ (n < roundBound → clauseRound f.uid s' = s')

/-- For a POINTWISE clause without a LUT that stands ready on one member with one L2 tile that fills whole groups of OUT, whose accesses are
allowed and which no other clause touches: the outputs are, element by element, A for PASS, A plus B for ADD, A minus B for SUB, A times B
(at twice the accumulation exponent) for MUL, the larger for MAX and the smaller for MIN, saturated to 56 bits; they are formed and written
by the rules of the requantizer, the clause has SAT when a value was saturated, and the clause is done. -/
def Obligations.PointwiseResults : Prop :=
  ∀ (t : Fin 16) (tag : BitVec 16) (f : Flight) (s1 s : State) (j : Job) (l2 : Nat) (st2 : List Nat) (c : Instr) (op : Nat) (z : Int → Int → Int),
    ((c = .pointwisePass t ⟨tag, .clean⟩ ∧ op = 0 ∧ z = fun a _ => a) ∨ (c = .pointwiseAdd t ⟨tag, .clean⟩ ∧ op = 1 ∧ z = fun a b => a + b)
      ∨ (c = .pointwiseSub t ⟨tag, .clean⟩ ∧ op = 2 ∧ z = fun a b => a - b) ∨ (c = .pointwiseMul t ⟨tag, .clean⟩ ∧ op = 3 ∧ z = fun a b => a * b)
      ∨ (c = .pointwiseMax t ⟨tag, .clean⟩ ∧ op = 4 ∧ z = fun a b => max a b)
      ∨ (c = .pointwiseMin t ⟨tag, .clean⟩ ∧ op = 5 ∧ z = fun a b => min a b)) →
    VerbStands s t tag (fun c => cVerb c = 3 && cOp c = op) tiledReady f s1 j → tilesOf j = [(l2, st2)] → cLutEn j.c = false →
    s.work.touches = [] → checkReads s1 j .clean (pointReads s1 j st2) = .ok →
    let value := fun i => z (operandOf s1 j j.a j.map.a i) (if op = 0 then 0 else operandOf s1 j j.b j.map.b i)
    let o := tileOf s1 j l2 {
      items := (elements j l2 st2).map (fun i => { idx := evalTerms j.map.out j.out i, ch := channelOf j i, acc := satAcc (value i) })
      eacc := if op = 3 then 2 * cEacc j.c else cEacc j.c }
    o.2.2 = {} → checkWrites s1 j .clean o.1 = .ok →
    ∃ s' inexact, exec c s = .next s' ∧ s'.mem = (storeOutputs s1 j .clean o.1).mem
      ∧ VerbDone s' f ((elements j l2 st2).any (fun i => satHit (value i))) inexact o.2.1 ∧ s'.tenants = s.tenants

/-- For a copying clause that stands ready on one member with one L2 tile that fills whole groups of OUT, whose accesses are allowed and which
no other clause touches: PUMP with OP 0 writes the A elements to their OUT elements; COMPRESS and EXPAND write the A elements in OUT's
layout under the mask that X names, zero at a filled slot, when that mask passes its check; GATHER writes the A elements of the rows that X
names, zeros where X names none; SCATTER, with no granule of a destination row that two source rows name, writes every element of A to the
row that X names; each is then done. A row index beyond A's extent, with no output waiting for its group, stops GATHER with INDEX_RANGE. -/
def Obligations.CopiesMoveElements : Prop :=
  ∀ (t : Fin 16) (tag : BitVec 16) (f : Flight) (s1 s : State) (j : Job) (l2 : Nat) (st2 : List Nat), tilesOf j = [(l2, st2)] →
    s.work.touches = [] →
    (VerbStands s t tag (fun c => cVerb c = 8 && cOp c = 0) tiledReady f s1 j → checkReads s1 j .clean (copyReads s1 j st2) = .ok →
      let o := tileOf s1 j l2 { copied := (copiedCodes s1 j l2 st2).map (fun e => (0, e)) }
      o.2.2 = {} → checkWrites s1 j .clean o.1 = .ok →
      ∃ s', exec (.pumpMapped t ⟨tag, .clean⟩) s = .next s' ∧ s'.mem = (storeOutputs s1 j .clean o.1).mem ∧ VerbDone s' f false false false
        ∧ s'.tenants = s.tenants)
    ∧ (∀ (c : Instr) (verb : Nat), ((c = .compress t ⟨tag, .clean⟩ ∧ verb = 9) ∨ (c = .expand t ⟨tag, .clean⟩ ∧ verb = 10)) →
      VerbStands s t tag (fun c => cVerb c = verb) tiledReady f s1 j →
      let m := maskJob j
      checkReads s1 m .clean (copyReads s1 m st2) = .ok → maskFault s1 m l2 st2 = none →
      let o := tileOf s1 m l2 {
        copied := (copiedCodes s1 m l2 st2).map (fun e => (0, e.1, if filledSlot s1 m m.out e.1 then { e.2 with code := 0 } else e.2)) }
      o.2.2 = {} → checkWrites s1 m .clean o.1 = .ok →
      ∃ s', exec c s = .next s' ∧ s'.mem = (storeOutputs s1 m .clean o.1).mem ∧ VerbDone s' f false false false ∧ s'.tenants = s.tenants)
    ∧ (VerbStands s t tag (fun c => cVerb c = 6) tiledReady f s1 j → checkReads s1 j .clean (gatherReads s1 j st2) = .ok →
      let ps := gatherPairs s1 j l2 st2
      ((∀ p ∈ ps, ∀ a, p.2 = some a → a.getD 0 0 < nExt j.a 0) →
        let o := tileOf s1 j l2 { copied := ps.map (fun e => (0, e.1, match e.2 with | some a => j.elem s1 j.a a | none => {})) }
        o.2.2 = {} → checkWrites s1 j .clean o.1 = .ok →
        ∃ s', exec (.gather t ⟨tag, .clean⟩) s = .next s' ∧ s'.mem = (storeOutputs s1 j .clean o.1).mem ∧ VerbDone s' f false false false
          ∧ s'.tenants = s.tenants)
      ∧ ((∃ p ∈ ps, ∃ a, p.2 = some a ∧ (nExt j.a 0 : Int) ≤ a.getD 0 0) → (∀ k ∈ f.waiting, (s.cluster k).forming = []) →
        ∃ s', exec (.gather t ⟨tag, .clean⟩) s = .next s' ∧ s'.mem = s.mem ∧ VerbStopped s' f { status := 2, reason := 0x0306, l2Tile := l2 }))
    ∧ (VerbStands s t tag (fun c => cVerb c = 7) tiledReady f s1 j → checkReads s1 j .clean (scatterReads s1 j st2) = .ok →
      (∀ p ∈ scatterPairs s1 j l2 st2, ∀ o, p.2.2 = some o → o.getD 0 0 < nExt j.out 0) →
      let xs := scatterElems s1 j l2 st2
      contested (cutRows (copiedWrites s1 j (xs.filter (fun x => inExtents j.out x.2.1)))) = [] →
      let o := tileWrites (fun ws => (cutRows ws).map (fun e => e.2.2)) s1 j l2 { copied := xs } {} false
      o.2.2 = {} → checkWrites s1 j .clean o.1 = .ok →
      ∃ s', exec (.scatter t ⟨tag, .clean⟩) s = .next s' ∧ s'.mem = (storeOutputs s1 j .clean o.1).mem ∧ VerbDone s' f false false false
        ∧ s'.tenants = s.tenants)

/-- A REDUCE of SUM, MAX or MIN, keyed or not, into the banked accumulators, not held and not split, that stands ready on one member with one
output tile that fills whole groups of OUT, with allowed accesses that no other clause touches and without a trap, writes that tile's
outputs and is done; it starts from the state that it resumes or from the operation's starting value. The value of an output is its
starting value plus the sum of its inputs when no update saturated, and for MAX and MIN the largest or smallest of the starting value and
its inputs, each saturated to 56 bits. A RANK clause, of elements (OP 0) or of lists (OP 1), not split, that stands ready on one member
with one group and allowed accesses that no other clause touches, writes the rank list of the group's candidates, at most K, at the group's
place and is done. -/
def Obligations.ReduceAndRankResults : Prop :=
  ((∀ (t : Fin 16) (tag : BitVec 16) (f : Flight) (s1 s : State) (j : Job) (g : RedGroup) (c : Instr) (ok : Clause → Bool),
      ((c = .reduceSum t ⟨tag, .clean⟩ ∧ ok = fun c => cVerb c = 4 && !isKeyed c && reduceOp c = 0)
        ∨ (c = .reduceMax t ⟨tag, .clean⟩ ∧ ok = fun c => cVerb c = 4 && !isKeyed c && reduceOp c = 1)
        ∨ (c = .reduceMin t ⟨tag, .clean⟩ ∧ ok = fun c => cVerb c = 4 && !isKeyed c && reduceOp c = 2)
        ∨ (c = .reduceKeyed t ⟨tag, .clean⟩ ∧ ok = fun c => cVerb c = 4 && isKeyed c)) →
      VerbStands s t tag ok tiledReady f s1 j → s.work.touches = [] → cTarget f.words = 0 → cHold f.words = false →
      splits j.map j.tile = false → (s.cluster j.k).held = none ∨ cResume f.words = true → hashUpdates s1 j = [] →
      (∀ e ∈ tilesOf j, checkReads s1 j .clean (reduceReads s1 j e.2) = .ok) →
      memberGroups (resumes s1 j) s1 j = [g] → g.l2 < 0xFFFFFFFF → (cTrapSat j.c && g.sat) = false →
      (∀ h ∈ memberGroups false s1 j, checkWrites s1 j .clean (groupWrites s1 j h).1 = .ok) →
      let o := formGroups s1 j (requantOf j) g.l2 [] (groupItems j g) false
      o.2.2 = [] → checkWrites s1 j .clean o.1 = .ok →
      ∃ s', exec c s = .next s' ∧ s'.mem = (storeOutputs s1 j .clean o.1).mem ∧ VerbDone s' f g.sat g.inexact o.2.1
        ∧ (s'.cluster j.k).owner = none ∧ s'.tenants = s.tenants)
  ∧ (∀ (s : State) (j : Job) (ts : List Tile) (i : List Nat) (a : Int),
      let xs := (outputInputs s j ts i).map (fun e => (reduceInput s j e).1)
      (reduceOp j.c = 0 → (foldOutput s j ts i a).2.1 = false → (foldOutput s j ts i a).1 = a + xs.sum)
      ∧ (reduceOp j.c = 1 → (foldOutput s j ts i a).1 = (xs.map satAcc).foldl max a ∧ (∀ x ∈ xs, satAcc x ≤ (foldOutput s j ts i a).1))
      ∧ (reduceOp j.c = 2 → (foldOutput s j ts i a).1 = (xs.map satAcc).foldl min a ∧ (∀ x ∈ xs, (foldOutput s j ts i a).1 ≤ satAcc x))))
  ∧ (∀ (t : Fin 16) (tag : BitVec 16) (f : Flight) (s1 s : State) (j : Job) (g : RankOut) (c : Instr) (op : Nat),
    ((c = .rankElements t ⟨tag, .clean⟩ ∧ op = 0) ∨ (c = .rankListMerge t ⟨tag, .clean⟩ ∧ op = 1)) →
    VerbStands s t tag (fun c => cVerb c = 5 && cOp c = op) tiledReady f s1 j → s.work.touches = [] → splits j.map j.tile = false →
    (∀ e ∈ tilesOf j, checkReads s1 j .clean (rankReads s1 j e.2) = .ok) → memberRanks s1 j = [g] → g.l2 < 0xFFFFFFFF →
    checkWrites s1 j .clean (rankWrites s1 j (cK j.c) g.idx g.list) = .ok →
    ∃ s', exec c s = .next s' ∧ s'.mem = (storeOutputs s1 j .clean (rankWrites s1 j (cK j.c) g.idx g.list)).mem
      ∧ VerbDone s' f g.sat g.inexact false ∧ g.list.length ≤ cK j.c ∧ s'.tenants = s.tenants)

/-- For an untiled clause that stands ready on one member with allowed accesses that no other clause touches: PUMP with OP 1 stores the bytes
of A at OUT's base, and with a count of zero nothing; MASKLOAD, with a source whose every group is good, writes both planes of the
canonical mask, and otherwise, with no output waiting for its group, stops with the first fault and writes nothing; LUTLOAD of a good image
sets the slot on the cluster and no other, and of a bad one stops with LUT_BAD and leaves every slot of the cluster. -/
def Obligations.UntiledVerbs : Prop :=
  ∀ (t : Fin 16) (tag : BitVec 16) (f : Flight) (s1 s : State) (j : Job), s.work.touches = [] →
    (VerbStands s t tag (fun c => cVerb c = 8 && cOp c = 1) untiledReady f s1 j →
      (pumpCount j.c ≠ 0 →
        let ws := [(j.base s1 j.out * 8, 8 * pumpCount j.c, leNat (bytesAt s1 (j.base s1 j.a) (pumpCount j.c)))]
        checkReads s1 j .clean [(j.base s1 j.a * 8, 8 * pumpCount j.c)] = .ok → checkWrites s1 j .clean ws = .ok →
        ∃ s', exec (.pumpBytes t ⟨tag, .clean⟩) s = .next s' ∧ s'.mem = (storeOutputs s1 j .clean ws).mem ∧ VerbDone s' f false false false
          ∧ s'.tenants = s.tenants)
      ∧ (pumpCount j.c = 0 → ∃ s', exec (.pumpBytes t ⟨tag, .clean⟩) s = .next s' ∧ s'.mem = s.mem ∧ VerbDone s' f false false false
          ∧ s'.tenants = s.tenants))
    ∧ (∀ (c : Instr) (op : Nat), ((c = .maskloadS24 t ⟨tag, .clean⟩ ∧ op = 0) ∨ (c = .maskloadS24T t ⟨tag, .clean⟩ ∧ op = 1)) →
      VerbStands s t tag (fun c => cVerb c = 0x11 && cOp c = op) untiledReady f s1 j → checkReads s1 j .clean (maskReads s1 j) = .ok →
      checkWrites s1 j .clean (maskTile s1 j).writes = .ok →
      ((maskTile s1 j).fault = none →
        ∃ s', exec c s = .next s' ∧ s'.mem = (storeOutputs s1 j .clean (maskTile s1 j).writes).mem ∧ VerbDone s' f false false false
          ∧ s'.tenants = s.tenants)
      ∧ (∀ v, (maskTile s1 j).fault = some v → (∀ k ∈ f.waiting, (s.cluster k).forming = []) →
        ∃ s', exec c s = .next s' ∧ s'.mem = s.mem ∧ VerbStopped s' f v))
    ∧ (VerbStands s t tag (fun c => cVerb c = 0x12) untiledReady f s1 j → checkReads s1 j .clean [(j.base s1 j.a * 8, 8 * 1040)] = .ok →
      (∀ lut, readLut (bytesAt s1 (j.base s1 j.a) 1040) = some lut →
        ∃ s', exec (.lutload t ⟨tag, .clean⟩) s = .next s' ∧ tget (0, 0, []) (s'.cluster j.k).luts (cLut f.words) = lut ∧ s'.mem = s.mem
          ∧ (∀ i, i ≠ cLut f.words → tget (0, 0, []) (s'.cluster j.k).luts i = tget (0, 0, []) (s.cluster j.k).luts i)
          ∧ VerbDone s' f false false false ∧ s'.tenants = s.tenants)
      ∧ (readLut (bytesAt s1 (j.base s1 j.a) 1040) = none →
        ∃ s', exec (.lutload t ⟨tag, .clean⟩) s = .next s' ∧ VerbStopped s' f { status := 2, reason := 0x030A }
          ∧ (s'.cluster j.k).luts = (s.cluster j.k).luts))

/-- SAVE with DISCARD, on one member, only releases what is held. Without it, with an image area large enough and allowed accesses, it stores
the context image of what the cluster holds, or of a context with nothing in it, and releases the state; an area too small, with no output
waiting for its group, stops it with SAVE_SPACE, the state held as before. RESTORE on one member with allowed accesses that no other clause
touches, of an image that passes its checks, leaves its accumulators held on the cluster; one whose header or image fails stops with
RESTORE_BAD and leaves what the cluster holds. -/
def Obligations.SaveAndRestore : Prop :=
  ∀ (t : Fin 16) (tag : BitVec 16) (f : Flight) (s1 s : State) (j : Job), s.work.touches = [] →
    (VerbStands s t tag (fun c => cVerb c = 0x0F) untiledReady f s1 j →
      (bit (word f.words 8) 0 = true →
        ∃ s', exec (.save t ⟨tag, .clean⟩) s = .next s' ∧ (s'.cluster j.k).held = none ∧ s'.mem = s.mem ∧ VerbDone s' f false false false)
      ∧ (bit (word f.words 8) 0 = false →
        let bs := saveImage s1 [j] j
        let ws := [(imageArea s1 j j.out * 8, 8 * bs.length, leNat bs)]
        (∀ h, (s1.cluster j.k).held = some h →
          bs = contextImage (s1.cluster j.k).unit j.f.tenant (s1.tenant j.f.tenant).epoch.toNat h.l2)
        ∧ (heldStates (s1.cluster j.k) = [] → bs = contextImage {} j.f.tenant (s1.tenant j.f.tenant).epoch.toNat 0)
        ∧ (bs.length ≤ nStride j.out 0 → checkWrites s1 j .clean ws = .ok →
          ∃ s', exec (.save t ⟨tag, .clean⟩) s = .next s' ∧ (s'.cluster j.k).held = none ∧ s'.mem = (storeOutputs s1 j .clean ws).mem
            ∧ ((s1.cluster j.k).held ≠ none → (s'.cluster j.k).owner = none ∧ (s'.cluster j.k).unit = {}) ∧ VerbDone s' f false false false)
        ∧ (nStride j.out 0 < bs.length → (∀ k ∈ f.waiting, (s.cluster k).forming = []) →
          ∃ s', exec (.save t ⟨tag, .clean⟩) s = .next s' ∧ (s'.cluster j.k).held = (s.cluster j.k).held ∧ s'.mem = s.mem
            ∧ VerbStopped s' f { status := 2, reason := 0x0308 })))
    ∧ (VerbStands s t tag (fun c => cVerb c = 0x10) restoreReady f s1 j → checkReads s1 j .clean (headerReads s1 j) = .ok →
      (headerOk j.f.tenant (restoreHeader s1 j) = false →
        ∃ s', exec (.restore t ⟨tag, .clean⟩) s = .next s' ∧ (s'.cluster j.k).held = (s.cluster j.k).held ∧ s'.mem = s.mem
          ∧ VerbStopped s' f { status := 2, reason := 0x0309 })
      ∧ (headerOk j.f.tenant (restoreHeader s1 j) = true → checkReads s1 j .clean (imageReads s1 j) = .ok →
        (imageOk j.f.tenant (restoreImage s1 j) = true →
          ∃ s' h, exec (.restore t ⟨tag, .clean⟩) s = .next s' ∧ (s'.cluster j.k).held = some h ∧ h.restored = true ∧ h.tenant = j.f.tenant
            ∧ (s'.cluster j.k).unit = readImage (restoreImage s1 j) ∧ (s'.cluster j.k).owner = some j.f.uid ∧ s'.mem = s.mem
            ∧ VerbDone s' f false false false)
        ∧ (imageOk j.f.tenant (restoreImage s1 j) = false →
          ∃ s', exec (.restore t ⟨tag, .clean⟩) s = .next s' ∧ (s'.cluster j.k).held = (s.cluster j.k).held ∧ s'.mem = s.mem
            ∧ VerbStopped s' f { status := 2, reason := 0x0309 })))

/-- While the firmware runs: SIGNAL, once every clause posted before it in its sentence has completed, adds its value to the tenant's counter
modulo 2^32 and completes OK; WAIT that may start completes OK when counter minus target is not negative as a signed value; otherwise, with
a non-zero timeout that has run out and no other clause of the tenant in flight, it completes FAULTED with WAIT_TIMEOUT, the counters are
unchanged and its ring is HALTED; FENCE completes OK once the earlier clauses of its sentence have. Each leaves flight, and memory changes
only by its notice. -/
def Obligations.OrderingClauses : Prop :=
  ∀ (t : Fin 16) (tag : BitVec 16) (f : Flight) (s : State), ready s = true → flightTag s t tag.toNat = some f → (s.tenant t).clears = [] →
    CanNotify s t → cQuiet f.words = false → (∀ g ∈ s.work.flights, g.uid = f.uid → g = f) →
    (cVerb f.words = 0x0C → fenced s f = true →
      ∃ s', exec (.signal t tag) s = .next s' ∧ Notified s s' t (clauseNotice f {}) ∧ HostOnlySlot s s' t ∧ f ∉ s'.work.flights
        ∧ tget 0 (s'.tenant t).counters (word f.words 8) = tget 0 (s.tenant t).counters (word f.words 8) + BitVec.ofNat 32 (word f.words 9)
        ∧ (∀ i, i ≠ word f.words 8 → tget 0 (s'.tenant t).counters i = tget 0 (s.tenant t).counters i)
        ∧ (s'.tenant t).halted = (s.tenant t).halted ∧ SameOwnMemory s s')
    ∧ (cVerb f.words = 0x0D → mayStart s f = true →
      (0 ≤ (tget 0 (s.tenant t).counters (word f.words 8) - BitVec.ofNat 32 (word f.words 9)).toInt →
        ∃ s', exec (.wait t tag) s = .next s' ∧ Notified s s' t (clauseNotice f {}) ∧ HostOnlySlot s s' t ∧ f ∉ s'.work.flights
          ∧ (s'.tenant t).counters = (s.tenant t).counters ∧ (s'.tenant t).halted = (s.tenant t).halted ∧ SameOwnMemory s s')
      ∧ ((tget 0 (s.tenant t).counters (word f.words 8) - BitVec.ofNat 32 (word f.words 9)).toInt < 0 → word f.words 10 ≠ 0 →
          f.admittedAt + word f.words 10 ≤ s.nowUs → tenantFlights s t = [f] → f.prio < 4 →
        ∃ s', exec (.waitTimeout t tag) s = .next s' ∧ Notified s s' t (clauseNotice f { status := 2, reason := 0x0307 })
          ∧ HostOnlySlot s s' t ∧ SameOwnMemory s s'
          ∧ f ∉ s'.work.flights ∧ (s'.tenant t).counters = (s.tenant t).counters ∧ bit (s'.tenant t).halted.toNat f.prio = true))
    ∧ (cVerb f.words = 0x0E → fenced s f = true →
      ∃ s', exec (.fence t tag) s = .next s' ∧ Notified s s' t (clauseNotice f {}) ∧ HostOnlySlot s s' t ∧ f ∉ s'.work.flights
        ∧ (s'.tenant t).counters = (s.tenant t).counters ∧ (s'.tenant t).halted = (s.tenant t).halted ∧ SameOwnMemory s s')

/-- Saturation leaves a value of the 56-bit range and takes any other to the nearer bound. For UINT and SINT outputs of width 1 to 16, the code
written for a value that is not NaN stands for a value in the format's range, and for an exact value m times 2^e it is the rounded one when
that lies in range, else the nearer bound. Rounding to nearest differs by at most half a step, truncation goes toward zero by less than one
step, and stochastic rounding goes to the floor or one above it. -/
def Obligations.NumericRules : Prop :=
  (∀ x : Int, accMin ≤ satAcc x ∧ satAcc x ≤ accMax ∧ (satHit x = false ↔ satAcc x = x)
      ∧ (accMax < x → satAcc x = accMax) ∧ (x < accMin → satAcc x = accMin))
  ∧ (∀ (kind n mode r : Nat) (t : Fp), (kind = 0 ∨ kind = 1) → 1 ≤ n → n ≤ 16 → t ≠ .nan →
      (fmtBounds kind n).1 ≤ codeValue kind n (quantize kind n mode r t).code ∧ codeValue kind n (quantize kind n mode r t).code ≤ (fmtBounds kind n).2)
  ∧ (∀ (kind n mode r : Nat) (m e : Int), (kind = 0 ∨ kind = 1) → 1 ≤ n → n ≤ 16 →
      codeValue kind n (quantize kind n mode r (.fin m e)).code
        = max (fmtBounds kind n).1 (min (fmtBounds kind n).2 (roundInt mode r m e)))
  ∧ (∀ (m : Int) (k r : Nat), 1 ≤ k →
      (2 * roundInt 0 r m (-(k : Int)) * 2 ^ k - 2 * m ≤ 2 ^ k ∧ 2 * m - 2 * roundInt 0 r m (-(k : Int)) * 2 ^ k ≤ 2 ^ k)
      ∧ ((roundInt 1 r m (-(k : Int))).natAbs * 2 ^ k ≤ m.natAbs ∧ m.natAbs < ((roundInt 1 r m (-(k : Int))).natAbs + 1) * 2 ^ k)
      ∧ (roundInt 2 r m (-(k : Int)) = m / 2 ^ k ∨ roundInt 2 r m (-(k : Int)) = m / 2 ^ k + 1))

/-- For a packet for this wafer that no reset has made stale, with a target that a route reaches: an allowed READ is answered with READ_DATA of
the bytes at its address and changes no memory; an allowed WRITE of whole granules to a cluster that is awake or to DDR puts its bytes
there, changes no other byte of the two memories, and is answered with WRITE_ACK; both wake a dormant target cluster. An access that is not
allowed is answered with a NACK and changes no memory. A stale one is taken up and nothing else. -/
def Obligations.RequestsServed : Prop :=
  ∀ (p : Packet) (s : State),
    let g := packetGlobal p
    let n := packetLen p
    (forThis s 0 p = true → staleRequest s p = false → accessNack s p.tenant.toNat g n = none → cutOff s g = false → dormantTarget s g = none →
      ∃ s', exec (.read p .clean) s = .next s' ∧ Sent s s' (answerPacket s p 2 p.len 0 (bytesAt s g n)) ∧ s'.mem = s.mem
        ∧ s'.fabric.arrived = s.fabric.arrived.erase p ∧ s'.tenants = s.tenants ∧ s'.clusters = s.clusters)
    ∧ (forThis s 1 p = true → staleRequest s p = false → accessNack s p.tenant.toNat g n = none → cutOff s g = false → dormantTarget s g = none →
      p.addr.toNat % 64 = 0 → p.data.length = n → (gSpace g = 0 → gOff g + n ≤ 2 ^ 42) →
      ∃ s', exec (.write p .clean) s = .next s' ∧ Sent s s' (answerPacket s p 3 0 0 []) ∧ bytesAt s' g n = p.data
        ∧ (gSpace g = 0 → s'.mem.cistern = s.mem.cistern
            ∧ ∀ x, x < gOff g ∨ gOff g + n ≤ x → tget 0 s'.mem.ddr x = tget 0 s.mem.ddr x)
        ∧ (gSpace g = 1 → s'.mem.ddr = s.mem.ddr ∧ ∀ x, x < cisKey (gCluster g) (gCisOff g) ∨ cisKey (gCluster g) (gCisOff g) + n ≤ x →
            tget 0 s'.mem.cistern x = tget 0 s.mem.cistern x)
        ∧ s'.mem.flash = s.mem.flash ∧ s'.mem.host = s.mem.host ∧ s'.tenants = s.tenants)
    ∧ (∀ (c : Instr) (kind k : Nat) (e : Ecc), ((c = .read p e ∧ kind = 0) ∨ (c = .write p e ∧ kind = 1)) →
      forThis s kind p = true → staleRequest s p = false → accessNack s p.tenant.toNat g n = none → cutOff s g = false →
      dormantTarget s g = some k →
      ∃ s', exec c s = .next s' ∧ (s'.cluster k).awake = true)
    ∧ (∀ (c : Instr) (kind code : Nat) (e : Ecc), ((c = .read p e ∧ kind = 0) ∨ (c = .write p e ∧ kind = 1)) → forThis s kind p = true →
      (staleRequest s p = false → accessNack s p.tenant.toNat g n = some code →
        ∃ s', exec c s = .next s' ∧ Sent s s' (answerPacket s p 4 0 code []) ∧ s'.mem = s.mem ∧ s'.tenants = s.tenants)
      ∧ (staleRequest s p = true → ∃ s', exec c s = .next s' ∧ s' = takeUp s p))

/-- READ_DATA that matches the record of a READ frees the record and keeps the bytes for its clause; WRITE_ACK that matches the record of a
WRITE frees it; a NACK that matches frees it and stops the requesting clause, with no output waiting for its group, with REMOTE_ABSENT or
ACCESS_DENIED. An answer that matches no record is taken up and changes nothing else. REQUEST_TIMEOUT of a request without an answer for
the tenant's request timeout frees its record and stops its clause with TIMEOUT, and before that changes nothing. CONTROL of a packet for
the peer inbox appends its message to an inbox of fewer than 256, and drops and counts it at a full one. PEER_INBOX_POLL empties the inbox;
of a single message, it is accepted and its SEQ recorded when its TYPE is known and, for a source heard before, its SEQ is 1 to 32767 above
the last one accepted modulo 2^16; with an unknown TYPE, or with the SEQ accepted last, it is not. -/
def Obligations.AnswersAndPeerInbox : Prop :=
  ((∀ (p : Packet) (o : Outstanding) (s : State), recordOf s p = some o →
      (forThis s 2 p = true → o.isWrite = false → p.data.length = 64 * o.len →
        ∃ s', exec (.readData p) s = .next s' ∧ s'.work.outstanding = s.work.outstanding.erase o
          ∧ s'.work.landed = s.work.landed ++ [(o.uid, o.cluster, o.addr)] ∧ readBytes 0 s'.work.fetched o.addr (64 * o.len) = p.data
          ∧ s'.work.flights = s.work.flights ∧ s'.mem = s.mem ∧ s'.tenants = s.tenants ∧ s'.clusters = s.clusters)
      ∧ (forThis s 3 p = true → o.isWrite = true →
        ∃ s', exec (.writeAck p) s = .next s' ∧ s'.work.outstanding = s.work.outstanding.erase o ∧ s'.work.flights = s.work.flights
          ∧ s'.work.landed = s.work.landed ∧ s'.mem = s.mem ∧ s'.clusters = s.clusters)
      ∧ (∀ f, forThis s 4 p = true → flightOf s o.uid = some f → f.stop = none → (s.cluster o.cluster).forming = [] →
        ∃ s' h, exec (.nack p) s = .next s' ∧ s'.work.outstanding = s.work.outstanding.erase o ∧ flightOf s' o.uid = some h
          ∧ h.stop = some (nackVerdict p.code.toNat) ∧ h.waiting = f.waiting.erase o.cluster ∧ s'.mem = s.mem ∧ s'.tenants = s.tenants))
  ∧ (∀ (p : Packet) (s : State) (c : Instr) (kind : Nat), recordOf s p = none → forThis s kind p = true →
      ((c = .readData p ∧ kind = 2) ∨ (c = .writeAck p ∧ kind = 3) ∨ (c = .nack p ∧ kind = 4)) → exec c s = .next (takeUp s p))
  ∧ (∀ (txn : Nat) (o : Outstanding) (s : State), s.work.outstanding.find? (fun o => o.txn = txn) = some o →
      (∀ f, o.issuedAt + requestTimeout (s.tenant o.tenant) ≤ s.nowUs → flightOf s o.uid = some f → f.stop = none →
        (s.cluster o.cluster).forming = [] →
        ∃ s' h, exec (.requestTimeout txn) s = .next s' ∧ s'.work.outstanding = s.work.outstanding.erase o ∧ flightOf s' o.uid = some h
          ∧ h.stop = some { status := 5 } ∧ s'.mem = s.mem ∧ s'.tenants = s.tenants)
      ∧ (s.nowUs < o.issuedAt + requestTimeout (s.tenant o.tenant) → exec (.requestTimeout txn) s = .next s)))
  ∧ ((∀ (p : Packet) (body : PeerBody) (s : State), forThis s 5 p = true → isPeerPacket p = true →
      let m : PeerMsg := { data := p.data, body := body }
      ∃ s', exec (.control ⟨p, body⟩) s = .next s' ∧ s'.fabric.arrived = s.fabric.arrived.erase p
        ∧ s'.fabric.accepted = s.fabric.accepted ∧ s'.mem = s.mem ∧ s'.tenants = s.tenants
        ∧ (s.fabric.inbox.length < 256 → s'.fabric.inbox = s.fabric.inbox ++ [m] ∧ s'.sys = s.sys)
        ∧ (256 ≤ s.fabric.inbox.length → s'.fabric.inbox = s.fabric.inbox ∧ s'.sys.peerDrops = min 0xFFFF (s.sys.peerDrops + 1)))
  ∧ (∀ (m : PeerMsg) (s : State), firmwareRuns s = true → s.fabric.inbox = [m] →
      let last := tget 0 s.fabric.lastSeq (peerSrc m)
      ∃ s', exec .peerInboxPoll s = .next s' ∧ s'.fabric.inbox = []
        ∧ (knownPeer m = true → (last = 0 ∨ ∃ d, 1 ≤ d ∧ d ≤ 32767 ∧ (last - 1 + d) % 65536 = peerSeq m) → last ≤ 65536 →
            s'.fabric.accepted = s.fabric.accepted ++ [m] ∧ tget 0 s'.fabric.lastSeq (peerSrc m) = peerSeq m + 1)
        ∧ ((knownPeer m = false ∨ (last ≠ 0 ∧ peerSeq m + 1 = last)) →
            s'.fabric.accepted = s.fabric.accepted ∧ s'.fabric.lastSeq = s.fabric.lastSeq)))

/-- On an UP link of a rim whose pins no TAP has taken: a frame that is not good changes no stream and no packet and sends a header with NAK
and the last good FSEQ. A good idle frame records its FSEQ, frees the replay buffer up to its ACK_SEQ and adds its credits; with NAK, and
fewer than sixteen without progress, it sends the one frame that is left again with REPLAYED, and the sixteenth makes the link retrain. A
good frame that carries one whole packet for this wafer delivers it. After 4,096 frames a skip frame goes out. -/
def Obligations.FramesReceivedAndReplayed : Prop :=
  ∀ (l : Fin 24) (fec : Option Nat) (bs : List Byte) (s : State), poweredUp s = true → linkUp (s.link l) = true → rimTaken s (l / 6) = false →
    let x := s.link l
    let f := frameOf (bs.take 416)
    (frameGood x fec (bs.take 416) = false → x.replay.length < 512 →
      ∃ s' fr, exec (.frameReceive l fec bs) s = .next s' ∧ s'.out = .frame l (frameMessage fr) :: s.out ∧ fr.nak = true ∧ fr.ack = x.lastGood
        ∧ fr.fseq = x.fseq ∧ (s'.link l).lastGood = x.lastGood ∧ (s'.link l).streams = x.streams ∧ s'.fabric.arrived = s.fabric.arrived
        ∧ s'.mem = s.mem ∧ OtherLinks s s' l)
    ∧ (frameGood x fec (bs.take 416) = true → f.vcs = List.replicate 25 3 → x.txq = [] → x.streams = [[], [], []] →
      let kept := x.replay.filter (fun e => !ackCovers f.ack e.1)
      (f.nak = false →
        ∃ s', exec (.frameReceive l fec bs) s = .next s' ∧ (s'.link l).lastGood = f.fseq ∧ (s'.link l).replay = kept
          ∧ (∀ v, v < 3 → f.creditVc = v → v < x.credits.length → (s'.link l).credits.getD v 0 = x.credits.getD v 0 + f.credits)
          ∧ (s'.link l).fecCorrected = min 0xFFFFFFFF (x.fecCorrected + fec.getD 0) ∧ s'.out = s.out ∧ OtherLinks s s' l ∧ s'.mem = s.mem)
      ∧ (∀ e, f.nak = true → kept = [e] → kept.length = x.replay.length → x.nakCount + 1 < 16 →
        ∃ s' fr, exec (.frameReceive l fec bs) s = .next s' ∧ s'.out = .frame l (frameMessage fr) :: s.out ∧ fr.fseq = e.1 ∧ fr.replayed = true
          ∧ fr.vcs = e.2.1 ∧ fr.payload = e.2.2 ∧ fr.ack = f.fseq ∧ (s'.link l).nakCount = x.nakCount + 1 ∧ (s'.link l).replay = kept)
      ∧ (f.nak = true → kept.length = x.replay.length → 16 ≤ x.nakCount + 1 →
        ∃ s', exec (.frameReceive l fec bs) s = .next s' ∧ (s'.link l).status = 4 ∧ (s'.link l).replay = kept ∧ s'.out = s.out))
    ∧ (∀ n v, frameGood x fec (bs.take 416) = true → f.nak = false → x.txq = [] → x.streams = [[], [], []] → 1 ≤ n → n ≤ 25 → v < 3 →
      f.vcs = List.replicate n v ++ List.replicate (25 - n) 3 → (f.payload.take (16 * n)).length = 16 * n →
      streamPacketBytes (f.payload.take (16 * n)) = 16 * n → packetReserved (f.payload.take (16 * n)) = false →
      (packetOf (f.payload.take (16 * n))).orient = s.fabric.orient → (packetOf (f.payload.take (16 * n))).dstWafer.toNat = s.sys.waferNumber →
      ∃ s', exec (.frameReceive l fec bs) s = .next s' ∧ s'.fabric.arrived = s.fabric.arrived ++ [packetOf (f.payload.take (16 * n))]
        ∧ (s'.link l).lastGood = f.fseq ∧ (s'.link l).streams = [[], [], []] ∧ s'.mem = s.mem ∧ s'.tenants = s.tenants)
    ∧ (x.replay.length < 512 →
      (4096 ≤ x.sinceSkip →
        ∃ s' fr, exec (.skipFrame l) s = .next s' ∧ s'.out = .frame l (frameMessage fr) :: s.out ∧ fr.fseq = x.fseq
          ∧ fr.vcs = List.replicate 25 3 ∧ (s'.link l).sinceSkip = 0 ∧ (s'.link l).fseq = (x.fseq + 1) % 4096 ∧ OtherLinks s s' l)
      ∧ (x.sinceSkip < 4096 → exec (.skipFrame l) s = .next s))

/-- On a powered wafer, for a link with no packet waiting: a failing data lane of an UP link makes it retrain for its spare lane with FABRIC
set; another failing lane of a link on its spare makes it DOWN, and the third fall within 60 s holds it DOWN. A training that ends well on
a wafer that takes part makes the link UP, one that fails DOWN; a DOWN link tries again after 1 s, a held one after 60 s. A module of up to
16 W starts training, a heavier one keeps the link DOWN; a module that goes takes its link DOWN. The other links stay as they are. -/
def Obligations.LinksTrainAndFall : Prop :=
  ∀ (l : Fin 24) (s : State), poweredUp s = true → (s.link l).txq = [] →
    let x := s.link l
    (∀ lane : Fin 5, x.status = 2 → lane.val < 4 →
      ∃ s', exec (.laneFailure l lane) s = .next s' ∧ (s'.link l).status = 4 ∧ (s'.link l).spareFor = lane ∧ (s'.link l).replay = x.replay
        ∧ alertBit s' 3 = true ∧ OtherLinks s s' l)
    ∧ (∀ lane : Fin 5, x.status = 3 → lane.val ≠ x.spareFor →
      ∃ s', exec (.laneFailure l lane) s = .next s' ∧ (s'.link l).replay = [] ∧ (s'.link l).downAt = s.nowUs ∧ alertBit s' 3 = true
        ∧ (s'.link l).status = (if 2 ≤ (x.downTimes.filter (fun t => decide (s.nowUs < t + 60000000))).length then 6 else 5) ∧ OtherLinks s s' l)
    ∧ (x.status = 1 → (tget {} s.fabric.cages l).present = true → s.fabric.phase ≠ .excluded → s.fabric.phase ≠ .conflict →
      ∃ s', exec (.linkTrainingDone l true) s = .next s' ∧ (s'.link l).status = (if x.spareFor < 4 then 3 else 2) ∧ (s'.link l).fseq = 0
        ∧ (s'.link l).lastGood = 4095 ∧ (s'.link l).credits = [2048, 4096, 256] ∧ OtherLinks s s' l)
    ∧ (x.status = 1 →
      ∃ s', exec (.linkTrainingDone l false) s = .next s' ∧ (s'.link l).status = 5 ∧ (s'.link l).downAt = s.nowUs ∧ alertBit s' 3 = true
        ∧ OtherLinks s s' l)
    ∧ (x.status = 4 → s.fabric.phase ≠ .excluded → s.fabric.phase ≠ .conflict → x.replay = [] →
      ∃ s', exec (.linkTrainingDone l true) s = .next s' ∧ (s'.link l).status = (if x.spareFor < 4 then 3 else 2) ∧ (s'.link l).trainFails = 0
        ∧ (s'.link l).retrains = min 0xFFFF (x.retrains + 1) ∧ OtherLinks s s' l)
    ∧ (x.status = 4 → x.trainFails + 1 < 3 →
      ∃ s', exec (.linkTrainingDone l false) s = .next s' ∧ (s'.link l).status = 4 ∧ (s'.link l).trainFails = x.trainFails + 1)
    ∧ (mayTrain s l = true →
      (x.status = 5 → x.downAt + 1000000 ≤ s.nowUs → exec (.linkRetry l) s = .next (s.setLink l { x with status := 1 }))
      ∧ (x.status = 5 → s.nowUs < x.downAt + 1000000 → exec (.linkRetry l) s = .next s)
      ∧ (x.status = 6 → x.downAt + 60000000 ≤ s.nowUs → exec (.linkHoldExpiry l) s = .next (s.setLink l { x with status := 1 }))
      ∧ (x.status = 6 → s.nowUs < x.downAt + 60000000 → exec (.linkHoldExpiry l) s = .next s))
    ∧ (∀ w, stepDone s 8 = true → bit s.fabric.linkEnable.toNat l = true →
      ∃ s', exec (.qsfpInsert l w) s = .next s' ∧ tget {} s'.fabric.cages l = { present := true, watts := w, lowPower := decide (16 < w) }
        ∧ (s'.link l).status = (if 16 < w then 5 else 1) ∧ (16 < w → alertBit s' 3 = true) ∧ OtherLinks s s' l)
    ∧ (linkUp x = true →
      ∃ s', exec (.qsfpRemove l) s = .next s' ∧ (tget {} s'.fabric.cages l).present = false ∧ ((s'.link l).status = 5 ∨ (s'.link l).status = 6)
        ∧ alertBit s' 3 = true ∧ OtherLinks s s' l)

/-- The first accepted peer message, taken by its command: HELLO on an UP link records its sender at that link's far end, makes the link LOOPED
when the sender is this wafer and FOREIGN for another fabric; LINKS records its part at a coordinator; MAP gives a waiting wafer its
number, FABRIC_ID, limits and the present wafers; ROUTES collects its parts and installs the whole table, a shadow one apart from the one
in use; STATUS records its sender's tables at the coordinator; SWITCH of the shadow set stops injection; PRIMARY records its sender's
primary. -/
def Obligations.PeerMessagesHeard : Prop :=
  (∀ (l : Fin 24) (serial : DWord) (pl : BitVec 5) (fid cand : DWord) (num : BitVec 8) (level : Nat) (m : PeerMsg) (rest : List PeerMsg)
      (s : State), AtPeer s m rest → m.body = .hello l serial pl fid cand num level → linkUp (s.link l) = true → (s.link l).txq = [] →
      (serial ≠ s.sys.serial → helloStatus s (s.link l) serial fid = (s.link l).status → losesConflict s serial fid num.toNat = false →
        ∃ s', exec .hello s = .next s' ∧ (s'.link l).peerSerial = serial ∧ (s'.link l).peerLink = pl.toNat ∧ (s'.link l).peerNumber = num.toNat
          ∧ (s'.link l).peerLevel = level ∧ (s'.link l).peerFabric = fid ∧ s'.fabric.accepted = rest ∧ OtherLinks s s' l
          ∧ (partakes s = true → s.fabric.coordinator = false → s.fabric.lost = 0 → s.fabric.number = none → s.fabric.fabricId = 0 → fid = 0 →
              cand ≤ serial → cand < s.fabric.candidate → s'.fabric.candidate = cand ∧ s'.fabric.candidateAt = s.nowUs))
      ∧ (serial = s.sys.serial →
        ∃ s', exec .hello s = .next s' ∧ (s'.link l).status = 7 ∧ alertBit s' 3 = true)
      ∧ (serial ≠ s.sys.serial → s.fabric.fabricId ≠ 0 → fid ≠ 0 → s.fabric.fabricId ≠ fid →
        ∃ s', exec .hello s = .next s' ∧ (s'.link l).status = 8 ∧ alertBit s' 3 = true))
  ∧ (∀ (serial : DWord) (part : Fin 4) (rs : List LinkReport) (m : PeerMsg) (rest : List PeerMsg) (s : State), AtPeer s m rest →
      m.body = .links serial part rs →
      (s.fabric.coordinator = true → partakes s = true →
        ∃ s', exec .links s = .next s' ∧ partOf s' serial part = rs ∧ s'.fabric.links = s.fabric.links ∧ s'.fabric.accepted = rest)
      ∧ (s.fabric.coordinator = false → exec .links s = .next (popPeer s)))
  ∧ (∀ (fid : DWord) (mx wc : Nat) (pr : BitVec 128) (es : List (Nat × DWord)) (n : Nat) (m : PeerMsg) (rest : List PeerMsg) (s : State),
      AtPeer s m rest → m.body = .map fid mx wc pr es → s.fabric.coordinator = false → partakes s = true →
      (s.fabric.fabricId = 0 ∨ s.fabric.fabricId = fid) → s.fabric.number = none →
      let table := es.foldl (fun t e => if e.1 < 128 then tset 0 t e.1 e.2 else t) s.fabric.serials
      numberOf { s.fabric with serials := table } s.sys.serial.toNat = some n → tget 0 table n = s.sys.serial →
      ∃ s', exec .map s = .next s' ∧ s'.fabric.number = some n ∧ s'.sys.waferNumber = n ∧ s'.sys.waferCount = wc ∧ s'.fabric.fabricId = fid
        ∧ s'.fabric.maxWafers = mx ∧ s'.fabric.serials = table ∧ s'.fabric.lastMap = s.nowUs
        ∧ (∀ w, w ∈ s'.fabric.present ↔ (w < 128 ∧ bit pr.toNat w = true)))
  ∧ (∀ (g : Nat) (orient shadow : Bool) (es : List RouteEntry) (m : PeerMsg) (rest : List PeerMsg) (s : State), AtPeer s m rest →
      m.body = .routes g orient shadow es → s.fabric.coordinator = false → partakes s = true →
      g ≠ (if shadow then s.fabric.shadowGeneration else s.fabric.generation) →
      let st := stageRoutes s.fabric g orient shadow es
      (st.dests.length < 128 →
        ∃ s', exec .routes s = .next s' ∧ s'.fabric.staging = st ∧ s'.fabric.routes = s.fabric.routes
          ∧ s'.fabric.shadowRoutes = s.fabric.shadowRoutes ∧ s'.fabric.generation = s.fabric.generation)
      ∧ (128 ≤ st.dests.length → shadow = false →
        ∃ s', exec .routes s = .next s' ∧ s'.fabric.routes = st.table ∧ s'.fabric.generation = g ∧ s'.fabric.orient = orient
          ∧ s'.fabric.staging = {} ∧ s'.fabric.shadowRoutes = s.fabric.shadowRoutes)
      ∧ (128 ≤ st.dests.length → shadow = true →
        ∃ s', exec .routes s = .next s' ∧ s'.fabric.shadowRoutes = st.table ∧ s'.fabric.shadowGeneration = g
          ∧ s'.fabric.routes = s.fabric.routes ∧ s'.fabric.orient = s.fabric.orient ∧ s'.fabric.generation = s.fabric.generation))
  ∧ (∀ (num : BitVec 7) (ins sh : Nat) (orient : Bool) (up : BitVec 24) (m : PeerMsg) (rest : List PeerMsg) (s : State), AtPeer s m rest →
      m.body = .status num ins sh orient up → s.fabric.coordinator = true → partakes s = true →
      ∃ s', exec .status s = .next s' ∧ s'.fabric.accepted = rest
        ∧ ∀ w ∈ s'.fabric.wafers, w.serial = tget 0 s.fabric.serials num.toNat →
            w.installed = ins ∧ w.shadow = sh ∧ w.orient = orient ∧ w.linksUp = up ∧ w.lastStatus = s.nowUs)
  ∧ (∀ (g : Nat) (m : PeerMsg) (rest : List PeerMsg) (s : State), AtPeer s m rest → m.body = .switch g → partakes s = true →
      (g = s.fabric.shadowGeneration → s.fabric.generation < g → s.fabric.pausedAt = none →
        ∃ s', exec .switch s = .next s' ∧ s'.fabric.pausedAt = some s.nowUs ∧ s'.fabric.routes = s.fabric.routes)
      ∧ (g ≠ s.fabric.shadowGeneration → exec .switch s = .next (popPeer s)))
  ∧ (∀ (south : Bool) (fo : BitVec 8) (m : PeerMsg) (rest : List PeerMsg) (s : State), AtPeer s m rest → m.body = .primary south fo →
      ∃ s', exec .primary s = .next s' ∧ tget false s'.fabric.peerPrimary (peerSrc m) = south ∧ s' = { s with fabric := s'.fabric })

/-- While the firmware runs, with step 8 over: LINK_TRAIN ends when every enabled link is settled or after 200 ms; when the candidate has been
the same for the settle time, it collects and every other wafer awaits; a wafer without a number 200 ms after the window is wafer 0 of its
own fabric; 500 ms without a MAP begin a new election that keeps the numbers; a lost wafer is not present any more and its number stays
reserved; a switch over to the shadow set comes 300 µs after the pause; repeating a message of a type changes nothing but what goes out and
the sequence number and, for a wafer without a number, the free source of the next ones, a HELLO going out on every UP link and a STATUS to
the coordinator with word 0 of its TYPE, source and SEQ. -/
def Obligations.DiscoveryProceeds : Prop :=
  ∀ s : State, firmwareRuns s = true → stepDone s 8 = true →
    (s.fabric.phase = .linkTrain →
      ((∀ l, l < 24 → settledLink s l = true) ∨ s.fabric.stepStart + 200000 ≤ s.nowUs →
        ∃ s', exec .linkTrainExit s = .next s' ∧ s'.fabric.phase = .elect ∧ s'.fabric.candidateAt = s.nowUs ∧ s'.fabric.links = s.fabric.links
          ∧ s'.tenants = s.tenants ∧ s'.mem = s.mem)
      ∧ (∀ l, l < 24 → settledLink s l = false → s.nowUs < s.fabric.stepStart + 200000 → exec .linkTrainExit s = .next s))
    ∧ (s.fabric.phase = .elect →
      (s.fabric.candidateAt + 1000 * s.fabric.settle ≤ s.nowUs → s.fabric.candidate ≠ s.sys.serial →
        ∃ s', exec .electSettle s = .next s' ∧ s'.fabric.phase = .await ∧ s'.fabric.coordinator = s.fabric.coordinator)
      ∧ (s.fabric.candidateAt + 1000 * s.fabric.settle ≤ s.nowUs → s.fabric.candidate = s.sys.serial →
        ∃ s', exec .electSettle s = .next s' ∧ s'.fabric.coordinator = true
          ∧ (s'.fabric.phase = .collect ∨ s'.fabric.phase = .number ∨ s'.fabric.phase = .running))
      ∧ (s.nowUs < s.fabric.candidateAt + 1000 * s.fabric.settle → exec .electSettle s = .next s))
    ∧ (inDiscovery s.fabric = true → s.fabric.number = none → s.fabric.stepStart + 1000 * s.fabric.window + 200000 ≤ s.nowUs →
      ∃ s', exec .discoveryWindow s = .next s' ∧ s'.fabric.phase = .running ∧ s'.fabric.number = some 0 ∧ s'.fabric.coordinator = true
        ∧ s'.fabric.fabricId = s.sys.serial ∧ s'.fabric.present = [0] ∧ s'.sys.waferNumber = 0 ∧ s'.sys.waferCount = 1 ∧ alertBit s' 3 = true
        ∧ (stepRuns s 9 = true → s'.sys.state = 1 ∧ stepDone s' 9 = true))
    ∧ (s.fabric.coordinator = false → s.fabric.number.isSome = true → (s.fabric.phase = .running ∨ s.fabric.phase = .await) →
      (s.fabric.lastMap + 500000 ≤ s.nowUs →
        ∃ s', exec .mapTimeout s = .next s' ∧ s'.fabric.phase = .elect ∧ s'.fabric.candidate = s.sys.serial
          ∧ s'.fabric.lost = s.fabric.candidate ∧ s'.fabric.number = s.fabric.number ∧ s'.fabric.fabricId = s.fabric.fabricId
          ∧ s'.fabric.serials = s.fabric.serials ∧ s'.fabric.routes = s.fabric.routes)
      ∧ (s.nowUs < s.fabric.lastMap + 500000 → exec .mapTimeout s = .next s))
    ∧ (∀ (w : Fin 128) (n : Nat), s.fabric.coordinator = true → w.val ∈ s.fabric.present → s.fabric.number = some n → n ≠ w.val →
      tget 0 s.fabric.serials w ≠ 0 →
      (waferLost s (tget 0 s.fabric.serials w) = true → s.fabric.switching = false →
        ∃ s', exec (.waferAbsent w) s = .next s' ∧ w.val ∉ s'.fabric.present ∧ s'.fabric.serials = s.fabric.serials ∧ alertBit s' 3 = true
          ∧ ((tget {} s'.fabric.routes w).state = 2 ∨ (tget {} s'.fabric.shadowRoutes w).state = 2))
      ∧ (waferLost s (tget 0 s.fabric.serials w) = false → exec (.waferAbsent w) s = .next s))
    ∧ (∀ t0, s.fabric.pausedAt = some t0 →
      (t0 + 300 ≤ s.nowUs → s.fabric.generation < s.fabric.shadowGeneration → s.fabric.switching = false →
        ∃ s', exec .switchPauseEnd s = .next s' ∧ s'.fabric.pausedAt = none ∧ s'.fabric.routes = s.fabric.shadowRoutes
          ∧ s'.fabric.generation = s.fabric.shadowGeneration ∧ s'.fabric.orient = !s.fabric.orient)
      ∧ (s.nowUs < t0 + 300 → exec .switchPauseEnd s = .next s))
    ∧ (∀ kind : PeerType, partakes s = true →
      ∃ s', exec (.peerMessageRepeat kind) s = .next s'
        ∧ s' = { s with out := s'.out, freeCtr := s'.freeCtr, fabric := { s.fabric with sendSeq := s'.fabric.sendSeq } }
        ∧ (kind = .hello → s'.out.length = s.out.length + ((List.range 24).filter (fun l => linkUp (s.link l))).length)
        ∧ (∀ n, kind = .status → s.fabric.number = some n → s.fabric.coordinator = false →
            s'.fabric.sendSeq = s.fabric.sendSeq + 1 ∧ s'.out = .peer (some (coordinatorNumber s))
              (5 + 2 ^ 8 * (n % 128) + 2 ^ 16 * s.fabric.sendSeq.toNat) (.status (BitVec.ofNat 7 n) s.fabric.generation s.fabric.shadowGeneration s.fabric.orient
              (linkMask ((List.range 24).filter (fun l => linkUp (s.link l))))) :: s.out))

/-- While the primary runs: a heartbeat counts and notes the time. 20 ms without one ring the standby, or stop the engine when there is none. A
rung standby whose mirror is good becomes primary with what the mirror holds (expected sequences, plans, counters, sessions, the live
ledger): every tenant's epoch is incremented, its rings are OPEN and empty, no clause is in flight, every cluster's slots and held state
are gone, FAILOVER and NO_STANDBY are set. A tenant with a ring and nothing to fail, of which the mirror is current and whose ring shows no
notice past TAIL, has one EVENT notice of kind FAILOVER there, when no other tenant has a ring. -/
def Obligations.FailoverToStandby : Prop :=
  ∀ s : State, firmwareRuns s = true →
    (exec .heartbeatTick s = .next { s with sys := { s.sys with heartbeat := s.sys.heartbeat + 1, lastBeat := s.nowUs } })
    ∧ (s.sys.lastBeat + 20000 ≤ s.nowUs →
      (s.sys.noStandby = false → exec .heartbeatWatchdog s = .next { s with sys := { s.sys with standbyRung := true } })
      ∧ (s.sys.noStandby = true →
        ∃ s', exec .heartbeatWatchdog s = .next s' ∧ s'.sys.state = 2 ∧ alertBit s' 4 = true ∧ s'.tenants = s.tenants ∧ s'.mem = s.mem))
    ∧ (s.nowUs < s.sys.lastBeat + 20000 → exec .heartbeatWatchdog s = .next s)
    ∧ (s.sys.standbyRung = true → s.sys.noStandby = false → s.mirror.crcOk = true →
      let d := fun (t : Fin 16) => tget (tenantDef t).durable s.mirror.tenants t
      ∃ s', exec .failover s = .next s' ∧ s'.sys.primarySouth = !s.sys.primarySouth ∧ s'.sys.noStandby = true ∧ s'.sys.standbyRung = false
        ∧ s'.sys.failovers = min 0xFF (s.sys.failovers + 1) ∧ alertBit s' 0 = true ∧ alertBit s' 1 = true
        ∧ s'.work.sessions = s.mirror.sessions ∧ s'.silicon.live = s.mirror.live
        ∧ (∀ t : Fin 16, (s'.tenant t).epoch = (s.tenant t).epoch + 1 ∧ tenantFlights s' t = [] ∧ (s'.tenant t).expected = (d t).expected
            ∧ (s'.tenant t).plan = (d t).plan ∧ (s'.tenant t).counters = (d t).counters
            ∧ (s'.tenant t).halted = 0 ∧ (s'.tenant t).copied = [] ∧ ∀ p, ((s'.tenant t).ring p).waiting = [])
        ∧ (∀ k, (s'.cluster k).slots = [] ∧ (s'.cluster k).held = none ∧ (s'.cluster k).saved = [] ∧ (s'.cluster k).owner = none)
        ∧ (∀ t : Fin 16, CanNotify s t → d t = (s.tenant t).durable → (∀ u : Fin 16, u ≠ t → (d u).ringSet = false) →
            tenantFlights s t = [] → (s.tenant t).unanswered = [] → (∀ p, ((s.tenant t).ring p).waiting = []) →
            bit (tget 0 s.mem.host (tailKey s t)).toNat 0 ≠ (s.tenant t).tailPhase →
            Notified s s' t (eventNotice 1 (s.tenant t).expected.toNat ((s.tenant t).epoch + 1).toNat) ∧ HostOnlySlot s s' t))

/-- A permitted wafer powers on when the bank exceeds 42 V, when ENABLE goes high, when the standby starts above 36 V, and when the input falls
below 59 V after an overvoltage. A powered one goes off, and keeps nothing of the engine's state, at an input below 38 V, above 61 V or at
36 V and below, at ENABLE low and at an open lid. Above 65 V no operation is defined. A ramping converter becomes good, its field running
at 600 mV; after 5 ms it has failed; the last one sets PWR_GOOD and ends step 1. -/
def Obligations.PowerInputAndConverters : Prop :=
  (∀ (mV : Nat) (s : State), mV ≤ 65000 → MayPower s →
      (42000 < mV → s.casing.overvoltageOff = false → ∃ s', exec (.inputPowerUp mV) s = .next s' ∧ PoweredOn s s')
      ∧ (36000 < mV → s.casing.bankAbove = true → s.casing.overvoltageOff = false →
          ∃ s', exec (.standbyStart mV) s = .next s' ∧ PoweredOn s s' ∧ s'.casing.standby = true)
      ∧ (mV < 59000 → s.casing.standby = true → s.casing.bankAbove = true →
          ∃ s', exec (.overvoltageRecovery mV) s = .next s' ∧ PoweredOn s s' ∧ s'.casing.overvoltageOff = false))
  ∧ (∀ s : State, s.casing.powered = false → s.casing.standby = true → s.casing.bankAbove = true → s.casing.overvoltageOff = false →
      s.casing.powerOffLatch = false → ∃ s', exec (.enable true) s = .next s' ∧ PoweredOn s s')
  ∧ (∀ (mV : Nat) (s : State), s.casing.powered = true →
      (mV < 38000 → ∃ s', exec (.undervoltage mV) s = .next s' ∧ PoweredOff s s' ∧ s'.casing.bankAbove = false)
      ∧ (61000 < mV → mV ≤ 65000 → ∃ s', exec (.inputOvervoltage mV) s = .next s' ∧ PoweredOff s s' ∧ s'.casing.overvoltageBit = true
          ∧ s'.casing.overvoltageOff = true)
      ∧ (mV ≤ 36000 → ∃ s', exec (.standbyLoss mV) s = .next s' ∧ PoweredOff s s' ∧ s'.casing.standby = false ∧ s'.casing.sessions = [])
      ∧ (∃ s', exec (.enable false) s = .next s' ∧ PoweredOff s s' ∧ s'.casing.enablePin = false)
      ∧ (∃ s', exec .lidOpen s = .next s' ∧ PoweredOff s s'))
  ∧ (∀ (c : Instr) (s : State), 65000 < inputOf c → exec c s = .fault .outsideRatings)
  ∧ (∀ (pos : Fin 74) (s : State), poweredUp s = true → converter s pos = .ramping →
      (rampBegan s pos ≤ s.nowUs →
        ∃ s', exec (.powerGood pos) s = .next s' ∧ converter s' pos = .good ∧ (∀ q : Fin 74, q ≠ pos → converter s' q = converter s q)
          ∧ (4 ≤ pos.val → stepDone s 1 = false → (s'.field (fieldAt (pos.val - 3))).state = .running ∧ (s'.field (fieldAt (pos.val - 3))).railMv = 600)
          ∧ (pos.val = 0 → s.sys.romStartedAt = none → s'.sys.romStartedAt = some s.nowUs ∧ s'.sys.romTries = bootable s)
          ∧ (stepDone s 1 = false → (∀ q : Fin 74, q ≠ pos → converter s q ≠ .ramping) → stepDone s' 1 = true ∧ s'.casing.powerGood = true)
          ∧ s'.mem = s.mem ∧ s'.tenants = s.tenants ∧ s'.clusters = s.clusters)
      ∧ (rampBegan s pos + 5000 ≤ s.nowUs →
        ∃ s', exec (.powerGoodTimeout pos) s = .next s' ∧ converter s' pos = .failed ∧ (∀ q : Fin 74, q ≠ pos → converter s' q = converter s q)
          ∧ (4 ≤ pos.val → (s'.field (fieldAt (pos.val - 3))).state = .unpowered) ∧ s'.mem = s.mem ∧ s'.tenants = s.tenants))

/-- On a powered wafer, of the current that the load asks for the input draws up to 450 A and the hold-up bank the rest: above I_LIMIT − 10 A
the current-limit ceiling falls by one step, every 2 µs; below I_LIMIT − 30 A for 1 ms it rises by one, at most once a ms, to 64. A cluster
of a powered field at 95.0 °C or more lowers its thermal ceiling by one, which counts a throttle event at 64; below 92.0 °C for 1 ms it
rises by one; at 110.0 °C for the second time in succession it shuts its running field down and fences it. A VPM fault shuts a running
field down as VPM_FAULT. Ten bad coolant samples set COOLANT_WARN and ceiling 20, a hundred clear ones release it; ten of low flow shut
every field down. -/
def Obligations.SensorsLowerCeilings : Prop :=
  (∀ (dA mV : Nat) (s : State), mV ≤ 65000 → poweredUp s = true →
      let c := s.casing
      let i := min 4500 dA
      (∃ s', exec (.currentSample dA mV) s = .next s' ∧ s'.casing.iinDa = i ∧ s'.casing.bankDa = dA - 4500 ∧ s'.casing.vinMv = mV
        ∧ s' = { s with casing := s'.casing })
      ∧ ((c.iLimit - 10) * 10 < i → c.lastFall + 2 ≤ s.nowUs →
        ∃ s', exec (.currentSample dA mV) s = .next s' ∧ s'.casing.ilimitCeiling = c.ilimitCeiling - 1)
      ∧ (∀ t0, i < (c.iLimit - 30) * 10 → c.belowSince = some t0 → t0 + 1000 ≤ s.nowUs → c.lastIlimitRise + 1000 ≤ s.nowUs →
        ∃ s', exec (.currentSample dA mV) s = .next s' ∧ s'.casing.ilimitCeiling = min 64 (c.ilimitCeiling + 1))
      ∧ ((c.iLimit - 30) * 10 ≤ i → i ≤ (c.iLimit - 10) * 10 →
        ∃ s', exec (.currentSample dA mV) s = .next s' ∧ s'.casing.ilimitCeiling = c.ilimitCeiling))
  ∧ (∀ (k : Fin 1680) (q : Int) (s : State), (s.field (fieldOfLogical k)).power = .good →
      let a := (s.cluster k).avfs
      let f := fieldOfLogical k
      (380 ≤ q → q < 440 →
        ∃ s', exec (.thermalSample k q) s = .next s' ∧ (s'.cluster k).avfs.thermalCeiling = a.thermalCeiling - 1
          ∧ (s'.cluster k).avfs.reading = q ∧ (∀ i, i ≠ k.val → s'.cluster i = s.cluster i) ∧ (s'.field f).state = (s.field f).state
          ∧ (s'.field f).throttleEvents
              = (if a.thermalCeiling = 64 then min 0xFFFFFFFF ((s.field f).throttleEvents + 1) else (s.field f).throttleEvents))
      ∧ (q < 368 → a.lastRise + 1000 ≤ s.nowUs → a.thermalCeiling < 64 →
        ∃ s', exec (.thermalSample k q) s = .next s' ∧ (s'.cluster k).avfs.thermalCeiling = a.thermalCeiling + 1 ∧ s'.fields = s.fields)
      ∧ (368 ≤ q → q < 380 →
        ∃ s', exec (.thermalSample k q) s = .next s' ∧ (s'.cluster k).avfs.thermalCeiling = a.thermalCeiling ∧ s'.fields = s.fields)
      ∧ (440 ≤ q → 1 ≤ a.hot → (s.field f).state = .running →
        ∃ s', exec (.thermalSample k q) s = .next s' ∧ (s'.field f).state = .shutdown ∧ (s'.field f).fenced = true
          ∧ (s'.field f).power = .off ∧ (∀ i ∈ fieldClusters f, (s'.cluster i).awake = false) ∧ alertBit s' 2 = true))
  ∧ (∀ (f : Fin 70) (s : State), poweredUp s = true → (s.field f).power = .good → (s.field f).state = .running →
      ∃ s', exec (.vpmFault f) s = .next s' ∧ (s'.field f).state = .vpmFault ∧ (s'.field f).fenced = true ∧ (s'.field f).power = .off
        ∧ alertBit s' 2 = true ∧ (∀ g : Fin 70, g ≠ f → s'.field g = s.field g))
  ∧ (∀ (i o : Int) (fl : Nat) (s : State), s.casing.standby = true →
      ((fl < 270 ∨ 340 < i) → 9 ≤ s.casing.badSamples → 150 ≤ fl →
        ∃ s', exec (.coolantSample i o fl) s = .next s' ∧ s'.casing.coolantWarn = true ∧ s'.casing.coolantCeiling = 20
          ∧ s' = { s with casing := s'.casing })
      ∧ (270 ≤ fl → i ≤ 340 → 99 ≤ s.casing.clearSamples →
        ∃ s', exec (.coolantSample i o fl) s = .next s' ∧ s'.casing.coolantWarn = false ∧ s'.casing.coolantCeiling = 64
          ∧ s' = { s with casing := s'.casing })
      ∧ (poweredUp s = true → fl < 150 → 9 ≤ s.casing.lowFlowSamples →
        ∃ s', exec (.coolantSample i o fl) s = .next s' ∧ ∀ f : Fin 70, (s.field f).power = .good → (s.field f).state = .running →
          (s'.field f).state = .shutdown ∧ (s'.field f).fenced = true ∧ (s'.field f).power = .off))

/-- For an awake cluster whose last adjustment lies 10 µs back, the voltage falls by 5 mV with slack on all monitors and rises by 5 mV
otherwise, from 580 to 900 mV, and the field's rail follows. A lower ceiling takes effect at once, a higher one when the rail covers its
voltage. The trim follows the sign of a window's error. A cluster without its reference is in holdover until it takes a locked neighbour as
parent. A measurement of 3.0 % or more sets WEAR. A refresh takes a snapshot. -/
def Obligations.VoltagesStepsAndReference : Prop :=
  (∀ (k : Fin 1680) (sl : List Bool) (s : State), (s.cluster k).awake = true →
      (adjustDue (s.cluster k).avfs s.nowUs = true →
        ∃ s', exec (.avfsAdjust k sl) s = .next s' ∧ (s'.field (fieldOfLogical k)).railMv = railFor s' (fieldOfLogical k)
          ∧ ((∀ b ∈ sl, b = true) → (s'.cluster k).avfs.millivolts = max 580 ((s.cluster k).avfs.millivolts - 5))
          ∧ (false ∈ sl → (s'.cluster k).avfs.millivolts = min 900 ((s.cluster k).avfs.millivolts + 5))
          ∧ (s'.cluster k).avfs.step = (s.cluster k).avfs.step ∧ (∀ i, i ≠ k.val → s'.cluster i = s.cluster i) ∧ s'.mem = s.mem)
      ∧ (adjustDue (s.cluster k).avfs s.nowUs = false → exec (.avfsAdjust k sl) s = .next s))
  ∧ (∀ (k : Fin 1680) (s : State), usable s k = true → (s.cluster k).awake = true →
      (clusterCeiling s k ≤ (s.cluster k).avfs.step →
        ∃ s', exec (.stepChange k) s = .next s' ∧ (s'.cluster k).avfs.step = clusterCeiling s k ∧ s'.fields = s.fields)
      ∧ ((s.cluster k).avfs.step < clusterCeiling s k →
        stepVoltage (s.cluster k).avfs (clusterCeiling s k) + 30 ≤ (s.field (fieldOfLogical k)).railMv →
        ∃ s', exec (.stepChange k) s = .next s' ∧ (s'.cluster k).avfs.step = clusterCeiling s k
          ∧ (s'.cluster k).avfs.millivolts = stepVoltage (s.cluster k).avfs (clusterCeiling s k))
      ∧ ((s.cluster k).avfs.step < clusterCeiling s k →
        (s.field (fieldOfLogical k)).railMv < stepVoltage (s.cluster k).avfs (clusterCeiling s k) + 30 →
        ∃ s', exec (.stepChange k) s = .next s' ∧ (s'.cluster k).avfs.step = (s.cluster k).avfs.step
          ∧ stepVoltage (s.cluster k).avfs (clusterCeiling s k) + 30 ≤ (s'.field (fieldOfLogical k)).railMv))
  ∧ (∀ (k : Fin 1680) (n : Nat) (s : State), (s.field (fieldOfLogical k)).power = .good → (s.cluster k).avfs.refLost = false →
      let want := 22528 + 512 * (s.cluster k).avfs.step
      ∃ s', exec (.fllWindow k n) s = .next s'
        ∧ (want < 10 * n → (s'.cluster k).avfs.trim = (s.cluster k).avfs.trim - 1)
        ∧ (10 * n < want → (s'.cluster k).avfs.trim = (s.cluster k).avfs.trim + 1)
        ∧ (10 * n = want → s'.cluster k = s.cluster k) ∧ (∀ i, i ≠ k.val → s'.cluster i = s.cluster i) ∧ s'.mem = s.mem)
  ∧ (∀ (q : Fin 2100) (s : State), (s.phys q).locked = true →
      ∃ s', exec (.referenceLoss q) s = .next s' ∧ (s'.phys q).holdover = true ∧ (∀ r, r ≠ q.val → s'.phys r = s.phys r)
        ∧ (∀ k, logicalOf s q = some k → (s'.cluster k).avfs.refLost = true) ∧ s'.mem = s.mem)
  ∧ (∀ (q : Fin 2100) (p : Nat) (s : State), firmwareRuns s = true → (s.phys q).holdover = true → newParents s q = [p] →
      (∀ r, below s q 64 r = true → r ≠ q.val) →
      ∃ s', exec (.clusterReparent q) s = .next s' ∧ (s'.phys q).holdover = false ∧ (s'.phys q).parent = some (.cluster p)
        ∧ (s'.phys q).depth = (s.phys p).depth + 1 ∧ (∀ k, logicalOf s q = some k → (s'.cluster k).avfs.refLost = false))
  ∧ (∀ (k : Fin 1680) (d : Nat) (s : State), firmwareRuns s = true → usable s k = true → (s.cluster k).awake = true →
      ∃ s', exec (.agingMeasure k d) s = .next s' ∧ (s'.cluster k).avfs.agingD = d
        ∧ (30 ≤ d → physOf s k ∉ s.silicon.wear → (s'.cluster k).avfs.wear = true ∧ physOf s k ∈ s'.silicon.wear
            ∧ (s'.sys.stores = s.sys.stores ++ [.ledger] ∨ s'.sys.ledgerFull = true))
        ∧ (d < 30 → s'.silicon = s.silicon ∧ s'.sys = s.sys))
  ∧ (∀ s : State, firmwareRuns s = true →
      ∃ s', exec .telemetryRefresh s = .next s' ∧ s'.sys.sample = min 0xFFFFFFFF (s.sys.sample + 1)
        ∧ s'.sys.snapshot = telemetryRecord { s with sys := { s.sys with sample := s'.sys.sample } } ∧ s' = { s with sys := s'.sys })

/-- On a powered rim whose training has ended: a refresh records the temperature, halves tREFI above 85 °C and the command rate above 95 °C; an
on-die scrub count is kept to 65,535. A patrol scrub of a line counts a correction at its channel and marks an uncorrectable line, and
changes no DDR byte. Training ends once for each rim before step 8 is over; a rim is online when none of its channels failed. -/
def Obligations.DdrKeptAndTrained : Prop :=
  (∀ (ch : Fin 24) (d : Int) (n : Nat) (s : State), rimOn s (ch.val / 6) = true → (s.rim (ch.val / 6)).trained = true →
      (∃ s', exec (.ddrRefresh ch d) s = .next s' ∧ (s'.channel ch).deviceC = d ∧ (s'.channel ch).trefi = (if 85 < d then 1950 else 3900)
        ∧ (s'.channel ch).halved = decide (95 < d) ∧ (∀ i, i ≠ ch.val → s'.channel i = s.channel i)
        ∧ s' = { s with channels := s'.channels })
      ∧ (∃ s', exec (.ondieScrubRead ch n) s = .next s' ∧ (s'.channel ch).scrubErrors = min 0xFFFF n
        ∧ (s'.channel ch).corrected = (s.channel ch).corrected ∧ s' = { s with channels := s'.channels }))
  ∧ (∀ (l : Nat) (s : State), poweredUp s = true → l < granules s * 2 ^ 24 →
      exec (.patrolScrub l .clean) s = .next s
      ∧ (∃ s', exec (.patrolScrub l .corrected) s = .next s'
          ∧ (s'.channel (channelOfOffset s (l * 64))).corrected = min 0xFFFFFFFF ((s.channel (channelOfOffset s (l * 64))).corrected + 1)
          ∧ s'.mem = s.mem ∧ s'.rims = s.rims)
      ∧ (∃ s', exec (.patrolScrub l .uncorrectable) s = .next s' ∧ (∀ x, x ∈ s'.mem.poisoned ↔ (x = l ∨ x ∈ s.mem.poisoned))
          ∧ s'.mem.ddr = s.mem.ddr ∧ s'.channels = s.channels))
  ∧ (∀ (r : Fin 4) (ds : List (Option Dimm)) (s : State), rimOn s r = true → (s.rim r).trained = false → stepDone s 8 = false →
      ∃ s', exec (.ddrTraining r ds) s = .next s' ∧ (s'.rim r).trained = true ∧ (s'.rim r).dimms = ds ∧ (s'.rim r).power = .good
        ∧ (∀ q : Fin 4, (s'.rim q).trained = true → ((s'.rim q).online = true ↔ (s'.rim q).failedChannels = []))
        ∧ (∀ q : Fin 4, q ≠ r → (s.rim q).trained = false → s'.rim q = s.rim q)
        ∧ exec (.ddrTraining r ds) s' = .next s' ∧ s'.mem = s.mem ∧ s'.tenants = s.tenants)

/-- On a powered wafer each read of the target answers its register and changes nothing; a write in range sets its register and nothing else; a
limit outside 100 to 450 A, a ceiling above 64, a field above 69, a telemetry page above 66 and an unknown command are NACKed and change
nothing. Page 0 latches the snapshot, of which a read gives the page's 128 bytes. While the wafer is off nobody acknowledges. -/
def Obligations.PmbusTargetAnswers : Prop :=
  (∀ s : State, poweredUp s = true →
      exec .statusWord s = .next (s.emit (.pmbusStatus s.casing.overvoltageBit (decide (s.casing.ilimitCeiling < 64))
        (anyThrottled s || s.casing.coolantWarn)))
      ∧ exec (.iinOcWarnLimit none) s = .next (s.emit (.pmbusData s.casing.iLimit))
      ∧ exec .readVin s = .next (s.emit (.pmbusData s.casing.vinMv))
      ∧ exec .readIin s = .next (s.emit (.pmbusData s.casing.iinDa))
      ∧ exec .readPin s = .next (s.emit (.pmbusData (s.casing.vinMv * s.casing.iinDa / 10000)))
      ∧ exec .readTemperature1 s = .next (s.emit (.pmbusData (unsignedOf 16 (hottest s))))
      ∧ exec (.mfrPolicyCeiling none) s = .next (s.emit (.pmbusData s.casing.policyCeiling))
      ∧ exec (.mfrFieldCeiling none) s = .next (s.emit (.pmbusBlock
          [BitVec.ofNat 8 s.casing.selectedField, BitVec.ofNat 8 (s.field s.casing.selectedField).ceiling]))
      ∧ (∃ bs, exec .mfrTelemetryRead s = .next (s.emit (.pmbusBlock bs)) ∧ bs.length = 128
          ∧ ∀ i, i < 128 → bs.getD i 0 = s.casing.teleLatch.getD (128 * s.casing.telePage + i) 0)
      ∧ (∀ v, 100 ≤ v → v ≤ 450 → exec (.iinOcWarnLimit (some v)) s = .next { s with casing := { s.casing with iLimit := v } })
      ∧ (∀ v, v ≤ 64 → exec (.mfrPolicyCeiling (some v)) s = .next { s with casing := { s.casing with policyCeiling := v } })
      ∧ (∀ f v, f < 70 → v ≤ 64 → ∃ s', exec (.mfrFieldCeiling (some (f, v))) s = .next s' ∧ (s'.field f).ceiling = v
          ∧ s'.casing = { s.casing with selectedField := f } ∧ (∀ g, g ≠ f → s'.field g = s.field g)
          ∧ s' = { s with fields := s'.fields, casing := s'.casing })
      ∧ (exec (.mfrTelemetryPage 0) s = .next { s with casing := { s.casing with telePage := 0, teleLatch := telemetryNow s } })
      ∧ (∀ n, 1 ≤ n → n ≤ 66 → exec (.mfrTelemetryPage n) s = .next { s with casing := { s.casing with telePage := n } })
      ∧ (∀ c : Instr, ((∃ v, (v < 100 ∨ 450 < v) ∧ c = .iinOcWarnLimit (some v)) ∨ (∃ v, 64 < v ∧ c = .mfrPolicyCeiling (some v))
          ∨ (∃ f v, (70 ≤ f ∨ 64 < v) ∧ c = .mfrFieldCeiling (some (f, v))) ∨ (∃ n, 66 < n ∧ c = .mfrTelemetryPage n)
          ∨ (∃ b, b ∉ pmbusCodes ∧ c = .pmbusUnsupported b)) → exec c s = .next (s.emit .pmbusNack)))
  ∧ (∀ (c : Instr) (s : State), poweredUp s = false →
      (c = .statusWord ∨ c = .readVin ∨ c = .readIin ∨ c = .readPin ∨ c = .readTemperature1 ∨ c = .mfrTelemetryRead
        ∨ (∃ w, c = .iinOcWarnLimit w) ∨ (∃ w, c = .mfrPolicyCeiling w) ∨ (∃ w, c = .mfrFieldCeiling w) ∨ (∃ n, c = .mfrTelemetryPage n)) →
      exec c s = .next (s.emit .pmbusNack))

/-- With the standby domain up: a client that may connect gets the lowest free of four sessions, and any other is refused; a session that
closes frees the lock. On an open session TELEMETRY, EEPROM_READ and STATUS_READ answer their bytes, and BAD_LENGTH to a payload; PMBUS of
READ_VIN and of a write of IIN_OC_WARN_LIMIT on the engine's target answers and sets it, DEVICE_ERROR to the read while the wafer is off;
NET_CONFIG and, in the window, TRUST_SET set what they name; an unknown command is answered BAD_CMD, TRUST_SET outside the window DENIED.
SERVICE held for 3 s opens the window for ten minutes; for 15 s it clears the anchors and the address. -/
def Obligations.AgentSessionsAndReads : Prop :=
  (∀ (cert : List Byte) (s : State), s.casing.standby = true →
      (∀ i : Fin 4, clientOk s cert = true → (s.agentSession i).openFlag = false → (∀ j : Fin 4, j < i → (s.agentSession j).openFlag = true) →
        ∃ s', exec (.agentConnect cert) s = .next s' ∧ s'.agentSession i = { openFlag := true, openedAt := s.nowUs }
          ∧ s'.out = .agentAccepted i :: s.out ∧ (∀ j, j ≠ i.val → s'.agentSession j = s.agentSession j))
      ∧ ((clientOk s cert = false ∨ (∀ j : Fin 4, (s.agentSession j).openFlag = true)) →
        exec (.agentConnect cert) s = .next (s.emit .agentRefused)))
  ∧ (∀ (i : Fin 4) (s : State),
      ∃ s', exec (.agentDisconnect i) s = .next s' ∧ (s'.agentSession i).openFlag = false ∧ s'.casing.lockHolder ≠ some i.val
        ∧ (∀ h, h ≠ i.val → s.casing.lockHolder = some h → s'.casing.lockHolder = some h) ∧ (∀ j, j ≠ i.val → s'.agentSession j = s.agentSession j)
        ∧ s' = { s with casing := s'.casing })
  ∧ (∀ (i : Fin 4) (tag : Word) (pl : List Byte) (s : State), Open s i →
      (exec (.telemetry i tag []) s = .next (s.emit (.agent i 2 tag 0 (telemetryNow s))))
      ∧ (exec (.eepromRead i tag []) s = .next (s.emit (.agent i 3 tag 0 (eepromRead s 0 256))))
      ∧ (exec (.statusRead i tag []) s = .next (s.emit (.agent i 4 tag 0
          (if s.casing.hold = true ∨ poweredUp s = false then zeros 56 else globalPage s))))
      ∧ (pl ≠ [] → ∀ (c : Instr) (cmd : Nat),
          ((c = .telemetry i tag pl ∧ cmd = 2) ∨ (c = .eepromRead i tag pl ∧ cmd = 3) ∨ (c = .statusRead i tag pl ∧ cmd = 4)) →
          exec c s = .next (s.emit (.agent i cmd tag 2 [])))
      ∧ (poweredUp s = true → exec (.pmbus i tag [0x40, 0x88, 1, 0]) s = .next (s.emit (.agent i 1 tag 0 (leBytes 2 s.casing.vinMv))))
      ∧ (poweredUp s = false → exec (.pmbus i tag [0x40, 0x88, 1, 0]) s = .next (s.emit (.agent i 1 tag 5 [])))
      ∧ (∀ v, poweredUp s = true → 100 ≤ v → v ≤ 450 → exec (.pmbus i tag ([0x40, 0x5D, 0, 2] ++ leBytes 2 v)) s
          = .next (({ s with casing := { s.casing with iLimit := v } } : State).emit (.agent i 1 tag 0 [])))
      ∧ (exec (.netConfig i tag (1 :: pl)) s
          = .next (({ s with casing := { s.casing with netStatic := some pl } } : State).emit (.agent i 11 tag 0 [])))
      ∧ (exec (.netConfig i tag (0 :: pl)) s
          = .next (({ s with casing := { s.casing with netStatic := none } } : State).emit (.agent i 11 tag 0 [])))
      ∧ (∀ b : Byte, b.toNat ≤ 3 → pl ≠ [] →
          (mayTrust s i = true → exec (.trustSet i tag (b :: pl)) s
            = .next (({ s with casing := { s.casing with anchors := tset [] s.casing.anchors b.toNat pl } } : State).emit (.agent i 12 tag 0 [])))
          ∧ (mayTrust s i = false → exec (.trustSet i tag (b :: pl)) s = .next (s.emit (.agent i 12 tag 3 []))))
      ∧ (∀ code : BitVec 16, (code = 0 ∨ 0x0C < code.toNat) → exec (.badCmd i tag code) s = .next (s.emit (.agent i code.toNat tag 1 []))))
  ∧ (∀ s : State, s.casing.standby = true →
      exec .serviceHold3s s = .next { s with casing := { s.casing with windowAt := some s.nowUs } }
      ∧ exec .serviceHold15s s = .next { s with casing := { s.casing with anchors := [], netStatic := none } })
  ∧ (∀ (w : Nat) (s : State), s.casing.windowAt = some w →
      (w + 600000000 ≤ s.nowUs → exec .trustWindowExpiry s = .next { s with casing := { s.casing with windowAt := none } })
      ∧ (s.nowUs < w + 600000000 → exec .trustWindowExpiry s = .next s))

/-- On an open session that has the control lock or can take it: POWER OFF powers a wafer down and latches; POWER ON clears latch and HOLD and
powers it on; POWER CYCLE is OFF and, 2 s later, ON. HOLD stops the engine, its release restarts it. In HOLD, FLASH_READ answers bytes,
FLASH_ERASE and FLASH_PROGRAM within the firmware areas change the bytes they name and no others; FLASH_ERASE is DENIED elsewhere or
without HOLD. While another session holds the lock each is answered BUSY. FABRIC_CONFIG is BUSY unless READY, else its record is stored,
and answered when the store ends; until then a later request of the session is not answered. -/
def Obligations.AgentControlsPowerAndStores : Prop :=
  (∀ (i : Fin 4) (tag : Word) (s : State), Open s i → MayLock s i →
      (s.casing.powered = true →
        (∃ s', exec (.powerOff i tag [0]) s = .next s' ∧ PoweredOff s s' ∧ s'.casing.powerOffLatch = true ∧ s'.casing.lockHolder = some i.val)
        ∧ (∃ s', exec (.powerCycle i tag [2]) s = .next s' ∧ PoweredOff s s' ∧ s'.casing.cycleAt = some s.nowUs))
      ∧ (s.casing.powered = false → s.casing.enablePin = true → s.casing.bankAbove = true → s.casing.overvoltageOff = false →
        ∃ s', exec (.powerOn i tag [1]) s = .next s' ∧ s'.casing.powered = true ∧ s'.casing.powerOffLatch = false ∧ s'.casing.hold = false
          ∧ Answered s s' i 6 tag 0 [] ∧ s'.mem = s.mem)
      ∧ (s.casing.hold = false → poweredUp s = true →
        ∃ s', exec (.holdAssert i tag [1]) s = .next s' ∧ s'.casing.hold = true ∧ s'.sys.state = 2 ∧ alertBit s' 4 = true
          ∧ s'.tenants = s.tenants ∧ s'.mem = s.mem)
      ∧ (s.casing.hold = true →
        (poweredUp s = true →
          ∃ s', exec (.holdRelease i tag [0]) s = .next s' ∧ s'.casing.hold = false ∧ s'.sys.state = 0 ∧ s'.tenants = [] ∧ s'.work = {}
            ∧ s'.sys.alertStatus = s.sys.alertStatus ∧ s'.ports = s.ports ∧ s'.mem.ddr = s.mem.ddr ∧ Answered s s' i 7 tag 0 [])
        ∧ (∀ off n, off < 2 ^ 32 → n ≤ 65536 →
          ∃ s', exec (.flashRead i tag (leBytes 4 off ++ leBytes 4 n)) s = .next s' ∧ Answered s s' i 8 tag 0 (flashRead s off n)
            ∧ s'.mem = s.mem)
        ∧ (∀ off n, off % 4096 = 0 → n % 4096 = 0 → n ≠ 0 → off + n < 2 ^ 32 →
          (0x100000 ≤ off → off + n ≤ 0x900000 →
            ∃ s', exec (.flashErase i tag (leBytes 4 off ++ leBytes 4 n)) s = .next s' ∧ Answered s s' i 9 tag 0 []
              ∧ ∀ x, tget erasedByte s'.mem.flash x = if off ≤ x ∧ x < off + n then erasedByte else tget erasedByte s.mem.flash x)
          ∧ ((off < 0x100000 ∨ 0x900000 < off + n) →
            ∃ s', exec (.flashErase i tag (leBytes 4 off ++ leBytes 4 n)) s = .next s' ∧ Answered s s' i 9 tag 3 [] ∧ s'.mem = s.mem))
        ∧ (∀ off bs, off % 256 = 0 → 0x100000 ≤ off → off + bs.length ≤ 0x900000 → bs.length ≤ 65532 →
          flashBlank s off bs.length = true →
          ∃ s', exec (.flashProgram i tag (leBytes 4 off ++ bs)) s = .next s' ∧ Answered s s' i 10 tag 0 []
            ∧ flashRead s' off bs.length = bs ∧ ∀ x, x < off ∨ off + bs.length ≤ x →
                tget erasedByte s'.mem.flash x = tget erasedByte s.mem.flash x))
      ∧ (s.casing.hold = false → ∀ off n, off % 4096 = 0 → n % 4096 = 0 → off + n < 2 ^ 32 →
          ∃ s', exec (.flashErase i tag (leBytes 4 off ++ leBytes 4 n)) s = .next s' ∧ Answered s s' i 9 tag 3 [] ∧ s'.mem = s.mem))
  ∧ (∀ (i : Fin 4) (h cmd : Nat) (tag : Word) (pl : List Byte) (c : Instr) (s : State), Open s i → s.casing.lockHolder = some h → h ≠ i.val →
      ((cmd = 6 ∧ (c = .powerOff i tag pl ∨ c = .powerOn i tag pl ∨ c = .powerCycle i tag pl))
        ∨ (cmd = 7 ∧ (c = .holdAssert i tag pl ∨ c = .holdRelease i tag pl))
        ∨ (cmd = 8 ∧ c = .flashRead i tag pl) ∨ (cmd = 9 ∧ c = .flashErase i tag pl) ∨ (cmd = 10 ∧ c = .flashProgram i tag pl)) →
      exec c s = .next (s.emit (.agent i cmd tag 4 [])))
  ∧ (∀ (t0 : Nat) (s : State), s.casing.cycleAt = some t0 →
      (t0 + 2000000 ≤ s.nowUs → s.casing.powered = false → s.casing.standby = true → s.casing.enablePin = true → s.casing.bankAbove = true →
        s.casing.overvoltageOff = false → ∃ s', exec .powerCycleResume s = .next s' ∧ s'.casing.powered = true ∧ s'.casing.cycleAt = none)
      ∧ (s.nowUs < t0 + 2000000 → exec .powerCycleResume s = .next s))
  ∧ (∀ (i : Fin 4) (tag : Word) (record : List Byte) (s : State), record.length = 32 → Open s i →
      (ready s = true →
        ∃ s', exec (.fabricConfig i tag record) s = .next s' ∧ s'.sys.stores = s.sys.stores ++ [.fabricConfig i tag.toNat record]
          ∧ s'.out = s.out ∧ (s'.agentSession i).answers = [{ cmd := 5, tag := tag.toNat }]
          ∧ s' = { s with sys := { s.sys with stores := s'.sys.stores }, casing := { s.casing with sessions := s'.casing.sessions } }
          ∧ exec (.eepromRead i tag []) s' = .next (s'.setAgentSession i { s'.agentSession i with
              answers := [{ cmd := 5, tag := tag.toNat }, { cmd := 3, tag := tag.toNat, result := some (0, eepromRead s' 0 256) }] }))
      ∧ (ready s = false → exec (.fabricConfig i tag record) s = .next (s.emit (.agent i 5 tag 4 []))))
  ∧ (∀ (i : Nat) (tag : Word) (record : List Byte) (rest : List Store) (s : State), record.length = 32 → firmwareRuns s = true →
      s.sys.stores = .fabricConfig i tag.toNat record :: rest → (s.agentSession i).answers = [{ cmd := 5, tag := tag.toNat }] →
      (∃ s', exec (.fabricConfigStore true) s = .next s' ∧ s'.sys.stores = rest ∧ flashRead s' 0x18000 32 = record ∧ Answered s s' i 5 tag 0 []
        ∧ ∀ x, x < 0x18000 ∨ 0x19000 ≤ x → tget erasedByte s'.mem.flash x = tget erasedByte s.mem.flash x)
      ∧ (∃ s', exec (.fabricConfigStore false) s = .next s' ∧ s'.sys.stores = rest ∧ s'.sys.storeFailed = true ∧ Answered s s' i 5 tag 5 []
        ∧ ∀ x, x < 0x18000 ∨ 0x19000 ≤ x → tget erasedByte s'.mem.flash x = tget erasedByte s.mem.flash x))

/-- On the TAP of one rim: TEST_LOGIC_RESET and IDCODE select IDCODE, and IDCODE shifts out 1, the manufacturer, the part number of the rim and
the stepping; EXTEST takes the pins and drives them, SAMPLE_PRELOAD takes the pins, CLAMP drives, HIGHZ floats, and every other opcode
selects BYPASS. No other TAP and no other part of the state changes but the output. -/
def Obligations.TapsSelectInstructions : Prop :=
  ∀ (r : Fin 4) (pins : List Bool) (op : Byte) (s : State),
    let quiet := fun (o : Byte) (b : List Bool) (d f : Bool) => ({ instruction := o, boundary := b, drives := d, floats := f } : Tap)
    let old := (s.tap r).boundary
    ∀ (c : Instr) (x : Tap), ((c = .testLogicReset r ∧ x = quiet 1 old false false) ∨ (c = .idcode r ∧ x = quiet 1 old false false)
        ∨ (c = .extest r pins ∧ x = quiet 0 pins true false) ∨ (c = .samplePreload r pins ∧ x = quiet 2 pins false false)
        ∨ (c = .clamp r ∧ x = quiet 3 old true false) ∨ (c = .highz r ∧ x = quiet 4 old false true)
        ∨ (c = .bypass r op ∧ 4 < op.toNat ∧ x = quiet op old false false)) →
      ∃ s', exec c s = .next s' ∧ s'.tap r = x ∧ (∀ q, q ≠ r.val → s'.tap q = s.tap q) ∧ s' = { s with taps := s'.taps, out := s'.out }
        ∧ (c = .idcode r → ∃ rest v, s'.out = .idcode r v :: rest ∧ v.getLsbD 0 = true ∧ v.extractLsb' 1 11 = Config.jep106
            ∧ v.extractLsb' 12 16 = BitVec.ofNat 16 (0x7070 + r.val) ∧ v.extractLsb' 28 4 = 1)
end

