-- ==== Sys2Proof/Laws/Tables.lean ====
section
/-!
SUPPORT. Sys2Proof/Laws/Tables.lean: reading after writing in a sparse table or a byte memory, and the canonical form that every operation
over memory keeps.
-/

namespace Sys2Proof.Machine

variable {α : Type}

theorem tget_tins_same (d v : α) (k : Nat) (m : Tab α) (h : ∀ e ∈ m, e.1 ≠ k) : tget d (tins k v m) k = v := by
  induction m with
  | nil => simp [tins, tget]
  | cons e rest ih =>
    simp only [tins]
    split
    · simp [tget]
    · have he : e.1 ≠ k := h e (by simp)
      simp only [tget, if_neg he]
      exact ih (fun x hx => h x (by simp [hx]))

theorem tget_tins_other (d v : α) (k j : Nat) (m : Tab α) (h : j ≠ k) : tget d (tins k v m) j = tget d m j := by
  induction m with
  | nil => simp [tins, tget, h.symm]
  | cons e rest ih =>
    simp only [tins]
    split
    · simp [tget, h.symm]
    · simp only [tget, ih]

theorem tget_filter_same (d : α) (k : Nat) (m : Tab α) : tget d (m.filter (fun e => e.1 ≠ k)) k = d := by
  induction m with
  | nil => rfl
  | cons e rest ih =>
    by_cases he : e.1 = k
    · simpa [List.filter_cons, he] using ih
    · simp only [List.filter_cons, he, ne_eq, not_false_eq_true, decide_true, if_true, tget, if_false]
      exact ih

theorem tget_filter_other (d : α) (k j : Nat) (m : Tab α) (h : j ≠ k) :
    tget d (m.filter (fun e => e.1 ≠ k)) j = tget d m j := by
  induction m with
  | nil => rfl
  | cons e rest ih =>
    by_cases he : e.1 = k
    · have hj : ¬ e.1 = j := fun hh => h (hh ▸ he)
      simp only [List.filter_cons, he, ne_eq, not_true_eq_false, decide_false, tget, Bool.false_eq_true, if_false]
      rw [if_neg (fun hh => h hh.symm)]
      exact ih
    · simp only [List.filter_cons, he, ne_eq, not_false_eq_true, decide_true, if_true, tget]
      rw [ih]

/-- A key reads as what was written to it. -/
@[simp] theorem tget_tset_same [DecidableEq α] (d v : α) (k : Nat) (m : Tab α) : tget d (tset d m k v) k = v := by
  unfold tset
  split
  · next h => rw [tget_filter_same, h]
  · exact tget_tins_same d v k _ (by intro e he; simpa using (List.mem_filter.mp he).2)

/-- A write to one key leaves every other key alone, whatever the default it is read with. -/
theorem tget_tset_default [DecidableEq α] (d d' v : α) (k j : Nat) (m : Tab α) (h : j ≠ k) : tget d' (tset d m k v) j = tget d' m j := by
  unfold tset
  split
  · exact tget_filter_other d' k j m h
  · rw [tget_tins_other d' v k j _ h, tget_filter_other d' k j m h]

/-- A write to one key leaves every other key alone. -/
theorem tget_tset_other [DecidableEq α] (d v : α) (k j : Nat) (m : Tab α) (h : j ≠ k) : tget d (tset d m k v) j = tget d m j :=
  tget_tset_default d d v k j m h

/-! ## The canonical form -/

theorem Tab.wf_cons [DecidableEq α] (d : α) (e : Nat × α) (rest : Tab α) :
    Tab.wf d (e :: rest) = true ↔ e.2 ≠ d ∧ (∀ x ∈ rest, e.1 < x.1) ∧ Tab.wf d rest = true := by
  simp [Tab.wf, and_assoc]

/-- Dropping entries keeps the form. -/
theorem Tab.wf_filter [DecidableEq α] (d : α) (p : Nat × α → Bool) (m : Tab α) (h : Tab.wf d m = true) : Tab.wf d (m.filter p) = true := by
  induction m with
  | nil => rfl
  | cons e rest ih =>
    obtain ⟨h1, h2, h3⟩ := (Tab.wf_cons d e rest).mp h
    rw [List.filter_cons]
    split
    · exact (Tab.wf_cons d e _).mpr ⟨h1, fun x hx => h2 x (List.mem_filter.mp hx).1, ih h3⟩
    · exact ih h3

theorem mem_tins (k : Nat) (v : α) (m : Tab α) (x : Nat × α) (hx : x ∈ tins k v m) : x = (k, v) ∨ x ∈ m := by
  induction m with
  | nil => simpa [tins] using hx
  | cons e rest ih =>
    simp only [tins] at hx
    split at hx
    · simpa using hx
    · rcases List.mem_cons.mp hx with h | h
      · exact .inr (by simp [h])
      · rcases ih h with h | h
        · exact .inl h
        · exact .inr (by simp [h])

/-- Inserting a key that is not listed keeps the form. -/
theorem Tab.wf_tins [DecidableEq α] (d v : α) (k : Nat) (m : Tab α) (hv : v ≠ d) (hk : ∀ e ∈ m, e.1 ≠ k) (h : Tab.wf d m = true) :
    Tab.wf d (tins k v m) = true := by
  induction m with
  | nil => simp [tins, Tab.wf, hv]
  | cons e rest ih =>
    obtain ⟨h1, h2, h3⟩ := (Tab.wf_cons d e rest).mp h
    simp only [tins]
    split
    · next hlt =>
      exact (Tab.wf_cons d _ _).mpr ⟨hv, fun x hx => by
        rcases List.mem_cons.mp hx with hx | hx
        · subst hx; exact hlt
        · exact Nat.lt_trans hlt (h2 x hx), h⟩
    · next hge =>
      refine (Tab.wf_cons d _ _).mpr ⟨h1, fun x hx => ?_, ih (fun x hx => hk x (by simp [hx])) h3⟩
      rcases mem_tins k v rest x hx with hx | hx
      · subst hx; have := hk e (by simp); simp only at *; omega
      · exact h2 x hx

/-- A write keeps the form. -/
theorem Tab.wf_tset [DecidableEq α] (d v : α) (k : Nat) (m : Tab α) (h : Tab.wf d m = true) : Tab.wf d (tset d m k v) = true := by
  unfold tset
  split
  · exact Tab.wf_filter d _ m h
  · next hv => exact Tab.wf_tins d v k _ hv (fun e he => by simpa using (List.mem_filter.mp he).2) (Tab.wf_filter d _ m h)

/-! ## Byte memories -/

theorem Memory.wf_tset (d b : Byte) (m : List Host.Cell) (a : Nat) (h : Memory.wf d m = true) : Memory.wf d (tset d m a b) = true :=
  Tab.wf_tset d b a m h

theorem Memory.wf_writeBytes (d : Byte) (bs : List Byte) (m : List Host.Cell) (a : Nat) (h : Memory.wf d m = true) :
    Memory.wf d (writeBytes d m a bs) = true := by
  induction bs generalizing m a with
  | nil => exact h
  | cons b rest ih => exact ih _ _ (Memory.wf_tset d b m a h)

theorem Memory.wf_clearRun (d : Byte) (m : List Host.Cell) (a n : Nat) (h : Memory.wf d m = true) :
    Memory.wf d (clearRun m a n) = true := Tab.wf_filter d _ m h

/-- A byte outside a written run reads as before. -/
theorem tget_writeBytes_other (d : Byte) (bs : List Byte) (m : List Host.Cell) (a x : Nat) (h : x < a ∨ a + bs.length ≤ x) :
    tget d (writeBytes d m a bs) x = tget d m x := by
  induction bs generalizing m a with
  | nil => rfl
  | cons b rest ih =>
    simp only [List.length_cons] at h
    rw [writeBytes, ih _ _ (by omega), tget_tset_other d b a x m (by omega)]

/-- A written byte reads as written. -/
theorem tget_writeBytes_inside (d : Byte) (bs : List Byte) (m : List Host.Cell) (a i : Nat) (h : i < bs.length) :
    tget d (writeBytes d m a bs) (a + i) = bs[i] := by
  induction bs generalizing m a i with
  | nil => simp at h
  | cons b rest ih =>
    cases i with
    | zero => rw [writeBytes, tget_writeBytes_other d rest _ _ _ (by omega)]; simp
    | succ i =>
      have := ih (tset d m a b) (a + 1) i (by simpa using h)
      rw [writeBytes, show a + (i + 1) = a + 1 + i by omega, this]; rfl

end Sys2Proof.Machine
end

