-- ==== Sys2Proof/Laws/State.lean ====
section
/-!
SUPPORT. Sys2Proof/Laws/State.lean: what each update of a part of the state leaves alone, one lemma per field, and reading a part after
writing it.
-/

namespace Sys2Proof.Machine

variable (s : State)

/-! ## setTenant -/

@[simp] theorem State.setTenant_pending (t : Nat) (x : Tenant) : (s.setTenant t x).pending = s.pending := (rfl)
@[simp] theorem State.setTenant_nowUs (t : Nat) (x : Tenant) : (s.setTenant t x).nowUs = s.nowUs := (rfl)
@[simp] theorem State.setTenant_freeCtr (t : Nat) (x : Tenant) : (s.setTenant t x).freeCtr = s.freeCtr := (rfl)
@[simp] theorem State.setTenant_out (t : Nat) (x : Tenant) : (s.setTenant t x).out = s.out := (rfl)
@[simp] theorem State.setTenant_casing (t : Nat) (x : Tenant) : (s.setTenant t x).casing = s.casing := (rfl)
@[simp] theorem State.setTenant_sys (t : Nat) (x : Tenant) : (s.setTenant t x).sys = s.sys := (rfl)
@[simp] theorem State.setTenant_silicon (t : Nat) (x : Tenant) : (s.setTenant t x).silicon = s.silicon := (rfl)
@[simp] theorem State.setTenant_fields (t : Nat) (x : Tenant) : (s.setTenant t x).fields = s.fields := (rfl)
@[simp] theorem State.setTenant_rims (t : Nat) (x : Tenant) : (s.setTenant t x).rims = s.rims := (rfl)
@[simp] theorem State.setTenant_channels (t : Nat) (x : Tenant) : (s.setTenant t x).channels = s.channels := (rfl)
@[simp] theorem State.setTenant_ports (t : Nat) (x : Tenant) : (s.setTenant t x).ports = s.ports := (rfl)
@[simp] theorem State.setTenant_work (t : Nat) (x : Tenant) : (s.setTenant t x).work = s.work := (rfl)
@[simp] theorem State.setTenant_clusters (t : Nat) (x : Tenant) : (s.setTenant t x).clusters = s.clusters := (rfl)
@[simp] theorem State.setTenant_fabric (t : Nat) (x : Tenant) : (s.setTenant t x).fabric = s.fabric := (rfl)
@[simp] theorem State.setTenant_taps (t : Nat) (x : Tenant) : (s.setTenant t x).taps = s.taps := (rfl)
@[simp] theorem State.setTenant_mem (t : Nat) (x : Tenant) : (s.setTenant t x).mem = s.mem := (rfl)

/-! ## setCluster -/

@[simp] theorem State.setCluster_pending (k : Nat) (x : Cluster) : (s.setCluster k x).pending = s.pending := (rfl)
@[simp] theorem State.setCluster_nowUs (k : Nat) (x : Cluster) : (s.setCluster k x).nowUs = s.nowUs := (rfl)
@[simp] theorem State.setCluster_freeCtr (k : Nat) (x : Cluster) : (s.setCluster k x).freeCtr = s.freeCtr := (rfl)
@[simp] theorem State.setCluster_out (k : Nat) (x : Cluster) : (s.setCluster k x).out = s.out := (rfl)
@[simp] theorem State.setCluster_casing (k : Nat) (x : Cluster) : (s.setCluster k x).casing = s.casing := (rfl)
@[simp] theorem State.setCluster_sys (k : Nat) (x : Cluster) : (s.setCluster k x).sys = s.sys := (rfl)
@[simp] theorem State.setCluster_silicon (k : Nat) (x : Cluster) : (s.setCluster k x).silicon = s.silicon := (rfl)
@[simp] theorem State.setCluster_fields (k : Nat) (x : Cluster) : (s.setCluster k x).fields = s.fields := (rfl)
@[simp] theorem State.setCluster_rims (k : Nat) (x : Cluster) : (s.setCluster k x).rims = s.rims := (rfl)
@[simp] theorem State.setCluster_channels (k : Nat) (x : Cluster) : (s.setCluster k x).channels = s.channels := (rfl)
@[simp] theorem State.setCluster_ports (k : Nat) (x : Cluster) : (s.setCluster k x).ports = s.ports := (rfl)
@[simp] theorem State.setCluster_tenants (k : Nat) (x : Cluster) : (s.setCluster k x).tenants = s.tenants := (rfl)
@[simp] theorem State.setCluster_work (k : Nat) (x : Cluster) : (s.setCluster k x).work = s.work := (rfl)
@[simp] theorem State.setCluster_fabric (k : Nat) (x : Cluster) : (s.setCluster k x).fabric = s.fabric := (rfl)
@[simp] theorem State.setCluster_taps (k : Nat) (x : Cluster) : (s.setCluster k x).taps = s.taps := (rfl)
@[simp] theorem State.setCluster_mem (k : Nat) (x : Cluster) : (s.setCluster k x).mem = s.mem := (rfl)
@[simp] theorem State.setCluster_mirror (k : Nat) (x : Cluster) : (s.setCluster k x).mirror = s.mirror := (rfl)

/-! ## setField -/

@[simp] theorem State.setField_pending (i : Nat) (x : Field) : (s.setField i x).pending = s.pending := (rfl)
@[simp] theorem State.setField_nowUs (i : Nat) (x : Field) : (s.setField i x).nowUs = s.nowUs := (rfl)
@[simp] theorem State.setField_freeCtr (i : Nat) (x : Field) : (s.setField i x).freeCtr = s.freeCtr := (rfl)
@[simp] theorem State.setField_out (i : Nat) (x : Field) : (s.setField i x).out = s.out := (rfl)
@[simp] theorem State.setField_casing (i : Nat) (x : Field) : (s.setField i x).casing = s.casing := (rfl)
@[simp] theorem State.setField_sys (i : Nat) (x : Field) : (s.setField i x).sys = s.sys := (rfl)
@[simp] theorem State.setField_silicon (i : Nat) (x : Field) : (s.setField i x).silicon = s.silicon := (rfl)
@[simp] theorem State.setField_rims (i : Nat) (x : Field) : (s.setField i x).rims = s.rims := (rfl)
@[simp] theorem State.setField_channels (i : Nat) (x : Field) : (s.setField i x).channels = s.channels := (rfl)
@[simp] theorem State.setField_ports (i : Nat) (x : Field) : (s.setField i x).ports = s.ports := (rfl)
@[simp] theorem State.setField_tenants (i : Nat) (x : Field) : (s.setField i x).tenants = s.tenants := (rfl)
@[simp] theorem State.setField_work (i : Nat) (x : Field) : (s.setField i x).work = s.work := (rfl)
@[simp] theorem State.setField_clusters (i : Nat) (x : Field) : (s.setField i x).clusters = s.clusters := (rfl)
@[simp] theorem State.setField_fabric (i : Nat) (x : Field) : (s.setField i x).fabric = s.fabric := (rfl)
@[simp] theorem State.setField_taps (i : Nat) (x : Field) : (s.setField i x).taps = s.taps := (rfl)
@[simp] theorem State.setField_mem (i : Nat) (x : Field) : (s.setField i x).mem = s.mem := (rfl)
@[simp] theorem State.setField_mirror (i : Nat) (x : Field) : (s.setField i x).mirror = s.mirror := (rfl)

/-! ## setRim -/

@[simp] theorem State.setRim_pending (i : Nat) (x : Rim) : (s.setRim i x).pending = s.pending := (rfl)
@[simp] theorem State.setRim_nowUs (i : Nat) (x : Rim) : (s.setRim i x).nowUs = s.nowUs := (rfl)
@[simp] theorem State.setRim_freeCtr (i : Nat) (x : Rim) : (s.setRim i x).freeCtr = s.freeCtr := (rfl)
@[simp] theorem State.setRim_out (i : Nat) (x : Rim) : (s.setRim i x).out = s.out := (rfl)
@[simp] theorem State.setRim_casing (i : Nat) (x : Rim) : (s.setRim i x).casing = s.casing := (rfl)
@[simp] theorem State.setRim_sys (i : Nat) (x : Rim) : (s.setRim i x).sys = s.sys := (rfl)
@[simp] theorem State.setRim_silicon (i : Nat) (x : Rim) : (s.setRim i x).silicon = s.silicon := (rfl)
@[simp] theorem State.setRim_fields (i : Nat) (x : Rim) : (s.setRim i x).fields = s.fields := (rfl)
@[simp] theorem State.setRim_channels (i : Nat) (x : Rim) : (s.setRim i x).channels = s.channels := (rfl)
@[simp] theorem State.setRim_ports (i : Nat) (x : Rim) : (s.setRim i x).ports = s.ports := (rfl)
@[simp] theorem State.setRim_tenants (i : Nat) (x : Rim) : (s.setRim i x).tenants = s.tenants := (rfl)
@[simp] theorem State.setRim_work (i : Nat) (x : Rim) : (s.setRim i x).work = s.work := (rfl)
@[simp] theorem State.setRim_clusters (i : Nat) (x : Rim) : (s.setRim i x).clusters = s.clusters := (rfl)
@[simp] theorem State.setRim_fabric (i : Nat) (x : Rim) : (s.setRim i x).fabric = s.fabric := (rfl)
@[simp] theorem State.setRim_taps (i : Nat) (x : Rim) : (s.setRim i x).taps = s.taps := (rfl)
@[simp] theorem State.setRim_mem (i : Nat) (x : Rim) : (s.setRim i x).mem = s.mem := (rfl)
@[simp] theorem State.setRim_mirror (i : Nat) (x : Rim) : (s.setRim i x).mirror = s.mirror := (rfl)

/-! ## setChannel -/

@[simp] theorem State.setChannel_pending (i : Nat) (x : Channel) : (s.setChannel i x).pending = s.pending := (rfl)
@[simp] theorem State.setChannel_nowUs (i : Nat) (x : Channel) : (s.setChannel i x).nowUs = s.nowUs := (rfl)
@[simp] theorem State.setChannel_freeCtr (i : Nat) (x : Channel) : (s.setChannel i x).freeCtr = s.freeCtr := (rfl)
@[simp] theorem State.setChannel_out (i : Nat) (x : Channel) : (s.setChannel i x).out = s.out := (rfl)
@[simp] theorem State.setChannel_casing (i : Nat) (x : Channel) : (s.setChannel i x).casing = s.casing := (rfl)
@[simp] theorem State.setChannel_sys (i : Nat) (x : Channel) : (s.setChannel i x).sys = s.sys := (rfl)
@[simp] theorem State.setChannel_silicon (i : Nat) (x : Channel) : (s.setChannel i x).silicon = s.silicon := (rfl)
@[simp] theorem State.setChannel_fields (i : Nat) (x : Channel) : (s.setChannel i x).fields = s.fields := (rfl)
@[simp] theorem State.setChannel_rims (i : Nat) (x : Channel) : (s.setChannel i x).rims = s.rims := (rfl)
@[simp] theorem State.setChannel_ports (i : Nat) (x : Channel) : (s.setChannel i x).ports = s.ports := (rfl)
@[simp] theorem State.setChannel_tenants (i : Nat) (x : Channel) : (s.setChannel i x).tenants = s.tenants := (rfl)
@[simp] theorem State.setChannel_work (i : Nat) (x : Channel) : (s.setChannel i x).work = s.work := (rfl)
@[simp] theorem State.setChannel_clusters (i : Nat) (x : Channel) : (s.setChannel i x).clusters = s.clusters := (rfl)
@[simp] theorem State.setChannel_fabric (i : Nat) (x : Channel) : (s.setChannel i x).fabric = s.fabric := (rfl)
@[simp] theorem State.setChannel_taps (i : Nat) (x : Channel) : (s.setChannel i x).taps = s.taps := (rfl)
@[simp] theorem State.setChannel_mem (i : Nat) (x : Channel) : (s.setChannel i x).mem = s.mem := (rfl)
@[simp] theorem State.setChannel_mirror (i : Nat) (x : Channel) : (s.setChannel i x).mirror = s.mirror := (rfl)

/-! ## setPort -/

@[simp] theorem State.setPort_pending (i : Nat) (x : Port) : (s.setPort i x).pending = s.pending := (rfl)
@[simp] theorem State.setPort_nowUs (i : Nat) (x : Port) : (s.setPort i x).nowUs = s.nowUs := (rfl)
@[simp] theorem State.setPort_freeCtr (i : Nat) (x : Port) : (s.setPort i x).freeCtr = s.freeCtr := (rfl)
@[simp] theorem State.setPort_out (i : Nat) (x : Port) : (s.setPort i x).out = s.out := (rfl)
@[simp] theorem State.setPort_casing (i : Nat) (x : Port) : (s.setPort i x).casing = s.casing := (rfl)
@[simp] theorem State.setPort_sys (i : Nat) (x : Port) : (s.setPort i x).sys = s.sys := (rfl)
@[simp] theorem State.setPort_silicon (i : Nat) (x : Port) : (s.setPort i x).silicon = s.silicon := (rfl)
@[simp] theorem State.setPort_fields (i : Nat) (x : Port) : (s.setPort i x).fields = s.fields := (rfl)
@[simp] theorem State.setPort_rims (i : Nat) (x : Port) : (s.setPort i x).rims = s.rims := (rfl)
@[simp] theorem State.setPort_channels (i : Nat) (x : Port) : (s.setPort i x).channels = s.channels := (rfl)
@[simp] theorem State.setPort_tenants (i : Nat) (x : Port) : (s.setPort i x).tenants = s.tenants := (rfl)
@[simp] theorem State.setPort_work (i : Nat) (x : Port) : (s.setPort i x).work = s.work := (rfl)
@[simp] theorem State.setPort_clusters (i : Nat) (x : Port) : (s.setPort i x).clusters = s.clusters := (rfl)
@[simp] theorem State.setPort_fabric (i : Nat) (x : Port) : (s.setPort i x).fabric = s.fabric := (rfl)
@[simp] theorem State.setPort_taps (i : Nat) (x : Port) : (s.setPort i x).taps = s.taps := (rfl)
@[simp] theorem State.setPort_mem (i : Nat) (x : Port) : (s.setPort i x).mem = s.mem := (rfl)
@[simp] theorem State.setPort_mirror (i : Nat) (x : Port) : (s.setPort i x).mirror = s.mirror := (rfl)

/-! ## setLink -/

@[simp] theorem State.setLink_pending (i : Nat) (x : Link) : (s.setLink i x).pending = s.pending := (rfl)
@[simp] theorem State.setLink_nowUs (i : Nat) (x : Link) : (s.setLink i x).nowUs = s.nowUs := (rfl)
@[simp] theorem State.setLink_freeCtr (i : Nat) (x : Link) : (s.setLink i x).freeCtr = s.freeCtr := (rfl)
@[simp] theorem State.setLink_out (i : Nat) (x : Link) : (s.setLink i x).out = s.out := (rfl)
@[simp] theorem State.setLink_casing (i : Nat) (x : Link) : (s.setLink i x).casing = s.casing := (rfl)
@[simp] theorem State.setLink_sys (i : Nat) (x : Link) : (s.setLink i x).sys = s.sys := (rfl)
@[simp] theorem State.setLink_silicon (i : Nat) (x : Link) : (s.setLink i x).silicon = s.silicon := (rfl)
@[simp] theorem State.setLink_fields (i : Nat) (x : Link) : (s.setLink i x).fields = s.fields := (rfl)
@[simp] theorem State.setLink_rims (i : Nat) (x : Link) : (s.setLink i x).rims = s.rims := (rfl)
@[simp] theorem State.setLink_channels (i : Nat) (x : Link) : (s.setLink i x).channels = s.channels := (rfl)
@[simp] theorem State.setLink_ports (i : Nat) (x : Link) : (s.setLink i x).ports = s.ports := (rfl)
@[simp] theorem State.setLink_tenants (i : Nat) (x : Link) : (s.setLink i x).tenants = s.tenants := (rfl)
@[simp] theorem State.setLink_work (i : Nat) (x : Link) : (s.setLink i x).work = s.work := (rfl)
@[simp] theorem State.setLink_clusters (i : Nat) (x : Link) : (s.setLink i x).clusters = s.clusters := (rfl)
@[simp] theorem State.setLink_taps (i : Nat) (x : Link) : (s.setLink i x).taps = s.taps := (rfl)
@[simp] theorem State.setLink_mem (i : Nat) (x : Link) : (s.setLink i x).mem = s.mem := (rfl)
@[simp] theorem State.setLink_mirror (i : Nat) (x : Link) : (s.setLink i x).mirror = s.mirror := (rfl)

/-! ## setTap -/

@[simp] theorem State.setTap_pending (i : Nat) (x : Tap) : (s.setTap i x).pending = s.pending := (rfl)
@[simp] theorem State.setTap_nowUs (i : Nat) (x : Tap) : (s.setTap i x).nowUs = s.nowUs := (rfl)
@[simp] theorem State.setTap_freeCtr (i : Nat) (x : Tap) : (s.setTap i x).freeCtr = s.freeCtr := (rfl)
@[simp] theorem State.setTap_out (i : Nat) (x : Tap) : (s.setTap i x).out = s.out := (rfl)
@[simp] theorem State.setTap_casing (i : Nat) (x : Tap) : (s.setTap i x).casing = s.casing := (rfl)
@[simp] theorem State.setTap_sys (i : Nat) (x : Tap) : (s.setTap i x).sys = s.sys := (rfl)
@[simp] theorem State.setTap_silicon (i : Nat) (x : Tap) : (s.setTap i x).silicon = s.silicon := (rfl)
@[simp] theorem State.setTap_fields (i : Nat) (x : Tap) : (s.setTap i x).fields = s.fields := (rfl)
@[simp] theorem State.setTap_rims (i : Nat) (x : Tap) : (s.setTap i x).rims = s.rims := (rfl)
@[simp] theorem State.setTap_channels (i : Nat) (x : Tap) : (s.setTap i x).channels = s.channels := (rfl)
@[simp] theorem State.setTap_ports (i : Nat) (x : Tap) : (s.setTap i x).ports = s.ports := (rfl)
@[simp] theorem State.setTap_tenants (i : Nat) (x : Tap) : (s.setTap i x).tenants = s.tenants := (rfl)
@[simp] theorem State.setTap_work (i : Nat) (x : Tap) : (s.setTap i x).work = s.work := (rfl)
@[simp] theorem State.setTap_clusters (i : Nat) (x : Tap) : (s.setTap i x).clusters = s.clusters := (rfl)
@[simp] theorem State.setTap_fabric (i : Nat) (x : Tap) : (s.setTap i x).fabric = s.fabric := (rfl)
@[simp] theorem State.setTap_mem (i : Nat) (x : Tap) : (s.setTap i x).mem = s.mem := (rfl)
@[simp] theorem State.setTap_mirror (i : Nat) (x : Tap) : (s.setTap i x).mirror = s.mirror := (rfl)

/-! ## emit -/

@[simp] theorem State.emit_pending (o : Output) : (s.emit o).pending = s.pending := (rfl)
@[simp] theorem State.emit_nowUs (o : Output) : (s.emit o).nowUs = s.nowUs := (rfl)
@[simp] theorem State.emit_freeCtr (o : Output) : (s.emit o).freeCtr = s.freeCtr := (rfl)
@[simp] theorem State.emit_casing (o : Output) : (s.emit o).casing = s.casing := (rfl)
@[simp] theorem State.emit_sys (o : Output) : (s.emit o).sys = s.sys := (rfl)
@[simp] theorem State.emit_silicon (o : Output) : (s.emit o).silicon = s.silicon := (rfl)
@[simp] theorem State.emit_fields (o : Output) : (s.emit o).fields = s.fields := (rfl)
@[simp] theorem State.emit_rims (o : Output) : (s.emit o).rims = s.rims := (rfl)
@[simp] theorem State.emit_channels (o : Output) : (s.emit o).channels = s.channels := (rfl)
@[simp] theorem State.emit_ports (o : Output) : (s.emit o).ports = s.ports := (rfl)
@[simp] theorem State.emit_tenants (o : Output) : (s.emit o).tenants = s.tenants := (rfl)
@[simp] theorem State.emit_work (o : Output) : (s.emit o).work = s.work := (rfl)
@[simp] theorem State.emit_clusters (o : Output) : (s.emit o).clusters = s.clusters := (rfl)
@[simp] theorem State.emit_fabric (o : Output) : (s.emit o).fabric = s.fabric := (rfl)
@[simp] theorem State.emit_taps (o : Output) : (s.emit o).taps = s.taps := (rfl)
@[simp] theorem State.emit_mem (o : Output) : (s.emit o).mem = s.mem := (rfl)
@[simp] theorem State.emit_mirror (o : Output) : (s.emit o).mirror = s.mirror := (rfl)

/-! ## modTenant -/

@[simp] theorem State.modTenant_pending (t : Nat) (f : Tenant → Tenant) : (s.modTenant t f).pending = s.pending := (rfl)
@[simp] theorem State.modTenant_nowUs (t : Nat) (f : Tenant → Tenant) : (s.modTenant t f).nowUs = s.nowUs := (rfl)
@[simp] theorem State.modTenant_freeCtr (t : Nat) (f : Tenant → Tenant) : (s.modTenant t f).freeCtr = s.freeCtr := (rfl)
@[simp] theorem State.modTenant_out (t : Nat) (f : Tenant → Tenant) : (s.modTenant t f).out = s.out := (rfl)
@[simp] theorem State.modTenant_casing (t : Nat) (f : Tenant → Tenant) : (s.modTenant t f).casing = s.casing := (rfl)
@[simp] theorem State.modTenant_sys (t : Nat) (f : Tenant → Tenant) : (s.modTenant t f).sys = s.sys := (rfl)
@[simp] theorem State.modTenant_silicon (t : Nat) (f : Tenant → Tenant) : (s.modTenant t f).silicon = s.silicon := (rfl)
@[simp] theorem State.modTenant_fields (t : Nat) (f : Tenant → Tenant) : (s.modTenant t f).fields = s.fields := (rfl)
@[simp] theorem State.modTenant_rims (t : Nat) (f : Tenant → Tenant) : (s.modTenant t f).rims = s.rims := (rfl)
@[simp] theorem State.modTenant_channels (t : Nat) (f : Tenant → Tenant) : (s.modTenant t f).channels = s.channels := (rfl)
@[simp] theorem State.modTenant_ports (t : Nat) (f : Tenant → Tenant) : (s.modTenant t f).ports = s.ports := (rfl)
@[simp] theorem State.modTenant_work (t : Nat) (f : Tenant → Tenant) : (s.modTenant t f).work = s.work := (rfl)
@[simp] theorem State.modTenant_clusters (t : Nat) (f : Tenant → Tenant) : (s.modTenant t f).clusters = s.clusters := (rfl)
@[simp] theorem State.modTenant_fabric (t : Nat) (f : Tenant → Tenant) : (s.modTenant t f).fabric = s.fabric := (rfl)
@[simp] theorem State.modTenant_taps (t : Nat) (f : Tenant → Tenant) : (s.modTenant t f).taps = s.taps := (rfl)
@[simp] theorem State.modTenant_mem (t : Nat) (f : Tenant → Tenant) : (s.modTenant t f).mem = s.mem := (rfl)

/-! ## modCluster -/

@[simp] theorem State.modCluster_pending (k : Nat) (f : Cluster → Cluster) : (s.modCluster k f).pending = s.pending := (rfl)
@[simp] theorem State.modCluster_nowUs (k : Nat) (f : Cluster → Cluster) : (s.modCluster k f).nowUs = s.nowUs := (rfl)
@[simp] theorem State.modCluster_freeCtr (k : Nat) (f : Cluster → Cluster) : (s.modCluster k f).freeCtr = s.freeCtr := (rfl)
@[simp] theorem State.modCluster_out (k : Nat) (f : Cluster → Cluster) : (s.modCluster k f).out = s.out := (rfl)
@[simp] theorem State.modCluster_casing (k : Nat) (f : Cluster → Cluster) : (s.modCluster k f).casing = s.casing := (rfl)
@[simp] theorem State.modCluster_sys (k : Nat) (f : Cluster → Cluster) : (s.modCluster k f).sys = s.sys := (rfl)
@[simp] theorem State.modCluster_silicon (k : Nat) (f : Cluster → Cluster) : (s.modCluster k f).silicon = s.silicon := (rfl)
@[simp] theorem State.modCluster_fields (k : Nat) (f : Cluster → Cluster) : (s.modCluster k f).fields = s.fields := (rfl)
@[simp] theorem State.modCluster_rims (k : Nat) (f : Cluster → Cluster) : (s.modCluster k f).rims = s.rims := (rfl)
@[simp] theorem State.modCluster_channels (k : Nat) (f : Cluster → Cluster) : (s.modCluster k f).channels = s.channels := (rfl)
@[simp] theorem State.modCluster_ports (k : Nat) (f : Cluster → Cluster) : (s.modCluster k f).ports = s.ports := (rfl)
@[simp] theorem State.modCluster_tenants (k : Nat) (f : Cluster → Cluster) : (s.modCluster k f).tenants = s.tenants := (rfl)
@[simp] theorem State.modCluster_work (k : Nat) (f : Cluster → Cluster) : (s.modCluster k f).work = s.work := (rfl)
@[simp] theorem State.modCluster_fabric (k : Nat) (f : Cluster → Cluster) : (s.modCluster k f).fabric = s.fabric := (rfl)
@[simp] theorem State.modCluster_taps (k : Nat) (f : Cluster → Cluster) : (s.modCluster k f).taps = s.taps := (rfl)
@[simp] theorem State.modCluster_mem (k : Nat) (f : Cluster → Cluster) : (s.modCluster k f).mem = s.mem := (rfl)
@[simp] theorem State.modCluster_mirror (k : Nat) (f : Cluster → Cluster) : (s.modCluster k f).mirror = s.mirror := (rfl)

/-! ## modField -/

@[simp] theorem State.modField_pending (i : Nat) (f : Field → Field) : (s.modField i f).pending = s.pending := (rfl)
@[simp] theorem State.modField_nowUs (i : Nat) (f : Field → Field) : (s.modField i f).nowUs = s.nowUs := (rfl)
@[simp] theorem State.modField_freeCtr (i : Nat) (f : Field → Field) : (s.modField i f).freeCtr = s.freeCtr := (rfl)
@[simp] theorem State.modField_out (i : Nat) (f : Field → Field) : (s.modField i f).out = s.out := (rfl)
@[simp] theorem State.modField_casing (i : Nat) (f : Field → Field) : (s.modField i f).casing = s.casing := (rfl)
@[simp] theorem State.modField_sys (i : Nat) (f : Field → Field) : (s.modField i f).sys = s.sys := (rfl)
@[simp] theorem State.modField_silicon (i : Nat) (f : Field → Field) : (s.modField i f).silicon = s.silicon := (rfl)
@[simp] theorem State.modField_rims (i : Nat) (f : Field → Field) : (s.modField i f).rims = s.rims := (rfl)
@[simp] theorem State.modField_channels (i : Nat) (f : Field → Field) : (s.modField i f).channels = s.channels := (rfl)
@[simp] theorem State.modField_ports (i : Nat) (f : Field → Field) : (s.modField i f).ports = s.ports := (rfl)
@[simp] theorem State.modField_tenants (i : Nat) (f : Field → Field) : (s.modField i f).tenants = s.tenants := (rfl)
@[simp] theorem State.modField_work (i : Nat) (f : Field → Field) : (s.modField i f).work = s.work := (rfl)
@[simp] theorem State.modField_clusters (i : Nat) (f : Field → Field) : (s.modField i f).clusters = s.clusters := (rfl)
@[simp] theorem State.modField_fabric (i : Nat) (f : Field → Field) : (s.modField i f).fabric = s.fabric := (rfl)
@[simp] theorem State.modField_taps (i : Nat) (f : Field → Field) : (s.modField i f).taps = s.taps := (rfl)
@[simp] theorem State.modField_mem (i : Nat) (f : Field → Field) : (s.modField i f).mem = s.mem := (rfl)
@[simp] theorem State.modField_mirror (i : Nat) (f : Field → Field) : (s.modField i f).mirror = s.mirror := (rfl)

/-! ## setSessions -/

@[simp] theorem State.setSessions_pending (xs : Tab Session) : (s.setSessions xs).pending = s.pending := (rfl)
@[simp] theorem State.setSessions_nowUs (xs : Tab Session) : (s.setSessions xs).nowUs = s.nowUs := (rfl)
@[simp] theorem State.setSessions_freeCtr (xs : Tab Session) : (s.setSessions xs).freeCtr = s.freeCtr := (rfl)
@[simp] theorem State.setSessions_out (xs : Tab Session) : (s.setSessions xs).out = s.out := (rfl)
@[simp] theorem State.setSessions_casing (xs : Tab Session) : (s.setSessions xs).casing = s.casing := (rfl)
@[simp] theorem State.setSessions_sys (xs : Tab Session) : (s.setSessions xs).sys = s.sys := (rfl)
@[simp] theorem State.setSessions_silicon (xs : Tab Session) : (s.setSessions xs).silicon = s.silicon := (rfl)
@[simp] theorem State.setSessions_fields (xs : Tab Session) : (s.setSessions xs).fields = s.fields := (rfl)
@[simp] theorem State.setSessions_rims (xs : Tab Session) : (s.setSessions xs).rims = s.rims := (rfl)
@[simp] theorem State.setSessions_channels (xs : Tab Session) : (s.setSessions xs).channels = s.channels := (rfl)
@[simp] theorem State.setSessions_ports (xs : Tab Session) : (s.setSessions xs).ports = s.ports := (rfl)
@[simp] theorem State.setSessions_tenants (xs : Tab Session) : (s.setSessions xs).tenants = s.tenants := (rfl)
@[simp] theorem State.setSessions_clusters (xs : Tab Session) : (s.setSessions xs).clusters = s.clusters := (rfl)
@[simp] theorem State.setSessions_fabric (xs : Tab Session) : (s.setSessions xs).fabric = s.fabric := (rfl)
@[simp] theorem State.setSessions_taps (xs : Tab Session) : (s.setSessions xs).taps = s.taps := (rfl)
@[simp] theorem State.setSessions_mem (xs : Tab Session) : (s.setSessions xs).mem = s.mem := (rfl)
@[simp] theorem State.setSessions_sessions (xs : Tab Session) : (s.setSessions xs).work.sessions = xs := (rfl)
@[simp] theorem State.setSessions_flights (xs : Tab Session) : (s.setSessions xs).work.flights = s.work.flights := (rfl)

/-! ## stepFree -/

@[simp] theorem State.stepFree_pending (n : Nat) : (s.stepFree n).pending = s.pending := (rfl)
@[simp] theorem State.stepFree_nowUs (n : Nat) : (s.stepFree n).nowUs = s.nowUs := (rfl)
@[simp] theorem State.stepFree_out (n : Nat) : (s.stepFree n).out = s.out := (rfl)
@[simp] theorem State.stepFree_casing (n : Nat) : (s.stepFree n).casing = s.casing := (rfl)
@[simp] theorem State.stepFree_sys (n : Nat) : (s.stepFree n).sys = s.sys := (rfl)
@[simp] theorem State.stepFree_silicon (n : Nat) : (s.stepFree n).silicon = s.silicon := (rfl)
@[simp] theorem State.stepFree_fields (n : Nat) : (s.stepFree n).fields = s.fields := (rfl)
@[simp] theorem State.stepFree_rims (n : Nat) : (s.stepFree n).rims = s.rims := (rfl)
@[simp] theorem State.stepFree_channels (n : Nat) : (s.stepFree n).channels = s.channels := (rfl)
@[simp] theorem State.stepFree_ports (n : Nat) : (s.stepFree n).ports = s.ports := (rfl)
@[simp] theorem State.stepFree_tenants (n : Nat) : (s.stepFree n).tenants = s.tenants := (rfl)
@[simp] theorem State.stepFree_work (n : Nat) : (s.stepFree n).work = s.work := (rfl)
@[simp] theorem State.stepFree_clusters (n : Nat) : (s.stepFree n).clusters = s.clusters := (rfl)
@[simp] theorem State.stepFree_fabric (n : Nat) : (s.stepFree n).fabric = s.fabric := (rfl)
@[simp] theorem State.stepFree_taps (n : Nat) : (s.stepFree n).taps = s.taps := (rfl)
@[simp] theorem State.stepFree_mem (n : Nat) : (s.stepFree n).mem = s.mem := (rfl)
@[simp] theorem State.stepFree_mirror (n : Nat) : (s.stepFree n).mirror = s.mirror := (rfl)

/-! ## Reading after writing -/

@[simp] theorem State.tenant_setTenant_same (i : Nat) (x : Tenant) : (s.setTenant i x).tenant i = x := tget_tset_same _ _ _ _
theorem State.tenant_setTenant_other (i j : Nat) (x : Tenant) (h : j ≠ i) : (s.setTenant i x).tenant j = s.tenant j := tget_tset_default _ _ _ _ _ _ h
@[simp] theorem State.cluster_setCluster_same (i : Nat) (x : Cluster) : (s.setCluster i x).cluster i = x := tget_tset_same _ _ _ _
theorem State.cluster_setCluster_other (i j : Nat) (x : Cluster) (h : j ≠ i) : (s.setCluster i x).cluster j = s.cluster j := tget_tset_other _ _ _ _ _ h
@[simp] theorem State.field_setField_same (i : Nat) (x : Field) : (s.setField i x).field i = x := tget_tset_same _ _ _ _
theorem State.field_setField_other (i j : Nat) (x : Field) (h : j ≠ i) : (s.setField i x).field j = s.field j := tget_tset_other _ _ _ _ _ h
@[simp] theorem State.rim_setRim_same (i : Nat) (x : Rim) : (s.setRim i x).rim i = x := tget_tset_same _ _ _ _
theorem State.rim_setRim_other (i j : Nat) (x : Rim) (h : j ≠ i) : (s.setRim i x).rim j = s.rim j := tget_tset_other _ _ _ _ _ h
@[simp] theorem State.channel_setChannel_same (i : Nat) (x : Channel) : (s.setChannel i x).channel i = x := tget_tset_same _ _ _ _
theorem State.channel_setChannel_other (i j : Nat) (x : Channel) (h : j ≠ i) : (s.setChannel i x).channel j = s.channel j := tget_tset_other _ _ _ _ _ h
@[simp] theorem State.port_setPort_same (i : Nat) (x : Port) : (s.setPort i x).port i = x := tget_tset_same _ _ _ _
theorem State.port_setPort_other (i j : Nat) (x : Port) (h : j ≠ i) : (s.setPort i x).port j = s.port j := tget_tset_other _ _ _ _ _ h
@[simp] theorem State.link_setLink_same (i : Nat) (x : Link) : (s.setLink i x).link i = x := tget_tset_same _ _ _ _
theorem State.link_setLink_other (i j : Nat) (x : Link) (h : j ≠ i) : (s.setLink i x).link j = s.link j := tget_tset_other _ _ _ _ _ h
@[simp] theorem State.tap_setTap_same (i : Nat) (x : Tap) : (s.setTap i x).tap i = x := tget_tset_same _ _ _ _
theorem State.tap_setTap_other (i j : Nat) (x : Tap) (h : j ≠ i) : (s.setTap i x).tap j = s.tap j := tget_tset_other _ _ _ _ _ h

end Sys2Proof.Machine
end

