-- ==== Sys2Proof/Laws/Keep.lean ====
section
/-!
SUPPORT. Sys2Proof/Laws/Keep.lean: a property of every next state, and folds of operations that keep memory as it is or in its canonical form.
-/

namespace Sys2Proof.Machine

/-- Every next state of an outcome has a property. -/
def ResAll (P : State → Prop) : Res → Prop
  | .next t => P t
  | .fault _ => True
  | .refused _ => True

@[simp] theorem resAll_next (P : State → Prop) (t : State) : ResAll P (.next t) = P t := rfl
@[simp] theorem resAll_fault (P : State → Prop) (e : Fault) : ResAll P (.fault e) = True := rfl

theorem resAll_ite (P : State → Prop) (c : Prop) [Decidable c] (a b : Res) (ha : c → ResAll P a) (hb : ¬ c → ResAll P b) :
    ResAll P (if c then a else b) := by
  split
  · exact ha ‹_›
  · exact hb ‹_›

/-- A fold whose every step keeps memory keeps memory. -/
@[simp] theorem foldl_mem {β : Type} (g : State → β → State) (hg : ∀ s b, (g s b).mem = s.mem) (l : List β) (s : State) :
    (l.foldl g s).mem = s.mem := by
  induction l generalizing s with
  | nil => rfl
  | cons b l ih => rw [List.foldl_cons, ih, hg]

/-- A fold whose every step keeps the memories' form keeps it. -/
@[simp] theorem foldl_sound {β : Type} (g : State → β → State) (hg : ∀ s b, s.mem.wf = true → (g s b).mem.wf = true) (l : List β) (s : State)
    (h : s.mem.wf = true) : (l.foldl g s).mem.wf = true := by
  induction l generalizing s with
  | nil => exact h
  | cons b l ih => exact ih _ (hg _ _ h)

@[simp] theorem ite_sound (c : Prop) [Decidable c] (a b : State) (ha : c → a.mem.wf = true) (hb : ¬ c → b.mem.wf = true) :
    (if c then a else b).mem.wf = true := by
  split
  · exact ha ‹_›
  · exact hb ‹_›

theorem wf_iff (m : Mems) : m.wf = true ↔ Memory.wf 0 m.ddr = true ∧ Memory.wf 0 m.cistern = true ∧ Memory.wf 0xFF m.flash = true
    ∧ Memory.wf 0 m.eeprom = true ∧ Memory.wf 0 m.host = true := by
  simp [Mems.wf, and_assoc]

end Sys2Proof.Machine
end

