-- ==== Sys2Proof/Laws/KeepOps.lean ====
section
/-!
SUPPORT. Sys2Proof/Laws/KeepOps.lean: what each operation and each meaning does to memory: it leaves it as it is (a name in _mem) or keeps its
canonical form (a name in _sound): the shared operations, the mailbox and the tenants.
-/

namespace Sys2Proof.Machine

/-! ## Operands -/

@[simp] theorem putByte_sound (s : State) (g : Nat) (b : Byte) (h : s.mem.wf = true) : (putByte s g b).mem.wf = true := by
  have hs := (wf_iff _).mp h
  unfold putByte
  split
  · exact (wf_iff _).mpr ⟨Memory.wf_tset _ _ _ _ hs.1, hs.2⟩
  · exact (wf_iff _).mpr ⟨hs.1, Memory.wf_tset _ _ _ _ hs.2.1, hs.2.2⟩

@[simp] theorem putBits_sound (s : State) (w : Nat × Nat × Nat) (h : s.mem.wf = true) : (putBits s w).mem.wf = true :=
  foldl_sound _ (fun _ _ h => putByte_sound _ _ _ h) _ _ h

@[simp] theorem clearWholeLines_sound (s : State) (ws : List (Nat × Nat × Nat)) (h : s.mem.wf = true) : (clearWholeLines s ws).mem.wf = true := h

@[simp] theorem putAll_sound (s : State) (ws : List (Nat × Nat × Nat)) (h : s.mem.wf = true) : (putAll s ws).mem.wf = true :=
  clearWholeLines_sound _ _ (foldl_sound _ (fun _ _ h => putBits_sound _ _ h) _ _ h)

/-! ## Ops -/

@[simp] theorem hostWrite_sound (s : State) (p a : Nat) (bs : List Byte) (h : s.mem.wf = true) : (hostWrite s p a bs).mem.wf = true := by
  have hs := (wf_iff _).mp h
  unfold hostWrite
  split
  · exact h
  · exact (wf_iff _).mpr ⟨hs.1, hs.2.1, hs.2.2.1, hs.2.2.2.1, Memory.wf_writeBytes _ _ _ _ hs.2.2.2.2⟩

@[simp] theorem writeNotice_sound (s : State) (t : Nat) (body : List Byte) (h : s.mem.wf = true) : (writeNotice s t body).mem.wf = true := by simp [writeNotice, h]

@[simp] theorem sendMsix_mem (s : State) (p v : Nat) : (sendMsix s p v).mem = s.mem := by
  unfold sendMsix
  dsimp only
  (repeat' split) <;> simp

@[simp] theorem releaseAlerts_mem (s : State) (t : Nat) : (releaseAlerts s t).mem = s.mem := by simp [releaseAlerts]

@[simp] theorem flushResults_sound (s : State) (t : Nat) (h : s.mem.wf = true) : (flushResults s t).mem.wf = true := by
  unfold flushResults
  dsimp only
  split
  · exact foldl_sound _ (fun s _ h => hostWrite_sound _ _ _ _ h) _ _ h
  · exact h

@[simp] theorem flushHeld_sound (s : State) (t n : Nat) (h : s.mem.wf = true) : (flushHeld s t n).mem.wf = true := by
  induction n generalizing s with
  | zero => exact h
  | succ n ih =>
    unfold flushHeld
    dsimp only
    (repeat' split) <;> simp [h, ih]

@[simp] theorem postNotice_sound (s : State) (t : Nat) (body : List Byte) (h : s.mem.wf = true) : (postNotice s t body).mem.wf = true := by simp [postNotice, h]

@[simp] theorem answered_mem (s : State) (t seq type : Nat) : (answered s t seq type).mem = s.mem := (rfl)

@[simp] theorem reply_sound (s : State) (t seq type status reason index result cookie : Nat) (h : s.mem.wf = true) : (reply s t seq type status reason index result cookie).mem.wf = true := by simp [reply, h]

@[simp] theorem replyOk_sound (s : State) (t seq type : Nat) (h : s.mem.wf = true) : (replyOk s t seq type).mem.wf = true := by simp [replyOk, h]

@[simp] theorem replyRejected_sound (s : State) (t seq type reason : Nat) (h : s.mem.wf = true) : (replyRejected s t seq type reason).mem.wf = true := by simp [replyRejected, h]

@[simp] theorem sendAlert0_mem (s : State) : (sendAlert0 s).mem = s.mem := by simp [sendAlert0]

@[simp] theorem raiseAlert_mem (s : State) (bs : BitVec 5) : (raiseAlert s bs).mem = s.mem := by
  unfold raiseAlert
  dsimp only
  (repeat' split) <;> simp

@[simp] theorem haltAlert_mem (s : State) (t : Nat) : (haltAlert s t).mem = s.mem := by
  unfold haltAlert
  dsimp only
  (repeat' split) <;> simp

@[simp] theorem setFlights_mem (s : State) (fs : List Flight) : (setFlights s fs).mem = s.mem := (rfl)

@[simp] theorem modFlight_mem (s : State) (uid : Nat) (g : Flight → Flight) : (modFlight s uid g).mem = s.mem := (rfl)

@[simp] theorem releaseClusters_mem (s : State) (uid : Nat) : (releaseClusters s uid).mem = s.mem := by
  unfold releaseClusters
  (repeat' split) <;> simp [apply_ite State.mem]

@[simp] theorem removeFlight_mem (s : State) (uid : Nat) : (removeFlight s uid).mem = s.mem := by simp [removeFlight]

@[simp] theorem clearDone_sound (s : State) (t : Nat) (c : Nat × Nat × List Nat) (h : s.mem.wf = true) : (clearDone s t c).mem.wf = true := by simp [clearDone, h]

@[simp] theorem finishClears_sound (s : State) (t : Nat) (h : s.mem.wf = true) : (finishClears s t).mem.wf = true := by
  unfold finishClears
  refine foldl_sound _ (fun s _ h => ?_) _ _ h
  (repeat' split) <;> simp [h]

@[simp] theorem forgetClause_mem (s : State) (t seq : Nat) : (forgetClause s t seq).mem = s.mem := (rfl)

@[simp] theorem endClause_sound (s : State) (f : Flight) (v : Verdict) (h : s.mem.wf = true) : (endClause s f v).mem.wf = true := by
  unfold endClause
  (repeat' split) <;> simp [h]

@[simp] theorem setHalted_mem (s : State) (t prio : Nat) : (setHalted s t prio).mem = s.mem := (rfl)

@[simp] theorem cancelAll_sound (s : State) (fs : List Flight) (h : s.mem.wf = true) : (cancelAll s fs).mem.wf = true := by
  unfold cancelAll
  (repeat' split) <;> simp +contextual [h]

@[simp] theorem haltRing_sound (s : State) (t prio : Nat) (h : s.mem.wf = true) : (haltRing s t prio).mem.wf = true := by simp [haltRing, h]

@[simp] theorem completeClause_sound (s : State) (f : Flight) (v : Verdict) (h : s.mem.wf = true) : (completeClause s f v).mem.wf = true := by
  unfold completeClause
  (repeat' split) <;> simp [h]

@[simp] theorem leaveFree_sound (s : State) (gs : List Nat) (h : s.mem.wf = true) : (leaveFree s gs).mem.wf = true :=
  foldl_sound _ (fun s _ h => by simp [h]) _ _ h

@[simp] theorem race_sound (s : State) (uid : Nat) (w : Bool) (rs : List (Nat × Nat)) (h : s.mem.wf = true) : (race s uid w rs).mem.wf = true :=
  leaveFree_sound _ _ h

@[simp] theorem raceWrite_sound (s : State) (f : Flight) (ws : List (Nat × Nat × Nat)) (h : s.mem.wf = true) : (raceWrite s f ws).mem.wf = true := by
  unfold raceWrite
  split <;> simp [h]

@[simp] theorem raceHost_sound (s : State) (p t : Nat) (r w : Bool) (rs : List (Nat × Nat)) (h : s.mem.wf = true) :
    (raceHost s p t r w rs).mem.wf = true := by
  unfold raceHost
  dsimp only
  (repeat' split) <;> simp [addTouch, h]

@[simp] theorem writeRoutes_mem (s : State) : (writeRoutes s).mem = s.mem := by
  unfold writeRoutes
  dsimp only
  split <;> rfl

/-! ## Link -/

@[simp] theorem emitFrame_mem (s : State) (l : Nat) (bs : List Byte) : (emitFrame s l bs).mem = s.mem := by
  unfold emitFrame
  split <;> simp

@[simp] theorem sendFrame_mem (s : State) (l : Nat) (vcs : List Nat) (payload : List Byte) : (sendFrame s l vcs payload).mem = s.mem := by simp [sendFrame]

@[simp] theorem pumpLink_mem (s : State) (l n : Nat) : (pumpLink s l n).mem = s.mem := by
  induction n generalizing s with
  | zero => rfl
  | succ n ih =>
    unfold pumpLink
    dsimp only
    (repeat' split) <;> simp [ih]

@[simp] theorem pumpAll_mem (s : State) (l : Nat) : (pumpAll s l).mem = s.mem := by simp [pumpAll]

@[simp] theorem sendPacket_mem (s : State) (p : Packet) : (sendPacket s p).mem = s.mem := by
  unfold sendPacket
  (repeat' split) <;> simp

@[simp] theorem rerouteAll_mem (s : State) (l : Nat) : (rerouteAll s l).mem = s.mem := by simp [rerouteAll]

@[simp] theorem goDown_mem (s : State) (l : Nat) : (goDown s l).mem = s.mem := by simp [goDown]

@[simp] theorem goRetrain_mem (s : State) (l : Nat) : (goRetrain s l).mem = s.mem := by simp [goRetrain]

@[simp] theorem setFabric_mem (s : State) (f : Fabric → Fabric) : (setFabric s f).mem = s.mem := (rfl)

@[simp] theorem startLink_mem (s : State) (l : Nat) : (startLink s l).mem = s.mem := by
  unfold startLink
  dsimp only
  (repeat' split) <;> simp

@[simp] theorem beginDiscovery_mem (s : State) : (beginDiscovery s).mem = s.mem := by simp [beginDiscovery]

/-! ## Avfs -/

@[simp] theorem holdRail_mem (s : State) (f : Nat) : (holdRail s f).mem = s.mem := (rfl)

/-! ## Mailbox -/

@[simp] theorem logPoison_mem (s : State) (p : Nat) (ep : Bool) : (logPoison s p ep).mem = s.mem := by
  unfold logPoison
  (repeat' split) <;> simp

@[simp] theorem execPostWrite_mem (p t : Nat) (off : Nat) (ep : Bool) (data : List Byte) (s : State) : ResAll (fun t => t.mem = s.mem) (execPostWrite p t off ep data s) := by
  unfold execPostWrite
  dsimp only
  (repeat' split) <;> simp

@[simp] theorem settle_sound (s : State) (t n : Nat) (h : s.mem.wf = true) : (settle s t n).mem.wf = true := by
  induction n generalizing s with
  | zero => exact h
  | succ n ih =>
    unfold settle
    dsimp only
    (repeat' split) <;> simp [h, ih]

@[simp] theorem settleAll_sound (s : State) (t : Nat) (h : s.mem.wf = true) : (settleAll s t).mem.wf = true := by simp [settleAll, h]

@[simp] theorem acceptHead_mem (s : State) (t : Nat) (m : List Word) : (acceptHead s t m).mem = s.mem := (rfl)

@[simp] theorem noteStarted_mem (s : State) (t : Nat) (m : List Word) : (noteStarted s t m).mem = s.mem := (rfl)

theorem onMessage_sound (s : State) (t type : Nat) (f : State → List Word → State)
    (hf : ∀ s m, s.mem.wf = true → (f s m).mem.wf = true) (h : s.mem.wf = true) : ResAll (fun t => t.mem.wf = true) (onMessage s t type f) := by
  unfold onMessage
  split
  · exact h
  · exact settleAll_sound _ _ (hf _ _ h)

theorem adminOnly_sound (t : Nat) (f : State → List Word → State) (hf : ∀ s m, s.mem.wf = true → (f s m).mem.wf = true)
    (s : State) (m : List Word) (h : s.mem.wf = true) : (adminOnly t f s m).mem.wf = true := by
  unfold adminOnly
  split
  · simp [h]
  · exact hf _ _ h

theorem cleanOnly_sound (t : Nat) (masks : List Nat) (f : State → List Word → State) (hf : ∀ s m, s.mem.wf = true → (f s m).mem.wf = true)
    (s : State) (m : List Word) (h : s.mem.wf = true) : (cleanOnly t masks f s m).mem.wf = true := by
  unfold cleanOnly
  split
  · exact hf _ _ h
  · simp [h]

@[simp] theorem clauseEffect_sound (s : State) (t : Nat) (m : List Word) (h : s.mem.wf = true) : (clauseEffect s t m).mem.wf = true := by simp [clauseEffect, h]

@[simp] theorem execClause_sound (t : Nat) (s : State) (h : s.mem.wf = true) : ResAll (fun t => t.mem.wf = true) (execClause t s) := by
  unfold execClause
  (repeat' split) <;> simp [h]

@[simp] theorem execBadType_sound (t : Nat) (s : State) (h : s.mem.wf = true) : ResAll (fun t => t.mem.wf = true) (execBadType t s) := by
  unfold execBadType
  dsimp only
  (repeat' split) <;> simp [h]

@[simp] theorem admitHead_sound (s : State) (t prio : Nat) (h : s.mem.wf = true) : (admitHead s t prio).mem.wf = true := by
  unfold admitHead
  dsimp only
  (repeat' split) <;> simp [h]

@[simp] theorem serveTenant_sound (s : State) (t prio : Nat) (h : s.mem.wf = true) : (serveTenant s t prio).mem.wf = true :=
  admitHead_sound s t prio h

@[simp] theorem serveFrom_sound (prio n : Nat) (left : List Nat) (s : State) (h : s.mem.wf = true) : (serveFrom prio n left s).mem.wf = true := by
  induction n generalizing s left with
  | zero => exact h
  | succ n ih =>
    unfold serveFrom
    split
    · exact h
    · exact ih _ _ (serveTenant_sound _ _ _ h)

@[simp] theorem serveClass_sound (s : State) (prio : Nat) (h : s.mem.wf = true) : (serveClass s prio).mem.wf = true := by
  exact serveFrom_sound _ _ _ _ h

@[simp] theorem fillSlots_mem (s : State) : (fillSlots s).mem = s.mem := by
  unfold fillSlots
  exact foldl_mem _ (fun s f => foldl_mem _ (fun s k => by split <;> simp) _ _) _ _

@[simp] theorem copyRing_sound (s : State) (t : Nat) (h : s.mem.wf = true) : (copyRing s t).mem.wf = true := by
  unfold copyRing
  dsimp only
  split <;> simp [h]

@[simp] theorem execPumphouseVisit_sound (s : State) (h : s.mem.wf = true) : ResAll (fun t => t.mem.wf = true) (execPumphouseVisit s) := by
  unfold execPumphouseVisit
  dsimp only
  (repeat' (first | split | refine foldl_sound _ (fun s _ h => ?_) _ _ ?_)) <;> simp [h]

@[simp] theorem replyFirst_sound (s : State) (t : Nat) (body : List Byte) (h : s.mem.wf = true) : (replyFirst s t body).mem.wf = true := by
  unfold replyFirst
  (repeat' split) <;> simp [h]

@[simp] theorem rejectRing_sound (s : State) (t : Nat) (m : List Word) (why : Nat) (h : s.mem.wf = true) : (rejectRing s t m why).mem.wf = true := by simp [rejectRing, h]

@[simp] theorem ringSetup_sound (t : Nat) (s : State) (m : List Word) (h : s.mem.wf = true) : (ringSetup t s m).mem.wf = true := by
  unfold ringSetup
  (repeat' split) <;> simp [h]

@[simp] theorem execRingSetup_sound (t : Nat) (s : State) (h : s.mem.wf = true) : ResAll (fun t => t.mem.wf = true) (execRingSetup t s) :=
  onMessage_sound _ _ _ _ (fun s m h => ringSetup_sound _ _ _ h) h

@[simp] theorem execPing_sound (t : Nat) (s : State) (h : s.mem.wf = true) : ResAll (fun t => t.mem.wf = true) (execPing t s) :=
  onMessage_sound _ _ _ _ (fun s m h => cleanOnly_sound _ _ _ (fun s m h => reply_sound _ _ _ _ _ _ _ _ _ h) s m h) h

@[simp] theorem clearCistern_sound (s : State) (k : Nat) (h : s.mem.wf = true) : (clearCistern s k).mem.wf = true := by
  have hs := (wf_iff _).mp h
  exact (wf_iff _).mpr ⟨hs.1, Memory.wf_clearRun _ _ _ _ hs.2.1, hs.2.2⟩

@[simp] theorem releasePlan_sound (s : State) (t : Nat) (h : s.mem.wf = true) : (releasePlan s t).mem.wf = true := by
  unfold releasePlan
  exact foldl_sound _ (fun s k h => by simp [h]) _ _ h

@[simp] theorem planUnload_sound (t : Nat) (s : State) (m : List Word) (h : s.mem.wf = true) : (planUnload t s m).mem.wf = true := by
  unfold planUnload
  (repeat' split) <;> simp [h]

@[simp] theorem execPlanUnload_sound (t : Nat) (s : State) (h : s.mem.wf = true) : ResAll (fun t => t.mem.wf = true) (execPlanUnload t s) :=
  onMessage_sound _ _ _ _ (fun s m h => cleanOnly_sound _ _ _ (fun s m h => planUnload_sound _ _ _ h) s m h) h

@[simp] theorem cancelWaiting_sound (s : State) (t prio : Nat) (h : s.mem.wf = true) : (cancelWaiting s t prio).mem.wf = true := by simp [cancelWaiting, h]

@[simp] theorem markCancelled_mem (s : State) (uid : Nat) : (markCancelled s uid).mem = s.mem := (rfl)

theorem clearRing_sound (s : State) (t prio : Nat) (h : s.mem.wf = true) : (clearRing s t prio).1.mem.wf = true := by
  unfold clearRing
  dsimp only
  rw [foldl_mem _ (fun s u => by simp [markCancelled])]
  simp [h]

@[simp] theorem queueClear_sound (t : Nat) (s : State) (m : List Word) (h : s.mem.wf = true) : (queueClear t s m).mem.wf = true := by
  have key : ∀ (l : List Nat) (a : State × List Nat), a.1.mem.wf = true →
      (l.foldl (fun (a : State × List Nat) i => let b := clearRing a.1 t i; (b.1, a.2 ++ b.2)) a).1.mem.wf = true := by
    intro l
    induction l with
    | nil => exact fun _ h => h
    | cons i l ih => exact fun a h => ih _ (clearRing_sound _ _ _ h)
  exact finishClears_sound _ _ (key _ _ h)

@[simp] theorem execQueueClear_sound (t : Nat) (s : State) (h : s.mem.wf = true) : ResAll (fun t => t.mem.wf = true) (execQueueClear t s) :=
  onMessage_sound _ _ _ _ (fun s m h => cleanOnly_sound _ _ _ (fun s m h => queueClear_sound _ _ _ h) s m h) h

@[simp] theorem sessionOpen_sound (t : Nat) (s : State) (m : List Word) (h : s.mem.wf = true) : (sessionOpen t s m).mem.wf = true := by
  unfold sessionOpen
  dsimp only
  (repeat' split) <;> simp [h]

@[simp] theorem execSessionOpen_sound (t : Nat) (s : State) (h : s.mem.wf = true) : ResAll (fun t => t.mem.wf = true) (execSessionOpen t s) :=
  onMessage_sound _ _ _ _ (fun s m h => cleanOnly_sound _ _ _ (fun s m h => sessionOpen_sound _ _ _ h) s m h) h

@[simp] theorem closeSession_mem (s : State) (i : Nat) : (closeSession s i).mem = s.mem := (rfl)

@[simp] theorem sessionClose_sound (t : Nat) (s : State) (m : List Word) (h : s.mem.wf = true) : (sessionClose t s m).mem.wf = true := by
  unfold sessionClose
  dsimp only
  (repeat' split) <;> simp [h]

@[simp] theorem execSessionClose_sound (t : Nat) (s : State) (h : s.mem.wf = true) : ResAll (fun t => t.mem.wf = true) (execSessionClose t s) :=
  onMessage_sound _ _ _ _ (fun s m h => cleanOnly_sound _ _ _ (fun s m h => sessionClose_sound _ _ _ h) s m h) h

/-! ## Tenants -/

@[simp] theorem stampRegion_mem (s : State) (t r : Nat) : (stampRegion s t r).mem = s.mem := (rfl)

@[simp] theorem resetRegionEffects_sound (s : State) (t r : Nat) (h : s.mem.wf = true) : (resetRegionEffects s t r).mem.wf = true := by
  simp [resetRegionEffects, h]

@[simp] theorem bumpEpoch_mem (s : State) (t : Nat) : (bumpEpoch s t).mem = s.mem := (rfl)

@[simp] theorem oweReply_mem (s : State) (q seq t : Nat) : (oweReply s q seq t).mem = s.mem := (rfl)

@[simp] theorem cancelTenant_sound (s : State) (t : Nat) (h : s.mem.wf = true) : (cancelTenant s t).mem.wf = true := by
  unfold cancelTenant
  (repeat' split) <;> simp +contextual [h]

@[simp] theorem resetTenantEffects_sound (s : State) (t : Nat) (h : s.mem.wf = true) : (resetTenantEffects s t).mem.wf = true := by
  unfold resetTenantEffects
  (repeat' split) <;> simp +contextual [h]

@[simp] theorem fieldCycle_sound (s : State) (f : Nat) (h : s.mem.wf = true) : (fieldCycle s f).mem.wf = true := by
  unfold fieldCycle
  (repeat' split) <;> simp +contextual [h]

@[simp] theorem applyDeferred_sound (s : State) (t : Nat) (d : Deferred) (h : s.mem.wf = true) : (applyDeferred s t d).mem.wf = true := by
  cases d <;> simp (maxDischargeDepth := 12) +contextual [applyDeferred, h]

@[simp] theorem requestReset_sound (s : State) (t : Nat) (d : Deferred) (h : s.mem.wf = true) : (requestReset s t d).mem.wf = true := by simp [requestReset, h]

@[simp] theorem execEpochIncrement_sound (t : Nat) (s : State) (h : s.mem.wf = true) : ResAll (fun t => t.mem.wf = true) (execEpochIncrement t s) := by
  unfold execEpochIncrement
  (repeat' split) <;> simp [h]

theorem onReset_sound (s : State) (t : Nat) (kinds : List Nat) (f : State → List Word → State)
    (hf : ∀ s m, s.mem.wf = true → (f s m).mem.wf = true) (h : s.mem.wf = true) : ResAll (fun t => t.mem.wf = true) (onReset s t kinds f) := by
  unfold onReset
  split
  · exact h
  · split
    · exact onMessage_sound _ _ _ _ (cleanOnly_sound _ _ _ hf) h
    · exact h

@[simp] theorem resetTenant_sound (t : Nat) (s : State) (m : List Word) (h : s.mem.wf = true) : (resetTenant t s m).mem.wf = true := by
  unfold resetTenant
  (repeat' split) <;> simp [h]

@[simp] theorem execResetTenant_sound (t : Nat) (s : State) (h : s.mem.wf = true) : ResAll (fun t => t.mem.wf = true) (execResetTenant t s) :=
  onReset_sound _ _ _ _ (fun s m h => resetTenant_sound _ _ _ h) h

@[simp] theorem resetRegion_sound (t : Nat) (s : State) (m : List Word) (h : s.mem.wf = true) : (resetRegion t s m).mem.wf = true := by
  unfold resetRegion
  (repeat' split) <;> simp [h]

@[simp] theorem execResetRegion_sound (t : Nat) (s : State) (h : s.mem.wf = true) : ResAll (fun t => t.mem.wf = true) (execResetRegion t s) :=
  onReset_sound _ _ _ _ (fun s m h => resetRegion_sound _ _ _ h) h

@[simp] theorem resetField_sound (t : Nat) (s : State) (m : List Word) (h : s.mem.wf = true) : (resetField t s m).mem.wf = true := by
  unfold resetField
  (repeat' split) <;> simp (maxDischargeDepth := 12) +contextual [h]

@[simp] theorem execResetField_sound (t : Nat) (s : State) (h : s.mem.wf = true) : ResAll (fun t => t.mem.wf = true) (execResetField t s) :=
  onReset_sound _ _ _ _ (fun s m h => resetField_sound _ _ _ h) h

@[simp] theorem execResetReply_sound (t : Nat) (s : State) (h : s.mem.wf = true) : ResAll (fun t => t.mem.wf = true) (execResetReply t s) := by
  unfold execResetReply
  (repeat' split) <;> simp [h]

@[simp] theorem answerField_sound (s : State) (f status reason : Nat) (h : s.mem.wf = true) : (answerField s f status reason).mem.wf = true := by
  unfold answerField
  (repeat' split) <;> simp +contextual [h]

@[simp] theorem execFieldResetOutcome_sound (f : Nat) (s : State) (h : s.mem.wf = true) : ResAll (fun t => t.mem.wf = true) (execFieldResetOutcome f s) := by
  unfold execFieldResetOutcome
  generalize fieldReplyAt s f = n
  dsimp only
  split
  · simp [h]
  · cases (s.field f).liftAt with
    | none => dsimp only; split <;> (try split) <;> simp [h]
    | some l => dsimp only; split <;> split <;> simp [h]

@[simp] theorem absentClauses_sound (s : State) (f : Nat) (h : s.mem.wf = true) : (absentClauses s f).mem.wf = true := by
  unfold absentClauses
  refine foldl_sound _ (fun s _ h => ?_) _ _ h
  (repeat' split) <;> simp [h]

@[simp] theorem fencedNotices_sound (s : State) (f : Nat) (h : s.mem.wf = true) : (fencedNotices s f).mem.wf = true := by
  unfold fencedNotices
  refine foldl_sound _ (fun s _ h => ?_) _ _ h
  (repeat' split) <;> simp [h]

@[simp] theorem shutField_sound (s : State) (f : Nat) (st : FieldState) (h : s.mem.wf = true) : (shutField s f st).mem.wf = true := by
  unfold shutField
  (repeat' split) <;> simp [h]

@[simp] theorem tenantConfig_sound (s : State) (m : List Word) (h : s.mem.wf = true) : (tenantConfig s m).mem.wf = true := by
  unfold tenantConfig
  dsimp only
  (repeat' split) <;> simp [h]

@[simp] theorem queueConfig_sound (s : State) (m : List Word) (h : s.mem.wf = true) : (queueConfig s m).mem.wf = true := by
  unfold queueConfig
  dsimp only
  split <;> simp [h]

@[simp] theorem nextConfigs_sound (s : State) (t n : Nat) (h : s.mem.wf = true) : (nextConfigs s t n).mem.wf = true := by
  induction n generalizing s with
  | zero => exact h
  | succ n ih =>
    unfold nextConfigs
    dsimp only
    (repeat' split) <;> simp [h, ih]

@[simp] theorem execTenantConfig_sound (t : Nat) (s : State) (h : s.mem.wf = true) : ResAll (fun t => t.mem.wf = true) (execTenantConfig t s) := by
  exact onMessage_sound _ _ _ _ (adminOnly_sound _ _ (cleanOnly_sound _ _ _ (fun s m h => queueConfig_sound s m h))) h

@[simp] theorem zeroGranule_sound (s : State) (g : Nat) (h : s.mem.wf = true) : (zeroGranule s g).mem.wf = true := by
  have hs := (wf_iff _).mp h
  exact (wf_iff _).mpr ⟨Memory.wf_clearRun _ _ _ _ hs.1, hs.2⟩

@[simp] theorem closeOutside_mem (s : State) (t : Nat) (st : Settings) : (closeOutside s t st).mem = s.mem := (rfl)

@[simp] theorem execTenantConfigDone_sound (t : Nat) (s : State) (h : s.mem.wf = true) : ResAll (fun t => t.mem.wf = true) (execTenantConfigDone t s) := by
  unfold execTenantConfigDone
  dsimp only
  (repeat' split) <;> simp (maxDischargeDepth := 12) +contextual [h]

end Sys2Proof.Machine
end

