-- ==== Sys2Proof/Laws/KeepWork.lean ====
section
/-!
SUPPORT. Sys2Proof/Laws/KeepWork.lean: what each operation and each meaning does to memory: it leaves it as it is (a name in _mem) or keeps its
canonical form (a name in _sound): the loader, the datapath and the verbs.
-/

namespace Sys2Proof.Machine

/-! ## Loader -/

@[simp] theorem putBytes_sound (s : State) (g : Nat) (bs : List Byte) (h : s.mem.wf = true) : (putBytes s g bs).mem.wf = true := by simp [putBytes, h]

@[simp] theorem spillHeader_sound (s : State) (r : Region) (k count evictions flags : Nat) (h : s.mem.wf = true) : (spillHeader s r k count evictions flags).mem.wf = true := by simp [spillHeader, h]

@[simp] theorem planLoad_sound (t : Nat) (s : State) (m : List Word) (h : s.mem.wf = true) : (planLoad t s m).mem.wf = true := by
  unfold planLoad
  (repeat' split) <;> simp [h]

@[simp] theorem execPlanLoad_sound (t : Nat) (s : State) (h : s.mem.wf = true) : ResAll (fun t => t.mem.wf = true) (execPlanLoad t s) :=
  onMessage_sound _ _ _ _ (fun s m h => cleanOnly_sound _ _ _ (fun s m h => planLoad_sound _ _ _ h) s m h) h

@[simp] theorem installPlan_sound (s : State) (t : Nat) (p : Plan) (h : s.mem.wf = true) : (installPlan s t p).mem.wf = true := by
  unfold installPlan
  dsimp only
  rw [State.modTenant_mem]
  refine foldl_sound _ (fun s r h => foldl_sound _ (fun s k h => spillHeader_sound _ _ _ _ _ _ h) _ _ h) _ _ ?_
  refine foldl_sound _ (fun s k h => ?_) _ _ h
  have hs := (wf_iff _).mp h
  exact (wf_iff _).mpr ⟨hs.1, Memory.wf_clearRun _ _ _ _ hs.2.1, hs.2.2⟩

@[simp] theorem execPlanLoadDone_sound (t : Nat) (s : State) (h : s.mem.wf = true) : ResAll (fun t => t.mem.wf = true) (execPlanLoadDone t s) := by
  unfold execPlanLoadDone
  dsimp only
  (repeat' split) <;> simp [h]

/-! ## Tile -/

@[simp] theorem deliver_sound (s : State) (j : Job) (l2 : Nat) (ws : List (Nat × Nat × Nat)) (h : s.mem.wf = true) : (deliver s j l2 ws).mem.wf = true := by
  unfold deliver
  (repeat' split) <;> simp [h]

/-! ## Context -/

@[simp] theorem writeSave_sound (s : State) (r : Region) (k prio : Nat) (bs : List Byte) (h : s.mem.wf = true) : (writeSave s r k prio bs).mem.wf = true := by simp [writeSave, h]

@[simp] theorem saveHeld_sound (s : State) (k : Nat) (x : Held) (h : s.mem.wf = true) : (saveHeld s k x).mem.wf = true :=
  writeSave_sound _ _ _ _ _ h

@[simp] theorem takeOwner_sound (s : State) (j : Job) (h : s.mem.wf = true) : (takeOwner s j).mem.wf = true := by
  have key : ∀ (s : State), s.mem.wf = true → ∀ f : Cluster → Cluster,
      (if cTarget j.c = 1 then spillHeader (s.modCluster j.k f) j.region j.k 0 0 0 else s.modCluster j.k f).mem.wf = true :=
    fun s h f => ite_sound _ _ _ (fun _ => spillHeader_sound _ _ _ _ _ _ h) (fun _ => h)
  unfold takeOwner
  dsimp only
  split
  · exact h
  · split
    · exact key _ h _
    · split
      · exact h
      · exact key _ (saveHeld_sound _ _ _ h) _

@[simp] theorem stopClause_mem (s : State) (uid : Nat) (v : Verdict) : (stopClause s uid v).mem = s.mem := (rfl)

@[simp] theorem discardTile_mem (s : State) (k uid l2 : Nat) : (discardTile s k uid l2).mem = s.mem := (rfl)

@[simp] theorem flushForming_sound (s : State) (j : Job) (h : s.mem.wf = true) : (flushForming s j).mem.wf = true := by
  unfold flushForming
  dsimp only
  split <;> simp [h]

@[simp] theorem flushMember_sound (s : State) (k uid : Nat) (h : s.mem.wf = true) : (flushMember s k uid).mem.wf = true := by
  unfold flushMember
  (repeat' split) <;> simp [h]

@[simp] theorem dropMember_sound (s : State) (k uid : Nat) (h : s.mem.wf = true) : (dropMember s k uid).mem.wf = true := flushMember_sound s k uid h

@[simp] theorem faultMember_sound (s : State) (k uid : Nat) (v : Verdict) (h : s.mem.wf = true) : (faultMember s k uid v).mem.wf = true := by
  unfold faultMember
  dsimp only
  split <;> simp [h]

@[simp] theorem trapMember_sound (s : State) (k uid : Nat) (v : Verdict) (h : s.mem.wf = true) : (trapMember s k uid v).mem.wf = true :=
  dropMember_sound _ _ _ h

/-! ## Access -/

@[simp] theorem countCorrection_mem (s : State) (ch : Nat) : (countCorrection s ch).mem = s.mem := (rfl)

@[simp] theorem poisonLine_sound (s : State) (l : Nat) (h : s.mem.wf = true) : (poisonLine s l).mem.wf = true := by
  unfold poisonLine
  split <;> exact h

@[simp] theorem applyEcc_sound (s : State) (k : Nat) (ecc : Ecc) (rs : List (Nat × Nat)) (h : s.mem.wf = true) : (applyEcc s k ecc rs).mem.wf = true := by
  unfold applyEcc
  (repeat' split) <;> simp [h]

@[simp] theorem issueRequest_mem (s : State) (j : Job) (kind addr : Nat) (data : List Byte) : (issueRequest s j kind addr data).mem = s.mem := by simp [issueRequest]

@[simp] theorem fetchGranules_mem (s : State) (j : Job) (gs : List Nat) : (fetchGranules s j gs).mem = s.mem := by
  unfold fetchGranules
  (repeat' split) <;> simp [apply_ite State.mem]

@[simp] theorem wakeClusters_mem (s : State) (ks : List Nat) : (wakeClusters s ks).mem = s.mem := by simp [wakeClusters]

@[simp] theorem storeOutputs_sound (s : State) (j : Job) (ecc : Ecc) (ws : List (Nat × Nat × Nat)) (h : s.mem.wf = true) : (storeOutputs s j ecc ws).mem.wf = true := by
  simp (maxDischargeDepth := 12) [storeOutputs, h]

/-! ## Landing -/

@[simp] theorem markStarted_mem (s : State) (uid : Nat) : (markStarted s uid).mem = s.mem := (rfl)

@[simp] theorem markFinished_mem (s : State) (k uid : Nat) : (markFinished s k uid).mem = s.mem := (rfl)

@[simp] theorem forget_mem (s : State) (j : Job) (rs : List (Nat × Nat)) : (forget s j rs).mem = s.mem := (rfl)

@[simp] theorem checkLanded_mem (s : State) (j : Job) (l2 : Nat) : (checkLanded s j l2).mem = s.mem := by
  unfold checkLanded
  (repeat' split) <;> simp

@[simp] theorem startTile_sound (s : State) (j : Job) (h : s.mem.wf = true) : (startTile s j).mem.wf = true := by
  unfold startTile
  dsimp only
  (repeat' split) <;> simp [h]

@[simp] theorem landItems_sound (s : State) (is : List LandItem) (h : s.mem.wf = true) : (landItems s is).mem.wf = true := by
  unfold landItems
  dsimp only
  refine foldl_sound _ (fun s e h => startTile_sound _ _ (by rw [checkLanded_mem]; exact h)) _ _ ?_
  rw [foldl_mem _ (fun s i => foldl_mem _ (fun s m => State.modCluster_mem s _ _) _ _)]
  exact h

@[simp] theorem landBad_sound (s : State) (is : List LandItem) (v : Verdict) (h : s.mem.wf = true) : (landBad s is v).mem.wf = true :=
  foldl_sound _ (fun s i h => foldl_sound _ (fun s m h => startTile_sound _ _ (by rw [State.modCluster_mem]; exact h)) _ _ h) _ _ h

@[simp] theorem pumpLand_sound (s : State) (j : Job) (is : List LandItem) (ecc : Ecc) (h : s.mem.wf = true) : (pumpLand s j is ecc).mem.wf = true := by
  unfold pumpLand
  dsimp only
  generalize hs : (if startsClause is = true then markStarted s j.f.uid else s) = u
  have h1 : u.mem.wf = true := hs ▸ ite_sound _ _ _ (fun _ => h) (fun _ => h)
  split
  · rw [fetchGranules_mem]; exact h1
  · rw [wakeClusters_mem]; exact h1
  · exact landBad_sound _ _ _ (applyEcc_sound _ _ _ _ h1)
  · exact landItems_sound _ _ (by rw [forget_mem]; exact race_sound _ _ _ _ (applyEcc_sound _ _ _ _ h1))

@[simp] theorem landNothing_sound (s : State) (k : Nat) (h : s.mem.wf = true) : (landNothing s k).mem.wf = true := by
  unfold landNothing
  (repeat' split) <;> simp [h]

@[simp] theorem execLandingComplete_sound (k : Nat) (ecc : Ecc) (s : State) (h : s.mem.wf = true) : ResAll (fun t => t.mem.wf = true) (execLandingComplete k ecc s) := by
  unfold execLandingComplete
  split <;> simp [h]

/-! ## Datapath -/

@[simp] theorem wakeDone_mem (s : State) (k : Nat) : (wakeDone s k).mem = s.mem := (rfl)

@[simp] theorem execClusterWake_mem (k : Nat) (s : State) : ResAll (fun t => t.mem = s.mem) (execClusterWake k s) := by
  unfold execClusterWake
  dsimp only
  (repeat' split) <;> simp

@[simp] theorem execPolledWake_mem (k : Nat) (s : State) : ResAll (fun t => t.mem = s.mem) (execPolledWake k s) := by
  unfold execPolledWake
  dsimp only
  (repeat' split) <;> simp

@[simp] theorem execClusterDormant_mem (k : Nat) (s : State) : ResAll (fun t => t.mem = s.mem) (execClusterDormant k s) := by
  unfold execClusterDormant
  dsimp only
  (repeat' split) <;> simp

@[simp] theorem execSlotTake_mem (k : Nat) (s : State) : ResAll (fun t => t.mem = s.mem) (execSlotTake k s) := by
  unfold execSlotTake
  dsimp only
  (repeat' split) <;> simp

@[simp] theorem setRun_mem (s : State) (k : Nat) (r : TileRun) : (setRun s k r).mem = s.mem := (rfl)

@[simp] theorem foldCounts_mem (s : State) (j : Job) (r : TileRun) : (foldCounts s j r).mem = s.mem := (rfl)

@[simp] theorem storePartial_sound (s : State) (j : Job) (k n cols : Nat) (p : Partial) (h : s.mem.wf = true) : (storePartial s j k n cols p).mem.wf = true := by
  unfold storePartial
  dsimp only
  split <;> simp [h]

theorem leaveTile_sound (s t : State) (j : Job) (r : TileRun) (h : leaveTile s j r = some t) (hs : s.mem.wf = true) : t.mem.wf = true := by
  unfold leaveTile at h
  dsimp only at h
  (repeat' split at h) <;> first | (cases h; done) | (obtain rfl := Option.some.inj h; simp [hs])

@[simp] theorem stageNext_mem (s : State) (j : Job) (r : TileRun) (t : Tile) : (stageNext s j r t).mem = s.mem := (rfl)

@[simp] theorem execWeightBlockLoad_sound (k : Nat) (s : State) (h : s.mem.wf = true) : ResAll (fun t => t.mem.wf = true) (execWeightBlockLoad k s) := by
  unfold execWeightBlockLoad
  split
  · exact h
  · split
    · split
      · exact h
      · split
        · exact h
        · split
          · exact h
          · next hl => simp [leaveTile_sound _ _ _ _ hl h]
    · exact h

@[simp] theorem execPassIssue_sound (k : Nat) (s : State) (h : s.mem.wf = true) : ResAll (fun t => t.mem.wf = true) (execPassIssue k s) := by
  unfold execPassIssue
  (repeat' split) <;> simp [h]

@[simp] theorem execPassCommit_mem (k : Nat) (s : State) : ResAll (fun t => t.mem = s.mem) (execPassCommit k s) := by
  unfold execPassCommit
  (repeat' split) <;> simp

@[simp] theorem execSettlementEffect_mem (k : Nat) (s : State) : ResAll (fun t => t.mem = s.mem) (execSettlementEffect k s) := by
  unfold execSettlementEffect
  dsimp only
  (repeat' split) <;> simp

@[simp] theorem execBankCombine_mem (k : Nat) (bank : Nat) (s : State) : ResAll (fun t => t.mem = s.mem) (execBankCombine k bank s) := (rfl)

@[simp] theorem requantize_sound (s : State) (j : Job) (t : Tile) (r : TileRun) (v : Nat) (ecc : Ecc) (h : s.mem.wf = true) : (requantize s j t r v ecc).mem.wf = true := by
  unfold requantize
  dsimp only
  (repeat' split) <;> simp [h]

@[simp] theorem requantVector_sound (k : Nat) (ecc : Ecc) (s : State) (h : s.mem.wf = true) : ResAll (fun t => t.mem.wf = true) (requantVector k ecc s) := by
  unfold requantVector
  dsimp only
  (repeat' split) <;> simp [h]
@[simp] theorem execRequantVector_sound (u : UnitRun) (s : State) (h : s.mem.wf = true) :
    ResAll (fun t => t.mem.wf = true) (execRequantVector u s) := requantVector_sound _ _ s h

@[simp] theorem execHashUpdate_mem (k : Nat) (s : State) : ResAll (fun t => t.mem = s.mem) (execHashUpdate k s) := by
  unfold execHashUpdate
  dsimp only
  (repeat' split) <;> simp

@[simp] theorem putRecord_sound (s : State) (r : Region) (k n : Nat) (e : Int × Nat) (h : s.mem.wf = true) : (putRecord s r k n e).mem.wf = true := by simp [putRecord, h]

@[simp] theorem spillFull_sound (s : State) (j : Job) (l2 : Nat) (h : s.mem.wf = true) : (spillFull s j l2).mem.wf = true := by simp [spillFull, h]

@[simp] theorem execSpillRecordWrite_sound (k : Nat) (s : State) (h : s.mem.wf = true) : ResAll (fun t => t.mem.wf = true) (execSpillRecordWrite k s) := by
  unfold execSpillRecordWrite
  dsimp only
  (repeat' split) <;> simp [h]

@[simp] theorem drainHash_sound (s : State) (j : Job) (h : s.mem.wf = true) : (drainHash s j).mem.wf = true := by
  unfold drainHash
  (repeat' split) <;> simp (maxDischargeDepth := 12) +contextual [h]

@[simp] theorem finishMember_mem (s : State) (k : Nat) : (finishMember s k).mem = s.mem := by
  unfold finishMember
  dsimp only
  (repeat' split) <;> simp

@[simp] theorem execHashDrain_sound (k : Nat) (s : State) (h : s.mem.wf = true) : ResAll (fun t => t.mem.wf = true) (execHashDrain k s) := by
  unfold execHashDrain
  dsimp only
  (repeat' split) <;> simp [h]

@[simp] theorem execRankAccept_sound (k : Nat) (s : State) (h : s.mem.wf = true) : ResAll (fun t => t.mem.wf = true) (execRankAccept k s) := by
  unfold execRankAccept
  dsimp only
  (repeat' split) <;> simp [h]

@[simp] theorem execRankFloorUpdate_mem (k : Nat) (s : State) : ResAll (fun t => t.mem = s.mem) (execRankFloorUpdate k s) := by
  unfold execRankFloorUpdate
  dsimp only
  (repeat' split) <;> simp

@[simp] theorem execRankGroupClose_sound (k : Nat) (s : State) (h : s.mem.wf = true) : ResAll (fun t => t.mem.wf = true) (execRankGroupClose k s) := by
  unfold execRankGroupClose
  dsimp only
  (repeat' split) <;> simp [h]

@[simp] theorem execMergeSlotGrant_sound (k : Nat) (s : State) (h : s.mem.wf = true) : ResAll (fun t => t.mem.wf = true) (execMergeSlotGrant k s) := by
  unfold execMergeSlotGrant
  dsimp only
  (repeat' split) <;> simp [h]

@[simp] theorem execMergeStep_mem (k : Nat) (s : State) : ResAll (fun t => t.mem = s.mem) (execMergeStep k s) := by
  unfold execMergeStep
  dsimp only
  (repeat' split) <;> simp

@[simp] theorem yieldOwner_sound (s : State) (j : Job) (h : s.mem.wf = true) : (yieldOwner s j).mem.wf = true := by simp [yieldOwner, h]

@[simp] theorem yieldIfHigher_sound (s : State) (j : Job) (h : s.mem.wf = true) : (yieldIfHigher s j).mem.wf = true := by simp [yieldIfHigher, h]

@[simp] theorem nextL2_sound (s : State) (j : Job) (r : TileRun) (h : s.mem.wf = true) : (nextL2 s j r).mem.wf = true := by
  unfold nextL2
  (repeat' split) <;> simp [h]

@[simp] theorem execL2TileBoundary_sound (k : Nat) (s : State) (h : s.mem.wf = true) : ResAll (fun t => t.mem.wf = true) (execL2TileBoundary k s) := by
  unfold execL2TileBoundary
  dsimp only
  split
  · split <;> simp [h]
  · split
    · split <;> simp [h]
    · split
      · simp [h]
      · split
        · split
          · next hl => simp [leaveTile_sound _ _ _ _ hl h]
          · simp [h]
        · split <;> simp [h]

@[simp] theorem restoreContext_sound (k : Nat) (ecc : Ecc) (s : State) (h : s.mem.wf = true) : ResAll (fun t => t.mem.wf = true) (restoreContext k ecc s) := by
  unfold restoreContext
  dsimp only
  (repeat' split) <;> simp [h]
@[simp] theorem execContextRestore_sound (u : UnitRun) (s : State) (h : s.mem.wf = true) :
    ResAll (fun t => t.mem.wf = true) (execContextRestore u s) := restoreContext_sound _ _ s h

@[simp] theorem execOutWriteBack_sound (k : Nat) (ecc : Ecc) (s : State) (h : s.mem.wf = true) : ResAll (fun t => t.mem.wf = true) (execOutWriteBack k ecc s) := by
  unfold execOutWriteBack
  dsimp only
  (repeat' split) <;> simp [h]

@[simp] theorem execClauseComplete_sound (t : Nat) (tag : BitVec 16) (s : State) (h : s.mem.wf = true) : ResAll (fun t => t.mem.wf = true) (execClauseComplete t tag s) := by
  unfold execClauseComplete
  (repeat' split) <;> simp [h]

/-! ## Contract -/

theorem after_mem (r : Res) (s : State) (h : ResAll (fun t => t.mem = s.mem) r) : (after r s).mem = s.mem := by
  cases r with
  | next t => exact h
  | fault e => rfl
  | refused e => rfl

theorem after_sound (r : Res) (s : State) (h : s.mem.wf = true) (hr : ResAll (fun t => t.mem.wf = true) r) :
    (after r s).mem.wf = true := by
  cases r with
  | next t => exact hr
  | fault e => exact h
  | refused e => exact h

theorem untilStill_sound (f : State → State) (hf : ∀ s, s.mem.wf = true → (f s).mem.wf = true) (n : Nat) (s : State) (h : s.mem.wf = true) :
    (untilStill f n s).mem.wf = true := by
  induction n generalizing s with
  | zero => exact h
  | succ n ih =>
    unfold untilStill
    dsimp only
    split
    · exact h
    · exact ih _ (hf _ h)

@[simp] theorem takeAll_mem (s : State) (k : Nat) : (takeAll s k).mem = s.mem :=
  foldl_mem _ (fun s _ => after_mem _ _ (execSlotTake_mem k s)) _ _

theorem clusterCycle_sound (k : Nat) (s : State) (h : s.mem.wf = true) : (clusterCycle k s).mem.wf = true := by
  have keep : ∀ (g : State → Res), (∀ s, ResAll (fun t => t.mem = s.mem) (g s)) → ∀ s, s.mem.wf = true → (after (g s) s).mem.wf = true :=
    fun g hg s h => by rw [after_mem _ _ (hg s)]; exact h
  have hold : ∀ (g : State → Res), (∀ s, s.mem.wf = true → ResAll (fun t => t.mem.wf = true) (g s)) → ∀ s, s.mem.wf = true →
      (after (g s) s).mem.wf = true := fun g hg s h => after_sound _ _ h (hg s h)
  unfold clusterCycle
  refine hold _ (fun s h => restoreContext_sound k .clean s h) _ ?_
  refine hold _ (fun s h => execL2TileBoundary_sound k s h) _ ?_
  refine hold _ (fun s h => execHashDrain_sound k s h) _ ?_
  refine hold _ (fun s h => execOutWriteBack_sound k .clean s h) _ ?_
  refine hold _ (fun s h => execRankGroupClose_sound k s h) _ ?_
  refine keep _ (execRankFloorUpdate_mem k) _ ?_
  refine hold _ (fun s h => execRankAccept_sound k s h) _ ?_
  refine hold _ (fun s h => requantVector_sound k .clean s h) _ ?_
  refine keep _ (execMergeStep_mem k) _ ?_
  refine hold _ (fun s h => execMergeSlotGrant_sound k s h) _ ?_
  refine hold _ (fun s h => execSpillRecordWrite_sound k s h) _ ?_
  refine keep _ (execHashUpdate_mem k) _ ?_
  refine foldl_sound _ (fun s b h => keep _ (execBankCombine_mem k b) s h) _ _ ?_
  refine untilStill_sound _ (fun s h => keep _ (execPassCommit_mem k) s h) _ _ ?_
  refine hold _ (fun s h => execPassIssue_sound k s h) _ ?_
  refine keep _ (execSettlementEffect_mem k) _ ?_
  refine hold _ (fun s h => execWeightBlockLoad_sound k s h) _ ?_
  refine hold _ (fun s h => execLandingComplete_sound k .clean s h) _ ?_
  simp [h]

theorem clauseRound_sound (uid : Nat) (s : State) (h : s.mem.wf = true) : (clauseRound uid s).mem.wf = true := by
  unfold clauseRound
  split
  · exact h
  · exact foldl_sound _ (fun s k h => clusterCycle_sound k s h) _ _ h

@[simp] theorem runClause_sound (s : State) (uid : Nat) (h : s.mem.wf = true) : (runClause s uid).mem.wf = true :=
  untilStill_sound _ (clauseRound_sound uid) _ _ h

@[simp] theorem contraction_sound (verb t : Nat) (tag : BitVec 16) (s : State) (h : s.mem.wf = true) : ResAll (fun t => t.mem.wf = true) (contraction verb t tag s) := by
  unfold contraction
  (repeat' split) <;> simp [h]

@[simp] theorem execContract_sound (t : Nat) (tag : BitVec 16) (s : State) (h : s.mem.wf = true) : ResAll (fun t => t.mem.wf = true) (execContract t tag s) := by simp [execContract, h]

@[simp] theorem execContractSparse_sound (t : Nat) (tag : BitVec 16) (s : State) (h : s.mem.wf = true) : ResAll (fun t => t.mem.wf = true) (execContractSparse t tag s) := by simp [execContractSparse, h]

/-! ## Verbs -/

theorem onVerb_sound (s : State) (t : Nat) (tag : BitVec 16) (ok : Clause → Bool) (isReady : State → Flight → Bool)
    (body : State → Flight → List Job → State) (hb : ∀ s f js, s.mem.wf = true → (body s f js).mem.wf = true) (h : s.mem.wf = true) :
    ResAll (fun t => t.mem.wf = true) (onVerb s t tag ok isReady body) := by
  unfold onVerb
  split
  · exact h
  · next f _ =>
    have h1 : (f.waiting.foldl takeAll s).mem.wf = true := by simp [h]
    exact resAll_ite _ _ _ _ (fun _ => hb _ _ _ (by simp [h])) (fun _ => h1)

@[simp] theorem endVerb_mem (s : State) (f : Flight) : (endVerb s f).mem = s.mem := by simp [endVerb]

@[simp] theorem stopVerb_sound (s : State) (f : Flight) (v : Verdict) (h : s.mem.wf = true) : (stopVerb s f v).mem.wf = true :=
  foldl_sound _ (fun s k h => dropMember_sound s k f.uid h) _ _ h

@[simp] theorem noteBits_mem (s : State) (f : Flight) (sat inexact clip : Bool) : (noteBits s f sat inexact clip).mem = s.mem := (rfl)

theorem neededFirst_mem (s t : State) (ls : List (Job × Landing)) (h : neededFirst s ls = some t) : t.mem = s.mem := by
  unfold neededFirst at h
  dsimp only at h
  split at h
  · cases h
  · obtain rfl := Option.some.inj h
    refine foldl_mem _ (fun s e => ?_) _ _
    split <;> simp

@[simp] theorem walkRead_sound (w : Walk) (j : Job) (l2 : Nat) (rs : List (Nat × Nat)) (h : w.s.mem.wf = true) : (walkRead w j l2 rs).s.mem.wf = true := by
  unfold walkRead
  dsimp only
  (repeat' split) <;> simp [h]

@[simp] theorem walkWrite_sound (w : Walk) (j : Job) (l2 : Nat) (ws : List (Nat × Nat × Nat)) (h : w.s.mem.wf = true) : (walkWrite w j l2 ws).s.mem.wf = true := by
  unfold walkWrite
  (repeat' split) <;> simp [h]

@[simp] theorem walkStop_s (w : Walk) (v : Option Verdict) : (walkStop w v).s = w.s := (rfl)

@[simp] theorem walkBits_mem (w : Walk) (f : Flight) (a b c : Bool) : (walkBits w f a b c).s.mem = w.s.mem := by
  unfold walkBits
  split <;> rfl

@[simp] theorem walkEnd_sound (w : Walk) (f : Flight) (h : w.s.mem.wf = true) : (walkEnd w f).mem.wf = true := by
  unfold walkEnd
  split <;> simp [h]

/-- A fold whose every step keeps a property keeps it. -/
theorem foldl_keeps {α β : Type} (P : α → Prop) (g : α → β → α) (hg : ∀ a b, P a → P (g a b)) (l : List β) (a : α) (h : P a) :
    P (l.foldl g a) := by
  induction l generalizing a with
  | nil => exact h
  | cons b l ih => exact ih _ (hg _ _ h)

theorem doTile_sound (v : TileVerb) (j : Job) (a : Walk × Waiting) (e : Nat × List Nat) (h : a.1.s.mem.wf = true) :
    (doTile v j a e).1.s.mem.wf = true := by
  unfold doTile
  dsimp only
  split
  · simp [h]
  · split <;> simp [h]

theorem flushWaiting_sound (v : TileVerb) (j : Job) (a : Walk × Waiting) (h : a.1.s.mem.wf = true) : (flushWaiting v j a).s.mem.wf = true := by
  unfold flushWaiting
  dsimp only
  split <;> simp [h]

@[simp] theorem runTiles_sound (v : TileVerb) (ecc : Ecc) (s : State) (f : Flight) (js : List Job) (h : s.mem.wf = true) :
    (runTiles v ecc s f js).mem.wf = true := by
  unfold runTiles
  split
  · next hn => rw [neededFirst_mem _ _ _ hn]; exact h
  · split
    · next hn => rw [neededFirst_mem _ _ _ hn]; exact h
    · exact walkEnd_sound _ _ (foldl_keeps (fun w : Walk => w.s.mem.wf = true) _ (fun w j h => flushWaiting_sound _ _ _
        (foldl_keeps (fun a : Walk × Waiting => a.1.s.mem.wf = true) _ (fun a e h => doTile_sound _ _ _ _ h) _ _ h)) _ _ h)

@[simp] theorem pointwise_sound (op t : Nat) (tag : BitVec 16) (ecc : Ecc) (s : State) (h : s.mem.wf = true) :
    ResAll (fun t => t.mem.wf = true) (pointwise op t tag ecc s) := onVerb_sound _ _ _ _ _ _ (fun s f js h => runTiles_sound _ _ s f js h) h

@[simp] theorem execPointwisePass_sound (t : Nat) (run : VerbRun) (s : State) (h : s.mem.wf = true) :
    ResAll (fun t => t.mem.wf = true) (execPointwisePass t run s) := pointwise_sound _ _ _ _ _ h

@[simp] theorem execPointwiseAdd_sound (t : Nat) (run : VerbRun) (s : State) (h : s.mem.wf = true) :
    ResAll (fun t => t.mem.wf = true) (execPointwiseAdd t run s) := pointwise_sound _ _ _ _ _ h

@[simp] theorem execPointwiseSub_sound (t : Nat) (run : VerbRun) (s : State) (h : s.mem.wf = true) :
    ResAll (fun t => t.mem.wf = true) (execPointwiseSub t run s) := pointwise_sound _ _ _ _ _ h

@[simp] theorem execPointwiseMul_sound (t : Nat) (run : VerbRun) (s : State) (h : s.mem.wf = true) :
    ResAll (fun t => t.mem.wf = true) (execPointwiseMul t run s) := pointwise_sound _ _ _ _ _ h

@[simp] theorem execPointwiseMax_sound (t : Nat) (run : VerbRun) (s : State) (h : s.mem.wf = true) :
    ResAll (fun t => t.mem.wf = true) (execPointwiseMax t run s) := pointwise_sound _ _ _ _ _ h

@[simp] theorem execPointwiseMin_sound (t : Nat) (run : VerbRun) (s : State) (h : s.mem.wf = true) :
    ResAll (fun t => t.mem.wf = true) (execPointwiseMin t run s) := pointwise_sound _ _ _ _ _ h

@[simp] theorem execGather_sound (t : Nat) (run : VerbRun) (s : State) (h : s.mem.wf = true) :
    ResAll (fun t => t.mem.wf = true) (execGather t run s) := onVerb_sound _ _ _ _ _ _ (fun s f js h => runTiles_sound _ _ _ _ _ h) h

@[simp] theorem execScatter_sound (t : Nat) (run : VerbRun) (s : State) (h : s.mem.wf = true) :
    ResAll (fun t => t.mem.wf = true) (execScatter t run s) := onVerb_sound _ _ _ _ _ _ (fun s f js h => runTiles_sound _ _ _ _ _ h) h

@[simp] theorem execPumpMapped_sound (t : Nat) (run : VerbRun) (s : State) (h : s.mem.wf = true) :
    ResAll (fun t => t.mem.wf = true) (execPumpMapped t run s) := onVerb_sound _ _ _ _ _ _ (fun s f js h => runTiles_sound _ _ _ _ _ h) h

@[simp] theorem execCompress_sound (t : Nat) (run : VerbRun) (s : State) (h : s.mem.wf = true) :
    ResAll (fun t => t.mem.wf = true) (execCompress t run s) := onVerb_sound _ _ _ _ _ _ (fun s f js h => runTiles_sound _ _ _ _ _ h) h

@[simp] theorem execExpand_sound (t : Nat) (run : VerbRun) (s : State) (h : s.mem.wf = true) :
    ResAll (fun t => t.mem.wf = true) (execExpand t run s) := onVerb_sound _ _ _ _ _ _ (fun s f js h => runTiles_sound _ _ _ _ _ h) h

@[simp] theorem untiled_sound (reads : State → Job → List (Nat × Nat)) (work : State → Job → TileOut) (ecc : Ecc) (s : State) (f : Flight) (js : List Job)
    (h : s.mem.wf = true) : (untiled reads work ecc s f js).mem.wf = true := by
  unfold untiled
  split
  · next hn => rw [neededFirst_mem _ _ _ hn]; exact h
  · split
    · next hn => rw [neededFirst_mem _ _ _ hn]; exact h
    · refine walkEnd_sound _ _ (foldl_keeps (fun w : Walk => w.s.mem.wf = true) _ (fun w j h => ?_) _ _ h)
      dsimp only
      split <;> simp [h]

@[simp] theorem execPumpBytes_sound (t : Nat) (run : VerbRun) (s : State) (h : s.mem.wf = true) :
    ResAll (fun t => t.mem.wf = true) (execPumpBytes t run s) := onVerb_sound _ _ _ _ _ _ (fun s f js h => untiled_sound _ _ _ _ _ _ h) h

@[simp] theorem execMaskloadS24_sound (t : Nat) (run : VerbRun) (s : State) (h : s.mem.wf = true) :
    ResAll (fun t => t.mem.wf = true) (execMaskloadS24 t run s) := onVerb_sound _ _ _ _ _ _ (fun s f js h => untiled_sound _ _ _ _ _ _ h) h

@[simp] theorem execMaskloadS24T_sound (t : Nat) (run : VerbRun) (s : State) (h : s.mem.wf = true) :
    ResAll (fun t => t.mem.wf = true) (execMaskloadS24T t run s) := onVerb_sound _ _ _ _ _ _ (fun s f js h => untiled_sound _ _ _ _ _ _ h) h

@[simp] theorem readMembers_sound (reads : State → Job → List (Nat × Nat)) (w : Walk) (js : List Job) (h : w.s.mem.wf = true) :
    (readMembers reads w js).s.mem.wf = true :=
  foldl_keeps (fun w : Walk => w.s.mem.wf = true) _ (fun w j h => walkRead_sound _ _ _ _ h) _ _ h

@[simp] theorem lutBody_sound (ecc : Ecc) (s : State) (f : Flight) (js : List Job) (h : s.mem.wf = true) : (lutBody ecc s f js).mem.wf = true := by
  have hw := readMembers_sound lutReads { s := s, ecc := ecc } js h
  unfold lutBody
  dsimp only
  split
  · next hn => rw [neededFirst_mem _ _ _ hn]; exact h
  · exact ite_sound _ _ _ (fun _ => walkEnd_sound _ _ hw) (fun _ => by simp [hw])

@[simp] theorem execLutload_sound (t : Nat) (run : VerbRun) (s : State) (h : s.mem.wf = true) :
    ResAll (fun t => t.mem.wf = true) (execLutload t run s) := onVerb_sound _ _ _ _ _ _ (fun s f js h => lutBody_sound _ s f js h) h

@[simp] theorem saveBody_sound (ecc : Ecc) (s : State) (f : Flight) (js : List Job) (h : s.mem.wf = true) : (saveBody ecc s f js).mem.wf = true := by
  unfold saveBody
  dsimp only
  split
  · simp [h]
  · split
    · simp [h]
    · split
      · next hn => rw [neededFirst_mem _ _ _ hn]; exact h
      · have hw : ((js.foldl (fun w j => walkWrite w j 0xFFFFFFFF (saveWrites s js j)) { s := s, ecc := ecc } : Walk)).s.mem.wf = true :=
          foldl_keeps (fun w : Walk => w.s.mem.wf = true) _ (fun w j h => walkWrite_sound _ _ _ _ h) _ _ h
        split <;> simp [hw]

@[simp] theorem execSave_sound (t : Nat) (run : VerbRun) (s : State) (h : s.mem.wf = true) :
    ResAll (fun t => t.mem.wf = true) (execSave t run s) := onVerb_sound _ _ _ _ _ _ (fun s f js h => saveBody_sound _ s f js h) h

@[simp] theorem restoreMember_mem (s : State) (j : Job) : (restoreMember s j).mem = s.mem := (rfl)

@[simp] theorem restoreBody_sound (ecc : Ecc) (s : State) (f : Flight) (js : List Job) (h : s.mem.wf = true) : (restoreBody ecc s f js).mem.wf = true := by
  unfold restoreBody
  dsimp only
  split
  · next hn => rw [neededFirst_mem _ _ _ hn]; exact h
  · refine ite_sound _ _ _ (fun _ => by simp [h]) (fun _ => ?_)
    split
    · next hn => rw [neededFirst_mem _ _ _ hn]; exact h
    · have hw := fun c => readMembers_sound imageReads (walkStop (readMembers headerReads { s := s, ecc := ecc } js) c) js (by simp [h])
      refine ite_sound _ _ _ (fun _ => walkEnd_sound _ _ (hw _)) (fun _ => ?_)
      rw [endVerb_mem, foldl_mem _ restoreMember_mem]
      exact hw _

@[simp] theorem execRestore_sound (t : Nat) (run : VerbRun) (s : State) (h : s.mem.wf = true) :
    ResAll (fun t => t.mem.wf = true) (execRestore t run s) := onVerb_sound _ _ _ _ _ _ (fun s f js h => restoreBody_sound _ s f js h) h

@[simp] theorem execBind_sound (t : Nat) (prio : Nat) (s : State) (h : s.mem.wf = true) : ResAll (fun t => t.mem.wf = true) (execBind t prio s) := by
  unfold execBind
  (repeat' split) <;> simp [h]

@[simp] theorem execFence_sound (t : Nat) (tag : BitVec 16) (s : State) (h : s.mem.wf = true) : ResAll (fun t => t.mem.wf = true) (execFence t tag s) := by
  unfold execFence
  (repeat' split) <;> simp [h]

@[simp] theorem execSignal_sound (t : Nat) (tag : BitVec 16) (s : State) (h : s.mem.wf = true) : ResAll (fun t => t.mem.wf = true) (execSignal t tag s) := by
  unfold execSignal
  (repeat' split) <;> simp [h]

@[simp] theorem execWait_sound (t : Nat) (tag : BitVec 16) (s : State) (h : s.mem.wf = true) : ResAll (fun t => t.mem.wf = true) (execWait t tag s) := by
  unfold execWait
  (repeat' split) <;> simp [h]

@[simp] theorem execWaitTimeout_sound (t : Nat) (tag : BitVec 16) (s : State) (h : s.mem.wf = true) : ResAll (fun t => t.mem.wf = true) (execWaitTimeout t tag s) := by
  unfold execWaitTimeout
  dsimp only
  (repeat' split) <;> simp [h]

/-! ## Reduce -/

theorem readMemberTile_sound (reads : State → Job → List Nat → List (Nat × Nat)) (j : Job) (a : TileReads) (e : Nat × List Nat)
    (h : a.s.mem.wf = true) : (readMemberTile reads j a e).s.mem.wf = true := by
  unfold readMemberTile
  dsimp only
  (repeat' split) <;> simp [h]

@[simp] theorem readTiles_sound (reads : State → Job → List Nat → List (Nat × Nat)) (ecc : Ecc) (s : State) (js : List Job) (h : s.mem.wf = true) :
    (readTiles reads ecc s js).s.mem.wf = true :=
  foldl_keeps (fun a : TileReads => a.s.mem.wf = true) _ (fun a j h =>
    foldl_keeps (fun a : TileReads => a.s.mem.wf = true) _ (fun a e h => readMemberTile_sound _ _ _ _ h) _ _ h) _ _ h

@[simp] theorem walkGroup_sound (w : Walk) (j : Job) (l2 : Nat) (ws : List (Nat × Nat × Nat)) (a b c : Bool) (h : w.s.mem.wf = true) :
    (walkGroup w j l2 ws a b c).s.mem.wf = true := by simp [walkGroup, h]

theorem writeRed_sound (j : Job) (a : Walk × List (Nat × OutItem)) (g : RedGroup) (h : a.1.s.mem.wf = true) : (writeRed j a g).1.s.mem.wf = true := by
  unfold writeRed
  dsimp only
  (repeat' split) <;> simp [h]

theorem flushRed_sound (j : Job) (a : Walk × List (Nat × OutItem)) (h : a.1.s.mem.wf = true) : (flushRed j a).s.mem.wf = true := by
  unfold flushRed
  dsimp only
  split <;> simp [h]

@[simp] theorem holdGroup_mem (s : State) (j : Job) (g : Option RedGroup) : (holdGroup s j g).mem = s.mem := by
  unfold holdGroup
  split <;> rfl

@[simp] theorem releaseUnit_mem (s : State) (j : Job) : (releaseUnit s j).mem = s.mem := (rfl)

@[simp] theorem hashEnter_sound (j : Job) (s : State) (u : Nat × Nat × Int × Bool) (h : s.mem.wf = true) : (hashEnter j s u).mem.wf = true := by
  unfold hashEnter
  split
  · exact h
  · exact untilStill_sound _ (fun s h => after_sound _ _ h (execSpillRecordWrite_sound _ _ h)) _ _ h

@[simp] theorem takeReduce_sound (s : State) (j : Job) (h : s.mem.wf = true) : (takeReduce s j).mem.wf = true := by
  unfold takeReduce
  dsimp only
  split <;> simp [h]

@[simp] theorem hashMember_sound (bad : List (Nat × Verdict)) (s : State) (j : Job) (h : s.mem.wf = true) : (hashMember bad s j).mem.wf = true :=
  foldl_sound _ (fun s u h => hashEnter_sound j s u h) _ _ h

@[simp] theorem drainMember_sound (s : State) (j : Job) (h : s.mem.wf = true) : (drainMember s j).mem.wf = true := by
  unfold drainMember
  dsimp only
  (repeat' split) <;> simp [h]

@[simp] theorem reduceRun_sound (ecc : Ecc) (s : State) (f : Flight) (js : List Job) (h : s.mem.wf = true) : (reduceRun ecc s f js).mem.wf = true := by
  have h1 : (js.foldl takeReduce (readTiles reduceReads ecc s js).s).mem.wf = true :=
    foldl_sound _ (fun s j h => takeReduce_sound s j h) _ _ (by simp [h])
  have h2 : (js.foldl (hashMember (readTiles reduceReads ecc s js).bad) (js.foldl takeReduce (readTiles reduceReads ecc s js).s)).mem.wf = true :=
    foldl_sound _ (fun s j h => hashMember_sound _ s j h) _ _ h1
  unfold reduceRun
  dsimp only
  generalize hw : List.foldl _ (Walk.mk _ _ _) _ = w
  have h3 : w.s.mem.wf = true := by
    rw [← hw]
    refine foldl_keeps (fun w : Walk => w.s.mem.wf = true) _ (fun w e h => flushRed_sound _ _ ?_) _ _ h2
    exact foldl_keeps (fun a : Walk × List (Nat × OutItem) => a.1.s.mem.wf = true) _ (fun a g h => writeRed_sound _ _ _ h) _ _ h
  split
  · simp [h3]
  · have h4 : (js.foldl drainMember w.s).mem.wf = true := foldl_sound _ (fun s j h => drainMember_sound s j h) _ _ h3
    split
    · simp [h4]
    · rw [endVerb_mem]
      exact foldl_sound _ (fun s e h => by split <;> simp [h]) _ _ h4

@[simp] theorem reduceBody_sound (ecc : Ecc) (s : State) (f : Flight) (js : List Job) (h : s.mem.wf = true) : (reduceBody ecc s f js).mem.wf = true := by
  unfold reduceBody
  dsimp only
  split
  · next hn => rw [neededFirst_mem _ _ _ hn]; exact h
  · split
    · next hn => rw [neededFirst_mem _ _ _ hn]; exact h
    · simp [h]

@[simp] theorem reduce_sound (op t : Nat) (tag : BitVec 16) (ecc : Ecc) (s : State) (h : s.mem.wf = true) :
    ResAll (fun t => t.mem.wf = true) (reduce op t tag ecc s) := onVerb_sound _ _ _ _ _ _ (fun s f js h => reduceBody_sound _ s f js h) h

@[simp] theorem execReduceSum_sound (t : Nat) (run : VerbRun) (s : State) (h : s.mem.wf = true) :
    ResAll (fun t => t.mem.wf = true) (execReduceSum t run s) := reduce_sound _ _ _ _ _ h

@[simp] theorem execReduceMax_sound (t : Nat) (run : VerbRun) (s : State) (h : s.mem.wf = true) :
    ResAll (fun t => t.mem.wf = true) (execReduceMax t run s) := reduce_sound _ _ _ _ _ h

@[simp] theorem execReduceMin_sound (t : Nat) (run : VerbRun) (s : State) (h : s.mem.wf = true) :
    ResAll (fun t => t.mem.wf = true) (execReduceMin t run s) := reduce_sound _ _ _ _ _ h

@[simp] theorem execReduceKeyed_sound (t : Nat) (run : VerbRun) (s : State) (h : s.mem.wf = true) :
    ResAll (fun t => t.mem.wf = true) (execReduceKeyed t run s) := onVerb_sound _ _ _ _ _ _ (fun s f js h => reduceBody_sound _ s f js h) h

@[simp] theorem rankBody_sound (ecc : Ecc) (s : State) (f : Flight) (js : List Job) (h : s.mem.wf = true) : (rankBody ecc s f js).mem.wf = true := by
  unfold rankBody
  dsimp only
  split
  · next hn => rw [neededFirst_mem _ _ _ hn]; exact h
  · split
    · next hn => rw [neededFirst_mem _ _ _ hn]; exact h
    · refine walkEnd_sound _ _ (foldl_keeps (fun w : Walk => w.s.mem.wf = true) _ (fun w o h => ?_) _ _ ?_)
      · split <;> simp [h]
      · exact readTiles_sound _ _ _ _ h

@[simp] theorem execRankElements_sound (t : Nat) (run : VerbRun) (s : State) (h : s.mem.wf = true) :
    ResAll (fun t => t.mem.wf = true) (execRankElements t run s) := onVerb_sound _ _ _ _ _ _ (fun s f js h => rankBody_sound _ s f js h) h

@[simp] theorem execRankListMerge_sound (t : Nat) (run : VerbRun) (s : State) (h : s.mem.wf = true) :
    ResAll (fun t => t.mem.wf = true) (execRankListMerge t run s) := onVerb_sound _ _ _ _ _ _ (fun s f js h => rankBody_sound _ s f js h) h

end Sys2Proof.Machine
end

