-- ==== Sys2Proof/Laws/KeepSystem.lean ====
section
/-!
SUPPORT. Sys2Proof/Laws/KeepSystem.lean: what each operation and each meaning does to memory: it leaves it as it is (a name in _mem) or keeps its
canonical form (a name in _sound): stores, ports, boot, power, the Casing and the fabric.
-/

namespace Sys2Proof.Machine

/-! ## Flash -/

@[simp] theorem flashErase_sound (s : State) (a n : Nat) (h : s.mem.wf = true) : (flashErase s a n).mem.wf = true := by
  have hs := (wf_iff _).mp h
  exact (wf_iff _).mpr ⟨hs.1, hs.2.1, Memory.wf_clearRun _ _ _ _ hs.2.2.1, hs.2.2.2⟩

@[simp] theorem flashProgram_sound (s : State) (a : Nat) (bs : List Byte) (h : s.mem.wf = true) : (flashProgram s a bs).mem.wf = true := by
  have hs := (wf_iff _).mp h
  exact (wf_iff _).mpr ⟨hs.1, hs.2.1, Memory.wf_writeBytes _ _ _ _ hs.2.2.1, hs.2.2.2⟩

@[simp] theorem writeCopy_sound (s : State) (a : Area) (bs : List Byte) (seq : Nat) (h : s.mem.wf = true) : (writeCopy s a bs seq).mem.wf = true := by
  unfold writeCopy
  (repeat' split) <;> simp (maxDischargeDepth := 12) +contextual [h]

@[simp] theorem commitCopy_sound (s : State) (a : Area) (h : s.mem.wf = true) : (commitCopy s a).mem.wf = true := by simp [commitCopy, h]

@[simp] theorem abandonStore_sound (s : State) (a : Area) (h : s.mem.wf = true) : (abandonStore s a).mem.wf = true := by
  unfold abandonStore
  (repeat' split) <;> simp (maxDischargeDepth := 12) +contextual [h]

@[simp] theorem requestLedger_mem (s : State) (st : Store) : (requestLedger s st).mem = s.mem := by
  unfold requestLedger
  (repeat' split) <;> simp

@[simp] theorem storeLedger_sound (s : State) (deviceOk : Bool) (h : s.mem.wf = true) : (storeLedger s deviceOk).1.mem.wf = true := by
  unfold storeLedger
  dsimp only
  split
  · exact h
  · split <;> simp [h]

@[simp] theorem tearSlot_sound (s : State) (sector i : Nat) (h : s.mem.wf = true) : (tearSlot s sector i).mem.wf = true := by simp [tearSlot, h]

theorem programSlots_sound (s : State) (g sector : Nat) (is : List Nat) (n : Nat) (h : s.mem.wf = true) : (programSlots s g sector is n).1.mem.wf = true := by
  induction is generalizing s n with
  | nil => exact h
  | cons i rest ih =>
    cases n with
    | zero => exact flashProgram_sound _ _ _ h
    | succ n => exact ih _ _ (tearSlot_sound _ _ _ h)

@[simp] theorem recordGeneration_sound (s : State) (slotFails : Nat) (h : s.mem.wf = true) : (recordGeneration s slotFails).mem.wf = true := by
  unfold recordGeneration
  dsimp only
  generalize List.range 512 = is
  generalize sectorInUse s = u
  generalize freeSlots s u = fs
  generalize nextGeneration s = g
  have h1 := programSlots_sound s g u fs slotFails h
  generalize programSlots s g u fs slotFails = a at h1 ⊢
  have h2 := programSlots_sound _ g (1 - u) is a.2.1 (flashErase_sound a.1 (slotAt (1 - u) 0) 0x1000 h1)
  generalize programSlots (flashErase a.1 (slotAt (1 - u) 0) 0x1000) g (1 - u) is a.2.1 = r at h2 ⊢
  split
  · exact h1
  · exact h2

@[simp] theorem requestSectorErase_mem (s : State) : (requestSectorErase s).mem = s.mem := by
  unfold requestSectorErase
  dsimp only
  (repeat' split) <;> simp

/-! ## Queries -/

@[simp] theorem writeResult_sound (s : State) (t dest : Nat) (bs : List Byte) (h : s.mem.wf = true) : (writeResult s t dest bs).mem.wf = true := by
  unfold writeResult
  dsimp only
  split <;> simp [h]

@[simp] theorem answerQuery_sound (t : Nat) (bs : List Byte) (s : State) (m : List Word) (h : s.mem.wf = true) : (answerQuery t bs s m).mem.wf = true := by
  unfold answerQuery
  (repeat' split) <;> simp [h]

theorem onQuery_sound (t : Nat) (whats : List Nat) (f : State → List Word → State) (hf : ∀ s m, s.mem.wf = true → (f s m).mem.wf = true)
    (s : State) (h : s.mem.wf = true) : ResAll (fun t => t.mem.wf = true) (onQuery t whats f s) := by
  unfold onQuery
  split
  · exact h
  · exact resAll_ite _ _ _ _ (fun _ => onMessage_sound _ _ _ _ (cleanOnly_sound _ _ _ hf) h) (fun _ => h)

@[simp] theorem queryTopology_sound (t : Nat) (s : State) (m : List Word) (h : s.mem.wf = true) : (queryTopology t s m).mem.wf = true := by simp [queryTopology, h]

@[simp] theorem execQueryTopology_sound (t : Nat) (s : State) (h : s.mem.wf = true) : ResAll (fun t => t.mem.wf = true) (execQueryTopology t s) :=
  onQuery_sound _ _ _ (fun s m h => queryTopology_sound _ _ _ h) _ h

@[simp] theorem execQueryTenantStatus_sound (t : Nat) (s : State) (h : s.mem.wf = true) : ResAll (fun t => t.mem.wf = true) (execQueryTenantStatus t s) :=
  onQuery_sound _ _ _ (fun s m h => answerQuery_sound _ _ _ _ h) _ h

@[simp] theorem execQueryInFlightTags_sound (t : Nat) (s : State) (h : s.mem.wf = true) : ResAll (fun t => t.mem.wf = true) (execQueryInFlightTags t s) :=
  onQuery_sound _ _ _ (fun s m h => answerQuery_sound _ _ _ _ h) _ h

@[simp] theorem execQueryLedger_sound (t : Nat) (s : State) (h : s.mem.wf = true) : ResAll (fun t => t.mem.wf = true) (execQueryLedger t s) :=
  onQuery_sound _ _ _ (fun s m h => answerQuery_sound _ _ _ _ h) _ h

@[simp] theorem execQueryTelemetry_sound (t : Nat) (s : State) (h : s.mem.wf = true) : ResAll (fun t => t.mem.wf = true) (execQueryTelemetry t s) :=
  onQuery_sound _ _ _ (fun s m h => answerQuery_sound _ _ _ _ h) _ h

/-! ## HostPorts -/

@[simp] theorem flushTenant_sound (s : State) (t : Nat) (h : s.mem.wf = true) : (flushTenant s t).mem.wf = true := by
  unfold flushTenant
  split <;> simp [h]

@[simp] theorem writeTenantReg_sound (s : State) (t r v : Nat) (h : s.mem.wf = true) : (writeTenantReg s t r v).mem.wf = true := by
  unfold writeTenantReg
  (repeat' split) <;> simp [h]

@[simp] theorem ringStandby_mem (s : State) : (ringStandby s).mem = s.mem := by
  unfold ringStandby
  (repeat' split) <;> simp

@[simp] theorem writeGlobalReg_mem (s : State) (p r v : Nat) : (writeGlobalReg s p r v).mem = s.mem := by
  unfold writeGlobalReg
  (repeat' split) <;> simp

@[simp] theorem writeReg_sound (s : State) (p off v : Nat) (h : s.mem.wf = true) : (writeReg s p off v).mem.wf = true := by
  unfold writeReg
  (repeat' split) <;> simp [h]

@[simp] theorem hostRegWrite_sound (s : State) (p off v : Nat) (ep : Bool) (h : s.mem.wf = true) : ResAll (fun t => t.mem.wf = true) (hostRegWrite s p off v ep) := by
  unfold hostRegWrite
  (repeat' split) <;> simp [h]

@[simp] theorem execOverrunClear_sound (p t : Nat) (ep : Bool) (s : State) (h : s.mem.wf = true) : ResAll (fun t => t.mem.wf = true) (execOverrunClear p t ep s) := by simp [execOverrunClear, h]

@[simp] theorem execMalformedClear_sound (p t : Nat) (ep : Bool) (s : State) (h : s.mem.wf = true) : ResAll (fun t => t.mem.wf = true) (execMalformedClear p t ep s) := by simp [execMalformedClear, h]

@[simp] theorem execNoticeHeadWrite_sound (p t : Nat) (value : Word) (ep : Bool) (s : State) (h : s.mem.wf = true) : ResAll (fun t => t.mem.wf = true) (execNoticeHeadWrite p t value ep s) := by simp [execNoticeHeadWrite, h]

@[simp] theorem execNoticeLostClear_sound (p t : Nat) (ep : Bool) (s : State) (h : s.mem.wf = true) : ResAll (fun t => t.mem.wf = true) (execNoticeLostClear p t ep s) := by simp [execNoticeLostClear, h]

@[simp] theorem execAlertStatusClear_sound (p : Nat) (value : Word) (ep : Bool) (s : State) (h : s.mem.wf = true) : ResAll (fun t => t.mem.wf = true) (execAlertStatusClear p value ep s) := by simp [execAlertStatusClear, h]

@[simp] theorem execForceFailover_sound (p : Nat) (value : Word) (ep : Bool) (s : State) (h : s.mem.wf = true) : ResAll (fun t => t.mem.wf = true) (execForceFailover p value ep s) := by simp [execForceFailover, h]

@[simp] theorem flushVector_mem (s : State) (p v : Nat) : (flushVector s p v).mem = s.mem := by
  unfold flushVector
  dsimp only
  (repeat' split) <;> simp

@[simp] theorem flushVectors_mem (s : State) (p : Nat) : (flushVectors s p).mem = s.mem := by simp [flushVectors]

@[simp] theorem writeBar4_mem (s : State) (p off v : Nat) : (writeBar4 s p off v).mem = s.mem := by
  unfold writeBar4
  (repeat' split) <;> simp

@[simp] theorem execMsixUnmask_mem (p v : Nat) (s : State) : ResAll (fun t => t.mem = s.mem) (execMsixUnmask p v s) := by
  unfold execMsixUnmask
  (repeat' split) <;> simp

theorem eachDword_sound (f : State → Nat → Nat → State) (hf : ∀ s o v, s.mem.wf = true → (f s o v).mem.wf = true)
    (s : State) (off : Nat) (enables : List Bool) (data : List Byte) (h : s.mem.wf = true) : (eachDword f s off enables data).mem.wf = true :=
  foldl_sound _ (fun _ _ h => ite_sound _ _ _ (fun _ => hf _ _ _ h) (fun _ => h)) _ _ h

@[simp] theorem writeBar0_sound (s : State) (p off : Nat) (enables : List Bool) (data : List Byte) (h : s.mem.wf = true) :
    (writeBar0 s p off enables data).mem.wf = true := by
  unfold writeBar0
  split
  · split <;> simp [h]
  · exact eachDword_sound _ (fun s o v h => by simp [h]) _ _ _ _ h

@[simp] theorem execRegisterWrite_sound (p : Nat) (space : RegSpace) (off : Nat) (ep : Bool) (enables : List Bool) (data : List Byte)
    (s : State) (h : s.mem.wf = true) : ResAll (fun t => t.mem.wf = true) (execRegisterWrite p space off ep enables data s) := by
  unfold execRegisterWrite
  split
  · exact h
  · cases space with
    | bar0 => dsimp only; (repeat' split) <;> simp [h]
    | bar4 =>
      dsimp only
      split
      · simp [h]
      · exact eachDword_sound _ (fun s o v h => by simp [h]) _ _ _ _ h
    | msixEnable => simp [h]
    | relaxedOrdering => simp [h]

@[simp] theorem writeMapped_sound (s : State) (p off : Nat) (bs : List Byte) (h : s.mem.wf = true) : (writeMapped s p off bs).mem.wf = true := by
  induction bs generalizing s off with
  | nil => exact h
  | cons b rest ih =>
    unfold writeMapped
    dsimp only
    refine ih _ _ ?_
    split
    · have hs := (wf_iff _).mp h
      exact (wf_iff _).mpr ⟨Memory.wf_tset _ _ _ _ hs.1, hs.2⟩
    · exact h

@[simp] theorem clearMarks_sound (s : State) (ls : List Nat) (h : s.mem.wf = true) : (clearMarks s ls).mem.wf = true := h

@[simp] theorem mergeFinding_sound (s : State) (found : ScrubFinding) (ls : List Nat) (h : s.mem.wf = true) : (mergeFinding s found ls).mem.wf = true := by
  unfold mergeFinding
  (repeat' split) <;> simp [h]

@[simp] theorem execBar2Write_sound (p off : Nat) (_relaxed ep : Bool) (ecc : ScrubFinding) (data : List Byte) (s : State) (h : s.mem.wf = true) : ResAll (fun t => t.mem.wf = true) (execBar2Write p off _relaxed ep ecc data s) := by
  unfold execBar2Write
  (repeat' split) <;> simp (maxDischargeDepth := 12) +contextual [h]

@[simp] theorem execBar2Read_sound (p off len : Nat) (ecc : Ecc) (s : State) (h : s.mem.wf = true) : ResAll (fun t => t.mem.wf = true) (execBar2Read p off len ecc s) := by
  unfold execBar2Read
  (repeat' split) <;> simp (maxDischargeDepth := 12) +contextual [h]

@[simp] theorem execUnsupportedRequest_mem (p : Nat) (_what : BadRequest) (s : State) : ResAll (fun t => t.mem = s.mem) (execUnsupportedRequest p _what s) := by
  unfold execUnsupportedRequest
  (repeat' split) <;> simp

@[simp] theorem bindAll_mem (s : State) (p : Nat) : (bindAll s p).mem = s.mem := by simp [bindAll]

@[simp] theorem resumeTenant_sound (s : State) (p t : Nat) (h : s.mem.wf = true) : (resumeTenant s p t).mem.wf = true := by
  unfold resumeTenant
  dsimp only
  (repeat' split) <;> simp [h]

@[simp] theorem resumePort_sound (s : State) (p : Nat) (h : s.mem.wf = true) : (resumePort s p).mem.wf = true := by
  unfold resumePort
  (repeat' split) <;> simp +contextual [h]

@[simp] theorem linkComesUp_sound (s : State) (p : Nat) (h : s.mem.wf = true) : (linkComesUp s p).mem.wf = true := by
  unfold linkComesUp
  (repeat' split) <;> simp [h]

@[simp] theorem execPortLinkUp_sound (p : Nat) (receptacle0 : Bool) (s : State) (h : s.mem.wf = true) : ResAll (fun t => t.mem.wf = true) (execPortLinkUp p receptacle0 s) := by
  unfold execPortLinkUp
  (repeat' split) <;> simp [h]

@[simp] theorem execPortLinkDown_mem (p : Nat) (cause : PortCause) (s : State) : ResAll (fun t => t.mem = s.mem) (execPortLinkDown p cause s) := (rfl)

@[simp] theorem execPortResume_sound (p : Nat) (cause : PortCause) (s : State) (h : s.mem.wf = true) : ResAll (fun t => t.mem.wf = true) (execPortResume p cause s) := by
  unfold execPortResume
  (repeat' split) <;> simp [h]

@[simp] theorem execHotReset_mem (p : Nat) (s : State) : ResAll (fun t => t.mem = s.mem) (execHotReset p s) := (rfl)

@[simp] theorem execPerst_mem (receptacle : Nat) (s : State) : ResAll (fun t => t.mem = s.mem) (execPerst receptacle s) := by
  unfold execPerst
  (repeat' split) <;> simp

/-! ## Boot -/

@[simp] theorem endStep_mem (s : State) (n : Nat) : (endStep s n).mem = s.mem := (rfl)

@[simp] theorem State.setAgentSession_mem (s : State) (i : Nat) (x : AgentSession) : (s.setAgentSession i x).mem = s.mem := (rfl)

@[simp] theorem agentReply_mem (s : State) (sess cmd : Nat) (tag : Word) (status : Nat) (payload : List Byte) :
    (agentReply s sess cmd tag status payload).mem = s.mem := by
  unfold agentReply
  dsimp only
  split <;> simp

@[simp] theorem agentWait_mem (s : State) (sess cmd : Nat) (tag : Word) : (agentWait s sess cmd tag).mem = s.mem := (rfl)

@[simp] theorem sendAnswers_mem (s : State) (sess : Nat) (l : List AgentAnswer) : (sendAnswers s sess l).mem = s.mem := by
  induction l generalizing s with
  | nil => rfl
  | cons a rest ih =>
    unfold sendAnswers
    split
    · rw [ih]; rfl
    · rfl

@[simp] theorem agentDone_mem (s : State) (sess cmd tag status : Nat) (payload : List Byte) :
    (agentDone s sess cmd tag status payload).mem = s.mem := sendAnswers_mem _ _ _

@[simp] theorem dropRecords_sound (s : State) (h : s.mem.wf = true) : (dropRecords s).mem.wf = true := by
  unfold dropRecords
  refine foldl_sound _ (fun s _ h => ?_) _ _ h
  (repeat' split) <;> simp [h]

@[simp] theorem enterStopped_sound (s : State) (h : s.mem.wf = true) : (enterStopped s).mem.wf = true := by simp [enterStopped, h]

@[simp] theorem cutStore_sound (s : State) (h : s.mem.wf = true) : (cutStore s).mem.wf = true := by
  unfold cutStore
  dsimp only
  (repeat' split) <;> simp [h]

@[simp] theorem powerDown_sound (s : State) (h : s.mem.wf = true) : (powerDown s).mem.wf = true := by
  have h1 : (dropRecords (if s.casing.powered then cutStore s else s)).mem.wf = true := by
    exact dropRecords_sound _ (ite_sound _ _ _ (fun _ => cutStore_sound _ h) (fun _ => h))
  have hs := (wf_iff _).mp h1
  exact (wf_iff _).mpr ⟨rfl, rfl, hs.2.2⟩

@[simp] theorem setConverter_mem (s : State) (pos : Nat) (x : Power) : (setConverter s pos x).mem = s.mem := by
  unfold setConverter
  (repeat' split) <;> simp

@[simp] theorem beginStep2_mem (s : State) : (beginStep2 s).mem = s.mem := by
  unfold beginStep2
  (repeat' split) <;> simp

@[simp] theorem powerUp_sound (s : State) (h : s.mem.wf = true) : (powerUp s).mem.wf = true := by
  unfold powerUp
  dsimp only
  (repeat' split) <;> simp [h]

@[simp] theorem tryPowerUp_sound (s : State) (h : s.mem.wf = true) : (tryPowerUp s).mem.wf = true := by simp [tryPowerUp, h]

@[simp] theorem tryPowerDown_sound (s : State) (h : s.mem.wf = true) : (tryPowerDown s).mem.wf = true := by simp [tryPowerDown, h]

@[simp] theorem restart_sound (s : State) (h : s.mem.wf = true) : (restart s).mem.wf = true := by
  have hs := (wf_iff _).mp h
  unfold restart
  rw [beginStep2_mem]
  exact (wf_iff _).mpr ⟨hs.1, rfl, hs.2.2⟩

@[simp] theorem loadRecord_sound (s : State) (h : s.mem.wf = true) : (loadRecord s).mem.wf = true := by simp [loadRecord, h]

@[simp] theorem readStores_sound (s : State) (h : s.mem.wf = true) : (readStores s).mem.wf = true := by simp [readStores, h]

@[simp] theorem startCopy_sound (s : State) (i : Nat) (h : s.mem.wf = true) : (startCopy s i).mem.wf = true := by simp [startCopy, h]

@[simp] theorem execPumphouseBoot_sound (s : State) (h : s.mem.wf = true) : ResAll (fun t => t.mem.wf = true) (execPumphouseBoot s) := by
  unfold execPumphouseBoot
  (repeat' split) <;> simp [h]

@[simp] theorem execFirmwareStartTimeout_sound (s : State) (h : s.mem.wf = true) : ResAll (fun t => t.mem.wf = true) (execFirmwareStartTimeout s) := by
  unfold execFirmwareStartTimeout
  dsimp only
  (repeat' split) <;> simp [h]

@[simp] theorem bootReady_mem (s : State) : (bootReady s).mem = s.mem := by
  unfold bootReady
  dsimp only
  (repeat' split) <;> simp

/-! ## Bringup -/

@[simp] theorem State.setPhys_mem (s : State) (q : Nat) (x : Phys) : (State.setPhys s q x).mem = s.mem := (rfl)

@[simp] theorem sendClaims_mem (s : State) (cs : List (Nat × Int × Int)) : (sendClaims s cs).mem = s.mem := (rfl)

@[simp] theorem beginFlood_mem (s : State) : (beginFlood s).mem = s.mem := by
  unfold beginFlood
  dsimp only
  split <;> simp

@[simp] theorem execReferenceLock_mem (q : Nat) (src : RefSource) (s : State) : ResAll (fun t => t.mem = s.mem) (execReferenceLock q src s) := by
  unfold execReferenceLock
  dsimp only
  (repeat' split) <;> simp

@[simp] theorem execReferenceLockTimeout_mem (s : State) : ResAll (fun t => t.mem = s.mem) (execReferenceLockTimeout s) := by
  unfold execReferenceLockTimeout
  (repeat' split) <;> simp

@[simp] theorem endFlood_mem (s : State) : (endFlood s).mem = s.mem := (rfl)

@[simp] theorem execCoordinateClaim_mem (q : Nat) (x y : Int) (s : State) : ResAll (fun t => t.mem = s.mem) (execCoordinateClaim q x y s) := by
  unfold execCoordinateClaim
  dsimp only
  (repeat' split) <;> simp

@[simp] theorem execFloodTimeout_mem (s : State) : ResAll (fun t => t.mem = s.mem) (execFloodTimeout s) := by
  unfold execFloodTimeout
  (repeat' split) <;> simp

@[simp] theorem freshClusters_mem (s : State) (rs : List TestReport) : (freshClusters s rs).mem = s.mem := by simp [freshClusters]

@[simp] theorem writeCounts_mem (s : State) : (writeCounts s).mem = s.mem := by simp [writeCounts]

@[simp] theorem writeIdentity_mem (s : State) : (writeIdentity s).mem = s.mem := by simp [writeIdentity]

@[simp] theorem mirrorLive_mem (s : State) : (mirrorLive s).mem = s.mem := by
  unfold mirrorLive
  split <;> rfl

@[simp] theorem finishBringup_sound (s : State) (slotFails : Nat) (h : s.mem.wf = true) : (finishBringup s slotFails).mem.wf = true := by
  unfold finishBringup
  (repeat' split) <;> simp [h]

@[simp] theorem finishRetest_sound (s : State) (slotFails : Nat) (h : s.mem.wf = true) : (finishRetest s slotFails).mem.wf = true := by
  unfold finishRetest
  (repeat' split) <;> simp [h]

@[simp] theorem execNeighbourTestRound_sound (reports : List TestReport) (slotFails : Nat) (s : State) (h : s.mem.wf = true) : ResAll (fun t => t.mem.wf = true) (execNeighbourTestRound reports slotFails s) := by
  unfold execNeighbourTestRound
  dsimp only
  (repeat' split) <;> simp [h]

@[simp] theorem startRetest_sound (s : State) (seq : Nat) (h : s.mem.wf = true) : (startRetest s seq).mem.wf = true := by
  have hs := (wf_iff _).mp h
  unfold startRetest
  refine (wf_iff _).mpr ?_
  dsimp only
  rw [foldl_mem _ (fun s k => State.modCluster_mem s k _), foldl_mem _ (fun s f => State.modField_mem s f _)]
  exact ⟨hs.1, rfl, hs.2.2⟩

@[simp] theorem beginRequalify_sound (s : State) (seq : Nat) (h : s.mem.wf = true) : (beginRequalify s seq).mem.wf = true := by simp [beginRequalify, h]

@[simp] theorem requalify_sound (s : State) (m : List Word) (h : s.mem.wf = true) : (requalify s m).mem.wf = true := by simp [requalify, h]

@[simp] theorem execRequalify_sound (t : Nat) (s : State) (h : s.mem.wf = true) : ResAll (fun t => t.mem.wf = true) (execRequalify t s) :=
  onMessage_sound _ _ _ _ (adminOnly_sound _ _ (cleanOnly_sound _ _ _ (fun s m h => requalify_sound s m h))) h

@[simp] theorem liftFences_mem (s : State) : (liftFences s).mem = s.mem := by simp [liftFences]

/-! ## Firmware -/

@[simp] theorem commitStaged_sound (s : State) (i : Nat) (h : s.mem.wf = true) : (commitStaged s i).mem.wf = true := by simp [commitStaged, h]

@[simp] theorem revokeCopy_sound (s : State) (i : Nat) (h : s.mem.wf = true) : (revokeCopy s i).mem.wf = true := by simp [revokeCopy, h]

@[simp] theorem fwActivate_sound (s : State) (m : List Word) (h : s.mem.wf = true) : (fwActivate s m).mem.wf = true := by
  unfold fwActivate
  (repeat' split) <;> simp (maxDischargeDepth := 12) +contextual [h]

@[simp] theorem queueActivate_sound (s : State) (m : List Word) (h : s.mem.wf = true) : (queueActivate s m).mem.wf = true := by
  unfold queueActivate
  split <;> simp [h]

@[simp] theorem execFwActivate_sound (t : Nat) (s : State) (h : s.mem.wf = true) : ResAll (fun t => t.mem.wf = true) (execFwActivate t s) :=
  onMessage_sound _ _ _ _ (adminOnly_sound _ _ (cleanOnly_sound _ _ _ (fun s m h => queueActivate_sound s m h))) h

@[simp] theorem runActivations_sound (s : State) (n : Nat) (h : s.mem.wf = true) : (runActivations s n).mem.wf = true := by
  induction n generalizing s with
  | zero => exact h
  | succ n ih =>
    unfold runActivations
    (repeat' split) <;> simp [h, ih]

@[simp] theorem afterStore_sound (s : State) (h : s.mem.wf = true) : (afterStore s).mem.wf = true := runActivations_sound _ _ h

@[simp] theorem popStore_mem (s : State) : (popStore s).mem = s.mem := (rfl)

@[simp] theorem execLedgerStore_sound (deviceOk : Bool) (s : State) (h : s.mem.wf = true) : ResAll (fun t => t.mem.wf = true) (execLedgerStore deviceOk s) := by
  unfold execLedgerStore
  (repeat' split) <;> simp (maxDischargeDepth := 12) [h]

@[simp] theorem execGenerationSectorErase_sound (deviceOk : Bool) (s : State) (h : s.mem.wf = true) : ResAll (fun t => t.mem.wf = true) (execGenerationSectorErase deviceOk s) := by
  unfold execGenerationSectorErase
  (repeat' split) <;> simp (maxDischargeDepth := 12) [h]

@[simp] theorem endRequalify_sound (s : State) (seq : Nat) (ok : Bool) (h : s.mem.wf = true) : (endRequalify s seq ok).mem.wf = true := by
  unfold endRequalify
  (repeat' split) <;> simp [h]

@[simp] theorem nextRequalify_sound (s : State) (h : s.mem.wf = true) : (nextRequalify s).mem.wf = true := by
  unfold nextRequalify
  split <;> simp [h]

@[simp] theorem execRequalifyDone_sound (deviceOk : Bool) (s : State) (h : s.mem.wf = true) : ResAll (fun t => t.mem.wf = true) (execRequalifyDone deviceOk s) := by
  unfold execRequalifyDone
  (repeat' split) <;> simp (maxDischargeDepth := 12) [h]

@[simp] theorem askSource_mem (s : State) : (askSource s).mem = s.mem := by
  unfold askSource
  (repeat' split) <;> simp

@[simp] theorem nextSource_mem (s : State) : (nextSource s).mem = s.mem := by simp [nextSource]

@[simp] theorem fwStage_mem (s : State) (m : List Word) : (fwStage s m).mem = s.mem := by
  unfold fwStage
  dsimp only
  (repeat' split) <;> simp

@[simp] theorem execFwStage_sound (t : Nat) (s : State) (h : s.mem.wf = true) : ResAll (fun t => t.mem.wf = true) (execFwStage t s) :=
  onMessage_sound _ _ _ _ (adminOnly_sound _ _ (cleanOnly_sound _ _ _ (fun s m h => by simp [h]))) h

@[simp] theorem sourceFailed_sound (s : State) (h : s.mem.wf = true) : (sourceFailed s).mem.wf = true := by
  unfold sourceFailed
  (repeat' split) <;> simp [h]

@[simp] theorem sourceData_mem (s : State) (data : List Byte) : (sourceData s data).mem = s.mem := by
  unfold sourceData
  dsimp only
  (repeat' split) <;> simp

@[simp] theorem execEngineReadCompletion_sound (st : CplStatus) (ep : Bool) (data : List Byte) (s : State) (h : s.mem.wf = true) : ResAll (fun t => t.mem.wf = true) (execEngineReadCompletion st ep data s) := by
  unfold execEngineReadCompletion
  (repeat' split) <;> simp (maxDischargeDepth := 12) [h]

@[simp] theorem execCompletionTimeout_sound (s : State) (h : s.mem.wf = true) : ResAll (fun t => t.mem.wf = true) (execCompletionTimeout s) := by
  unfold execCompletionTimeout
  (repeat' split) <;> simp (maxDischargeDepth := 12) [h]

@[simp] theorem storeImage_sound (s : State) (seq : Nat) (bs : List Byte) (deviceOk : Bool) (h : s.mem.wf = true) : (storeImage s seq bs deviceOk).mem.wf = true := by
  unfold storeImage
  (repeat' split) <;> simp [h]

@[simp] theorem execFwStageDone_sound (deviceOk : Bool) (s : State) (h : s.mem.wf = true) : ResAll (fun t => t.mem.wf = true) (execFwStageDone deviceOk s) := by
  unfold execFwStageDone
  (repeat' split) <;> simp (maxDischargeDepth := 12) [h]

@[simp] theorem execFabricConfigStore_sound (deviceOk : Bool) (s : State) (h : s.mem.wf = true) : ResAll (fun t => t.mem.wf = true) (execFabricConfigStore deviceOk s) := by
  unfold execFabricConfigStore
  (repeat' split) <;> simp (maxDischargeDepth := 12) [h]

/-! ## Power -/

@[simp] theorem execInputPowerUp_sound (mV : Nat) (s : State) (h : s.mem.wf = true) : ResAll (fun t => t.mem.wf = true) (execInputPowerUp mV s) := by
  unfold execInputPowerUp
  dsimp only
  repeat' first
    | refine resAll_ite _ _ _ _ (fun _ => ?_) (fun _ => ?_)
    | split
  all_goals simp (maxDischargeDepth := 12) +contextual [h]

@[simp] theorem execStandbyStart_sound (mV : Nat) (s : State) (h : s.mem.wf = true) : ResAll (fun t => t.mem.wf = true) (execStandbyStart mV s) := by
  unfold execStandbyStart
  dsimp only
  repeat' first
    | refine resAll_ite _ _ _ _ (fun _ => ?_) (fun _ => ?_)
    | split
  all_goals simp (maxDischargeDepth := 12) +contextual [h]

@[simp] theorem execStandbyLoss_sound (mV : Nat) (s : State) (h : s.mem.wf = true) : ResAll (fun t => t.mem.wf = true) (execStandbyLoss mV s) := by
  unfold execStandbyLoss
  (repeat' split) <;> simp [h]

@[simp] theorem execUndervoltage_sound (mV : Nat) (s : State) (h : s.mem.wf = true) : ResAll (fun t => t.mem.wf = true) (execUndervoltage mV s) := by
  unfold execUndervoltage
  (repeat' split) <;> simp [h]

@[simp] theorem execInputOvervoltage_sound (mV : Nat) (s : State) (h : s.mem.wf = true) : ResAll (fun t => t.mem.wf = true) (execInputOvervoltage mV s) := by
  unfold execInputOvervoltage
  dsimp only
  repeat' first
    | refine resAll_ite _ _ _ _ (fun _ => ?_) (fun _ => ?_)
    | split
  all_goals simp (maxDischargeDepth := 12) +contextual [h]

@[simp] theorem execOvervoltageRecovery_sound (mV : Nat) (s : State) (h : s.mem.wf = true) : ResAll (fun t => t.mem.wf = true) (execOvervoltageRecovery mV s) := by
  unfold execOvervoltageRecovery
  dsimp only
  repeat' first
    | refine resAll_ite _ _ _ _ (fun _ => ?_) (fun _ => ?_)
    | split
  all_goals simp (maxDischargeDepth := 12) +contextual [h]

@[simp] theorem execEnable_sound (level : Bool) (s : State) (h : s.mem.wf = true) : ResAll (fun t => t.mem.wf = true) (execEnable level s) := by simp [execEnable, h]

@[simp] theorem execLidOpen_sound (s : State) (h : s.mem.wf = true) : ResAll (fun t => t.mem.wf = true) (execLidOpen s) := by simp [execLidOpen, h]

@[simp] theorem step2Start_mem (s : State) : (step2Start s).mem = s.mem := by
  unfold step2Start
  (repeat' split) <;> simp

@[simp] theorem step1End_mem (s : State) : (step1End s).mem = s.mem := by
  unfold step1End
  (repeat' split) <;> simp

@[simp] theorem fieldUp_mem (s : State) (pos : Nat) : (fieldUp s pos).mem = s.mem := by
  unfold fieldUp
  (repeat' split) <;> simp

@[simp] theorem execPowerGood_mem (pos : Nat) (s : State) : ResAll (fun t => t.mem = s.mem) (execPowerGood pos s) := by
  unfold execPowerGood
  (repeat' split) <;> simp

@[simp] theorem execPowerGoodTimeout_mem (pos : Nat) (s : State) : ResAll (fun t => t.mem = s.mem) (execPowerGoodTimeout pos s) := by
  unfold execPowerGoodTimeout
  (repeat' split) <;> simp

/-! ## Sensors -/

@[simp] theorem execCurrentSample_mem (dA mV : Nat) (s : State) : ResAll (fun t => t.mem = s.mem) (execCurrentSample dA mV s) := by
  unfold execCurrentSample
  dsimp only
  repeat' first
    | refine resAll_ite _ _ _ _ (fun _ => ?_) (fun _ => ?_)
    | split
  all_goals simp (maxDischargeDepth := 12)

@[simp] theorem execThermalSample_sound (k : Nat) (quarterC : Int) (s : State) (h : s.mem.wf = true) : ResAll (fun t => t.mem.wf = true) (execThermalSample k quarterC s) := by
  unfold execThermalSample
  dsimp only
  (repeat' split) <;> simp [h]

@[simp] theorem execVpmFault_sound (f : Nat) (s : State) (h : s.mem.wf = true) : ResAll (fun t => t.mem.wf = true) (execVpmFault f s) := by
  unfold execVpmFault
  dsimp only
  (repeat' split) <;> simp [h]

@[simp] theorem execCoolantSample_sound (inletD outletD : Int) (flowD : Nat) (s : State) (h : s.mem.wf = true) : ResAll (fun t => t.mem.wf = true) (execCoolantSample inletD outletD flowD s) := by
  unfold execCoolantSample
  dsimp only
  (repeat' split) <;> simp (maxDischargeDepth := 12) +contextual [h]

@[simp] theorem execAvfsAdjust_mem (k : Nat) (slack : List Bool) (s : State) : ResAll (fun t => t.mem = s.mem) (execAvfsAdjust k slack s) := by
  unfold execAvfsAdjust
  dsimp only
  (repeat' split) <;> simp

@[simp] theorem raiseStep_mem (s : State) (k n : Nat) : (raiseStep s k n).mem = s.mem := by
  unfold raiseStep
  dsimp only
  (repeat' split) <;> simp

@[simp] theorem execStepChange_mem (k : Nat) (s : State) : ResAll (fun t => t.mem = s.mem) (execStepChange k s) := by
  unfold execStepChange
  dsimp only
  (repeat' split) <;> simp

@[simp] theorem execFllWindow_mem (k : Nat) (cycles : Nat) (s : State) : ResAll (fun t => t.mem = s.mem) (execFllWindow k cycles s) := by
  unfold execFllWindow
  dsimp only
  (repeat' split) <;> simp

@[simp] theorem setRefLost_mem (s : State) (q : Nat) (lost : Bool) : (setRefLost s q lost).mem = s.mem := by
  unfold setRefLost
  (repeat' split) <;> simp

@[simp] theorem execReferenceLoss_mem (q : Nat) (s : State) : ResAll (fun t => t.mem = s.mem) (execReferenceLoss q s) := by
  unfold execReferenceLoss
  (repeat' split) <;> simp

@[simp] theorem reparent_mem (s : State) (q p : Nat) : (reparent s q p).mem = s.mem := by simp [reparent]

@[simp] theorem execClusterReparent_mem (q : Nat) (s : State) : ResAll (fun t => t.mem = s.mem) (execClusterReparent q s) := by
  unfold execClusterReparent
  generalize newParents s q = ps
  dsimp only
  split
  · split <;> simp
  · simp

@[simp] theorem raiseWear_mem (s : State) (k : Nat) : (raiseWear s k).mem = s.mem := by simp [raiseWear]

@[simp] theorem execAgingMeasure_mem (k d : Nat) (s : State) : ResAll (fun t => t.mem = s.mem) (execAgingMeasure k d s) := by
  unfold execAgingMeasure
  dsimp only
  (repeat' split) <;> simp

@[simp] theorem refreshTelemetry_mem (s : State) : (refreshTelemetry s).mem = s.mem := (rfl)

@[simp] theorem execTelemetryRefresh_mem (s : State) : ResAll (fun t => t.mem = s.mem) (execTelemetryRefresh s) := by
  unfold execTelemetryRefresh
  (repeat' split) <;> simp

@[simp] theorem execDdrRefresh_mem (ch : Nat) (deviceC : Int) (s : State) : ResAll (fun t => t.mem = s.mem) (execDdrRefresh ch deviceC s) := by
  unfold execDdrRefresh
  (repeat' split) <;> simp

@[simp] theorem execPatrolScrub_sound (line : Nat) (found : ScrubFinding) (s : State) (h : s.mem.wf = true) : ResAll (fun t => t.mem.wf = true) (execPatrolScrub line found s) := by
  unfold execPatrolScrub
  (repeat' split) <;> simp [h]

@[simp] theorem execOndieScrubRead_mem (ch errors : Nat) (s : State) : ResAll (fun t => t.mem = s.mem) (execOndieScrubRead ch errors s) := by
  unfold execOndieScrubRead
  (repeat' split) <;> simp

@[simp] theorem settleDdr_mem (s : State) : (settleDdr s).mem = s.mem := by
  unfold settleDdr
  (repeat' split) <;> simp [apply_ite State.mem]

@[simp] theorem execDdrTraining_mem (r : Nat) (dimms : List (Option Dimm)) (s : State) : ResAll (fun t => t.mem = s.mem) (execDdrTraining r dimms s) := by
  unfold execDdrTraining
  (repeat' split) <;> simp

/-! ## Pmbus -/

@[simp] theorem pmbusTarget_mem (s : State) (f : State → State) (hf : (f s).mem = s.mem) : ResAll (fun t => t.mem = s.mem) (pmbusTarget s f) :=
  resAll_ite _ _ _ _ (fun _ => hf) (fun _ => (rfl))

@[simp] theorem execStatusWord_mem (s : State) : ResAll (fun t => t.mem = s.mem) (execStatusWord s) := pmbusTarget_mem _ _ (State.emit_mem _ _)

@[simp] theorem execIinOcWarnLimit_mem (write : Option Nat) (s : State) : ResAll (fun t => t.mem = s.mem) (execIinOcWarnLimit write s) := by
  unfold execIinOcWarnLimit
  dsimp only
  repeat' first
    | refine resAll_ite _ _ _ _ (fun _ => ?_) (fun _ => ?_)
    | split
  all_goals simp (maxDischargeDepth := 12)

@[simp] theorem execReadVin_mem (s : State) : ResAll (fun t => t.mem = s.mem) (execReadVin s) := pmbusTarget_mem _ _ (State.emit_mem _ _)

@[simp] theorem execReadIin_mem (s : State) : ResAll (fun t => t.mem = s.mem) (execReadIin s) := pmbusTarget_mem _ _ (State.emit_mem _ _)

@[simp] theorem execReadPin_mem (s : State) : ResAll (fun t => t.mem = s.mem) (execReadPin s) := pmbusTarget_mem _ _ (State.emit_mem _ _)

@[simp] theorem execReadTemperature1_mem (s : State) : ResAll (fun t => t.mem = s.mem) (execReadTemperature1 s) := pmbusTarget_mem _ _ (State.emit_mem _ _)

@[simp] theorem execMfrPolicyCeiling_mem (write : Option Nat) (s : State) : ResAll (fun t => t.mem = s.mem) (execMfrPolicyCeiling write s) := by
  unfold execMfrPolicyCeiling
  dsimp only
  repeat' first
    | refine resAll_ite _ _ _ _ (fun _ => ?_) (fun _ => ?_)
    | split
  all_goals simp (maxDischargeDepth := 12)

@[simp] theorem execMfrFieldCeiling_mem (write : Option (Nat × Nat)) (s : State) : ResAll (fun t => t.mem = s.mem) (execMfrFieldCeiling write s) := by
  unfold execMfrFieldCeiling
  dsimp only
  repeat' first
    | refine resAll_ite _ _ _ _ (fun _ => ?_) (fun _ => ?_)
    | split
  all_goals simp (maxDischargeDepth := 12)

@[simp] theorem execMfrTelemetryPage_mem (page : Nat) (s : State) : ResAll (fun t => t.mem = s.mem) (execMfrTelemetryPage page s) := by
  unfold execMfrTelemetryPage
  dsimp only
  repeat' first
    | refine resAll_ite _ _ _ _ (fun _ => ?_) (fun _ => ?_)
    | split
  all_goals simp (maxDischargeDepth := 12)

@[simp] theorem execMfrTelemetryRead_mem (s : State) : ResAll (fun t => t.mem = s.mem) (execMfrTelemetryRead s) := pmbusTarget_mem _ _ (State.emit_mem _ _)

@[simp] theorem execPmbusUnsupported_mem (code : Byte) (s : State) : ResAll (fun t => t.mem = s.mem) (execPmbusUnsupported code s) := by
  unfold execPmbusUnsupported
  (repeat' split) <;> simp

/-! ## Agent -/


@[simp] theorem execAgentConnect_mem (cert : List Byte) (s : State) : ResAll (fun t => t.mem = s.mem) (execAgentConnect cert s) := by
  unfold execAgentConnect
  (repeat' split) <;> simp

@[simp] theorem execAgentDisconnect_mem (sess : Nat) (s : State) : ResAll (fun t => t.mem = s.mem) (execAgentDisconnect sess s) := (rfl)


theorem onSession_sound (s : State) (sess : Nat) (f : State → State) (hf : ∀ s, s.mem.wf = true → (f s).mem.wf = true) (h : s.mem.wf = true) :
    ResAll (fun t => t.mem.wf = true) (onSession s sess f) :=
  resAll_ite _ _ _ _ (fun _ => hf _ h) (fun _ => h)

theorem matched_sound (fits : Bool) (sess cmd : Nat) (tag : Word) (f : State → State) (hf : ∀ s, s.mem.wf = true → (f s).mem.wf = true)
    (s : State) (h : s.mem.wf = true) : (matched fits sess cmd tag f s).mem.wf = true :=
  ite_sound _ _ _ (fun _ => hf _ h) (fun _ => by simp [h])

theorem locked_sound (sess cmd : Nat) (tag : Word) (f : State → State) (hf : ∀ s, s.mem.wf = true → (f s).mem.wf = true)
    (s : State) (h : s.mem.wf = true) : (locked sess cmd tag f s).mem.wf = true := by
  unfold locked
  split
  · exact hf _ h
  · exact ite_sound _ _ _ (fun _ => hf _ h) (fun _ => by simp [h])

@[simp] theorem engineTransaction_mem (s : State) (code : Nat) (isRead : Bool) (data : List Byte) : ResAll (fun t => t.mem = s.mem) (engineTransaction s code isRead data) := by
  unfold engineTransaction
  (repeat' split) <;> simp

@[simp] theorem relayEngine_sound (s : State) (sess cmd : Nat) (tag : Word) (code : Nat) (isRead : Bool) (data : List Byte) (h : s.mem.wf = true) :
    (relayEngine s sess cmd tag code isRead data).mem.wf = true := by
  unfold relayEngine
  have h1 := engineTransaction_mem { s with out := [] } code isRead data
  split
  · next ht =>
    rw [ht, resAll_next] at h1
    simp [h1, h]
  · exact h
  · exact h

@[simp] theorem relayBridge_mem (s : State) (sess cmd : Nat) (tag : Word) (target code : Nat) (isRead : Bool) (count : Nat) (data : List Byte) : (relayBridge s sess cmd tag target code isRead count data).mem = s.mem := by
  unfold relayBridge
  dsimp only
  (repeat' split) <;> simp

@[simp] theorem pmbusEffect_sound (sess cmd : Nat) (tag : Word) (p : List Byte) (s : State) (h : s.mem.wf = true) : (pmbusEffect sess cmd tag p s).mem.wf = true := by
  unfold pmbusEffect
  dsimp only
  split
  · simp [h]
  · split <;> simp [h]

@[simp] theorem execPmbus_sound (sess : Nat) (tag : Word) (payload : List Byte) (s : State) (h : s.mem.wf = true) :
    ResAll (fun t => t.mem.wf = true) (execPmbus sess tag payload s) :=
  onSession_sound _ _ _ (fun s h => matched_sound _ _ _ _ _ (fun s h => pmbusEffect_sound _ _ _ _ s h) s h) h

@[simp] theorem execTelemetry_sound (sess : Nat) (tag : Word) (payload : List Byte) (s : State) (h : s.mem.wf = true) :
    ResAll (fun t => t.mem.wf = true) (execTelemetry sess tag payload s) :=
  onSession_sound _ _ _ (fun s h => matched_sound _ _ _ _ _ (fun s h => by simp [h]) s h) h

@[simp] theorem execEepromRead_sound (sess : Nat) (tag : Word) (payload : List Byte) (s : State) (h : s.mem.wf = true) :
    ResAll (fun t => t.mem.wf = true) (execEepromRead sess tag payload s) :=
  onSession_sound _ _ _ (fun s h => matched_sound _ _ _ _ _ (fun s h => by simp [h]) s h) h

@[simp] theorem execStatusRead_sound (sess : Nat) (tag : Word) (payload : List Byte) (s : State) (h : s.mem.wf = true) :
    ResAll (fun t => t.mem.wf = true) (execStatusRead sess tag payload s) :=
  onSession_sound _ _ _ (fun s h => matched_sound _ _ _ _ _ (fun s h => by simp [h]) s h) h

@[simp] theorem execFabricConfig_sound (sess : Nat) (tag : Word) (payload : List Byte) (s : State) (h : s.mem.wf = true) :
    ResAll (fun t => t.mem.wf = true) (execFabricConfig sess tag payload s) :=
  onSession_sound _ _ _ (fun s h => matched_sound _ _ _ _ _ (fun s h => by split <;> simp [h]) s h) h

@[simp] theorem powerOffEffect_sound (s : State) (h : s.mem.wf = true) : (powerOffEffect s).mem.wf = true := by simp [powerOffEffect, h]

@[simp] theorem powerOnEffect_sound (s : State) (h : s.mem.wf = true) : (powerOnEffect s).mem.wf = true := by
  unfold powerOnEffect
  (repeat' split) <;> simp [h]

@[simp] theorem execPowerOff_sound (sess : Nat) (tag : Word) (payload : List Byte) (s : State) (h : s.mem.wf = true) :
    ResAll (fun t => t.mem.wf = true) (execPowerOff sess tag payload s) :=
  onSession_sound _ _ _ (fun s h => locked_sound _ _ _ _ (fun s h => matched_sound _ _ _ _ _ (fun s h => by simp [h]) s h) s h) h

@[simp] theorem execPowerOn_sound (sess : Nat) (tag : Word) (payload : List Byte) (s : State) (h : s.mem.wf = true) :
    ResAll (fun t => t.mem.wf = true) (execPowerOn sess tag payload s) :=
  onSession_sound _ _ _ (fun s h => locked_sound _ _ _ _ (fun s h => matched_sound _ _ _ _ _ (fun s h => by simp [h]) s h) s h) h

@[simp] theorem execPowerCycle_sound (sess : Nat) (tag : Word) (payload : List Byte) (s : State) (h : s.mem.wf = true) :
    ResAll (fun t => t.mem.wf = true) (execPowerCycle sess tag payload s) :=
  onSession_sound _ _ _ (fun s h => locked_sound _ _ _ _ (fun s h => matched_sound _ _ _ _ _ (fun s h => by simp [h]) s h) s h) h

@[simp] theorem execPowerCycleResume_sound (s : State) (h : s.mem.wf = true) : ResAll (fun t => t.mem.wf = true) (execPowerCycleResume s) := by
  unfold execPowerCycleResume
  (repeat' split) <;> simp [h]

@[simp] theorem holdEffect_sound (s : State) (h : s.mem.wf = true) : (holdEffect s).mem.wf = true := by
  unfold holdEffect
  (repeat' split) <;> simp [h]

@[simp] theorem releaseEffect_sound (s : State) (h : s.mem.wf = true) : (releaseEffect s).mem.wf = true := by
  unfold releaseEffect
  (repeat' split) <;> simp [h]

@[simp] theorem execHoldAssert_sound (sess : Nat) (tag : Word) (payload : List Byte) (s : State) (h : s.mem.wf = true) :
    ResAll (fun t => t.mem.wf = true) (execHoldAssert sess tag payload s) :=
  onSession_sound _ _ _ (fun s h => locked_sound _ _ _ _ (fun s h => matched_sound _ _ _ _ _ (fun s h => by simp [h]) s h) s h) h

@[simp] theorem execHoldRelease_sound (sess : Nat) (tag : Word) (payload : List Byte) (s : State) (h : s.mem.wf = true) :
    ResAll (fun t => t.mem.wf = true) (execHoldRelease sess tag payload s) :=
  onSession_sound _ _ _ (fun s h => locked_sound _ _ _ _ (fun s h => matched_sound _ _ _ _ _ (fun s h => by simp [h]) s h) s h) h

theorem held_sound (sess cmd : Nat) (tag : Word) (f : State → State) (hf : ∀ s, s.mem.wf = true → (f s).mem.wf = true)
    (s : State) (h : s.mem.wf = true) : (held sess cmd tag f s).mem.wf = true :=
  ite_sound _ _ _ (fun _ => hf _ h) (fun _ => by simp [h])

@[simp] theorem execFlashRead_sound (sess : Nat) (tag : Word) (payload : List Byte) (s : State) (h : s.mem.wf = true) :
    ResAll (fun t => t.mem.wf = true) (execFlashRead sess tag payload s) :=
  onSession_sound _ _ _ (fun s h => locked_sound _ _ _ _ (fun s h => matched_sound _ _ _ _ _ (fun s h => held_sound _ _ _ _ (fun s h => by simp [h]) s h) s h) s h) h

@[simp] theorem execFlashErase_sound (sess : Nat) (tag : Word) (payload : List Byte) (s : State) (h : s.mem.wf = true) :
    ResAll (fun t => t.mem.wf = true) (execFlashErase sess tag payload s) :=
  onSession_sound _ _ _ (fun s h => locked_sound _ _ _ _ (fun s h => matched_sound _ _ _ _ _ (fun s h => held_sound _ _ _ _ (fun s h => ite_sound _ _ _ (fun _ => by simp [h]) (fun _ => by simp [h])) s h) s h) s h) h

@[simp] theorem execFlashProgram_sound (sess : Nat) (tag : Word) (payload : List Byte) (s : State) (h : s.mem.wf = true) :
    ResAll (fun t => t.mem.wf = true) (execFlashProgram sess tag payload s) :=
  onSession_sound _ _ _ (fun s h => locked_sound _ _ _ _ (fun s h => matched_sound _ _ _ _ _ (fun s h => held_sound _ _ _ _ (fun s h => ite_sound _ _ _ (fun _ => by simp [h]) (fun _ => by simp [h])) s h) s h) s h) h

@[simp] theorem execNetConfig_sound (sess : Nat) (tag : Word) (payload : List Byte) (s : State) (h : s.mem.wf = true) :
    ResAll (fun t => t.mem.wf = true) (execNetConfig sess tag payload s) :=
  onSession_sound _ _ _ (fun s h => matched_sound _ _ _ _ _ (fun s h => by simp [h]) s h) h

@[simp] theorem execTrustSet_sound (sess : Nat) (tag : Word) (payload : List Byte) (s : State) (h : s.mem.wf = true) :
    ResAll (fun t => t.mem.wf = true) (execTrustSet sess tag payload s) :=
  onSession_sound _ _ _ (fun s h => matched_sound _ _ _ _ _ (fun s h => ite_sound _ _ _ (fun _ => by simp [h]) (fun _ => by simp [h])) s h) h

@[simp] theorem execBadCmd_sound (sess : Nat) (tag : Word) (code : BitVec 16) (s : State) (h : s.mem.wf = true) :
    ResAll (fun t => t.mem.wf = true) (execBadCmd sess tag code s) :=
  resAll_ite _ _ _ _ (fun _ => h) (fun _ => onSession_sound _ _ _ (fun s h => by simp [h]) h)

@[simp] theorem execServiceHold3s_mem (s : State) : ResAll (fun t => t.mem = s.mem) (execServiceHold3s s) := by
  unfold execServiceHold3s
  (repeat' split) <;> simp

@[simp] theorem execServiceHold15s_mem (s : State) : ResAll (fun t => t.mem = s.mem) (execServiceHold15s s) := by
  unfold execServiceHold15s
  (repeat' split) <;> simp

@[simp] theorem execTrustWindowExpiry_mem (s : State) : ResAll (fun t => t.mem = s.mem) (execTrustWindowExpiry s) := by
  unfold execTrustWindowExpiry
  (repeat' split) <;> simp

/-! ## Jtag -/

@[simp] theorem selectTap_mem (s : State) (r : Nat) (op : Byte) (f : Tap → Tap) : ResAll (fun t => t.mem = s.mem) (selectTap s r op f) := (rfl)

@[simp] theorem execTestLogicReset_mem (r : Nat) (s : State) : ResAll (fun t => t.mem = s.mem) (execTestLogicReset r s) := (rfl)

@[simp] theorem execExtest_mem (r : Nat) (pins : List Bool) (s : State) : ResAll (fun t => t.mem = s.mem) (execExtest r pins s) := (rfl)

@[simp] theorem execIdcode_mem (r : Nat) (s : State) : ResAll (fun t => t.mem = s.mem) (execIdcode r s) := (rfl)

@[simp] theorem execSamplePreload_mem (r : Nat) (pins : List Bool) (s : State) : ResAll (fun t => t.mem = s.mem) (execSamplePreload r pins s) := (rfl)

@[simp] theorem execClamp_mem (r : Nat) (s : State) : ResAll (fun t => t.mem = s.mem) (execClamp r s) := (rfl)

@[simp] theorem execHighz_mem (r : Nat) (s : State) : ResAll (fun t => t.mem = s.mem) (execHighz r s) := (rfl)

@[simp] theorem execBypass_mem (r : Nat) (opcode : Byte) (s : State) : ResAll (fun t => t.mem = s.mem) (execBypass r opcode s) := by
  unfold execBypass
  (repeat' split) <;> simp

/-! ## Requests -/

@[simp] theorem takeUp_mem (s : State) (p : Packet) : (takeUp s p).mem = s.mem := (rfl)

theorem onPacket_sound (s : State) (kind : Nat) (p : Packet) (f : State → State) (hf : ∀ s, s.mem.wf = true → (f s).mem.wf = true) (h : s.mem.wf = true) :
    ResAll (fun t => t.mem.wf = true) (onPacket s kind p f) :=
  resAll_ite _ _ _ _ (fun _ => hf _ h) (fun _ => h)

@[simp] theorem answer_mem (s : State) (p : Packet) (kind : Nat) (len : BitVec 3) (code : Nat) (data : List Byte) : (answer s p kind len code data).mem = s.mem := by simp [answer]

theorem serve_sound (p : Packet) (f : State → State) (hf : ∀ s, s.mem.wf = true → (f s).mem.wf = true) (s : State) (h : s.mem.wf = true) :
    (serve p f s).mem.wf = true := by
  unfold serve
  split
  · exact h
  · split
    · simp [h]
    · split
      · exact h
      · refine hf _ ?_
        split <;> simp [h]

@[simp] theorem serveRead_sound (p : Packet) (ecc : Ecc) (s : State) (h : s.mem.wf = true) : (serveRead p ecc s).mem.wf = true := by simp [serveRead, h]

@[simp] theorem mergeWrite_sound (p : Packet) (ecc : Ecc) (s : State) (h : s.mem.wf = true) : (mergeWrite p ecc s).mem.wf = true := by simp [mergeWrite, h]

@[simp] theorem serveWrite_sound (p : Packet) (ecc : Ecc) (s : State) (h : s.mem.wf = true) : (serveWrite p ecc s).mem.wf = true := by simp [serveWrite, h]

@[simp] theorem execRead_sound (pkt : Packet) (ecc : Ecc) (s : State) (h : s.mem.wf = true) : ResAll (fun t => t.mem.wf = true) (execRead pkt ecc s) :=
  onPacket_sound _ _ _ _ (fun s h => serve_sound _ _ (fun s h => by simp [h]) s h) h

@[simp] theorem execWrite_sound (pkt : Packet) (ecc : Ecc) (s : State) (h : s.mem.wf = true) : ResAll (fun t => t.mem.wf = true) (execWrite pkt ecc s) :=
  onPacket_sound s 1 pkt (serve pkt (serveWrite pkt ecc))
    (fun s h => serve_sound pkt (serveWrite pkt ecc) (fun s h => serveWrite_sound pkt ecc s h) s h) h

@[simp] theorem dropOutstanding_mem (s : State) (o : Outstanding) : (dropOutstanding s o).mem = s.mem := (rfl)

@[simp] theorem landGranule_mem (s : State) (o : Outstanding) (data : List Byte) : (landGranule s o data).mem = s.mem := (rfl)

@[simp] theorem execReadData_sound (pkt : Packet) (s : State) (h : s.mem.wf = true) : ResAll (fun t => t.mem.wf = true) (execReadData pkt s) :=
  onPacket_sound _ _ _ _ (fun s h => by split <;> (try split) <;> simp [h]) h

@[simp] theorem execWriteAck_sound (pkt : Packet) (s : State) (h : s.mem.wf = true) : ResAll (fun t => t.mem.wf = true) (execWriteAck pkt s) :=
  onPacket_sound _ _ _ _ (fun s h => by split <;> (try split) <;> simp [h]) h

@[simp] theorem execNack_sound (pkt : Packet) (s : State) (h : s.mem.wf = true) : ResAll (fun t => t.mem.wf = true) (execNack pkt s) :=
  onPacket_sound _ _ _ _ (fun s h => by split <;> (try split) <;> simp [h]) h

@[simp] theorem execRequestTimeout_sound (txn : Nat) (s : State) (h : s.mem.wf = true) : ResAll (fun t => t.mem.wf = true) (execRequestTimeout txn s) := by
  unfold execRequestTimeout
  (repeat' split) <;> simp [h]

@[simp] theorem deliverPeer_mem (msg : PeerMsg) (s : State) : (deliverPeer msg s).mem = s.mem := by
  unfold deliverPeer
  (repeat' split) <;> simp

@[simp] theorem execControl_mem (msg : ControlMsg) (s : State) : ResAll (fun t => t.mem = s.mem) (execControl msg s) := by
  unfold execControl onPacket
  (repeat' split) <;> simp

@[simp] theorem execPeerInboxPoll_mem (s : State) : ResAll (fun t => t.mem = s.mem) (execPeerInboxPoll s) := by
  unfold execPeerInboxPoll
  (repeat' split) <;> simp

/-! ## Discovery -/

@[simp] theorem numberWafers_mem (s : State) : (numberWafers s).mem = s.mem := (rfl)

@[simp] theorem emitPeer_mem (s : State) (dst : Option Nat) (b : PeerBody) : (emitPeer s dst b).mem = s.mem := (rfl)

@[simp] theorem emitEach_mem (s : State) (ws : List Nat) (bodies : Nat → List PeerBody) : (emitEach s ws bodies).mem = s.mem := by simp [emitEach]

@[simp] theorem emitHello_mem (s : State) : (emitHello s).mem = s.mem := by simp [emitHello]

@[simp] theorem emitLinks_mem (s : State) : (emitLinks s).mem = s.mem := by
  unfold emitLinks
  (repeat' split) <;> simp

@[simp] theorem emitMap_mem (s : State) : (emitMap s).mem = s.mem := by
  unfold emitMap
  dsimp only
  (repeat' split) <;> simp

@[simp] theorem emitRoutes_mem (s : State) : (emitRoutes s).mem = s.mem := by
  unfold emitRoutes
  dsimp only
  (repeat' split) <;> simp

@[simp] theorem emitStatus_mem (s : State) : (emitStatus s).mem = s.mem := by
  unfold emitStatus
  dsimp only
  (repeat' split) <;> simp

@[simp] theorem emitSwitch_mem (s : State) : (emitSwitch s).mem = s.mem := by
  unfold emitSwitch
  dsimp only
  (repeat' split) <;> simp

@[simp] theorem emitPrimary_mem (s : State) : (emitPrimary s).mem = s.mem := by
  unfold emitPrimary
  (repeat' split) <;> simp

@[simp] theorem leaveDiscovery_mem (s : State) : (leaveDiscovery s).mem = s.mem := by
  unfold leaveDiscovery
  (repeat' split) <;> simp

@[simp] theorem enterRunning_mem (s : State) : (enterRunning s).mem = s.mem := by simp [enterRunning]

@[simp] theorem enterIsolated_mem (s : State) (phase : Discovery) : (enterIsolated s phase).mem = s.mem := by
  unfold enterIsolated
  (repeat' split) <;> simp [apply_ite State.mem]

@[simp] theorem showNumber_mem (s : State) : (showNumber s).mem = s.mem := (rfl)

@[simp] theorem tryRunning_mem (s : State) : (tryRunning s).mem = s.mem := by
  unfold tryRunning
  (repeat' split) <;> simp

@[simp] theorem recompute_mem (s : State) : (recompute s).mem = s.mem := by simp [recompute]

@[simp] theorem pauseInjection_mem (s : State) : (pauseInjection s).mem = s.mem := (rfl)

@[simp] theorem trySwitch_mem (s : State) : (trySwitch s).mem = s.mem := by
  unfold trySwitch
  dsimp only
  (repeat' split) <;> simp

@[simp] theorem reorient_mem (s : State) : (reorient s).mem = s.mem := by simp [reorient]

@[simp] theorem reroute_mem (s : State) : (reroute s).mem = s.mem := by
  unfold reroute
  (repeat' split) <;> simp

@[simp] theorem noteCut_mem (s : State) : (noteCut s).mem = s.mem := (rfl)

@[simp] theorem numberFabric_mem (s : State) : (numberFabric s).mem = s.mem := by
  unfold numberFabric
  dsimp only
  (repeat' split) <;> simp

@[simp] theorem tryNumber_mem (s : State) : (tryNumber s).mem = s.mem := by
  unfold tryNumber
  dsimp only
  (repeat' split) <;> simp

@[simp] theorem linksChanged_mem (s : State) : (linksChanged s).mem = s.mem := by
  unfold linksChanged
  dsimp only
  (repeat' split) <;> simp

/-! ## Links -/

@[simp] theorem resendAll_mem (s : State) (l : Nat) : (resendAll s l).mem = s.mem := by simp [resendAll]

@[simp] theorem takeNak_mem (s : State) (l : Nat) : (takeNak s l).mem = s.mem := by
  unfold takeNak
  dsimp only
  (repeat' split) <;> simp

@[simp] theorem deliverPacket_mem (s : State) (l : Nat) (bs : List Byte) : (deliverPacket s l bs).mem = s.mem := by
  unfold deliverPacket
  dsimp only
  (repeat' split) <;> simp

@[simp] theorem drainStream_mem (s : State) (l v : Nat) : (drainStream s l v).mem = s.mem := by simp [drainStream]

@[simp] theorem drainStreams_mem (s : State) (l : Nat) : (drainStreams s l).mem = s.mem := by simp [drainStreams]

@[simp] theorem answerFrame_mem (s : State) (l fseqBefore : Nat) (owed : Bool) : (answerFrame s l fseqBefore owed).mem = s.mem := by
  unfold answerFrame
  dsimp only
  (repeat' split) <;> simp

@[simp] theorem goodFrame_mem (s : State) (l : Nat) (f : Frame) : (goodFrame s l f).mem = s.mem := by
  unfold goodFrame
  (repeat' split) <;> simp

@[simp] theorem execFrameReceive_mem (l : Nat) (fec : Option Nat) (frame : List Byte) (s : State) : ResAll (fun t => t.mem = s.mem) (execFrameReceive l fec frame s) := by
  unfold execFrameReceive
  dsimp only
  (repeat' split) <;> simp

@[simp] theorem execSkipFrame_mem (l : Nat) (s : State) : ResAll (fun t => t.mem = s.mem) (execSkipFrame l s) := by
  unfold execSkipFrame
  dsimp only
  (repeat' split) <;> simp

@[simp] theorem execLaneFailure_mem (l lane : Nat) (s : State) : ResAll (fun t => t.mem = s.mem) (execLaneFailure l lane s) := by
  unfold execLaneFailure
  dsimp only
  (repeat' split) <;> simp

@[simp] theorem trainFailed_mem (s : State) (l : Nat) : (trainFailed s l).mem = s.mem := by simp [trainFailed]

@[simp] theorem retrained_mem (s : State) (l : Nat) : (retrained s l).mem = s.mem := by simp [retrained]

@[simp] theorem retrainFailed_mem (s : State) (l : Nat) : (retrainFailed s l).mem = s.mem := by
  unfold retrainFailed
  dsimp only
  (repeat' split) <;> simp

@[simp] theorem execLinkTrainingDone_mem (l : Nat) (ok : Bool) (s : State) : ResAll (fun t => t.mem = s.mem) (execLinkTrainingDone l ok s) := by
  unfold execLinkTrainingDone
  dsimp only
  (repeat' split) <;> simp

@[simp] theorem execLinkRetry_mem (l : Nat) (s : State) : ResAll (fun t => t.mem = s.mem) (execLinkRetry l s) := by
  unfold execLinkRetry
  dsimp only
  (repeat' split) <;> simp

@[simp] theorem execLinkHoldExpiry_mem (l : Nat) (s : State) : ResAll (fun t => t.mem = s.mem) (execLinkHoldExpiry l s) := by
  unfold execLinkHoldExpiry
  dsimp only
  (repeat' split) <;> simp

@[simp] theorem execQsfpInsert_mem (l watts : Nat) (s : State) : ResAll (fun t => t.mem = s.mem) (execQsfpInsert l watts s) := by
  unfold execQsfpInsert
  (repeat' split) <;> simp

@[simp] theorem execQsfpRemove_mem (l : Nat) (s : State) : ResAll (fun t => t.mem = s.mem) (execQsfpRemove l s) := by
  unfold execQsfpRemove
  dsimp only
  (repeat' split) <;> simp

/-! ## Messages -/

@[simp] theorem popPeer_mem (s : State) : (popPeer s).mem = s.mem := (rfl)

theorem onPeer_mem (s : State) (f : State → PeerBody → Option State) (hf : ∀ s b t, f s b = some t → t.mem = s.mem) :
    ResAll (fun t => t.mem = s.mem) (onPeer s f) := by
  unfold onPeer
  split
  · split
    · simp
    · split
      · next ht => exact (hf _ _ _ ht).trans (popPeer_mem s)
      · simp
  · simp

@[simp] theorem adoptCandidate_mem (s : State) (c : DWord) : (adoptCandidate s c).mem = s.mem := by
  unfold adoptCandidate
  (repeat' split) <;> simp

@[simp] theorem setHelloStatus_mem (s : State) (l n : Nat) : (setHelloStatus s l n).mem = s.mem := by
  unfold setHelloStatus
  (repeat' split) <;> simp

@[simp] theorem hearHello_mem (s : State) (l : Nat) (serial : DWord) (peerLink : Nat) (fabricId candidate : DWord) (number level : Nat) : (hearHello s l serial peerLink fabricId candidate number level).mem = s.mem := by
  unfold hearHello
  dsimp only
  (repeat' split) <;> simp

@[simp] theorem execHello_mem (s : State) : ResAll (fun t => t.mem = s.mem) (execHello s) :=
  onPeer_mem _ _ (fun s b t ht => by
    cases b <;> first | (cases ht; done) | (obtain rfl := Option.some.inj ht; simp))

@[simp] theorem recordLinks_mem (s : State) (serial : DWord) (part : Nat) (reports : List LinkReport) : (recordLinks s serial part reports).mem = s.mem := (rfl)

@[simp] theorem hearLinks_mem (s : State) (serial : DWord) (part : Nat) (reports : List LinkReport) : (hearLinks s serial part reports).mem = s.mem := by
  unfold hearLinks
  (repeat' split) <;> simp

@[simp] theorem execLinks_mem (s : State) : ResAll (fun t => t.mem = s.mem) (execLinks s) :=
  onPeer_mem _ _ (fun s b t ht => by
    cases b <;> first | (cases ht; done) | (obtain rfl := Option.some.inj ht; simp))

@[simp] theorem tryAwaitEnd_mem (s : State) : (tryAwaitEnd s).mem = s.mem := by
  unfold tryAwaitEnd
  (repeat' split) <;> simp

@[simp] theorem installMap_mem (s : State) (fabricId : DWord) (maxWafers : Nat) (present : List Nat) (serials : List (Nat × DWord)) : (installMap s fabricId maxWafers present serials).mem = s.mem := by
  unfold installMap
  dsimp only
  (repeat' split) <;> simp

@[simp] theorem hearMap_mem (s : State) (fabricId : DWord) (maxWafers waferCount : Nat) (present : List Nat) (serials : List (Nat × DWord)) : (hearMap s fabricId maxWafers waferCount present serials).mem = s.mem := by
  unfold hearMap
  dsimp only
  (repeat' split) <;> simp

@[simp] theorem execMap_mem (s : State) : ResAll (fun t => t.mem = s.mem) (execMap s) :=
  onPeer_mem _ _ (fun s b t ht => by
    cases b <;> first | (cases ht; done) | (obtain rfl := Option.some.inj ht; simp))

@[simp] theorem installRoutes_mem (s : State) : (installRoutes s).mem = s.mem := by
  unfold installRoutes
  dsimp only
  (repeat' split) <;> simp

@[simp] theorem hearRoutes_mem (s : State) (generation : Nat) (orient shadow : Bool) (entries : List RouteEntry) : (hearRoutes s generation orient shadow entries).mem = s.mem := by
  unfold hearRoutes
  (repeat' split) <;> simp

@[simp] theorem execRoutes_mem (s : State) : ResAll (fun t => t.mem = s.mem) (execRoutes s) :=
  onPeer_mem _ _ (fun s b t ht => by
    cases b <;> first | (cases ht; done) | (obtain rfl := Option.some.inj ht; simp))

@[simp] theorem trySwitchEnd_mem (s : State) : (trySwitchEnd s).mem = s.mem := by
  unfold trySwitchEnd
  dsimp only
  (repeat' split) <;> simp

@[simp] theorem recordStatus_mem (s : State) (number installed shadow : Nat) (orient : Bool) (linksUp : BitVec 24) : (recordStatus s number installed shadow orient linksUp).mem = s.mem := (rfl)

@[simp] theorem hearStatus_mem (s : State) (number installed shadow : Nat) (orient : Bool) (linksUp : BitVec 24) : (hearStatus s number installed shadow orient linksUp).mem = s.mem := by
  unfold hearStatus
  (repeat' split) <;> simp

@[simp] theorem execStatus_mem (s : State) : ResAll (fun t => t.mem = s.mem) (execStatus s) :=
  onPeer_mem _ _ (fun s b t ht => by
    cases b <;> first | (cases ht; done) | (obtain rfl := Option.some.inj ht; simp))

@[simp] theorem hearSwitch_mem (s : State) (generation : Nat) : (hearSwitch s generation).mem = s.mem := by
  unfold hearSwitch
  dsimp only
  (repeat' split) <;> simp

@[simp] theorem execSwitch_mem (s : State) : ResAll (fun t => t.mem = s.mem) (execSwitch s) :=
  onPeer_mem _ _ (fun s b t ht => by
    cases b <;> first | (cases ht; done) | (obtain rfl := Option.some.inj ht; simp))

@[simp] theorem execSwitchPauseEnd_mem (s : State) : ResAll (fun t => t.mem = s.mem) (execSwitchPauseEnd s) := by
  unfold execSwitchPauseEnd
  (repeat' split) <;> simp

@[simp] theorem execPrimary_mem (s : State) : ResAll (fun t => t.mem = s.mem) (execPrimary s) := by
  unfold execPrimary
  dsimp only
  generalize ((s.fabric.accepted.head?).map peerSrc).getD 0 = src
  refine onPeer_mem _ _ (fun s b t ht => ?_)
  cases b <;> first | (cases ht; done) | (obtain rfl := Option.some.inj ht; simp)

@[simp] theorem execPeerMessageRepeat_mem (kind : PeerType) (s : State) : ResAll (fun t => t.mem = s.mem) (execPeerMessageRepeat kind s) := by
  unfold execPeerMessageRepeat
  (repeat' split) <;> simp

@[simp] theorem execLinkTrainExit_mem (s : State) : ResAll (fun t => t.mem = s.mem) (execLinkTrainExit s) := by
  unfold execLinkTrainExit
  (repeat' split) <;> simp

@[simp] theorem execElectSettle_sound (s : State) (h : s.mem.wf = true) : ResAll (fun t => t.mem.wf = true) (execElectSettle s) := by
  unfold execElectSettle
  (repeat' split) <;> simp [h]

@[simp] theorem ownFabric_mem (s : State) : (ownFabric s).mem = s.mem := by simp [ownFabric]

@[simp] theorem execDiscoveryWindow_mem (s : State) : ResAll (fun t => t.mem = s.mem) (execDiscoveryWindow s) := by
  unfold execDiscoveryWindow
  dsimp only
  (repeat' split) <;> simp

@[simp] theorem execMapTimeout_mem (s : State) : ResAll (fun t => t.mem = s.mem) (execMapTimeout s) := by
  unfold execMapTimeout
  dsimp only
  (repeat' split) <;> simp

@[simp] theorem execWaferAbsent_mem (w : Nat) (s : State) : ResAll (fun t => t.mem = s.mem) (execWaferAbsent w s) := by
  unfold execWaferAbsent
  dsimp only
  (repeat' split) <;> simp

/-! ## Failover -/

@[simp] theorem execHeartbeatTick_mem (s : State) : ResAll (fun t => t.mem = s.mem) (execHeartbeatTick s) := by
  unfold execHeartbeatTick
  (repeat' split) <;> simp

@[simp] theorem losePumphouse_sound (s : State) (h : s.mem.wf = true) : (losePumphouse s).mem.wf = true := by simp [losePumphouse, h]

@[simp] theorem execHeartbeatWatchdog_sound (s : State) (h : s.mem.wf = true) : ResAll (fun t => t.mem.wf = true) (execHeartbeatWatchdog s) := by
  unfold execHeartbeatWatchdog
  (repeat' split) <;> simp [h]

@[simp] theorem dropStaging_sound (s : State) (h : s.mem.wf = true) : (dropStaging s).mem.wf = true := by
  unfold dropStaging
  (repeat' split) <;> simp [h]

@[simp] theorem dropFieldResets_mem (s : State) : (dropFieldResets s).mem = s.mem := by simp [dropFieldResets]

@[simp] theorem switchPrimary_mem (s : State) : (switchPrimary s).mem = s.mem := (rfl)

@[simp] theorem takeMirror_mem (s : State) : (takeMirror s).mem = s.mem := by simp [takeMirror]

@[simp] theorem findTail_mem (s : State) (t : Nat) : (findTail s t).mem = s.mem := by
  unfold findTail
  dsimp only
  split <;> simp

@[simp] theorem failClause_sound (s : State) (f : Flight) (h : s.mem.wf = true) : (failClause s f).mem.wf = true := by simp [failClause, h]

@[simp] theorem failClauses_sound (s : State) (t : Nat) (h : s.mem.wf = true) : (failClauses s t).mem.wf = true := by
  unfold failClauses
  (repeat' split) <;> simp (maxDischargeDepth := 12) +contextual [h]

@[simp] theorem failMessages_sound (s : State) (t : Nat) (h : s.mem.wf = true) : (failMessages s t).mem.wf = true := by
  unfold failMessages
  (repeat' split) <;> simp +contextual [h]

@[simp] theorem failoverEvent_sound (s : State) (t : Nat) (h : s.mem.wf = true) : (failoverEvent s t).mem.wf = true := by simp [failoverEvent, h]

@[simp] theorem openRings_mem (s : State) (t : Nat) : (openRings s t).mem = s.mem := (rfl)

@[simp] theorem failTenant_sound (s : State) (t : Nat) (h : s.mem.wf = true) : (failTenant s t).mem.wf = true := by
  simp (maxDischargeDepth := 12) [failTenant, h]

@[simp] theorem emptyClusters_mem (s : State) : (emptyClusters s).mem = s.mem := by simp [emptyClusters]

@[simp] theorem execFailover_sound (s : State) (h : s.mem.wf = true) : ResAll (fun t => t.mem.wf = true) (execFailover s) := by
  unfold execFailover
  dsimp only
  split
  · split
    · rw [resAll_next, emitPrimary_mem, raiseAlert_mem]
      exact foldl_sound _ (fun s t h => failTenant_sound s t h) _ _ (by simp [h])
    · simp [h]
  · exact h

end Sys2Proof.Machine
end

