-- ==== Sys2Proof/Tests/Slice0.lean ====
section
/-!
SUPPORT. Sys2Proof/Tests/Slice0.lean: ill-formed commands that the checks refuse, for every statement that has hypotheses a state and
operands that meet them clause by clause (the witness theorems), and small tests of single commands with results from the spec.
-/

namespace Sys2Proof.Tests

open Sys2Proof.Machine

set_option Elab.async false

/-! ## States and messages that the tests share -/

/-- An enabled tenant of port 0 with a notice ring. -/
def ten : Tenant := { enabled := true, bound := true, ringSet := true, granuleFirst := 1, granuleCount := 1 }

/-- A running wafer: cold boot over, port 0 up, rim 0 trained, tenants 0 and 1 enabled. -/
def up : State :=
  { casing := { standby := true, powered := true, powerGood := true, bankAbove := true }
    sys := { state := 1, stepEnded := 0x1FF, serial := 7 }
    ports := [(0, { linkUp := true, busMaster := true })]
    rims := [(0, { power := .good, trained := true, online := true, capacityGiB := 64 })]
    tenants := [(0, { ten with granuleFirst := 2 }), (1, ten)] }

/-- A message of SEQ 0: its type and its first payload words. -/
def msg (type : Nat) (ws : List Nat) : List Word :=
  ((ws ++ List.replicate 15 0).take 15 ++ [type]).map (BitVec.ofNat 32)

/-- The 64 bytes of a message. -/
def entry (m : List Word) : List Byte := m.flatMap (fun w => leBytes 4 w.toNat)

/-- The state s with message m copied and waiting for its start at tenant t. -/
def withMsg (s : State) (t : Nat) (m : List Word) : State := s.modTenant t (fun x => { x with copied := [m] })


/-! ## Ill-formed commands, one for each check (R33, R452, R461, R494, R487, R519, R559, R590, R511) -/

def pkt0 : Packet :=
  { kind := 0, len := 1, down := false, tenant := 1, epoch := 0, srcWafer := 3, dstWafer := 0, srcCluster := 5, txn := 9, urgent := false
    deadline := 4, code := 0, addr := 0x40000000, orient := false, data := [] }

theorem test_wf_accepts : Instr.wf (.read pkt0 .clean) = true ∧ Instr.wf (.registerWrite 0 .bar0 8 false (List.replicate 4 true) (zeros 4)) = true
    ∧ Instr.wf (.coordinateClaim 0 (-1) 60) = true ∧ Instr.wf .failover = true := by decide +kernel
theorem test_wf_register_write : Instr.wf (.registerWrite 0 .bar0 8 false (List.replicate 4 true) (zeros 3)) = false
    ∧ Instr.wf (.registerWrite 0 .bar0 8 false (List.replicate 6 true) (zeros 6)) = false
    ∧ Instr.wf (.registerWrite 0 .bar0 6 false (List.replicate 4 true) (zeros 4)) = false := by decide +kernel
theorem test_wf_packets : Instr.wf (.read { pkt0 with len := 5 } .clean) = false ∧ Instr.wf (.write { pkt0 with kind := 1 } .clean) = false
    ∧ Instr.wf (.readData { pkt0 with kind := 2, data := zeros 63 }) = false ∧ Instr.wf (.writeAck { pkt0 with kind := 3 }) = false
    ∧ Instr.wf (.nack { pkt0 with kind := 4, len := 0, data := zeros 64 }) = false := by decide +kernel
/-- A control packet that carries one peer message (R487). -/
def ctl0 : Packet := { pkt0 with kind := 5, data := zeros 64 }
theorem test_wf_control : Instr.wf (.control ⟨ctl0, .links 7 0 []⟩) = false ∧ Instr.wf (.control ⟨ctl0, .routes 1 false false []⟩) = false
    ∧ Instr.wf (.control ⟨ctl0, .map 7 128 1 1 (List.replicate 7 (0, 7))⟩) = false ∧ Instr.wf (.control ⟨ctl0, .switch 1⟩) = true := by decide +kernel
theorem test_wf_frame : Instr.wf (.frameReceive 0 (some 0) (zeros 416)) = false := by decide +kernel
theorem test_wf_reports : Instr.wf (.neighbourTestRound [⟨2100, none, true, none, true, true, 0, [], []⟩] 0) = false
    ∧ Instr.wf (.neighbourTestRound [⟨0, some 2100, true, none, true, true, 0, [], []⟩] 0) = false := by decide +kernel
theorem test_wf_dimms : Instr.wf (.ddrTraining 0 [none]) = false := by decide +kernel
theorem test_wf_slack : Instr.wf (.avfsAdjust 0 [true]) = false := by decide +kernel
theorem test_wf_claim : Instr.wf (.coordinateClaim 0 36 0) = false ∧ Instr.wf (.coordinateClaim 0 0 (-2)) = false := by decide +kernel

/-! ## Witnesses: the hypotheses of each statement, clause by clause -/

theorem witness_StepTakesFrontCommand : up.pending = [] := rfl

theorem witness_EveryCommandCompletes : inputOf (.inputPowerUp 65000) ≤ 65000 ∧ inputOf .failover ≤ 65000 := by decide +kernel

theorem witness_MemoryFormKept : up.mem.wf = true ∧ ∃ t, step up = .next t := ⟨by decide +kernel, _, rfl⟩

/-- A full request ring of tenant 1. -/
def fullRing : State := up.modTenant 1 (fun x => { x with requestRing := List.replicate 64 (zeros 64) })

theorem witness_PostWriteAppendsOrDrops :
    (pageLive up 0 1 = true ∧ (up.tenant 1).requestRing.length < 64)
    ∧ (pageLive fullRing 0 1 = true ∧ 64 ≤ (fullRing.tenant 1).requestRing.length)
    ∧ ((zeros 64).length = 64 ∧ 0xFC0 % 64 = 0)
    ∧ (¬ ((zeros 64).length = 64 ∧ 4 % 64 = 0 ∧ false = false) ∧ ¬ ((zeros 64).length = 64 ∧ 0 % 64 = 0 ∧ true = false)
      ∧ ¬ ((zeros 8).length = 64 ∧ 0 % 64 = 0 ∧ false = false))
    ∧ (up.sys.state = 1 ∧ (up.tenant 2).enabled = false ∧ (up.tenant 1).hostPort ≠ 3 ∧ (up.tenant 2).bound = false) := by decide +kernel

/-- One message in tenant 1's ring: a PING whose SEQ is 5, the expected one being 0. -/
def gapMsg : List Word := (msg 0x0A []).take 15 ++ [0x0005000A]
def ringOf (s : State) (t : Nat) (m : List Word) : State := s.modTenant t (fun x => { x with requestRing := [entry m] })
def ping0 : State := ringOf up 1 (msg 0x0A [])
def gap0 : State := ringOf up 1 gapMsg
def gap1 : State := gap0.modTenant 1 (fun x => { x with gap := true })
def gap2 : State := gap0.modTenant 1 (fun x => { x with expected := 6 })
def gap3 : State := ping0.modTenant 1 (fun x => { x with ringSet := false })

/-- The conditions on a single message of tenant 1 that is not accepted. -/
def Lone (s : State) (m : List Word) (e : List Byte) : Prop :=
  ready s = true ∧ (∀ u : Fin 16, u ≠ 1 → (s.tenant u).requestRing = [] ∧ (s.tenant u).copied = [])
    ∧ (∀ (u : Fin 16) (p : Fin 4), canAdmit s u p = false) ∧ (s.tenant 1).copied = [] ∧ (s.tenant 1).requestRing = [e] ∧ m = leWords 16 e
    ∧ acceptable (s.tenant 1) m = false

theorem witness_VisitSortsMessages :
    (ready ping0 = true ∧ (ping0.tenant 1).copied = [] ∧ (ping0.tenant 1).requestRing.head? = some (entry (msg 0x0A []))
      ∧ acceptable (ping0.tenant 1) (leWords 16 (entry (msg 0x0A []))) = true)
    ∧ (Lone gap0 gapMsg (entry gapMsg) ∧ unheard (gap0.tenant 1) gapMsg = false ∧ seqDistance (gap0.tenant 1) gapMsg < 32768
      ∧ (gap0.tenant 1).gap = false ∧ CanNotify gap0 1)
    ∧ (Lone gap1 gapMsg (entry gapMsg) ∧ (gap1.tenant 1).gap = true)
    ∧ (Lone gap2 gapMsg (entry gapMsg) ∧ 32768 ≤ seqDistance (gap2.tenant 1) gapMsg)
    ∧ (Lone gap3 (msg 0x0A []) (entry (msg 0x0A [])) ∧ unheard (gap3.tenant 1) (msg 0x0A []) = true) := by
  unfold Lone CanNotify; refine ⟨?_, ?_, ?_, ?_, ?_⟩ <;> decide +kernel

/-- A SIGNAL clause: verb 0x0C, class 2, tag 7, adding 3 to counter 1; and one whose reserved bit 14 is set. -/
def signalWords : Clause := [0x0007200C, 0xFFFFFFFF, 0xFFFFFFFF, 0x0000FFFF, 0, 0, 0, 0, 1, 3, 0, 0, 0, 0, 0, 0].map (BitVec.ofNat 32)
def badWords : Clause := 0x0007600C#32 :: signalWords.drop 1
/-- A BIND clause of map 0: verb 0x0B, class 2, and the bits given. -/
def bindWords (fl : Nat) : Clause :=
  [0x0007200B + fl, 0xFFFFFFFF, 0xFFFFFFFF, 0x0000FFFF, 0, 0, 0, 0, 0xFFFFFFFF, 0, 0, 0, 0, 0, 0, 0].map (BitVec.ofNat 32)

/-- A plan of one region on cluster 0, two nouns, one map of one loop, one tile. -/
def planA : Plan :=
  { regions := [{ members := [0], memberCount := 1, classes := 15 }], nouns := [{}, {}], maps := [{}], tiles := [{}] }
/-- Clause c waits in the class 2 ring of tenant 1, which has the plan. -/
def queued (c : Clause) : State :=
  up.modTenant 1 (fun x => { x with plan := some planA, rings := [{}, {}, { waiting := [c] }, {}] })

/-- The conditions on a single clause that may be admitted. -/
def LoneClause (s : State) (c : Clause) : Prop :=
  ready s = true ∧ (∀ u : Fin 16, (s.tenant u).requestRing = [] ∧ (s.tenant u).copied = []) ∧ ((s.tenant 1).ring 2).waiting = [c]
    ∧ canAdmit s 1 2 = true
    ∧ (∀ (u : Fin 16) (q : Fin 4), (u ≠ 1 ∨ q ≠ 2) → ((s.tenant u).ring q).waiting = []) ∧ headDeadline s 1 2 < 8

/-- The conditions on an admissible BIND at the head of its ring. -/
def BindReady (c : Clause) : Prop :=
  ready (queued c) = true ∧ (((queued c).tenant 1).ring 2).waiting = c :: [] ∧ canAdmit (queued c) 1 2 = true ∧ cVerb c = 0x0B
    ∧ rejectReason (queued c) 1 c = none ∧ regionFenced (queued c) (((queued c).tenant 1).plan.getD {}) c = false
    ∧ ((queued c).tenant 1).clears = []

theorem witness_VisitAdmitsClauses :
    (LoneClause (queued signalWords) signalWords ∧ rejectReason (queued signalWords) 1 signalWords = none ∧ cVerb signalWords ≠ 0x0B
      ∧ regionFenced (queued signalWords) (((queued signalWords).tenant 1).plan.getD {}) signalWords = false)
    ∧ (LoneClause (queued badWords) badWords ∧ rejectReason (queued badWords) 1 badWords = some 2 ∧ CanNotify (queued badWords) 1
      ∧ tenantFlights (queued badWords) 1 = [] ∧ ((queued badWords).tenant 1).clears = [])
    ∧ (BindReady (bindWords 0) ∧ cEnd (bindWords 0) = false ∧ cQuiet (bindWords 0) = false ∧ CanNotify (queued (bindWords 0)) 1)
    ∧ (BindReady (bindWords 0x600) ∧ cEnd (bindWords 0x600) = true ∧ cQuiet (bindWords 0x600) = true) := by
  unfold LoneClause BindReady CanNotify; refine ⟨?_, ?_, ?_, ?_⟩ <;> decide +kernel

/-- A CLAUSE message at tenant 1, and one that finds 512 clauses of its class waiting. -/
def clauseMsg : List Word := (signalWords.take 15) ++ [1]
def clause0 : State := withMsg up 1 clauseMsg
def clause1 : State := clause0.modTenant 1 (fun x => { x with rings := [{}, {}, { waiting := List.replicate 512 signalWords }, {}] })

theorem witness_ClausesQueueAndBadMessagesAnswered :
    (AtHead clause0 1 clauseMsg 0x01 ∧ (clause0.tenant 1).rings.length = 4 ∧ ((clause0.tenant 1).ring (cPrio clauseMsg)).waiting.length < 512)
    ∧ (AtHead clause1 1 clauseMsg 0x01 ∧ (clause1.tenant 1).rings.length = 4
      ∧ 512 ≤ ((clause1.tenant 1).ring (cPrio clauseMsg)).waiting.length ∧ CanNotify clause1 1)
    ∧ (Accepting (withMsg up 1 (msg 0x0F [])) 1 (msg 0x0F []) ∧ badEnvelope (msg 0x0F []) = true ∧ CanNotify (withMsg up 1 (msg 0x0F [])) 1)
    ∧ (Accepting (withMsg up 1 (msg 0x20A [])) 1 (msg 0x20A []) ∧ badEnvelope (msg 0x20A []) = true)
    ∧ (∀ type ∈ [0x0B, 0x0C, 0x0D, 0x0E], AtHead (withMsg up 1 (msg type [])) 1 (msg type []) type ∧ CanNotify (withMsg up 1 (msg type [])) 1) := by
  unfold AtHead Accepting CanNotify; decide +kernel

/-- A RING_SETUP of the base 0x100000 with ALERTS, and a clause in flight. -/
def setup : List Word := msg 0x02 [0x100000, 0, 1]
def ring0 : State := withMsg up 1 setup
def flying (s : State) : State := { s with work := { flights := [{ tenant := 1, tag := 7, words := signalWords }] } }
def ring1 : State := (flying ring0).modTenant 1 (fun x => { x with ringSet := false })

theorem witness_RingSetupStartsRing :
    (AtHead ring0 1 setup 0x02 ∧ payloadClean setup [0xFFFFFFFF, 0xFFFFFFFF, 1] = true ∧ dword setup 0 % 4096 = 0 ∧ tenantFlights ring0 1 = []
      ∧ (ring0.tenant 1).bound = true ∧ portWritable (ring0.port (ring0.tenant 1).hostPort) = true ∧ (ring0.tenant 1).heldNotices = []
      ∧ (ring0.tenant 1).lostOwed = false ∧ rimTaken ring0 (ring0.tenant 1).hostPort = false)
    ∧ (AtHead (flying ring0) 1 setup 0x02 ∧ tenantFlights (flying ring0) 1 ≠ [] ∧ ((flying ring0).tenant 1).ringSet = true
      ∧ CanNotify (flying ring0) 1)
    ∧ (AtHead ring1 1 setup 0x02 ∧ (ring1.tenant 1).ringSet = false ∧ tenantFlights ring1 1 ≠ []) := by
  unfold AtHead Accepting CanNotify; decide +kernel

/-- A QUERY of the result WHAT to bus address 0x200000 with LENGTH given. -/
def query (what len : Nat) : List Word := msg 0x09 [what, 0x200000, 0, len]
def pingMsg : List Word := msg 0x0A [0x1234, 0x5678]
def pingBad : List Word := msg 0x0A [0, 0, 1]

theorem witness_QueriesAndPingAnswered :
    (∀ what ∈ [0, 1, 2, 3, 4], AtHead (withMsg up 1 (query what 0x20000)) 1 (query what 0x20000) 0x09
      ∧ CanNotify (withMsg up 1 (query what 0x20000)) 1 ∧ dword (query what 0x20000) 1 % 64 = 0
      ∧ payloadClean (query what 0x20000) [0xFF, 0xFFFFFFFF, 0xFFFFFFFF, 0xFFFFFFFF] = true ∧ queryWhat (query what 0x20000) = what
      ∧ word (query what 0x20000) 3 = 0x20000
      ∧ tailKey (withMsg up 1 (query what 0x20000)) 1 + 32 ≤ hostKey ((withMsg up 1 (query what 0x20000)).tenant 1).hostPort (dword (query what 0x20000) 1))
    ∧ ((tenantStatus up 1).length ≤ 0x20000 ∧ (tagBlock up 1).length ≤ 0x20000)
    ∧ (word (query 1 0) 3 = 0 ∧ 0 < (tenantStatus up 1).length)
    ∧ (AtHead (withMsg up 1 pingMsg) 1 pingMsg 0x0A ∧ CanNotify (withMsg up 1 pingMsg) 1 ∧ payloadClean pingMsg [0xFFFFFFFF, 0xFFFFFFFF] = true)
    ∧ (AtHead (withMsg up 1 pingBad) 1 pingBad 0x0A ∧ payloadClean pingBad [0xFFFFFFFF, 0xFFFFFFFF] = false) := by
  unfold AtHead Accepting CanNotify; decide +kernel

/-- Tenant 1 with a full notice ring, fewer than 64 held or 64 held. -/
def held0 : State := (withMsg up 1 pingMsg).modTenant 1 (fun x => { x with ringUsed := 4096 })
def held1 : State := held0.modTenant 1 (fun x => { x with heldNotices := List.replicate 64 (zeros 32) })
/-- One notice held, the ring full; and with a loss owed. -/
def held2 : State := up.modTenant 1 (fun x => { x with ringUsed := 4096, heldNotices := [zeros 32] })
def held3 : State := held2.modTenant 1 (fun x => { x with lostOwed := true, lostCount := 2 })

/-- The conditions on a NOTICE_HEAD write of v that makes room for one held notice. -/
def RoomMade (s : State) (v : Word) (b : List Byte) : Prop :=
  PageReached s 0 1 ∧ ready s = true ∧ (s.tenant 1).ringSet = true ∧ (s.tenant 1).bound = true ∧ (s.tenant 1).hostPort = 0
    ∧ portWritable (s.port 0) = true ∧ (s.tenant 1).heldNotices = [b] ∧ ringUsedAfter (s.tenant 1) (v.toNat % 4096) < 4095

theorem witness_NoticesHeldAndLost :
    (AtHead held0 1 pingMsg 0x0A ∧ payloadClean pingMsg [0xFFFFFFFF, 0xFFFFFFFF] = true ∧ noticeRoom held0 1 = false
      ∧ (held0.tenant 1).heldNotices.length < 64)
    ∧ (AtHead held1 1 pingMsg 0x0A ∧ noticeRoom held1 1 = false ∧ 64 ≤ (held1.tenant 1).heldNotices.length)
    ∧ (RoomMade held2 2 (zeros 32) ∧ (held2.tenant 1).heldResults = [] ∧ (held2.tenant 1).lostOwed = false)
    ∧ (RoomMade held3 2 (zeros 32) ∧ (held3.tenant 1).lostOwed = true ∧ (held3.tenant 1).tail + 1 < 4096
      ∧ (held3.tenant 1).noticeBase.toNat + 131072 ≤ 2 ^ 64)
    ∧ ((up.tenant 1).tail < 4096 ∧ (up.tenant 1).heldNotices.length ≤ 64) := by
  unfold RoomMade PageReached AtHead Accepting; decide +kernel

/-- PLAN_LOAD of an image at the start of tenant 1's granule, and 4 bytes further. -/
def load : List Word := msg 0x03 [0x40000000, 0]
def loadOdd : List Word := msg 0x03 [0x40000004, 0]
def unload : List Word := msg 0x04 []

/-- A plan image of 512 bytes: one region of cluster 0, one noun, one map of one loop and its tile descriptor (R294, R299, R249, R254, R310). -/
def imageHead (crc : Nat) : List Byte :=
  leBytes 4 0x4E414C50 ++ leBytes 2 1 ++ [1, 0] ++ leBytes 4 512 ++ leBytes 4 crc ++ leBytes 4 0 ++ leBytes 2 1 ++ leBytes 2 0 ++ leBytes 2 1
    ++ leBytes 2 1 ++ zeros 4 ++ leBytes 4 0x80 ++ leBytes 4 0 ++ leBytes 4 0xC0 ++ leBytes 4 0x100 ++ leBytes 4 0x180 ++ zeros 76
def imageBody : List Byte :=
  [0, 0, 1, 1, 1, 0, 1, 0] ++ leBytes 4 0xFFFFFFFF ++ zeros 20 ++ leBytes 8 (2 ^ 52) ++ zeros 24
    ++ leBytes 8 0x40000000 ++ [7, 0, 0xFF, 0xFF, 1] ++ zeros 19 ++ zeros 32
    ++ [1, 0, 1] ++ zeros 125
    ++ leBytes 4 1 ++ zeros 20 ++ leBytes 4 1 ++ zeros 20 ++ [1, 0] ++ zeros 10 ++ [1] ++ zeros 5 ++ [0xF0, 0xFF, 0xFF, 0xF0, 0xFF, 0xFF]
    ++ zeros 6 ++ [1, 0] ++ zeros 4 ++ List.replicate 8 0xFF ++ zeros 36
def image : List Byte := imageHead 161235026 ++ imageBody

/-- Tenant 1 has a load under way, cluster 0 is usable, and DDR holds the bytes given at the image's place. -/
def loading (bs : List Byte) : State :=
  { up.modTenant 1 (fun x => { x with loading := [(4, 0x40000000)] }) with
    silicon := { live := { mapped := true, routerGood := [0], computeGood := [0] } }
    mem := { ddr := writeBytes 0 [] 0x40000000 bs } }
/-- The same once the load has been taken off. -/
def loaded (bs : List Byte) : State := (loading bs).modTenant 1 (fun x => { x with loading := [] })

def flight7 : Flight := { tenant := 1, tag := 7, words := signalWords }
theorem witness_PlansComeAndGo :
    (AtHead (withMsg up 1 load) 1 load 0x03 ∧ CanNotify (withMsg up 1 load) 1 ∧ payloadClean load [0xFFFFFFFF, 0xFFFFFFFF] = true
      ∧ ownDdr (withMsg up 1 load) (dword load 0) = some 0x40000000 ∧ 0x40000000 % 256 = 0
      ∧ inGranules ((withMsg up 1 load).tenant 1) 0x40000000 128 = true)
    ∧ (AtHead (withMsg up 1 loadOdd) 1 loadOdd 0x03 ∧ payloadClean loadOdd [0xFFFFFFFF, 0xFFFFFFFF] = true
      ∧ ownDdr (withMsg up 1 loadOdd) (dword loadOdd 0) = some 0x40000004 ∧ 0x40000004 % 256 ≠ 0)
    ∧ (AtHead (withMsg (queued signalWords) 1 unload) 1 unload 0x04 ∧ CanNotify (withMsg (queued signalWords) 1 unload) 1
      ∧ payloadClean unload [] = true ∧ tenantFlights (withMsg (queued signalWords) 1 unload) 1 = []
      ∧ ∃ r ∈ planRegions (withMsg (queued signalWords) 1 unload) 1, 0 ∈ r.members)
    ∧ (AtHead (flying (withMsg up 1 unload)) 1 unload 0x04 ∧ tenantFlights (flying (withMsg up 1 unload)) 1 ≠ []
      ∧ CanNotify (flying (withMsg up 1 unload)) 1)
    ∧ (((loading []).tenant 1).loading = (4, 0x40000000) :: [] ∧ CanNotify (loading []) 1
      ∧ loadFailure (loaded []) 1 0x40000000 (imageAt (loaded []) 0x40000000) = some (0x0101, 0xFFFFFFFF)) := by
  unfold AtHead Accepting CanNotify; refine ⟨?_, ?_, ?_, ?_, ?_⟩ <;> decide +kernel
/-- The CRC register over a list, each step's value forced to a numeral; it is what crc32 computes. -/
def crcForced : List Byte → Nat → Nat
  | [], c => c
  | b :: l, c => match (crcByte (BitVec.ofNat 32 c) b).toNat with
    | 0 => crcForced l 0
    | n + 1 => crcForced l (n + 1)
theorem crcForced_eq (l : List Byte) (c : Word) : crcForced l c.toNat = (l.foldl crcByte c).toNat := by
  induction l generalizing c with
  | nil => rfl
  | cons b l ih =>
    have hc : BitVec.ofNat 32 c.toNat = c := by simp
    rw [List.foldl_cons, ← ih, crcForced, hc]
    split <;> simp_all
theorem crc_image : crc32 (zeroAt image 12) = BitVec.ofNat 32 161235026 := by
  have h : ((zeroAt image 12).foldl crcByte 0xFFFFFFFF).toNat = 4133732269 := by
    rw [← crcForced_eq]; decide +kernel
  have hv : (zeroAt image 12).foldl crcByte 0xFFFFFFFF = BitVec.ofNat 32 4133732269 := BitVec.eq_of_toNat_eq (by rw [h]; rfl)
  unfold crc32
  rw [hv]
  rfl
theorem image_stands : imageAt (loaded image) 0x40000000 = image := by decide +kernel
theorem witness_PlansComeAndGo_accepted :
    ((loading image).tenant 1).loading = (4, 0x40000000) :: []
      ∧ loadFailure ((loading image).modTenant 1 (fun x => { x with loading := [] })) 1 0x40000000
          (imageAt ((loading image).modTenant 1 (fun x => { x with loading := [] })) 0x40000000) = none := by
  refine ⟨by decide +kernel, ?_⟩
  change loadFailure (loaded image) 1 0x40000000 (imageAt (loaded image) 0x40000000) = none
  rw [image_stands]
  unfold loadFailure loadChecks badHeader
  rw [crc_image]
  decide +kernel

def clearMsg : List Word := msg 0x05 [4]
def openMsg : List Word := msg 0x07 [2, 0x40000000, 0, 4096]
def closeMsg : List Word := msg 0x08 [0]
/-- Session i open for tenant 1, of deadline class 2. -/
def session1 : Session := { openFlag := true, tenant := 1, deadline := 2, stateBase := 0x40000000, stateSize := 4096 }
def sessions (n : Nat) : State := { up with work := { sessions := (List.range n).map (fun i => (i, session1)) } }
def clear0 : State := withMsg up 1 clearMsg
def clear1 : State := withMsg (queued signalWords) 1 clearMsg

theorem witness_QueueClearAndSessions :
    (AtHead clear0 1 clearMsg 0x05 ∧ payloadClean clearMsg [0xF] = true ∧ tenantFlights clear0 1 = [] ∧ (clear0.tenant 1).rings.length = 4
      ∧ (clear0.tenant 1).clears = [] ∧ (∀ p : Fin 4, ((clear0.tenant 1).ring p).waiting = []) ∧ CanNotify clear0 1
      ∧ bit (word clearMsg 0) 2 = true ∧ bit (word clearMsg 0) 1 = false)
    ∧ (AtHead clear1 1 clearMsg 0x05 ∧ tenantFlights clear1 1 = [] ∧ (clear1.tenant 1).rings.length = 4 ∧ (clear1.tenant 1).clears = []
      ∧ ((clear1.tenant 1).ring 2).waiting = [signalWords])
    ∧ (AtHead (withMsg (sessions 1) 1 openMsg) 1 openMsg 0x07 ∧ CanNotify (withMsg (sessions 1) 1 openMsg) 1
      ∧ payloadClean openMsg [0xFF, 0xFFFFFFFF, 0xFFFFFFFF, 0xFFFFFFFF] = true ∧ bits (word openMsg 0) 7 0 < 8
      ∧ ownDdr (withMsg (sessions 1) 1 openMsg) (dword openMsg 1) = some 0x40000000 ∧ 0x40000000 % 256 = 0
      ∧ inGranules ((withMsg (sessions 1) 1 openMsg).tenant 1) 0x40000000 (word openMsg 3) = true
      ∧ ((withMsg (sessions 1) 1 openMsg).session 1).openFlag = false
      ∧ (∀ j, j < 1 → ((withMsg (sessions 1) 1 openMsg).session j).openFlag = true))
    ∧ (AtHead (withMsg (sessions 256) 1 openMsg) 1 openMsg 0x07
      ∧ ∀ j, j < 256 → ((withMsg (sessions 256) 1 openMsg).session j).openFlag = true)
    ∧ (AtHead (withMsg (sessions 1) 1 closeMsg) 1 closeMsg 0x08 ∧ payloadClean closeMsg [0xFF] = true
      ∧ ((withMsg (sessions 1) 1 closeMsg).session 0).openFlag = true ∧ ((withMsg (sessions 1) 1 closeMsg).session 0).tenant = 1
      ∧ ∀ f ∈ (withMsg (sessions 1) 1 closeMsg).work.flights, cSessionEn f.words = true → cSession f.words ≠ 0)
    ∧ (AtHead (withMsg up 1 closeMsg) 1 closeMsg 0x08 ∧ ((withMsg up 1 closeMsg).session 0).openFlag = false) := by
  unfold AtHead Accepting CanNotify; refine ⟨?_, ?_, ?_, ?_, ?_, ?_⟩ <;> decide +kernel

def resetT : List Word := msg 0x06 [0x100]
def resetR : List Word := msg 0x06 [0x101, 0]
def reset0 : State := withMsg (queued signalWords) 1 resetT
def reset1 : State := withMsg (queued signalWords) 1 resetR
/-- Tenant 1 with a deferred region reset, the last increment at 0 µs, at a time; and with a reply owed since 0 µs. -/
def defer (now : Nat) : State :=
  { up.modTenant 1 (fun x => { x with deferred := [.regionReset 1 3 0], lastIncrement := some 0 }) with nowUs := now }
def owing (now : Nat) : State := { up.modTenant 1 (fun x => { x with resets := [⟨3, 0, 50⟩] }) with nowUs := now }

theorem witness_ResetsAndReplies :
    (AtHead reset0 1 resetT 0x06 ∧ payloadClean resetT [0xF03, 0xFF] = true ∧ bits (word resetT 0) 11 8 = 1 ∧ incrementDue reset0 1 = true
      ∧ (reset0.tenant 1).deferred = [] ∧ bits (word resetT 0) 1 0 = 0)
    ∧ (AtHead reset1 1 resetR 0x06 ∧ payloadClean resetR [0xF03, 0xFF] = true ∧ bits (word resetR 0) 11 8 = 1 ∧ incrementDue reset1 1 = true
      ∧ (reset1.tenant 1).deferred = [] ∧ bits (word resetR 0) 1 0 = 1 ∧ bits (word resetR 1) 7 0 = 0 ∧ 0 < (planRegions reset1 1).length)
    ∧ (((defer 10).tenant 1).deferred = .regionReset 1 3 0 :: [] ∧ incrementDue (defer 10) 1 = true)
    ∧ (((defer 9).tenant 1).deferred = .regionReset 1 3 0 :: [] ∧ ((defer 9).tenant 1).lastIncrement = some 0 ∧ (defer 9).nowUs < 0 + 10)
    ∧ (((owing 50).tenant 1).resets = [⟨3, 0, 50⟩] ∧ CanNotify (owing 50) 1 ∧ 0 + 50 ≤ (owing 50).nowUs)
    ∧ (((owing 49).tenant 1).resets = [⟨3, 0, 50⟩] ∧ CanNotify (owing 49) 1 ∧ (owing 49).nowUs < 0 + 50) := by
  unfold AtHead Accepting CanNotify; refine ⟨?_, ?_, ?_, ?_, ?_, ?_⟩ <;> decide +kernel

def resetF : List Word := msg 0x06 [2, 69]
def field0 : State := withMsg up 0 resetF
/-- Field 69 in a reset of SEQ 5, ramped at 0 µs, the rest as given. -/
def fieldAt69 (now : Nat) (x : Field) : State := { up with fields := [(69, { x with resetSeqs := [5], fenced := x.liftAt = none, rampAt := 0 })], nowUs := now }
def lift0 : State := fieldAt69 50000 { power := .good }
def lift1 : State := fieldAt69 90000 { power := .good, state := .running, liftAt := some 40000 }
def lift2 : State := fieldAt69 50001 { power := .good }

theorem witness_FieldReset :
    (AtHead field0 0 resetF 0x06 ∧ payloadClean resetF [0xF03, 0xFF] = true ∧ bits (word resetF 0) 1 0 = 2 ∧ bits (word resetF 1) 7 0 = 69
      ∧ (∀ u : Fin 16, regionsInField field0 u 69 = []) ∧ (∀ u : Fin 16, Deferred.fieldReset 69 ∉ (field0.tenant u).deferred))
    ∧ ((lift0.field 69).resetSeqs = [5] ∧ (∀ u : Fin 16, Deferred.fieldReset 69 ∉ (lift0.tenant u).deferred) ∧ (lift0.field 69).liftAt = none
      ∧ lift0.nowUs ≤ (lift0.field 69).rampAt + 50000 ∧ canLift lift0 69 = true)
    ∧ ((lift1.field 69).resetSeqs = [5] ∧ (∀ u : Fin 16, Deferred.fieldReset 69 ∉ (lift1.tenant u).deferred)
      ∧ (lift1.field 69).liftAt = some 40000 ∧ (lift1.field 69).fenced = false ∧ 40000 + 50000 ≤ lift1.nowUs ∧ fieldReplyAt lift1 69 ≤ lift1.nowUs
      ∧ CanNotify lift1 0)
    ∧ ((lift2.field 69).resetSeqs = [5] ∧ (∀ u : Fin 16, Deferred.fieldReset 69 ∉ (lift2.tenant u).deferred) ∧ (lift2.field 69).liftAt = none
      ∧ (lift2.field 69).rampAt + 50000 < lift2.nowUs ∧ fieldReplyAt lift2 69 ≤ lift2.nowUs ∧ CanNotify lift2 0) := by
  unfold AtHead Accepting CanNotify; refine ⟨?_, ?_, ?_, ?_⟩ <;> decide +kernel

/-- TENANT_CONFIG of tenant 1: enabled, timeout given, granules 3 and 4, port 0. -/
def configMsg (timeout : Nat) : List Word := msg 0x0B [0x101, 0, timeout, 3 + 2 * 65536, 0]
def config0 : State := withMsg up 0 (configMsg 800)
def config1 : State := withMsg (queued signalWords) 0 (configMsg 10)
def config2 : State := up.modTenant 1 (fun x => { x with configuring := some (6, settingsOf (configMsg 0)) })

theorem witness_TenantConfigured :
    (AtHead config0 0 (configMsg 800) 0x0B ∧ payloadClean (configMsg 800) [0x30F, 0xFFFF000F, 0x3FF, 0x0FFF0FFF, 0x3] = true
      ∧ bits (word (configMsg 800) 0) 3 0 = 1 ∧ (config0.tenant 1).configuring = none
      ∧ (10 ≤ (settingsOf (configMsg 800)).timeout ∧ (settingsOf (configMsg 800)).timeout ≤ 800)
      ∧ badGranules (noteStarted (acceptHead config0 0 (configMsg 800)) 0 (configMsg 800)) 1 (settingsOf (configMsg 800)) = false
      ∧ (config0.tenant 1).plan = none)
    ∧ (AtHead config1 0 (configMsg 10) 0x0B ∧ (config1.tenant 1).configuring = none ∧ 10 ≤ (settingsOf (configMsg 10)).timeout
      ∧ badGranules (noteStarted (acceptHead config1 0 (configMsg 10)) 0 (configMsg 10)) 1 (settingsOf (configMsg 10)) = false
      ∧ (config1.tenant 1).plan ≠ none ∧ CanNotify config1 0)
    ∧ ((config2.tenant 1).configuring = some (6, settingsOf (configMsg 0)) ∧ (config2.tenant 1).deferred = []
      ∧ (config2.tenant 1).configQueue = [] ∧ (config2.tenant 1).copied = [] ∧ CanNotify config2 0) := by
  unfold AtHead Accepting CanNotify; refine ⟨?_, ?_, ?_⟩ <;> decide +kernel

/-- FW_STAGE of an image at bus address 0x300000, of a size. -/
def stageMsg (size : Nat) : List Word := msg 0x0C [0x300000, 0, size]
/-- An FW_STAGE of SEQ 8 whose source is still to be read. -/
def staging (size : Nat) : State := { up with sys := { up.sys with fwStaging := [(8, 0x300000, size)] } }
/-- An image without payload: header, no payload, signature block (R635). -/
def fwImage : List Byte := leBytes 4 0x57464850 ++ leBytes 2 1 ++ leBytes 2 1 ++ zeros 56 ++ List.replicate 96 1 ++ zeros 32
/-- A store of firmware bytes at the front. -/
def storing (bs : List Byte) : State := { up with sys := { up.sys with stores := [.firmware 8 bs] } }

theorem witness_FirmwareImageStaged :
    (AtHead (withMsg up 0 (stageMsg 192)) 0 (stageMsg 192) 0x0C
      ∧ payloadClean (stageMsg 192) [0xFFFFFFFF, 0xFFFFFFFF, 0xFFFFFFFF] = true ∧ stageSizeOk (word (stageMsg 192) 2) = true
      ∧ (withMsg up 0 (stageMsg 192)).sys.fwStaging = [])
    ∧ (AtHead (withMsg up 0 (stageMsg 128)) 0 (stageMsg 128) 0x0C ∧ stageSizeOk (word (stageMsg 128) 2) = false)
    ∧ (firmwareRuns (staging 192) = true ∧ (staging 192).sys.fwStaging = [(8, 0x300000, 192)] ∧ (staging 192).sys.fwStageBytes = []
      ∧ 192 ≤ fwImage.length ∧ CanNotify (staging 192) 0 ∧ (staging 192).sys.activations = [])
    ∧ (CplStatus.completerAbort ≠ .success ∧ true = true)
    ∧ (ready (storing []) = true ∧ (storing []).sys.stores = .firmware 8 [] :: [] ∧ CanNotify (storing []) 0
      ∧ (storing []).sys.activations = [] ∧ firmwareImageOk [] = false) := by
  unfold AtHead Accepting CanNotify; refine ⟨?_, ?_, ?_, ?_, ?_⟩ <;> decide +kernel
/-- What a signature is good for is the environment's (log 5): with a good one, the image is good. -/
theorem witness_FirmwareImageStaged_good (h : Config.signatureOk (fwImage.take 192) = true) :
    ready (storing fwImage) = true ∧ (storing fwImage).sys.stores = .firmware 8 fwImage :: [] ∧ CanNotify (storing fwImage) 0
      ∧ (storing fwImage).sys.activations = [] ∧ firmwareImageOk fwImage = true := by
  have hs : firmwareSigned fwImage = (decide (leNat ((fwImage.drop (64 + firmwareSize fwImage + 128 - 32)).take 32) = 0)
      && Config.signatureOk (fwImage.take (64 + firmwareSize fwImage + 128))) := rfl
  have hn : 64 + firmwareSize fwImage + 128 = 192 := by decide +kernel
  refine ⟨by decide +kernel, by decide +kernel, by unfold CanNotify; decide +kernel, rfl, ?_⟩
  unfold firmwareImageOk
  rw [hs, hn, h]
  decide +kernel

def activate (i : Nat) : List Word := msg 0x0D [i]
def act0 : State := withMsg up 0 (activate 0)
def act1 : State := flying (withMsg up 0 (activate 1))
def act2 : State := { act0 with sys := { act0.sys with stores := [.ledger] } }

theorem witness_FirmwareActivated :
    (AtHead act0 0 (activate 0) 0x0D ∧ payloadClean (activate 0) [1] = true ∧ act0.sys.activations = [] ∧ act0.sys.stores = [] ∧ act0.sys.fwStaging = []
      ∧ act0.sys.requalify = none ∧ CanNotify act0 0 ∧ drained act0 = true ∧ bits (word (activate 0) 0) 0 0 = act0.sys.runningCopy)
    ∧ (AtHead act1 0 (activate 1) 0x0D ∧ payloadClean (activate 1) [1] = true ∧ act1.sys.activations = []
      ∧ CanNotify act1 0 ∧ drained act1 = false)
    ∧ (AtHead act2 0 (activate 0) 0x0D ∧ act2.sys.activations = [] ∧ CanNotify act2 0 ∧ drained act2 = true ∧ act2.sys.stores ≠ []) := by
  unfold AtHead Accepting CanNotify; refine ⟨?_, ?_, ?_⟩ <;> decide +kernel

/-- Bytes read below the first listed address above them do not depend on what is listed there. -/
theorem readBytes_append (d : Byte) (m r : List Host.Cell) (a n : Nat) (h : ∀ e ∈ r, a + n ≤ e.1) :
    readBytes d (m ++ r) a n = readBytes d m a n := by
  have key : ∀ x, x < a + n → tget d (m ++ r) x = tget d m x := by
    intro x hx
    induction m with
    | nil =>
      induction r with
      | nil => rfl
      | cons e r ih =>
        have h1 := h e (by simp)
        simp only [List.nil_append, tget] at ih ⊢
        rw [if_neg (by omega)]
        exact ih (fun y hy => h y (by simp [hy]))
    | cons e m ih => simp only [List.cons_append, tget, ih]
  induction n generalizing a with
  | zero => rfl
  | succ n ih =>
    rw [readBytes, readBytes, key a (by omega), ih (a + 1) (fun e he => by have := h e he; omega) (fun x hx => key x (by omega))]

/-- A firmware area 1 with the image without payload, STORE_SEQUENCE 5 and the COMMIT word given. -/
def copyCells : List Host.Cell := (fwImage.zipIdx.map (fun e => (0x500000 + e.2, e.1)))
def pageCells (crc commit : Nat) : List Host.Cell :=
  ((leBytes 4 5 ++ leBytes 4 crc ++ leBytes 4 commit).zipIdx.map (fun e => (0x8FFF00 + e.2, e.1)))
def copyState (crc commit : Nat) : State :=
  { act0.modTenant 0 (fun x => { x with copied := [activate 1] }) with mem := { flash := copyCells ++ pageCells crc commit } }

theorem page_high (crc commit : Nat) : ∀ e ∈ pageCells crc commit, 0x500000 + (0x400000 - 256) ≤ e.1 := by
  intro e he
  simp only [pageCells, List.mem_map] at he
  obtain ⟨x, -, rfl⟩ := he
  simp only; omega
theorem copy_content (crc commit : Nat) :
    areaContent (copyState crc commit) (firmwareArea 1) = readBytes erasedByte copyCells 0x500000 (0x400000 - 256) :=
  readBytes_append _ _ _ _ _ (page_high crc commit)
/-- Bytes read above every listed address of a first part come from the second part. -/
theorem readBytes_skip (d : Byte) (m r : List Host.Cell) (a n : Nat) (h : ∀ e ∈ m, e.1 < a) :
    readBytes d (m ++ r) a n = readBytes d r a n := by
  have key : ∀ x, a ≤ x → tget d (m ++ r) x = tget d r x := by
    intro x hx
    induction m with
    | nil => rfl
    | cons e m ih =>
      have h1 := h e (by simp)
      simp only [List.cons_append, tget]
      rw [if_neg (by omega)]
      exact ih (fun y hy => h y (by simp [hy]))
  induction n generalizing a with
  | zero => rfl
  | succ n ih =>
    rw [readBytes, readBytes, key a (by omega), ih (a + 1) (fun e he => by have := h e he; omega) (fun x hx => key x (by omega))]
theorem copy_low : ∀ e ∈ copyCells, e.1 < 0x8FFF00 := by decide +kernel
theorem page_reads (crc commit : Nat) :
    flashRead (copyState crc commit) 0x8FFF00 4 = leBytes 4 5 ∧ flashRead (copyState crc commit) 0x8FFF04 4 = leBytes 4 crc
      ∧ flashRead (copyState crc commit) 0x8FFF08 4 = leBytes 4 commit := by
  refine ⟨?_, ?_, ?_⟩ <;> refine (readBytes_skip _ _ _ _ _ (fun e he => by have := copy_low e he; omega)).trans rfl
theorem leNat_leBytes4 (v : Nat) (h : v < 2 ^ 32) : leNat (leBytes 4 v) = v := by
  simp [leNat, leBytes]; omega
/-- The CRC that the copy's content and STORE_SEQUENCE have. -/
def crc5 : Nat := copyCrc (readBytes erasedByte copyCells 0x500000 (0x400000 - 256)) 5
theorem copy_header : firmwareHeaderOk (readBytes erasedByte copyCells 0x500000 (0x400000 - 256)) = true := by decide +kernel
theorem copy_listed (crc commit : Nat) : flashBlank (copyState crc commit) 0x500000 0x400000 = false := by
  have h : copyCells.all (fun e => ¬ (0x500000 ≤ e.1 ∧ e.1 < 0x500000 + 0x400000)) = false := by decide +kernel
  unfold flashBlank
  change (copyCells ++ pageCells crc commit).all _ = false
  rw [List.all_append, h, Bool.false_and]
theorem copy_state (commit : Nat) (h0 : 0 < commit) (h : commit < 2 ^ 32) : firmwareState (copyState crc5 commit) 1
    = if commit = commitWord then 0 else if commit = 0xFFFFFFFF then 2 else 4 := by
  obtain ⟨h1, h2, h3⟩ := page_reads crc5 commit
  have hs : areaSequence (copyState crc5 commit) (firmwareArea 1) = 5 := by
    change leNat (flashRead _ 0x8FFF00 4) = 5
    rw [h1]; rfl
  have hm : areaCommit (copyState crc5 commit) (firmwareArea 1) = commit := by
    change leNat (flashRead _ 0x8FFF08 4) = _
    rw [h3, leNat_leBytes4 _ h]
  have hc : areaCrc (copyState crc5 commit) (firmwareArea 1) = crc5 := by
    change leNat (flashRead _ 0x8FFF04 4) = _
    rw [h2, leNat_leBytes4 _ (by unfold crc5 copyCrc; exact BitVec.isLt _)]
  have hk : areaCrcOk (copyState crc5 commit) (firmwareArea 1) = true := by
    unfold areaCrcOk
    rw [copy_content, hs, hc]
    exact decide_eq_true rfl
  unfold firmwareState areaState
  rw [hm, hk, copy_content, copy_header, if_neg (by rw [show (firmwareArea 1).base = 0x500000 from rfl, show (firmwareArea 1).size = 0x400000 from rfl, copy_listed]; exact Bool.false_ne_true),
    if_neg (by omega)]
  rfl

/-- The conditions on FW_ACTIVATE of copy 1. -/
def Activates (s : State) : Prop :=
  AtHead s 0 (activate 1) 0x0D ∧ payloadClean (activate 1) [1] = true ∧ s.sys.stores = [] ∧ s.sys.fwStaging = [] ∧ s.sys.requalify = none
    ∧ CanNotify s 0 ∧ drained s = true ∧ 1 ≠ s.sys.runningCopy
theorem witness_FirmwareActivated_valid : Activates (copyState crc5 commitWord) ∧ firmwareState (copyState crc5 commitWord) 1 = 0 := by
  refine ⟨?_, copy_state _ (by decide) (by decide)⟩
  unfold Activates AtHead Accepting CanNotify; decide +kernel
/-- What a signature is good for is the environment's (log 5). -/
theorem witness_FirmwareActivated_staged (h : Config.signatureOk ((readBytes erasedByte copyCells 0x500000 (0x400000 - 256)).take 192) = true) :
    Activates (copyState crc5 0xFFFFFFFF) ∧ firmwareState (copyState crc5 0xFFFFFFFF) 1 = 2
      ∧ firmwareSigned (firmwareContent (copyState crc5 0xFFFFFFFF) 1) = true := by
  refine ⟨by unfold Activates AtHead Accepting CanNotify; decide +kernel, copy_state _ (by decide) (by decide), ?_⟩
  have hn : 64 + firmwareSize (readBytes erasedByte copyCells 0x500000 (0x400000 - 256)) + 128 = 192 := by decide +kernel
  unfold firmwareContent firmwareSigned
  rw [copy_content]
  simp only [hn, h, Bool.and_true]
  decide +kernel

def requal : List Word := msg 0x0E []
def requal0 : State := withMsg up 0 requal
def requal1 : State :=
  { up.modTenant 0 (fun x => { x with unanswered := [(9, 0x0E)] }) with
    sys := { up.sys with requalify := some 9, requalTested := true, requalStored := true, stores := [.requalify] } }

theorem witness_RequalifyRuns :
    (AtHead requal0 0 requal 0x0E ∧ payloadClean requal [] = true ∧ requal0.sys.requalify = none ∧ drained requal0 = true)
    ∧ (requal1.sys.requalify = some 9 ∧ ready requal1 = true ∧ requal1.sys.requalTested = true ∧ requal1.sys.requalStored = true
      ∧ requal1.sys.stores = .requalify :: [] ∧ requal1.silicon.recorded.length ≤ 4000 ∧ (requal1.tenant 0).unanswered = [(9, 0x0E)]
      ∧ CanNotify requal1 0 ∧ requal1.sys.requalifyQueue = [] ∧ requal1.sys.activations = []) := by
  unfold AtHead Accepting CanNotify; refine ⟨?_, ?_⟩ <;> decide +kernel

/-- A wafer in cold boot with the first n steps over, at a time. -/
def boot (n now : Nat) : State :=
  { casing := { standby := true, powered := true, bankAbove := true }, nowUs := now
    sys := { stepEnded := BitVec.ofNat 9 (2 ^ n - 1), romStartedAt := some 0 }
    rims := [(0, { power := .good })], fields := (List.range 70).map (fun f => (f, { power := .good })) }
def boot2 (tries : List Nat) (now : Nat) : State := { boot 1 now with sys := { (boot 1 now).sys with romTries := tries } }
/-- Cluster 0 locked at a depth; the second has a coordinate. -/
def lockedAt (n d : Nat) : State := { boot n 6000 with silicon := { phys := [(0, { locked := true, depth := d }), (1, { locked := true, coord := some (1, 0) })] } }

theorem witness_BootStepsEnd :
    (step2Runs (boot2 [0, 1] 0) = true ∧ (boot2 [0, 1] 0).sys.romTries = 0 :: [1])
    ∧ (step2Runs (boot2 [] 0) = true ∧ (boot2 [] 0).sys.romTries = [])
    ∧ (step2Runs (boot2 [0] 50000) = true ∧ (boot2 [0] 50000).sys.romStartedAt = some 0 ∧ 0 + 50000 ≤ (boot2 [0] 50000).nowUs
      ∧ (boot2 [0] 50000).sys.romTries = [0] ∧ step2Runs (boot2 [0, 1] 50000) = true ∧ (boot2 [0, 1] 50000).sys.romTries = 0 :: 1 :: [])
    ∧ (sourceDepth (boot 2 0) 3 .rim = some 0 ∧ stepRuns (boot 2 0) 3 = true ∧ physPowered (boot 2 0) 3 = true ∧ ((boot 2 0).phys 3).locked = false)
    ∧ (sourceDepth (lockedAt 2 39) 35 (.cluster 0) = some 39 ∧ stepRuns (lockedAt 2 39) 3 = true ∧ physPowered (lockedAt 2 39) 35 = true
      ∧ ((lockedAt 2 39).phys 35).locked = false)
    ∧ (sourceDepth (lockedAt 2 40) 35 (.cluster 0) = some 40 ∧ stepRuns (lockedAt 2 40) 3 = true ∧ ((lockedAt 2 40).phys 35).locked = false)
    ∧ (stepRuns (boot 2 5000) 3 = true ∧ (boot 2 5000).sys.stepAt + 5000 ≤ (boot 2 5000).nowUs)
    ∧ (stepRuns (lockedAt 3 1) 4 = true ∧ ((lockedAt 3 1).phys 0).locked = true ∧ ((lockedAt 3 1).phys 0).coord = none)
    ∧ (((lockedAt 3 1).phys 1).locked = true ∧ ((lockedAt 3 1).phys 1).coord = some (1, 0) ∧ ((1 : Int), (0 : Int)) ≠ (2, 0))
    ∧ (stepRuns (boot 3 2000) 4 = true ∧ (boot 3 2000).sys.stepAt + 2000 ≤ (boot 3 2000).nowUs) := by
  refine ⟨?_, ?_, ?_, ?_, ?_, ?_, ?_, ?_, ?_, ?_⟩ <;> decide +kernel

def round (n : Nat) : State := { boot 4 0 with silicon := { round := n } }
def storeAt (st : Store) : State := { up with sys := { up.sys with stores := [st] } }
theorem witness_NeighbourTestAndStores :
    (stepRuns (round 0) 5 = true ∧ (round 0).silicon.round + 1 < roundCount (round 0))
    ∧ (stepRuns (round 3) 5 = true ∧ (round 3).sys.requalify = none ∧ (round 3).silicon.round = 3)
    ∧ (firmwareRuns (storeAt .ledger) = true ∧ (storeAt .ledger).sys.stores = .ledger :: [] ∧ (storeAt .ledger).silicon.recorded.length ≤ 4000
      ∧ (storeAt .ledger).sys.activations = [])
    ∧ (ready (storeAt (.generationErase 1)) = true ∧ (storeAt (.generationErase 1)).sys.stores = .generationErase 1 :: []
      ∧ (storeAt (.generationErase 1)).sys.activations = []) := by
  refine ⟨?_, ?_, ?_, ?_⟩ <;> decide +kernel

theorem witness_PageAndGlobalRegistersWritten :
    (PageReached up 0 1 ∧ (up.tenant 1).heldNotices = [] ∧ (up.tenant 1).lostOwed = false ∧ (up.tenant 1).heldResults = [])
    ∧ (portReached up 0 = true ∧ (up.tenant 0).bound = true ∧ (up.tenant 0).hostPort = 0 ∧ up.sys.noStandby = false ∧ bit 1 0 = true)
    ∧ (portReached { up with ports := [(1, { linkUp := true })] } 1 = true ∧ (up.tenant 0).hostPort ≠ 1) := by
  unfold PageReached; refine ⟨?_, ?_, ?_⟩ <;> decide +kernel

theorem witness_RegisterWriteForms :
    (portReached up 0 = true ∧ ¬ (0x1024 < 0x100000 ∧ 0x1024 % 0x10000 < 0x1000))
    ∧ ([true, false, true, true].length = 4 ∧ false ∈ [true, false, true, true])
    ∧ (0xFFF < 0x1000 ∧ pageLive up 0 1 = true) ∧ ((0 : Fin 68).val % 4 ≠ 3 ∧ (up.port 0).msixPending = []) := by decide +kernel

/-- Line 2^24 of tenant 1's first granule is poisoned. -/
def poisoned : State := { up with mem := { poisoned := [2 ^ 24] } }
theorem witness_ApertureAccessed :
    (PageReached up 0 1 ∧ (up.tenant 1).configuring = none ∧ up.work.touches = [] ∧ (2 ^ 30 - 4) + (zeros 4).length ≤ min (up.tenant 1).granuleCount 4 * 2 ^ 30)
    ∧ (∀ i, i < 4 → ((up.tenant 1).granuleFirst * 2 ^ 30 + (2 ^ 30 - 4) + i) / 64 ∉ up.mem.poisoned)
    ∧ (PageReached poisoned 0 1 ∧ (poisoned.tenant 1).configuring = none ∧ poisoned.work.touches = [] ∧ 0 + 4 ≤ min (poisoned.tenant 1).granuleCount 4 * 2 ^ 30
      ∧ ∃ i, i < 4 ∧ ((poisoned.tenant 1).granuleFirst * 2 ^ 30 + 0 + i) / 64 ∈ poisoned.mem.poisoned)
    ∧ (∃ i, i < 4 ∧ ((up.tenant 1).granuleFirst * 2 ^ 30 + 0 + i) / 64 = 2 ^ 24)
    ∧ (min (up.tenant 1).granuleCount 4 * 2 ^ 30 ≤ 2 ^ 30 ∧ 2 ^ 30 + 8 ≤ 2 ^ 32) := by
  unfold PageReached; refine ⟨?_, ?_, ⟨?_, ?_, ?_, ?_, 0, ?_⟩, ⟨0, ?_⟩, ?_⟩ <;> decide +kernel

/-- MSI-X enabled with vector 2 unmasked and vector 3 pending; and port 0 in D3hot with a notice of tenant 1 held. -/
def msix : State := up.setPort 0 { up.port 0 with msixEnable := true, msixPending := [3], msixTable := [(44, 0)] }
def sleeping : State :=
  (up.setPort 0 { up.port 0 with d3hot := true, msixEnable := true, msixPending := [3] }).modTenant 1 (fun x => { x with heldNotices := [zeros 32] })
theorem witness_MsixAndHeldNotices :
    (portReached msix 0 = true ∧ (msix.port 0).msixEnable = true ∧ portWritable (msix.port 0) = true ∧ 3 ∈ (msix.port 0).msixPending)
    ∧ (msixMasked (msix.port 0) 3 = true ∧ msixMasked (msix.port 0) 2 = false ∧ rimTaken msix 0 = false)
    ∧ (rimOn sleeping 0 = true ∧ rimTaken sleeping 0 = false ∧ ready sleeping = true ∧ (sleeping.port 0).linkUp = true ∧ (sleeping.port 0).busMaster = true
      ∧ (sleeping.tenant 1).bound = true ∧ (sleeping.tenant 1).hostPort = 0 ∧ (sleeping.tenant 1).ringSet = true
      ∧ (sleeping.tenant 1).ringUsed < 4096 ∧ (sleeping.tenant 1).heldNotices = [zeros 32] ∧ (sleeping.tenant 1).lostOwed = false
      ∧ (∀ u : Fin 16, (sleeping.tenant u).heldResults = []
        ∧ (u ≠ 1 → (sleeping.tenant u).heldNotices = [] ∧ (sleeping.tenant u).lostOwed = false))
      ∧ 3 ∈ (sleeping.port 0).msixPending) := by
  refine ⟨?_, ?_, ?_⟩ <;> decide +kernel

/-! ### Work: a plan of small products over cluster 0 -/

/-- A term of one loop with coefficient 1 (R256). -/
def term (l : Nat) : DWord := BitVec.ofNat 64 (0x10008 + l)
/-- A local cistern noun of 2 by 2 elements, rows 64 bytes apart. -/
def noun (off fmt : Nat) : Noun :=
  { base := BitVec.ofNat 64 (2 ^ 52 + off), format := BitVec.ofNat 8 fmt, dims := 1, ext := [2, 2, 0, 0], stride := [1, 0, 0] }
/-- OUT, A and B are bytes; loop 0 is COL, loop 1 ROW, loop 2 RED. -/
def planP : Plan :=
  { regions := [{ members := [0], memberCount := 1, classes := 15, spillBase := BitVec.ofNat 64 (2 ^ 52 + 0x8000), spillCapacity := 4 }]
    nouns := [noun 0 7, noun 0x1000 7, noun 0x2000 7, noun 0x3000 0x9F]
    maps := [{ loops := 3, classes := [1, 2, 3, 0, 0, 0], out := [term 1, term 0, 0, 0], a := [term 0, term 2, 0, 0], b := [term 1, term 2, 0, 0] },
      { loops := 2, classes := [1, 2, 0, 0, 0, 0], out := [term 1, term 0, 0, 0], a := [term 1, term 0, 0, 0], b := [term 1, term 0, 0, 0] }]
    tiles := [{ extent := [2, 2, 2, 0, 0, 0], t2 := [2, 2, 2, 0, 0, 0], t1 := [2, 2, 2, 0, 0, 0], factor := [1, 1, 1, 0, 0, 0]
                order2 := [0, 1, 2, 15, 15, 15], order1 := [0, 1, 2, 15, 15, 15], pwMax := 7, paMax := 7, rankable := 3, hashOk := true },
      { extent := [2, 2, 0, 0, 0, 0], t2 := [2, 2, 0, 0, 0, 0], t1 := [2, 2, 0, 0, 0, 0], factor := [1, 1, 0, 0, 0, 0]
        order2 := [0, 1, 15, 15, 15, 15], order1 := [0, 1, 15, 15, 15, 15] }] }
/-- A clause of verb, OUT, A, B, word 4, word 5, word 7 and word 8; tag 7, class 2. -/
def clauseOf (verb out a b w4 w5 w7 w8 : Nat) : Clause :=
  [0x00072000 + verb, out + 0xFFFF0000, a + 65536 * b, 0xFFFF, w4, w5, 0, w7, w8, 0, 0, 0, 0, 0, 0, 0].map (BitVec.ofNat 32)
def contractWords : Clause := clauseOf 1 0 1 2 0x77 7 0 0
/-- Cistern bytes: A is [[1, 2], [3, 4]] and B [[5, 6], [7, 8]], rows 64 bytes apart. -/
def cells : List Host.Cell :=
  [(0x1000, 1), (0x1001, 2), (0x1040, 3), (0x1041, 4), (0x2000, 5), (0x2001, 6), (0x2040, 7), (0x2041, 8)]
/-- Clause c in flight on cluster 0. -/
def flightP (c : Clause) : Flight :=
  { tenant := 1, tag := 7, prio := 2, words := c, uid := 5, extents := [2, 2, 2, 0, 0, 0], waiting := [0] }
def slotP : Slot := { number := 0, uid := 5, prio := 2, taken := true }
/-- The running wafer with plan p, cluster 0 usable and as given, and clause c in flight there. -/
def wk (p : Plan) (c : Clause) (cl : Cluster) : State :=
  { up.modTenant 1 (fun x => { x with plan := some p }) with
    silicon := { live := { mapped := true, routerGood := [0], computeGood := [0] } }
    clusters := [(0, cl)], work := { flights := [flightP c], nextUid := 6 }, mem := { cistern := cells } }
/-- Cluster 0 works on the clause; the run and the accumulators are as given. -/
def busy (r : Option TileRun) (u : AccUnit) : Cluster := { awake := true, slots := [slotP], owner := some 5, unit := u, run := r }
def fresh : Cluster := { awake := true, slots := [slotP] }
/-- The job of the clause on cluster 0. -/
def jobP (p : Plan) (c : Clause) : Job :=
  { f := flightP c, plan := p, map := p.map (cMap c), tile := p.tile (cMap c), region := p.region 0, member := 0, k := 0 }
/-- The state in which the clause's work is done. -/
def stood (p : Plan) (c : Clause) (cl : Cluster) : State := markStarted ([0].foldl takeAll (wk p c cl)) 5
/-- The tile of the product, and its run as it lands. -/
def tileP : Tile := { l2 := 0, l1 := 0, st2 := [0, 0, 0, 0, 0, 0], st1 := [0, 0, 0, 0, 0, 0] }
def runP (p : Plan) (c : Clause) : TileRun := stageTile (markStarted (wk p c fresh) 5) (jobP p c) tileP

/-- Cluster 0 as given by a function, in the state of the product. -/
def wkA (cl : Cluster) : State := wk planP contractWords cl
def jobA : Job := jobP planP contractWords
def runA : TileRun := runP planP contractWords
def busyA (r : TileRun) : State := wkA (busy (some r) {})
/-- The run with its weight block in the shadow register or in place, a pass in flight, or every pass issued. -/
def runShadow : TileRun := { runA with shadowOf := some 0 }
def runPlaced : TileRun := { runA with weightsOf := some 0 }
def runFlying : TileRun := { runPlaced with inFlight := [{ vec := 1, i := 2, j := 3 }], pos := runPlaced.total }
def runDone : TileRun := { runPlaced with pos := runPlaced.total, issued := 128 }
/-- An unstructured run whose one lane has its segment still to load, and one whose lane holds it. -/
def runLanes : TileRun := { runA with mode := 4, lanes := [{ segs := [0] }], segCols := [0] }
def runLane : TileRun := { runLanes with lanes := [{ segs := [0], loaded := some 0 }] }

/-- Tenant 1 lets its clusters go dormant after 10 µs; class 0 rings wake, and those of class 2 are polled. -/
def dormant (n : Nat) (b : List Doorbell) (awake : Bool) : State :=
  { (wkA { awake := awake, bells := b, avfs := { step := 40, sleepStep := 30 } }).modTenant 1 (fun x => { x with idleDormant := n }) with nowUs := 10 }
def rung : Cluster := { awake := true, slots := [{ slotP with taken := false }], bells := [⟨0, true⟩, {}, ⟨1, false⟩, {}] }

theorem witness_ClustersWakeAndTakeSlots :
    (usable (dormant 0 [⟨1, true⟩] false) 0 = true ∧ clusterFenced (dormant 0 [⟨1, true⟩] false) 0 = false
      ∧ ((dormant 0 [⟨1, true⟩] false).cluster 0).awake = false
      ∧ ((dormant 0 [⟨1, true⟩] false).cluster 0).bells.any (fun b => b.waking && b.slots ≠ 0) = true)
    ∧ (ready (dormant 0 [⟨1, false⟩] false) = true ∧ usable (dormant 0 [⟨1, false⟩] false) 0 = true
      ∧ clusterFenced (dormant 0 [⟨1, false⟩] false) 0 = false ∧ ((dormant 0 [⟨1, false⟩] false).cluster 0).awake = false
      ∧ ((dormant 0 [⟨1, false⟩] false).cluster 0).bells.any (fun b => !b.waking && b.slots ≠ 0) = true)
    ∧ (idleLimit (dormant 10 [] true) 0 = some 10 ∧ ((dormant 10 [] true).cluster 0).awake = true ∧ ((dormant 10 [] true).cluster 0).slots = []
      ∧ (∀ b ∈ ((dormant 10 [] true).cluster 0).bells, b.slots = 0) ∧ ((dormant 10 [] true).cluster 0).held = none
      ∧ ((dormant 10 [] true).cluster 0).saved = [] ∧ ((dormant 10 [] true).cluster 0).idleSince + 10 ≤ (dormant 10 [] true).nowUs)
    ∧ (((wkA rung).cluster 0).awake = true ∧ nextTake ((wkA rung).cluster 0) = some { slotP with taken := false }) := by
  refine ⟨?_, ?_, ?_, ?_⟩ <;> decide +kernel

/-- A sparse product whose A is S24V under a mask of zeros, which is no 2:4 mask. -/
def planS : Plan :=
  { planP with
    nouns := planP.nouns ++ [{ noun 0x4000 7 with layout := 1, companion := 5, ext := [2, 4, 0, 0] },
      { noun 0x5000 0 with layout := 4, ext := [2, 4, 0, 0] }]
    tiles := [{ planP.tile 0 with extent := [2, 2, 4, 0, 0, 0], t2 := [2, 2, 4, 0, 0, 0], t1 := [2, 2, 4, 0, 0, 0], modes := 3 }] }
def sparseWords : Clause := clauseOf 2 0 4 2 (0x77 + 0x4000) 7 0 0
def wkS : State := wk planS sparseWords fresh
/-- The product over clusters 0 and 1, loop 1 shared out, A and B in DDR; A is fetched once, by cluster 0, for both. -/
def ddrNoun (off : Nat) : Noun := { noun 0 7 with base := BitVec.ofNat 64 (0x40000000 + off) }
def planM : Plan :=
  { planP with
    regions := [{ planP.region 0 with members := [0, 1], memberCount := 2 }], mcasts := [{ groups := 1, groupOf := [0, 0] }]
    nouns := [noun 0 7, ddrNoun 0x1000, ddrNoun 0x2000]
    tiles := [{ planP.tile 0 with
                factor := [1, 2, 1, 0, 0, 0], t2 := [2, 1, 2, 0, 0, 0], t1 := [2, 1, 2, 0, 0, 0]
                mcast := [0xFFFF, 0, 0xFFFF, 0xFFFF], land := [(0, 0), (0, 0), (0x4000, 4), (0x4800, 4), (0, 0)] }] }
def flightM : Flight := { flightP contractWords with waiting := [0, 1] }
/-- OUT has landed in cluster 1. -/
def wkM : State :=
  { wk planM contractWords fresh with
    silicon := { live := { mapped := true, routerGood := [0, 1], computeGood := [0, 1] } }
    clusters := [(0, fresh), (1, { fresh with landed := [{ uid := 5, l2 := 0, copies := [0] }] })]
    work := { flights := [flightM], nextUid := 6 }, mem := { ddr := cells.map (fun e => (0x40000000 + e.1, e.2)) } }
def jobM : Job := { jobP planM contractWords with f := flightM, member := 1, k := 1 }
def itemM : LandItem := { slot := 3, l2 := 0, members := [jobM] }
/-- Cluster 0's first tile has landed whole, and its landing met what is given. -/
def landedP (bad : Option Verdict) : Landed := { uid := 5, copies := [0, 2, 3], whole := true, bad := bad }
def whole (bad : Option Verdict) : State := wkA { fresh with landed := [landedP bad] }
/-- The tile of a job of cluster 0 stands landed. -/
def Stands0 (bad : Option Verdict) : Prop :=
  pumpWork (whole bad) 0 = none ∧ currentJob (whole bad) 0 = some (slotP, jobA) ∧ runningTile ((whole bad).cluster 0) slotP.uid = none
    ∧ tileFrom jobA slotP.l2 = some tileP ∧ landedFor ((whole bad).cluster 0) jobA.f.uid tileP.l2 = some (landedP bad)
    ∧ (landedP bad).whole = true ∧ (landedP bad).bad = bad
/-- Cluster 0 runs a tile of a job. -/
def Runs (s : State) (j : Job) (r : TileRun) : Prop := currentRun s 0 = some (j, r) ∧ tileAt j r.l2 r.l1 = some tileP
/-- No pass is in flight, nothing has settled, and the clause does not gate. -/
def Ungated (r : TileRun) : Prop := r.inFlight = [] ∧ r.settled = [] ∧ r.decision = 0

theorem witness_TilesLandAndPassesIssue :
    (pumpWork wkM 1 = some (jobM, [itemM]) ∧ itemM.members = [jobM] ∧ wkM.work.touches = []
      ∧ (namedSlots jobM).all (fun x => (((landedFor (wkM.cluster jobM.k) jobM.f.uid itemM.l2).getD {}).copies ++ [itemM.slot]).contains x) = false
      ∧ startsClause [itemM] = true ∧ itemM.slot ∈ landingSlots jobM
      ∧ checkReads (markStarted wkM jobM.f.uid) jobM .clean (itemReads (markStarted wkM jobM.f.uid) itemM) = .ok
      ∧ (∃ b ∈ itemReads (markStarted wkM jobM.f.uid) itemM, 0 < (rangeBytes b).2))
    ∧ Stands0 none
    ∧ (Stands0 (some { status := 2, reason := 0x0304 }) ∧ ((whole (some { status := 2, reason := 0x0304 })).cluster 0).forming = []
      ∧ flightOf (whole (some { status := 2, reason := 0x0304 })) jobA.f.uid = some jobA.f ∧ jobA.f.stop = none)
    ∧ (Runs (busyA runA) jobA runA ∧ runFinished jobA ((busyA runA).cluster 0) runA = false ∧ runA.unstructured = false
      ∧ blockToLoad (seekPass runA) = some 0 ∧ runA.shadowOf ≠ some 0)
    ∧ (Runs (busyA runLanes) jobA runLanes ∧ runFinished jobA ((busyA runLanes).cluster 0) runLanes = false ∧ runLanes.unstructured = true
      ∧ setToLoad runLanes = some 0)
    ∧ (Runs (busyA runPlaced) jobA runPlaced ∧ Ungated runPlaced ∧ runPlaced.unstructured = false
      ∧ (nextPass (seekPass runPlaced)).any (fun p => !needsSwap (seekPass runPlaced) p) = true)
    ∧ (Runs (busyA runShadow) jobA runShadow ∧ Ungated runShadow ∧ runShadow.unstructured = false
      ∧ (nextPass (seekPass runShadow)).any (fun p => needsSwap (seekPass runShadow) p && shadowHolds (seekPass runShadow) p.block) = true)
    ∧ (Runs (busyA runLane) jobA runLane ∧ Ungated runLane ∧ runLane.unstructured = true ∧ nothingLeft runLane = false
      ∧ laneCycle [] runLane = some 1) := by
  unfold Stands0 Runs Ungated; refine ⟨?_, ?_, ?_, ?_, ?_, ?_, ?_, ?_⟩ <;> decide +kernel

theorem witness_PassesCommitAndCombine :
    Runs (busyA runFlying) jobA runFlying ∧ dueCommit ((busyA runFlying).cluster 0) runFlying = some { vec := 1, i := 2, j := 3 } := by
  unfold Runs; decide +kernel

/-- The columns' cells and the activations of the product's first vector. -/
theorem witness_PassesSumToDotProduct :
    (runA.bfp = false ∧ runA.bipolar = false ∧ 1 ≤ runA.n ∧ 1 ≤ runA.m)
    ∧ (let r := { runA with bipolar := true, n := 1, m := 1 }; r.bfp = false ∧ r.bipolar = true ∧ r.n = 1 ∧ r.m = 1) := by decide +kernel

def runSettling : TileRun := { runPlaced with settled := [{ key := 0, high := true, effectAt := 0 }, { key := 1, effectAt := 9 }] }
theorem witness_GatingBoundsAndSettlement :
    (runA.bfp = false ∧ ([] : List WCell).length ≤ runA.kg ∧ runA.bipolar = false
      ∧ settleTest 1 0 (.upTo 130050) 0 (bounds runA 15).1 (bounds runA 15).2 = some false
      ∧ settleTest 2 0 (.upTo (-1)) 0 (bounds runA 15).1 (bounds runA 15).2 = some true
      ∧ settleTest 1 0 (.downTo (-1)) 0 (bounds runA 15).1 (bounds runA 15).2 = some false
      ∧ settleTest 2 0 (.downTo 130051) 0 (bounds runA 15).1 (bounds runA 15).2 = some true)
    ∧ (currentRun (busyA runSettling) 0 = some (jobA, runSettling) ∧ (∃ e ∈ runSettling.settled, e.effectAt = 0 ∧ e.inEffect = false)
      ∧ due runSettling 0 = true
      ∧ (∀ e ∈ runSettling.settled, e.inEffect = false → due runSettling e.effectAt = true → 0 ≤ e.effectAt)) := by
  refine ⟨?_, ?_⟩ <;> decide +kernel

/-- The product with TRAP_SAT, its accumulators saturated; and with OUT in DDR. -/
def trapWords : Clause := clauseOf (1 + 0x800) 0 1 2 0x77 7 0 0
def wkTrap : State := wk planP trapWords (busy (some runDone) { sat := true })
def planD : Plan := { planP with nouns := (noun 0 7 |> fun n => { n with base := 0x40000000 }) :: planP.nouns.drop 1 }
theorem witness_RequantizerDrainsVector :
    (Runs (busyA runDone) jobA runDone ∧ cDecision jobA.c ≠ 3 ∧ vectorReady jobA ((busyA runDone).cluster 0) runDone = true
      ∧ (busyA runDone).work.touches = [] ∧ trapped jobA ((busyA runDone).cluster 0).unit = false ∧ localCistern jobA.out = true)
    ∧ (Runs (wk planD contractWords (busy (some runDone) {})) (jobP planD contractWords) runDone
      ∧ vectorReady (jobP planD contractWords) ((wk planD contractWords (busy (some runDone) {})).cluster 0) runDone = true
      ∧ localCistern (jobP planD contractWords).out = false)
    ∧ (Runs wkTrap (jobP planP trapWords) runDone ∧ cDecision (jobP planP trapWords).c ≠ 3
      ∧ vectorReady (jobP planP trapWords) (wkTrap.cluster 0) runDone = true ∧ trapped (jobP planP trapWords) (wkTrap.cluster 0).unit = true
      ∧ wkTrap.work.touches = [] ∧ (wkTrap.cluster 0).forming = []
      ∧ flightOf wkTrap runDone.uid = some (flightP trapWords) ∧ (flightP trapWords).stop = none) := by
  unfold Runs; refine ⟨?_, ?_, ?_⟩ <;> decide +kernel

/-- The product with TARGET HASH; a total of key 3 waits; its set is set 886. -/
def hashWords : Clause := clauseOf 1 0 1 2 (0x77 + 0x20000) 7 0 0
def jobH : Job := jobP planP hashWords
def runHash : TileRun := { runDone with totals := [(3, 10)] }
def setOf3 : Nat := 3 * 0x9E3779B9 % 2 ^ 32 / 2 ^ 22
def hashed (u : AccUnit) : State := wk planP hashWords (busy (some runHash) u)
/-- Cluster 0 after its tiles, the hash drain still to come. -/
def drained1 : State := wk planP hashWords { busy none { hash := [(4 * setOf3, ⟨true, 3, 10⟩)], isHash := true } with slots := [{ slotP with finished := true }] }
def full3 : Tab HashEntry := (List.range 4).map (fun w => (4 * setOf3 + w, ⟨true, 100 + w, 1⟩))
/-- One total waits at the hash accumulator. -/
def Total (s : State) : Prop :=
  Runs s jobH runHash ∧ cTarget jobH.c = 1 ∧ (s.cluster 0).owner = some runHash.uid ∧ runHash.totals = (3, 10) :: []
    ∧ (s.cluster 0).unit.spillQueue.length < 8
def spilling (n : Nat) : State := hashed { spillQueue := [(5, 9)], spillCount := n, isHash := true }

theorem witness_HashUpdatesAndSpills :
    (Total (hashed { hash := [(4 * setOf3 + 1, ⟨true, 3, 7⟩)] })
      ∧ (tget {} ((hashed { hash := [(4 * setOf3 + 1, ⟨true, 3, 7⟩)] }).cluster 0).unit.hash (4 * setOf3 + 1)) = ⟨true, 3, 7⟩
      ∧ (tget {} ((hashed { hash := [(4 * setOf3 + 1, ⟨true, 3, 7⟩)] }).cluster 0).unit.hash (4 * setOf3)).valid = false)
    ∧ (Total (hashed {}) ∧ (tget {} ((hashed {}).cluster 0).unit.hash (4 * setOf3)).valid = false)
    ∧ (Total (hashed { hash := full3 }) ∧ ∀ x, x < 4 → (tget {} ((hashed { hash := full3 }).cluster 0).unit.hash (4 * setOf3 + x)).valid = true
      ∧ (tget {} ((hashed { hash := full3 }).cluster 0).unit.hash (4 * setOf3 + x)).key ≠ 3)
    ∧ (ownerJob (spilling 3) 0 = some jobH ∧ ((spilling 3).cluster 0).unit.spillQueue = (5, 9) :: []
      ∧ ((spilling 3).cluster 0).unit.spillCount < jobH.region.spillCapacity)
    ∧ (ownerJob (spilling 4) 0 = some jobH ∧ ((spilling 4).cluster 0).unit.spillQueue = (5, 9) :: []
      ∧ jobH.region.spillCapacity ≤ ((spilling 4).cluster 0).unit.spillCount ∧ flightOf (spilling 4) jobH.f.uid = some (flightP hashWords)
      ∧ (flightP hashWords).stop = none)
    ∧ (ownerJob drained1 0 = some jobH ∧ cHold jobH.c = false ∧ (drained1.cluster 0).drainDone = false
      ∧ (drained1.cluster 0).unit.spillQueue = [] ∧ (drained1.cluster 0).slots.any (fun sl => sl.uid = jobH.f.uid && sl.finished) = true
      ∧ trapped jobH (drained1.cluster 0).unit = false
      ∧ (drained1.cluster 0).unit.spillCount + (hashRecords (drained1.cluster 0).unit).length ≤ jobH.region.spillCapacity) := by
  unfold Total Runs; refine ⟨?_, ?_, ?_, ?_, ?_, ?_⟩ <;> decide +kernel

/-- The product with DECISION RANK over loop 0, k = 1; two candidates of group 0 seen. -/
def rankWords : Clause := clauseOf 1 0 1 2 (0x77 + 0x300) (7 + 2 ^ 22) 0 0
def jobR : Job := jobP planP rankWords
def groupR : RankGroup := { key := 0, list := [(17, 0)], seen := 2 }
def ranked : State := wk planP rankWords { busy (some runDone) { ranks := [groupR], rankK := 1 } with rankPending := [[(0, 17, 0), (0, 39, 1)]] }

theorem witness_RankListsAndUnit :
    ((∀ c ∈ [((5 : Int), 0), (7, 1), (7, 3)], c.2 ≠ 0xFFFFFFFF) ∧ [((5 : Int), 0)].length ≤ 1)
    ∧ (Runs ranked jobR runDone ∧ cDecision jobR.c = 3 ∧ vectorReady jobR (ranked.cluster 0) runDone = true
      ∧ trapped jobR (ranked.cluster 0).unit = false)
    ∧ ((ranked.cluster 0).rankPending = [(0, 17, 0), (0, 39, 1)] :: [])
    ∧ (ownerJob ranked 0 = some jobR ∧ (ranked.cluster 0).unit.ranks.find? (groupFull jobR) = some groupR ∧ cDecision jobR.c = 3) := by
  unfold Runs; refine ⟨?_, ?_, ?_, ?_⟩ <;> decide +kernel

/-- The product split in two parts over RED: cluster 0 is the home, cluster 1 has its partial tile out. -/
def planQ : Plan :=
  { planP with
    regions := [{ planP.region 0 with members := [0, 1], memberCount := 2, mergeSlots := 1, outSlots := 1 }]
    tiles := [{ planP.tile 0 with factor := [1, 1, 2, 0, 0, 0], t2 := [2, 2, 1, 0, 0, 0], t1 := [2, 2, 1, 0, 0, 0] }] }
def partial1 : Partial := { uid := 5, part := 1, vals := [(0, 12)] }
def runQ : TileRun := runP planQ contractWords
def jobQ : Job := jobP planQ contractWords
def granting : State :=
  let s := wk planQ contractWords (busy (some runQ) {})
  { s with clusters := s.clusters ++ [(1, { awake := true, outbound := [partial1] })] }
def runQDone : TileRun := { runQ with weightsOf := some 0, pos := runQ.total }
def mergingQ : State := wk planQ contractWords { busy (some runQDone) {} with merging := [partial1] }
/-- The same under PART_REQUANT, another part merged before. -/
def planQR : Plan := { planQ with tiles := planQ.tiles.map (fun t => { t with partRequant := true }) }
def jobQR : Job := jobP planQR contractWords
def runQR : TileRun := let r := runP planQR contractWords; { r with weightsOf := some 0, pos := r.total }
def secondQ : State := wk planQR contractWords { busy (some runQR) {} with merging := [partial1], merged := [2] }

theorem witness_PartsMerge :
    (Runs granting jobQ runQ ∧ isHome jobQ = true ∧ runQ.last = true ∧ keptByHold jobQ runQ = false
      ∧ (granting.cluster 0).merging.length < jobQ.region.mergeSlots
      ∧ (partsOf jobQ (runKey jobQ runQ)).find? (fun p => !(granting.cluster 0).merged.contains p 
          && (granting.cluster 0).merging.all (fun m => m.uid ≠ runQ.uid || m.part ≠ p))
          = some 1
      ∧ (granting.cluster (partCluster jobQ 1)).outbound.find? (fun o => o.uid = runQ.uid ∧ o.part = 1 ∧ o.key = runKey jobQ runQ) = some partial1)
    ∧ (Runs mergingQ jobQ runQDone ∧ (mergingQ.cluster 0).merging = partial1 :: [] ∧ (mergingQ.cluster 0).owner = some runQDone.uid
      ∧ (mergingQ.cluster 0).merging.find? (fun m => m.uid = runQDone.uid) = some partial1
      ∧ tileDone runQDone = true ∧ queuesEmpty (mergingQ.cluster 0) = true ∧ partial1.vals = [(0, 12)]
      ∧ jobQ.tile.partRequant = false ∧ runQDone.settled = [])
    ∧ (Runs secondQ jobQR runQR ∧ (secondQ.cluster 0).merging.find? (fun m => m.uid = runQR.uid) = some partial1
      ∧ (secondQ.cluster 0).owner = some runQR.uid ∧ tileDone runQR = true ∧ queuesEmpty (secondQ.cluster 0) = true
      ∧ jobQR.tile.partRequant = true ∧ nKind jobQR.out ≠ 4 ∧ (secondQ.cluster 0).merged ≠ []) := by
  unfold Runs; refine ⟨?_, ?_, ?_⟩ <;> decide +kernel

/-- The product in two L2 tiles; cluster 0 has finished the first. -/
def planR : Plan := { planP with tiles := [{ planP.tile 0 with t2 := [1, 2, 2, 0, 0, 0], t1 := [1, 2, 2, 0, 0, 0] }] }
def jobB : Job := jobP planR contractWords
def runB : TileRun :=
  let r := runP planR contractWords
  { r with weightsOf := some 0, pos := r.total, drained := r.vecs }
def boundary : State := wk planR contractWords (busy (some runB) {})
/-- A clause of class 1 waits in slot 1. -/
def waitsHigher : State := wk planR contractWords { busy (some runB) {} with slots := [slotP, { number := 1, uid := 9, prio := 1 }] }
def tileB : Tile := { tileP with l2 := 1, st2 := [1, 0, 0, 0, 0, 0], st1 := [1, 0, 0, 0, 0, 0] }
/-- The first boundary: cluster 0 has ended an L2 tile that is not its last. -/
def Ended (s : State) : Prop :=
  Runs s jobB runB ∧ stoppedSlot s (s.cluster 0) = none ∧ (s.cluster 0).owner = some runB.uid ∧ l2Done jobB (s.cluster 0) runB = true
    ∧ (leaveTile s jobB runB).isSome = true ∧ tileAfter jobB runB.l2 runB.l1 = some tileB ∧ tileFrom jobB tileB.l2 = some tileB ∧ isPart jobB = false
/-- The second tile has landed. -/
def landedB : Landed := { uid := 5, l2 := 1, copies := [0, 2, 3], whole := true }
def boundaryL : State := wk planR contractWords { busy (some runB) {} with landed := [landedB] }
/-- Cluster 1, the second part of the split product, has ended its one tile. -/
def jobQ1 : Job := { jobQ with member := 1, k := 1 }
def tileQ1 : Tile := (tileFrom jobQ1 0).getD tileP
def runQ1 : TileRun :=
  let r := stageTile (markStarted (wk planQ contractWords fresh) 5) jobQ1 tileQ1
  { r with weightsOf := some 0, pos := r.total, drained := r.vecs }
def partDone : State :=
  let s := wk planQ contractWords fresh
  { s with clusters := s.clusters ++ [(1, busy (some runQ1) {})], work := { s.work with flights := [{ flightP contractWords with waiting := [0, 1] }] } }
def jobQ1' : Job := { jobQ1 with f := { flightP contractWords with waiting := [0, 1] } }
def stoppedF : Flight := { flightP contractWords with stop := some { status := 2, reason := 0x0301 }, prio := 2 }
def stopping : State := { wkA fresh with work := { flights := [stoppedF], nextUid := 6 } }
def savedP : Saved := { prio := 2, uid := 5, unit := { acc := [(0, 17)] } }
def restoring : State := wkA { awake := true, slots := [{ slotP with yielded := true }], saved := [savedP] }

theorem witness_BoundariesYieldAndRestore :
    (Ended boundary ∧ higherWaits (boundary.cluster 0) jobB.f.prio = false ∧ landedFor (boundary.cluster 0) jobB.f.uid tileB.l2 = none)
    ∧ (Ended boundaryL ∧ higherWaits (boundaryL.cluster 0) jobB.f.prio = false
      ∧ landedFor (boundaryL.cluster 0) jobB.f.uid tileB.l2 = some landedB ∧ landedB.whole = true ∧ landedB.bad = none)
    ∧ (Ended waitsHigher ∧ higherWaits (waitsHigher.cluster 0) jobB.f.prio = true ∧ jobB.f.prio ≠ 0)
    ∧ (stoppedSlot stopping (stopping.cluster 0) = some slotP ∧ flightOf stopping slotP.uid = some stoppedF
      ∧ atBoundary (jobOf stopping 0 slotP.uid) (stopping.cluster 0) slotP.uid = true ∧ (stopping.cluster 0).forming = [])
    ∧ (currentRun partDone 1 = some (jobQ1', runQ1) ∧ stoppedSlot partDone (partDone.cluster 1) = none ∧ (partDone.cluster 1).owner = some runQ1.uid
      ∧ runFinished jobQ1' (partDone.cluster 1) runQ1 = true ∧ tileAt jobQ1' runQ1.l2 runQ1.l1 = some tileQ1
      ∧ tileAfter jobQ1' runQ1.l2 runQ1.l1 = none ∧ isPart jobQ1' = true ∧ runQ1.last = true ∧ keptByHold jobQ1' runQ1 = false
      ∧ (partDone.cluster 1).outbound.length < jobQ1'.region.outSlots ∧ (partDone.cluster 1).forming = [])
    ∧ (bestSaved (restoring.cluster 0).saved = some savedP ∧ (restoring.cluster 0).awake = true ∧ (restoring.cluster 0).owner = none
      ∧ higherWaits (restoring.cluster 0) savedP.prio = false) := by
  unfold Ended Runs; refine ⟨?_, ?_, ?_, ?_, ?_, ?_⟩ <;> decide +kernel

/-- One output byte 9 at the start of DDR granule 1 waits in the OUT half. -/
def half9 : OutHalf := { uid := 5, writes := [((gDdr 0 0x40000000) * 8, 8, 9)] }
def outBack : State := wkA { busy none {} with outHalf := [half9] }
/-- The clause of a state, all its clusters done; with QUIET; stopped. -/
def doneState (c : Clause) : State := { wkA {} with work := { flights := [{ flightP c with waiting := [] }], nextUid := 6 } }
def quietWords : Clause := clauseOf (1 + 0x400) 0 1 2 0x77 7 0 0
def stoppedState : State := { wkA {} with work := { flights := [{ stoppedF with waiting := [] }], nextUid := 6 } }

theorem witness_WriteBackAndCompletion :
    (readyHalf (outBack.cluster 0) = some half9 ∧ jobOf outBack 0 half9.uid = some jobA ∧ checkWrites outBack jobA .clean half9.writes = .ok)
    ∧ (flightTag (doneState contractWords) 1 (7 : BitVec 16).toNat = some { flightP contractWords with waiting := [] }
      ∧ ((doneState contractWords).tenant 1).clears = [] ∧ (flightP contractWords).stop = none
      ∧ (∀ o ∈ (doneState contractWords).work.outstanding, o.uid ≠ 5) ∧ cVerb contractWords < 0x0C ∧ cQuiet contractWords = false
      ∧ CanNotify (doneState contractWords) 1)
    ∧ (flightTag (doneState quietWords) 1 (7 : BitVec 16).toNat = some { flightP quietWords with waiting := [] } ∧ cVerb quietWords < 0x0C
      ∧ cQuiet quietWords = true)
    ∧ (flightTag stoppedState 1 (7 : BitVec 16).toNat = some { stoppedF with waiting := [] } ∧ stoppedF.stop = some { status := 2, reason := 0x0301 }
      ∧ quiet stoppedState 5 = true ∧ (∀ o ∈ stoppedState.work.outstanding, o.uid = 5 → o.isWrite = false) ∧ stoppedF.prio < 4 ∧ CanNotify stoppedState 1 ∧ tenantFlights stoppedState 1 = [{ stoppedF with waiting := [] }]) := by
  unfold CanNotify; refine ⟨?_, ?_, ?_, ?_⟩ <;> decide +kernel

theorem witness_ContractionsRunRounds :
    (flightTag (wkA fresh) 1 (7 : BitVec 16).toNat = some (flightP contractWords) ∧ cVerb (flightP contractWords).words = 1)
    ∧ (flightTag wkS 1 (7 : BitVec 16).toNat = some (flightP sparseWords) ∧ cVerb (flightP sparseWords).words = 2) := by decide +kernel

/-- More nouns: 4 an X of two 16-bit numbers, 5 a BPK noun, 6 and 7 accumulator words, 8 a mask and 9 its bit map, 10 a LUT or a context image,
11 a row of two bytes, 12 a rank list of one and 13 one of two; map 1 is element by element, map 2 reduces loop 1, and map 3 ranks its one loop. -/
def planV : Plan :=
  { planP with
    nouns := planP.nouns ++ [{ noun 0x4000 0x0F with dims := 0, ext := [2, 0, 0, 0], stride := [0, 0, 0] },
      { noun 0x5000 7 with layout := 5, stride := [2, 0, 0] }, { noun 0x6000 0x8F with ext := [1, 1, 0, 0] },
      { noun 0x6100 0x8F with ext := [1, 1, 0, 0] }, { noun 0x7000 0 with layout := 4, ext := [4, 4, 0, 0] },
      { noun 0x7800 0 with layout := 2, ext := [4, 4, 0, 0] }, noun 0x9000 0, { noun 0xA000 7 with dims := 0, ext := [2, 0, 0, 0] },
      { noun 0xB000 0x8F with dims := 0, ext := [2, 0, 0, 0] }, { noun 0xC000 0x8F with dims := 0, ext := [4, 0, 0, 0] }]
    maps := planP.maps ++ [{ loops := 2, classes := [1, 3, 0, 0, 0, 0], out := [term 0, 0, 0, 0], a := [term 0, term 1, 0, 0] },
      { loops := 1, classes := [3, 0, 0, 0, 0, 0], a := [term 0, 0, 0, 0] }]
    tiles := planP.tiles ++ [planP.tile 1, { planP.tile 1 with t2 := [2, 0, 0, 0, 0, 0], t1 := [2, 0, 0, 0, 0, 0], rankable := 1 }] }
/-- A clause of the plan that stands ready on cluster 0 over memory of the product and the cells given. -/
def ready1 (c : Clause) (more : List Host.Cell) (cl : Cluster) : State :=
  let s := wk planV c cl
  { s with mem := { s.mem with cistern := s.mem.cistern ++ more } }
def stands (c : Clause) (more : List Host.Cell) (cl : Cluster) : State := markStarted ([0].foldl takeAll (ready1 c more cl)) 5
def jobV (c : Clause) : Job := jobP planV c
/-- The clause stands ready with one L2 tile. -/
def Stands (c : Clause) (more : List Host.Cell) (cl : Cluster) (ok : Clause → Bool) (isReady : State → Flight → Bool) : Prop :=
  VerbStands (ready1 c more cl) 1 7 ok isReady (flightP c) (stands c more cl) (jobV c)
def st0 : List Nat := [0, 0, 0, 0, 0, 0]

def pointWords (op : Nat) : Clause := clauseOf 3 0 1 (if op = 0 then 0xFFFF else 2) 0 (7 + op * 2 ^ 18) 1 0
/-- The sum of two accumulator words, both the largest value, with TRAP_SAT. -/
def satWords : Clause := clauseOf (3 + 0x800) 0 6 7 0 (7 + 2 ^ 18) 1 0
def accCells : List Host.Cell :=
  ((List.range 6).map (fun i => (0x6000 + i, 0xFF))) ++ [(0x6006, 0x7F)] ++ ((List.range 6).map (fun i => (0x6100 + i, 0xFF))) ++ [(0x6106, 0x7F)]
/-- What the one tile of a POINTWISE clause writes, and what would wait. -/
def pointOut (c : Clause) (more : List Host.Cell) (op : Nat) (z : Int → Int → Int) : List (Nat × Nat × Nat) × Bool × Waiting :=
  tileOf (stands c more fresh) (jobV c) 0 {
    items := (elements (jobV c) 0 st0).map (fun i => { idx := evalTerms (jobV c).map.out (jobV c).out i, ch := channelOf (jobV c) i
                                                       acc := satAcc (z (operandOf (stands c more fresh) (jobV c) (jobV c).a (jobV c).map.a i)
                                                         (if op = 0 then 0 else operandOf (stands c more fresh) (jobV c) (jobV c).b (jobV c).map.b i)) })
    eacc := if op = 3 then 2 * cEacc (jobV c).c else cEacc (jobV c).c }
/-- Everything that a POINTWISE statement asks. -/
def Points (c : Clause) (more : List Host.Cell) (op : Nat) (z : Int → Int → Int) : Prop :=
  Stands c more fresh (fun c => cVerb c = 3 && cOp c = op) tiledReady ∧ tilesOf (jobV c) = [(0, st0)] ∧ cLutEn (jobV c).c = false
    ∧ (ready1 c more fresh).work.touches = [] ∧ checkReads (stands c more fresh) (jobV c) .clean (pointReads (stands c more fresh) (jobV c) st0) = .ok
    ∧ (pointOut c more op z).2.2 = {} ∧ checkWrites (stands c more fresh) (jobV c) .clean (pointOut c more op z).1 = .ok

theorem witness_PointwiseResults :
    Points (pointWords 0) [] 0 (fun a _ => a) ∧ Points (pointWords 1) [] 1 (fun a b => a + b) ∧ Points (pointWords 2) [] 2 (fun a b => a - b)
    ∧ Points (pointWords 3) [] 3 (fun a b => a * b) ∧ Points (pointWords 4) [] 4 (fun a b => max a b) ∧ Points (pointWords 5) [] 5 (fun a b => min a b) := by
  unfold Points Stands VerbStands; refine ⟨?_, ?_, ?_, ?_, ?_, ?_⟩ <;> decide +kernel
/-- One whose sums saturate. -/
theorem witness_PointwiseResults_saturates :
    Points satWords accCells 1 (fun a b => a + b)
    ∧ (elements (jobV satWords) 0 st0).any (fun i => satHit (operandOf (stands satWords accCells fresh) (jobV satWords) (jobV satWords).a (jobV satWords).map.a i
        + operandOf (stands satWords accCells fresh) (jobV satWords) (jobV satWords).b (jobV satWords).map.b i)) = true := by
  unfold Points Stands VerbStands; refine ⟨?_, ?_⟩ <;> decide +kernel

/-- Clauses that name X. -/
def withX (x : Nat) (c : Clause) : Clause := c.set 3 (BitVec.ofNat 32 x)
def pumpWords : Clause := clauseOf 8 0 1 0xFFFF 0 7 1 0
def compressWords : Clause := clauseOf 9 5 1 0xFFFF 0 7 1 0
def expandWords : Clause := clauseOf 0x0A 0 5 0xFFFF 0 7 1 0
def gatherWords : Clause := withX 4 (clauseOf 6 0 1 0xFFFF 0 7 1 0)
def scatterWords : Clause := withX 4 (clauseOf 7 0 1 0xFFFF 0 7 1 0)
/-- X names the rows 1 and 0; or row 9. -/
def rows10 : List Host.Cell := [(0x4000, 1)]
def row9 : List Host.Cell := [(0x4000, 9)]
/-- A copying clause stands ready with one L2 tile, and its reads, under job j, are allowed. -/
def Copies (c : Clause) (more : List Host.Cell) (ok : Clause → Bool) (j : Job) (reads : List (Nat × Nat)) : Prop :=
  Stands c more fresh ok tiledReady ∧ tilesOf (jobV c) = [(0, st0)] ∧ (ready1 c more fresh).work.touches = []
    ∧ checkReads (stands c more fresh) j .clean reads = .ok
/-- What a tile writes waits for nothing and is allowed. -/
def Written (c : Clause) (more : List Host.Cell) (j : Job) (o : List (Nat × Nat × Nat) × Bool × Waiting) : Prop :=
  o.2.2 = {} ∧ checkWrites (stands c more fresh) j .clean o.1 = .ok

/-- COMPRESS and EXPAND write under the mask job. -/
def Converts (c : Clause) (verb : Nat) : Prop :=
  Copies c [] (fun c => cVerb c = verb) (maskJob (jobV c)) (copyReads (stands c [] fresh) (maskJob (jobV c)) st0)
    ∧ maskFault (stands c [] fresh) (maskJob (jobV c)) 0 st0 = none
    ∧ Written c [] (maskJob (jobV c)) (tileOf (stands c [] fresh) (maskJob (jobV c)) 0 {
        copied := (copiedCodes (stands c [] fresh) (maskJob (jobV c)) 0 st0).map (fun e =>
          (0, e.1, if filledSlot (stands c [] fresh) (maskJob (jobV c)) (maskJob (jobV c)).out e.1 then { e.2 with code := 0 } else e.2)) })

/-- What GATHER copies, and the elements that SCATTER places. -/
def gathered (more : List Host.Cell) : List (List Int × Option (List Int)) := gatherPairs (stands gatherWords more fresh) (jobV gatherWords) 0 st0
def scattered : List (Nat × List Int × Elem) := scatterElems (stands scatterWords rows10 fresh) (jobV scatterWords) 0 st0

theorem witness_CopiesMoveElements :
    (Copies pumpWords [] (fun c => cVerb c = 8 && cOp c = 0) (jobV pumpWords) (copyReads (stands pumpWords [] fresh) (jobV pumpWords) st0)
      ∧ Written pumpWords [] (jobV pumpWords) (tileOf (stands pumpWords [] fresh) (jobV pumpWords) 0 {
          copied := (copiedCodes (stands pumpWords [] fresh) (jobV pumpWords) 0 st0).map (fun e => (0, e)) }))
    ∧ Converts compressWords 9 ∧ Converts expandWords 10
    ∧ (Copies gatherWords rows10 (fun c => cVerb c = 6) (jobV gatherWords) (gatherReads (stands gatherWords rows10 fresh) (jobV gatherWords) st0)
      ∧ (∀ p ∈ gathered rows10, ∀ a ∈ p.2, a.getD 0 0 < (nExt (jobV gatherWords).a 0 : Int))
      ∧ Written gatherWords rows10 (jobV gatherWords) (tileOf (stands gatherWords rows10 fresh) (jobV gatherWords) 0 {
          copied := (gathered rows10).map (fun e => (0, e.1, match e.2 with
            | some a => (jobV gatherWords).elem (stands gatherWords rows10 fresh) (jobV gatherWords).a a
            | none => {})) }))
    ∧ (Copies gatherWords row9 (fun c => cVerb c = 6) (jobV gatherWords) (gatherReads (stands gatherWords row9 fresh) (jobV gatherWords) st0)
      ∧ (∃ p ∈ gathered row9, ∃ a ∈ p.2, (nExt (jobV gatherWords).a 0 : Int) ≤ a.getD 0 0)
      ∧ ∀ k ∈ (flightP gatherWords).waiting, ((ready1 gatherWords row9 fresh).cluster k).forming = [])
    ∧ (Copies scatterWords rows10 (fun c => cVerb c = 7) (jobV scatterWords) (scatterReads (stands scatterWords rows10 fresh) (jobV scatterWords) st0)
      ∧ (∀ p ∈ scatterPairs (stands scatterWords rows10 fresh) (jobV scatterWords) 0 st0, ∀ o ∈ p.2.2, o.getD 0 0 < (nExt (jobV scatterWords).out 0 : Int))
      ∧ contested (cutRows (copiedWrites (stands scatterWords rows10 fresh) (jobV scatterWords)
          (scattered.filter (fun x => inExtents (jobV scatterWords).out x.2.1)))) = []
      ∧ Written scatterWords rows10 (jobV scatterWords) (tileWrites (fun ws => (cutRows ws).map (fun e => e.2.2)) (stands scatterWords rows10 fresh)
          (jobV scatterWords) 0 { copied := scattered } {} false)) := by
  unfold Converts Written Copies Stands VerbStands; refine ⟨?_, ?_, ?_, ?_, ?_, ?_⟩ <;> decide +kernel

def reduceWords (op : Nat) : Clause := (if 4 ≤ op then withX 0 else id) (clauseOf 4 11 1 0xFFFF 0 (7 + op * 2 ^ 18) 2 0)
def redGroup (c : Clause) : RedGroup := ((memberGroups (resumes (stands c [] fresh) (jobV c)) (stands c [] fresh) (jobV c))[0]?).getD ⟨0, 0, [], false, false⟩
/-- What the one group of a REDUCE writes. -/
def redOut (c : Clause) : List (Nat × Nat × Nat) × Bool × List (Nat × OutItem) :=
  formGroups (stands c [] fresh) (jobV c) (requantOf (jobV c)) (redGroup c).l2 [] (groupItems (jobV c) (redGroup c)) false
def Reduces (c : Clause) (ok : Clause → Bool) : Prop :=
  Stands c [] fresh ok tiledReady ∧ (ready1 c [] fresh).work.touches = [] ∧ cTarget (flightP c).words = 0 ∧ cHold (flightP c).words = false
    ∧ splits (jobV c).map (jobV c).tile = false ∧ ((ready1 c [] fresh).cluster (jobV c).k).held = none
    ∧ hashUpdates (stands c [] fresh) (jobV c) = []
    ∧ (tilesOf (jobV c)).all (fun e => decide (checkReads (stands c [] fresh) (jobV c) .clean (reduceReads (stands c [] fresh) (jobV c) e.2) = .ok)) = true
    ∧ memberGroups (resumes (stands c [] fresh) (jobV c)) (stands c [] fresh) (jobV c) = [redGroup c] ∧ (redGroup c).l2 < 0xFFFFFFFF
    ∧ (cTrapSat (jobV c).c && (redGroup c).sat) = false
    ∧ (∀ h ∈ memberGroups false (stands c [] fresh) (jobV c),
        checkWrites (stands c [] fresh) (jobV c) .clean (groupWrites (stands c [] fresh) (jobV c) h).1 = .ok)
    ∧ (redOut c).2.2 = [] ∧ checkWrites (stands c [] fresh) (jobV c) .clean (redOut c).1 = .ok

theorem witness_ReduceAndRankResults :
    Reduces (reduceWords 0) (fun c => cVerb c = 4 && !isKeyed c && reduceOp c = 0)
    ∧ Reduces (reduceWords 1) (fun c => cVerb c = 4 && !isKeyed c && reduceOp c = 1)
    ∧ Reduces (reduceWords 2) (fun c => cVerb c = 4 && !isKeyed c && reduceOp c = 2)
    ∧ Reduces (reduceWords 4) (fun c => cVerb c = 4 && isKeyed c)
    ∧ reduceOp (reduceWords 0) = 0 ∧ reduceOp (reduceWords 1) = 1 ∧ reduceOp (reduceWords 2) = 2 := by
  unfold Reduces Stands VerbStands; refine ⟨?_, ?_, ?_, ?_, ?_⟩ <;> decide +kernel

/-- RANK of the two bytes of noun 11, and of the list of two in noun 13, k = 1; the better candidate is the second one. -/
def rankV (op : Nat) : Clause := clauseOf 5 12 (if op = 0 then 11 else 13) 0xFFFF 0 (0x8F + op * 2 ^ 18 + 2 ^ 22) 3 0
def rankCells : List Host.Cell := [(0xA000, 3), (0xA001, 9), (0xC000, 4), (0xC008, 7), (0xC010, 6), (0xC018, 2)]
def Ranks (op : Nat) (g : RankOut) : Prop :=
  Stands (rankV op) rankCells fresh (fun c => cVerb c = 5 && cOp c = op) tiledReady ∧ splits (jobV (rankV op)).map (jobV (rankV op)).tile = false
    ∧ (ready1 (rankV op) rankCells fresh).work.touches = []
    ∧ (tilesOf (jobV (rankV op))).all (fun e =>
        decide (checkReads (stands (rankV op) rankCells fresh) (jobV (rankV op)) .clean (rankReads (stands (rankV op) rankCells fresh) (jobV (rankV op)) e.2) = .ok)) = true
    ∧ memberRanks (stands (rankV op) rankCells fresh) (jobV (rankV op)) = [g] ∧ g.l2 < 0xFFFFFFFF
    ∧ checkWrites (stands (rankV op) rankCells fresh) (jobV (rankV op)) .clean
        (rankWrites (stands (rankV op) rankCells fresh) (jobV (rankV op)) (cK (jobV (rankV op)).c) g.idx g.list) = .ok
theorem witness_ReduceAndRankResults_rank : Ranks 0 ⟨st0, [(9, 1)], 0, false, false⟩ ∧ Ranks 1 ⟨st0, [(6, 2)], 0, false, false⟩ := by
  unfold Ranks Stands VerbStands; refine ⟨?_, ?_⟩ <;> decide +kernel

def bytesWords (n : Nat) : Clause := clauseOf 8 0 1 0xFFFF 0 (7 + 2 ^ 18) 0 n
def maskWords (op : Nat) : Clause := clauseOf 0x11 8 9 0xFFFF 0 (op * 2 ^ 18) 0 0
def lutWords : Clause := clauseOf 0x12 0xFFFF 10 0xFFFF 0 0 0x1000000 0
/-- A 2:4 bit map in both directions; and a LUT image whose SH is out of range. -/
def maskCells : List Host.Cell := [(0x7800, 3), (0x7840, 3), (0x7880, 12), (0x78C0, 12)]
def lutBad : List Host.Cell := [(0x9004, 100)]
/-- The clause stands ready and its reads are allowed. -/
def Untiled (c : Clause) (more : List Host.Cell) (ok : Clause → Bool) (reads : List (Nat × Nat)) : Prop :=
  Stands c more fresh ok untiledReady ∧ (ready1 c more fresh).work.touches = []
    ∧ checkReads (stands c more fresh) (jobV c) .clean reads = .ok
/-- MASKLOAD of op reads and writes what it may. -/
def Masks (op : Nat) (more : List Host.Cell) : Prop :=
  Untiled (maskWords op) more (fun c => cVerb c = 0x11 && cOp c = op) (maskReads (stands (maskWords op) more fresh) (jobV (maskWords op)))
    ∧ checkWrites (stands (maskWords op) more fresh) (jobV (maskWords op)) .clean (maskTile (stands (maskWords op) more fresh) (jobV (maskWords op))).writes = .ok
def Luts (more : List Host.Cell) : Prop :=
  Untiled lutWords more (fun c => cVerb c = 0x12) [((jobV lutWords).base (stands lutWords more fresh) (jobV lutWords).a * 8, 8 * 1040)]

theorem witness_UntiledVerbs :
    (Untiled (bytesWords 64) [] (fun c => cVerb c = 8 && cOp c = 1)
        [((jobV (bytesWords 64)).base (stands (bytesWords 64) [] fresh) (jobV (bytesWords 64)).a * 8, 8 * pumpCount (jobV (bytesWords 64)).c)]
      ∧ pumpCount (jobV (bytesWords 64)).c = 64
      ∧ checkWrites (stands (bytesWords 64) [] fresh) (jobV (bytesWords 64)) .clean
          [((jobV (bytesWords 64)).base (stands (bytesWords 64) [] fresh) (jobV (bytesWords 64)).out * 8, 8 * pumpCount (jobV (bytesWords 64)).c,
            leNat (bytesAt (stands (bytesWords 64) [] fresh) ((jobV (bytesWords 64)).base (stands (bytesWords 64) [] fresh) (jobV (bytesWords 64)).a)
              (pumpCount (jobV (bytesWords 64)).c)))] = .ok)
    ∧ (Stands (bytesWords 0) [] fresh (fun c => cVerb c = 8 && cOp c = 1) untiledReady ∧ pumpCount (jobV (bytesWords 0)).c = 0)
    ∧ (Masks 0 maskCells ∧ (maskTile (stands (maskWords 0) maskCells fresh) (jobV (maskWords 0))).fault = none)
    ∧ (Masks 1 maskCells ∧ (maskTile (stands (maskWords 1) maskCells fresh) (jobV (maskWords 1))).fault = none)
    ∧ (Masks 0 [(0x7800, 7)] ∧ (maskTile (stands (maskWords 0) [(0x7800, 7)] fresh) (jobV (maskWords 0))).fault.isSome = true
      ∧ ∀ k ∈ (flightP (maskWords 0)).waiting, ((ready1 (maskWords 0) [(0x7800, 7)] fresh).cluster k).forming = [])
    ∧ (Luts [] ∧ (readLut (bytesAt (stands lutWords [] fresh) ((jobV lutWords).base (stands lutWords [] fresh) (jobV lutWords).a) 1040)).isSome = true)
    ∧ (Luts lutBad ∧ readLut (bytesAt (stands lutWords lutBad fresh) ((jobV lutWords).base (stands lutWords lutBad fresh) (jobV lutWords).a) 1040) = none) := by
  unfold Luts Masks Untiled Stands VerbStands; refine ⟨?_, ?_, ?_, ?_, ?_, ?_, ?_⟩ <;> decide +kernel

def saveWords (release : Nat) : Clause := clauseOf 0x0F 10 0xFFFF 0xFFFF 0 0 0 release
def restoreWords : Clause := clauseOf 0x10 0xFFFF 10 0xFFFF 0 0 0 0
def heldP : Held := { uid := 3, tenant := 1, l2 := 2 }
/-- Cluster 0 holds state of n vectors. -/
def holding (n : Nat) : Cluster := { fresh with held := some heldP, owner := some 3, unit := { vectors := n } }
def savedImage (n : Nat) : List Byte := contextImage (holding n).unit 1 0 heldP.l2
def imageCells : List Host.Cell := writeBytes 0 [] 0x9000 (savedImage 0)
/-- RESTORE stands ready over the cells and may read its header. -/
def Restores (more : List Host.Cell) : Prop :=
  Stands restoreWords more fresh (fun c => cVerb c = 0x10) restoreReady ∧ (ready1 restoreWords more fresh).work.touches = []
    ∧ checkReads (stands restoreWords more fresh) (jobV restoreWords) .clean (headerReads (stands restoreWords more fresh) (jobV restoreWords)) = .ok
/-- Its header is good and it may read its image. -/
def RestoresImage (more : List Host.Cell) : Prop :=
  Restores more ∧ headerOk 1 (restoreHeader (stands restoreWords more fresh) (jobV restoreWords)) = true
    ∧ checkReads (stands restoreWords more fresh) (jobV restoreWords) .clean (imageReads (stands restoreWords more fresh) (jobV restoreWords)) = .ok
/-- The image with another L2_TILE: its header is good and its CRC is not. -/
def imageBad : List Host.Cell := writeBytes 0 [] 0x9000 ((savedImage 0).set 0x10 9)
/-- SAVE without DISCARD stands ready over cluster 0 as given, which no other clause touches. -/
def Saves (cl : Cluster) : Prop :=
  Stands (saveWords 0) [] cl (fun c => cVerb c = 0x0F) untiledReady ∧ (ready1 (saveWords 0) [] cl).work.touches = []
    ∧ bit (word (flightP (saveWords 0)).words 8) 0 = false
def saved0 (cl : Cluster) : List Byte := saveImage (stands (saveWords 0) [] cl) [jobV (saveWords 0)] (jobV (saveWords 0))
def SavesImage (cl : Cluster) : Prop :=
  Saves cl ∧ (saved0 cl).length ≤ nStride (jobV (saveWords 0)).out 0
    ∧ checkWrites (stands (saveWords 0) [] cl) (jobV (saveWords 0)) .clean
        [(imageArea (stands (saveWords 0) [] cl) (jobV (saveWords 0)) (jobV (saveWords 0)).out * 8, 8 * (saved0 cl).length, leNat (saved0 cl))] = .ok

theorem witness_SaveAndRestore :
    (Stands (saveWords 1) [] (holding 0) (fun c => cVerb c = 0x0F) untiledReady ∧ (ready1 (saveWords 1) [] (holding 0)).work.touches = []
      ∧ bit (word (flightP (saveWords 1)).words 8) 0 = true)
    ∧ (SavesImage (holding 0) ∧ ((stands (saveWords 0) [] (holding 0)).cluster 0).held = some heldP)
    ∧ (SavesImage fresh ∧ heldStates ((stands (saveWords 0) [] fresh).cluster 0) = [])
    ∧ (Saves (holding 1) ∧ nStride (jobV (saveWords 0)).out 0 < (saved0 (holding 1)).length
      ∧ ∀ k ∈ (flightP (saveWords 0)).waiting, ((ready1 (saveWords 0) [] (holding 1)).cluster k).forming = [])
    ∧ (RestoresImage imageCells ∧ imageOk 1 (restoreImage (stands restoreWords imageCells fresh) (jobV restoreWords)) = true)
    ∧ (RestoresImage imageBad ∧ imageOk 1 (restoreImage (stands restoreWords imageBad fresh) (jobV restoreWords)) = false)
    ∧ (Restores [] ∧ headerOk 1 (restoreHeader (stands restoreWords [] fresh) (jobV restoreWords)) = false) := by
  unfold SavesImage Saves RestoresImage Restores Stands VerbStands; refine ⟨?_, ?_, ?_, ?_, ?_, ?_, ?_⟩ <;> decide +kernel

/-- A SIGNAL, WAIT or FENCE clause of counter 1 with its value and timeout. -/
def orderWords (verb v timeout : Nat) : Clause :=
  [0x00072000 + verb, 0xFFFFFFFF, 0xFFFFFFFF, 0xFFFF, 0, 0, 0, 0, 1, v, timeout, 0, 0, 0, 0, 0].map (BitVec.ofNat 32)
/-- It is in flight alone, admitted at 0 µs; counter 1 is 3; the time is 100 µs. -/
def ordering (verb v timeout : Nat) : State :=
  { up.modTenant 1 (fun x => { x with counters := [(1, 3)] }) with
    work := { flights := [{ flightP (orderWords verb v timeout) with waiting := [] }], nextUid := 6 }, nowUs := 100 }
def Orders (verb v timeout : Nat) : Prop :=
  ready (ordering verb v timeout) = true
    ∧ flightTag (ordering verb v timeout) 1 (7 : BitVec 16).toNat = some { flightP (orderWords verb v timeout) with waiting := [] }
    ∧ ((ordering verb v timeout).tenant 1).clears = [] ∧ CanNotify (ordering verb v timeout) 1 ∧ cQuiet (orderWords verb v timeout) = false
    ∧ (∀ g ∈ (ordering verb v timeout).work.flights, g.uid = 5 → g = { flightP (orderWords verb v timeout) with waiting := [] })

theorem witness_OrderingClauses :
    (Orders 0x0C 4 0 ∧ fenced (ordering 0x0C 4 0) { flightP (orderWords 0x0C 4 0) with waiting := [] } = true)
    ∧ (Orders 0x0D 3 0 ∧ mayStart (ordering 0x0D 3 0) { flightP (orderWords 0x0D 3 0) with waiting := [] } = true
      ∧ 0 ≤ (tget 0 ((ordering 0x0D 3 0).tenant 1).counters 1 - BitVec.ofNat 32 3).toInt)
    ∧ (Orders 0x0D 4 100 ∧ mayStart (ordering 0x0D 4 100) { flightP (orderWords 0x0D 4 100) with waiting := [] } = true
      ∧ (tget 0 ((ordering 0x0D 4 100).tenant 1).counters 1 - BitVec.ofNat 32 4).toInt < 0 ∧ 0 + 100 ≤ (ordering 0x0D 4 100).nowUs
      ∧ tenantFlights (ordering 0x0D 4 100) 1 = [{ flightP (orderWords 0x0D 4 100) with waiting := [] }])
    ∧ (Orders 0x0E 0 0 ∧ fenced (ordering 0x0E 0 0) { flightP (orderWords 0x0E 0 0) with waiting := [] } = true) := by
  unfold Orders CanNotify; refine ⟨?_, ?_, ?_, ?_⟩ <;> decide +kernel

theorem witness_NumericRules : accMax < 2 ^ 55 ∧ -(2 ^ 55) - 1 < accMin ∧ Fp.fin 300 0 ≠ .nan := by
  refine ⟨?_, ?_, ?_⟩ <;> decide +kernel

theorem witness_PortStateChanges :
    (rimOn up 0 = true ∧ (up.setPort 0 {}).sys.state = 1 ∧ rimOn (up.setPort 0 {}) 0 = true ∧ ((up.setPort 0 {}).port 0).linkUp = false
      ∧ ((up.setPort 0 {}).tenant 0).bound = true)
    ∧ (rimOn { up with ports := [], tenants := [] } 0 = true ∧ ({ up with ports := [], tenants := [] } : State).sys.state = 1
      ∧ (({ up with ports := [], tenants := [] } : State).tenant 0).bound = false)
    ∧ ((0 : Fin 8).val = 2 * (0 : Fin 4).val ∧ (7 : Fin 8).val = 2 * (3 : Fin 4).val + 1) := by
  refine ⟨?_, ?_, ?_⟩ <;> decide +kernel

/-! ### Packets and peer messages -/

/-- The running wafer is wafer 0 of a fabric with wafer 3; link 4 is UP and leads there. -/
def net : State :=
  { up with fabric := { phase := .running, number := some 0, coordinator := true, present := [0, 3], serials := [(0, 7), (3, 70)], fabricId := 7
                        candidate := 7, routes := [(0, { state := 0 }), (3, { state := 1, mAny := 0x10, mDown := 0x10 })]
                        links := [(4, { status := 2, peerSerial := 70, peerNumber := 3, replay := [(0, List.replicate 25 3, [])] })]
                        cages := [(4, { present := true, watts := 10, lowPower := false })] } }
/-- It has a plan of tenant 1 with one region of cluster 0. -/
def netPlan : State := net.modTenant 1 (fun x => { x with plan := some planA })
def readPkt : Packet := { pkt0 with addr := 0x40000040, len := 2, srcWafer := 3 }
def writePkt : Packet := { pkt0 with kind := 1, addr := 0x40000040, len := 1, data := List.replicate 64 0xA5 }
/-- Requests of cluster 0's cistern, and one that no tenant may make. -/
def cisPkt : Packet := { readPkt with addr := 0x10000000000040 }
def cisWrite : Packet := { writePkt with addr := 0x10000000000040 }
def deniedPkt : Packet := { readPkt with addr := 0 }
/-- A request of this wafer's own that a reset of region 0 has made stale. -/
def stalePkt : Packet := { cisPkt with srcWafer := 0, epoch := 1 }
def awake0 (s : State) : State := { s with clusters := [(0, { awake := true })] }
def netStale : State := net.modTenant 1 (fun x => { x with plan := some { planA with regions := planA.regions.map (fun r => { r with resetEpoch := 2 }) } })

theorem witness_RequestsServed :
    (forThis net 0 readPkt = true ∧ staleRequest net readPkt = false ∧ cutOff net (packetGlobal readPkt) = false ∧ accessNack net 1 (packetGlobal readPkt) (packetLen readPkt) = none
      ∧ dormantTarget net (packetGlobal readPkt) = none ∧ chooseLink net (answerPacket net readPkt 2 2 0 (zeros 128)) = some 4
      ∧ (net.link 4).txq = [] ∧ canSend (net.link 4) (answerPacket net readPkt 2 2 0 (zeros 128)) = true ∧ rimTaken net (4 / 6) = false)
    ∧ (forThis net 1 writePkt = true ∧ staleRequest net writePkt = false ∧ cutOff net (packetGlobal writePkt) = false ∧ accessNack net 1 (packetGlobal writePkt) (packetLen writePkt) = none
      ∧ dormantTarget net (packetGlobal writePkt) = none ∧ writePkt.addr.toNat % 64 = 0 ∧ writePkt.data.length = packetLen writePkt
      ∧ gSpace (packetGlobal writePkt) = 0 ∧ gOff (packetGlobal writePkt) + packetLen writePkt ≤ 2 ^ 42)
    ∧ (forThis (awake0 netPlan) 1 cisWrite = true ∧ cutOff (awake0 netPlan) (packetGlobal cisWrite) = false ∧ staleRequest (awake0 netPlan) cisWrite = false
      ∧ accessNack (awake0 netPlan) 1 (packetGlobal cisWrite) (packetLen cisWrite) = none
      ∧ dormantTarget (awake0 netPlan) (packetGlobal cisWrite) = none ∧ gSpace (packetGlobal cisWrite) = 1)
    ∧ (forThis netPlan 0 cisPkt = true ∧ cutOff netPlan (packetGlobal cisPkt) = false ∧ staleRequest netPlan cisPkt = false
      ∧ accessNack netPlan 1 (packetGlobal cisPkt) (packetLen cisPkt) = none ∧ dormantTarget netPlan (packetGlobal cisPkt) = some 0)
    ∧ (forThis net 0 deniedPkt = true ∧ staleRequest net deniedPkt = false ∧ accessNack net 1 (packetGlobal deniedPkt) (packetLen deniedPkt) = some 1)
    ∧ (forThis netStale 0 stalePkt = true ∧ staleRequest netStale stalePkt = true) := by
  refine ⟨?_, ?_, ?_, ?_, ?_, ?_⟩ <;> decide +kernel

def out9 (isWrite : Bool) : Outstanding := { txn := 9, epoch := 0, tenant := 1, uid := 5, cluster := 0, isWrite := isWrite, addr := 3 * 2 ^ 56, len := 1 }
/-- One request of clause 5 is outstanding; the time is 60 ms. -/
def asking (isWrite : Bool) : State :=
  { net with work := { flights := [{ tenant := 1, tag := 7, uid := 5, words := signalWords, started := true, waiting := [0] }], outstanding := [out9 isWrite] }
             nowUs := 60000 }
def hello (serial fid cand : Nat) : PeerBody := .hello 4 (BitVec.ofNat 64 serial) 4 (BitVec.ofNat 64 fid) (BitVec.ofNat 64 cand) 3 1
/-- The inbox holds n messages. -/
def inbox (n : Nat) (m : PeerMsg) (last : Nat) : State :=
  { net with fabric := { net.fabric with inbox := List.replicate n m, lastSeq := [(3, last)] } }
/-- A peer message of wafer 3: word 0 holds its TYPE, source and SEQ (R385). -/
def peer3 (type seq : Nat) (b : PeerBody) : PeerMsg := { data := leBytes 4 (type + 2 ^ 8 * 3 + 2 ^ 16 * seq) ++ zeros 60, body := b }
def helloMsg (seq : Nat) : PeerMsg := peer3 1 seq (hello 70 7 7)
/-- A packet that carries it to the peer inbox of this wafer. -/
def ctlPkt : Packet := { pkt0 with kind := 5, tenant := 0, txn := 0, addr := 0x3FFE0000000000, data := (helloMsg 1).data }

theorem witness_AnswersAndPeerInbox :
    (recordOf (asking false) { pkt0 with kind := 2, data := zeros 64 } = some (out9 false)
      ∧ forThis (asking false) 2 { pkt0 with kind := 2, data := zeros 64 } = true)
    ∧ (recordOf (asking true) { pkt0 with kind := 3, len := 0 } = some (out9 true) ∧ forThis (asking true) 3 { pkt0 with kind := 3, len := 0 } = true)
    ∧ (recordOf (asking false) { pkt0 with kind := 4, code := 1 } = some (out9 false) ∧ forThis (asking false) 4 { pkt0 with kind := 4, code := 1 } = true
      ∧ ((flightOf (asking false) 5).map (fun f => f.stop)) = some none ∧ ((asking false).cluster (out9 false).cluster).forming = [])
    ∧ (recordOf (asking false) { pkt0 with kind := 3, txn := 8 } = none ∧ forThis (asking false) 3 { pkt0 with kind := 3, txn := 8 } = true)
    ∧ ((asking false).work.outstanding.find? (fun o => o.txn = 9) = some (out9 false)
      ∧ (out9 false).issuedAt + requestTimeout ((asking false).tenant 1) ≤ (asking false).nowUs
      ∧ ({ asking false with nowUs := 1 } : State).nowUs < (out9 false).issuedAt + requestTimeout (({ asking false with nowUs := 1 } : State).tenant 1))
    ∧ (forThis (inbox 255 (helloMsg 1) 1) 5 ctlPkt = true ∧ isPeerPacket ctlPkt = true ∧ (inbox 255 (helloMsg 1) 1).fabric.inbox.length < 256
      ∧ forThis (inbox 256 (helloMsg 1) 1) 5 ctlPkt = true ∧ 256 ≤ (inbox 256 (helloMsg 1) 1).fabric.inbox.length)
    ∧ (firmwareRuns (inbox 1 (helloMsg 0) 65536) = true ∧ (inbox 1 (helloMsg 0) 65536).fabric.inbox = [helloMsg 0] ∧ knownPeer (helloMsg 0) = true
      ∧ tget 0 (inbox 1 (helloMsg 0) 65536).fabric.lastSeq (peerSrc (helloMsg 0)) = 65536 ∧ (65536 - 1 + 1) % 65536 = peerSeq (helloMsg 0))
    ∧ (peerSeq (helloMsg 4) + 1 = tget 0 (inbox 1 (helloMsg 4) 5).fabric.lastSeq (peerSrc (helloMsg 4))
      ∧ (inbox 1 (helloMsg 4) 5).fabric.inbox = [helloMsg 4])
    ∧ (knownPeer (peer3 9 4 .other) = false ∧ (inbox 1 (peer3 9 4 .other) 0).fabric.inbox = [peer3 9 4 .other]) := by
  refine ⟨?_, ?_, ?_, ?_, ?_, ?_, ?_, ?_, ?_⟩ <;> decide +kernel

/-- A frame of link 4 whose FSEQ is n: no slots, or those of a packet on channel v. -/
def frameN (n ack : Nat) (nak : Bool) (vcs : List Nat) (bs : List Byte) : Frame :=
  { fseq := n, ack := ack, nak := nak, replayed := false, creditVc := 1, credits := 5, vcs := vcs, spareFor := 7, payload := bs }
def idleVcs : List Nat := List.replicate 25 3
def frameAck : List Byte := frameMessage (frameN 0 0 false idleVcs [])
def frameNak : List Byte := frameMessage (frameN 0 4095 true idleVcs [])
def frameRead : List Byte := frameMessage (frameN 0 4095 false (List.replicate 1 0 ++ List.replicate 24 3) (packetBytes readPkt))
def counted (n : Nat) : State := net.setLink 4 { net.link 4 with nakCount := n }

theorem leBytes_length (n v : Nat) : (leBytes n v).length = n := by
  induction n generalizing v with
  | zero => rfl
  | succ n ih => simp [leBytes, ih]
/-- A frame as it is sent has a CRC that matches. -/
theorem frame_crc (f : Frame) (h : f.payload.length ≤ 400) : frameCrcOk ((frameMessage f).take 416) = true := by
  have hl : (leBytes 12 (frameHeader f) ++ padTo 400 f.payload).length = 412 := by
    simp [leBytes_length, padTo, zeros]; omega
  unfold frameCrcOk frameMessage
  simp only [decide_eq_true_eq]
  generalize leBytes 12 (frameHeader f) ++ padTo 400 f.payload = bs at hl
  have hm : List.take 416 (bs ++ leBytes 4 (crc32 bs).toNat) = bs ++ leBytes 4 (crc32 bs).toNat :=
    List.take_of_length_le (by simp [leBytes_length, hl])
  have ht : List.take 4 (leBytes 4 (crc32 bs).toNat) = leBytes 4 (crc32 bs).toNat := List.take_of_length_le (by simp [leBytes_length])
  rw [hm, List.take_left' hl, List.drop_left' hl, ht, leNat_leBytes4 _ (BitVec.isLt _)]
theorem frame_good (x : Link) (n : Nat) (f : Frame) (h : f.payload.length ≤ 400)
    (hf : (frameOf ((frameMessage f).take 416)).fseq = (x.lastGood + 1) % 4096) : frameGood x (some n) ((frameMessage f).take 416) = true := by
  unfold frameGood
  rw [frame_crc f h, decide_eq_true hf]
  rfl

theorem witness_FramesReceivedAndReplayed :
    (poweredUp net = true ∧ linkUp (net.link 4) = true ∧ rimTaken net (4 / 6) = false ∧ frameGood (net.link 4) none (frameAck.take 416) = false ∧ (net.link 4).replay.length < 512)
    ∧ (frameGood (net.link 4) (some 0) (frameAck.take 416) = true ∧ (frameOf (frameAck.take 416)).vcs = idleVcs ∧ (net.link 4).txq = []
      ∧ (net.link 4).streams = [[], [], []] ∧ (frameOf (frameAck.take 416)).nak = false ∧ (frameOf (frameAck.take 416)).creditVc = 1)
    ∧ (frameGood (net.link 4) (some 2) (frameNak.take 416) = true ∧ (frameOf (frameNak.take 416)).vcs = idleVcs ∧ (frameOf (frameNak.take 416)).nak = true
      ∧ (net.link 4).replay.filter (fun e => !ackCovers (frameOf (frameNak.take 416)).ack e.1) = [(0, idleVcs, [])]
      ∧ (net.link 4).replay.length = 1 ∧ (net.link 4).nakCount + 1 < 16)
    ∧ (frameGood ((counted 15).link 4) (some 0) (frameNak.take 416) = true ∧ linkUp ((counted 15).link 4) = true ∧ 16 ≤ ((counted 15).link 4).nakCount + 1
      ∧ (((counted 15).link 4).replay.filter (fun e => !ackCovers (frameOf (frameNak.take 416)).ack e.1)).length = ((counted 15).link 4).replay.length)
    ∧ (frameGood (net.link 4) (some 0) (frameRead.take 416) = true ∧ (frameOf (frameRead.take 416)).nak = false
      ∧ (frameOf (frameRead.take 416)).vcs = List.replicate 1 0 ++ List.replicate (25 - 1) 3
      ∧ ((frameOf (frameRead.take 416)).payload.take (16 * 1)).length = 16 * 1
      ∧ streamPacketBytes ((frameOf (frameRead.take 416)).payload.take (16 * 1)) = 16 * 1
      ∧ packetReserved ((frameOf (frameRead.take 416)).payload.take (16 * 1)) = false
      ∧ (packetOf ((frameOf (frameRead.take 416)).payload.take (16 * 1))).orient = net.fabric.orient
      ∧ (packetOf ((frameOf (frameRead.take 416)).payload.take (16 * 1))).dstWafer.toNat = net.sys.waferNumber)
    ∧ (4096 ≤ ((net.setLink 4 { net.link 4 with sinceSkip := 4096 }).link 4).sinceSkip ∧ (net.link 4).sinceSkip < 4096) := by
  refine ⟨by decide +kernel, ⟨frame_good _ _ _ ?_ ?_, ?_⟩, ⟨frame_good _ _ _ ?_ ?_, ?_⟩, ⟨frame_good _ _ _ ?_ ?_, ?_⟩, ⟨frame_good _ _ _ ?_ ?_, ?_⟩,
    by decide +kernel⟩ <;> decide +kernel

/-- Link 4 in a state. -/
def at4 (x : Link) (now : Nat) : State := { net.setLink 4 x with nowUs := now }

theorem witness_LinksTrainAndFall :
    (poweredUp net = true ∧ (net.link 4).txq = [] ∧ (net.link 4).status = 2 ∧ (3 : Fin 5).val < 4)
    ∧ (((at4 { status := 3, spareFor := 0, downTimes := [10, 20] } 30).link 4).status = 3 ∧ (4 : Fin 5).val ≠ ((at4 { status := 3, spareFor := 0 } 30).link 4).spareFor)
    ∧ (((at4 { status := 1 } 30).link 4).status = 1 ∧ (tget {} (at4 { status := 1 } 30).fabric.cages 4).present = true
      ∧ (at4 { status := 1 } 30).fabric.phase ≠ .excluded ∧ (at4 { status := 1 } 30).fabric.phase ≠ .conflict)
    ∧ (((at4 { status := 4 } 30).link 4).status = 4 ∧ ((at4 { status := 4 } 30).link 4).replay = [] ∧ ((at4 { status := 4, trainFails := 1 } 30).link 4).trainFails + 1 < 3)
    ∧ (mayTrain net 4 = true ∧ mayTrain (at4 { status := 5, downAt := 7 } 1000007) 4 = true ∧ ((at4 { status := 5, downAt := 7 } 1000007).link 4).status = 5
      ∧ ((at4 { status := 5, downAt := 7 } 1000007).link 4).downAt + 1000000 ≤ 1000007 ∧ ((at4 { status := 5, downAt := 7 } 1000006).link 4).status = 5
      ∧ (1000006 : Nat) < ((at4 { status := 5, downAt := 7 } 1000006).link 4).downAt + 1000000)
    ∧ (((at4 { status := 6, downAt := 7 } 60000007).link 4).status = 6 ∧ ((at4 { status := 6, downAt := 7 } 60000007).link 4).downAt + 60000000 ≤ 60000007
      ∧ (60000006 : Nat) < ((at4 { status := 6, downAt := 7 } 60000006).link 4).downAt + 60000000)
    ∧ (stepDone net 8 = true ∧ bit net.fabric.linkEnable.toNat 4 = true)
    ∧ linkUp (net.link 4) = true := by
  refine ⟨?_, ?_, ?_, ?_, ?_, ?_, ?_, ?_⟩ <;> decide +kernel

/-! ### Discovery, routing and failover -/

/-- The fabric changed by f, and message body b accepted from wafer 3. -/
def fab (f : Fabric → Fabric) : State := { net with fabric := f net.fabric }
def hearing (b : PeerBody) (f : Fabric → Fabric) : State := fab (fun x => { f x with accepted := [peer3 0 9 b] })
/-- A wafer that waits for its number. -/
def waiting (x : Fabric) : Fabric := { x with phase := .await, coordinator := false, number := none, serials := [], present := [], fabricId := 0, candidate := 5 }
def member (x : Fabric) : Fabric := { waiting x with phase := .running, number := some 0, fabricId := 5, serials := [(0, 7), (3, 5)], present := [0, 3] }
def mapBody : PeerBody := .map 5 128 2 0x9 [(0, 7), (3, 5)]
def entries (k : Nat) : List RouteEntry := (List.range 8).map (fun i => ⟨BitVec.ofNat 7 (8 * k + i), 1, 0x10, 0x10⟩)
/-- The fifteen parts 0 to 14 of table generation 2 have come. -/
def partsCame (shadow : Bool) (x : Fabric) : Fabric :=
  { member x with generation := 1, staging := { generation := 2, shadow := shadow, dests := List.range 120 } }
def Hears (b : PeerBody) (f : Fabric → Fabric) : Prop := AtPeer (hearing b f) (peer3 0 9 b) []

theorem witness_PeerMessagesHeard :
    (Hears (hello 70 7 7) id ∧ linkUp ((hearing (hello 70 7 7) id).link 4) = true ∧ ((hearing (hello 70 7 7) id).link 4).txq = []
      ∧ (70 : DWord) ≠ (hearing (hello 70 7 7) id).sys.serial
      ∧ helloStatus (hearing (hello 70 7 7) id) ((hearing (hello 70 7 7) id).link 4) 70 7 = ((hearing (hello 70 7 7) id).link 4).status
      ∧ losesConflict (hearing (hello 70 7 7) id) 70 7 3 = false)
    ∧ (Hears (hello 6 0 4) waiting ∧ partakes (hearing (hello 6 0 4) waiting) = true ∧ (hearing (hello 6 0 4) waiting).fabric.coordinator = false
      ∧ (hearing (hello 6 0 4) waiting).fabric.lost = 0 ∧ (hearing (hello 6 0 4) waiting).fabric.number = none
      ∧ (hearing (hello 6 0 4) waiting).fabric.fabricId = 0 ∧ (4 : DWord) ≤ 6 ∧ 4 < (hearing (hello 6 0 4) waiting).fabric.candidate
      ∧ helloStatus (hearing (hello 6 0 4) waiting) ((hearing (hello 6 0 4) waiting).link 4) 6 0 = 2
      ∧ losesConflict (hearing (hello 6 0 4) waiting) 6 0 3 = false)
    ∧ (Hears (hello 7 7 7) id ∧ (7 : DWord) = (hearing (hello 7 7 7) id).sys.serial)
    ∧ (Hears (hello 70 9 9) id ∧ (hearing (hello 70 9 9) id).fabric.fabricId ≠ 0 ∧ (hearing (hello 70 9 9) id).fabric.fabricId ≠ 9)
    ∧ (Hears (.links 70 2 []) id ∧ (hearing (.links 70 2 []) id).fabric.coordinator = true ∧ partakes (hearing (.links 70 2 []) id) = true
      ∧ (hearing (.links 70 2 []) member).fabric.coordinator = false)
    ∧ (Hears mapBody waiting ∧ (hearing mapBody waiting).fabric.coordinator = false ∧ partakes (hearing mapBody waiting) = true
      ∧ (hearing mapBody waiting).fabric.fabricId = 0 ∧ (hearing mapBody waiting).fabric.number = none
      ∧ numberOf { (hearing mapBody waiting).fabric with serials := [(0, 7), (3, 5)] } (hearing mapBody waiting).sys.serial.toNat = some 0
      ∧ [((0 : Nat), (7 : DWord)), (3, 5)].foldl (fun t e => if e.1 < 128 then tset 0 t e.1 e.2 else t) [] = [(0, 7), (3, 5)])
    ∧ (Hears (.routes 2 false false (entries 0)) member ∧ (hearing (.routes 2 false false (entries 0)) member).fabric.generation ≠ 2
      ∧ (stageRoutes (hearing (.routes 2 false false (entries 0)) member).fabric 2 false false (entries 0)).dests.length < 128)
    ∧ (Hears (.routes 2 false false (entries 15)) (partsCame false) ∧ (hearing (.routes 2 false false (entries 15)) (partsCame false)).fabric.generation ≠ 2
      ∧ 128 ≤ (stageRoutes (hearing (.routes 2 false false (entries 15)) (partsCame false)).fabric 2 false false (entries 15)).dests.length)
    ∧ (Hears (.routes 2 false true (entries 15)) (partsCame true) ∧ (hearing (.routes 2 false true (entries 15)) (partsCame true)).fabric.shadowGeneration ≠ 2
      ∧ 128 ≤ (stageRoutes (hearing (.routes 2 false true (entries 15)) (partsCame true)).fabric 2 false true (entries 15)).dests.length)
    ∧ (Hears (.status 3 1 0 false 0x10) (fun x => { x with wafers := [{ serial := 70 }] })
      ∧ (hearing (.status 3 1 0 false 0x10) (fun x => { x with wafers := [{ serial := 70 }] })).fabric.coordinator = true
      ∧ ∃ w ∈ (hearing (.status 3 1 0 false 0x10) (fun x => { x with wafers := [{ serial := 70 }] })).fabric.wafers, w.serial = 70)
    ∧ (Hears (.switch 3) (fun x => { member x with generation := 2, shadowGeneration := 3 })
      ∧ partakes (hearing (.switch 3) (fun x => { member x with generation := 2, shadowGeneration := 3 })) = true
      ∧ (hearing (.switch 3) (fun x => { member x with generation := 2, shadowGeneration := 3 })).fabric.pausedAt = none)
    ∧ (Hears (.switch 4) (fun x => { member x with generation := 2, shadowGeneration := 3 })
      ∧ 4 ≠ (hearing (.switch 4) (fun x => { member x with generation := 2, shadowGeneration := 3 })).fabric.shadowGeneration)
    ∧ Hears (.primary true 1) id := by
  unfold Hears AtPeer; refine ⟨?_, ?_, ?_, ?_, ?_, ?_, ?_, ?_, ?_, ?_, ?_, ?_, ?_⟩ <;> decide +kernel

/-- The wafer in a phase of discovery at a time. -/
def phaseAt (p : Discovery) (now : Nat) (f : Fabric → Fabric) : State :=
  { fab (fun x => f { waiting x with phase := p, candidate := 7 }) with nowUs := now }
def lostAt (now : Nat) : State := { fab (fun x => { x with wafers := [{ serial := 70, lastStatus := 5 }] }) with nowUs := now }
def pausing (now : Nat) : State := { fab (fun x => { member x with generation := 2, shadowGeneration := 3, pausedAt := some 5 }) with nowUs := now }

theorem witness_DiscoveryProceeds :
    (∀ s ∈ [phaseAt .linkTrain 9 id, phaseAt .elect 9 id, phaseAt .await 9 id, lostAt 9, pausing 9], firmwareRuns s = true ∧ stepDone s 8 = true)
    ∧ ((phaseAt .linkTrain 9 (fun x => { x with linkEnable := 0x10 })).fabric.phase = .linkTrain
      ∧ (∀ l, l < 24 → settledLink (phaseAt .linkTrain 9 (fun x => { x with linkEnable := 0x10 })) l = true))
    ∧ ((phaseAt .linkTrain 200000 id).fabric.stepStart + 200000 ≤ (phaseAt .linkTrain 200000 id).nowUs)
    ∧ (settledLink (phaseAt .linkTrain 199999 id) 0 = false ∧ 199999 < (phaseAt .linkTrain 199999 id).fabric.stepStart + 200000
      ∧ ∀ l, l < 24 → settledLink (phaseAt .linkTrain 199999 (fun x => { x with links := [] })) l = false)
    ∧ ((phaseAt .elect 20000 id).fabric.phase = .elect ∧ (phaseAt .elect 20000 id).fabric.candidateAt + 1000 * (phaseAt .elect 20000 id).fabric.settle ≤ 20000
      ∧ (phaseAt .elect 20000 id).fabric.candidate = (phaseAt .elect 20000 id).sys.serial
      ∧ (phaseAt .elect 20000 (fun x => { x with candidate := 5 })).fabric.candidate ≠ (phaseAt .elect 20000 id).sys.serial
      ∧ 19999 < (phaseAt .elect 19999 id).fabric.candidateAt + 1000 * (phaseAt .elect 19999 id).fabric.settle)
    ∧ (inDiscovery (phaseAt .await 1200000 id).fabric = true ∧ (phaseAt .await 1200000 id).fabric.number = none
      ∧ (phaseAt .await 1200000 id).fabric.stepStart + 1000 * (phaseAt .await 1200000 id).fabric.window + 200000 ≤ 1200000
      ∧ stepRuns { phaseAt .await 1200000 id with sys := { (phaseAt .await 1200000 id).sys with state := 0, stepEnded := 0xFF } } 9 = true)
    ∧ ((fab member).fabric.coordinator = false ∧ (fab member).fabric.number.isSome = true ∧ (fab member).fabric.phase = .running
      ∧ (fab member).fabric.lastMap + 500000 ≤ ({ fab member with nowUs := 500000 } : State).nowUs
      ∧ ({ fab member with nowUs := 499999 } : State).nowUs < (fab member).fabric.lastMap + 500000)
    ∧ ((lostAt 20005).fabric.coordinator = true ∧ (3 : Fin 128).val ∈ (lostAt 20005).fabric.present ∧ (lostAt 20005).fabric.number = some 0
      ∧ tget 0 (lostAt 20005).fabric.serials 3 ≠ 0 ∧ waferLost (lostAt 20005) (tget 0 (lostAt 20005).fabric.serials 3) = true
      ∧ (lostAt 20005).fabric.switching = false ∧ waferLost (lostAt 20004) (tget 0 (lostAt 20004).fabric.serials 3) = false)
    ∧ ((pausing 305).fabric.pausedAt = some 5 ∧ (pausing 305).fabric.generation < (pausing 305).fabric.shadowGeneration
      ∧ (pausing 305).fabric.switching = false ∧ (pausing 305).nowUs = 5 + 300 ∧ (pausing 304).nowUs < 5 + 300)
    ∧ (partakes (fab member) = true ∧ (fab member).fabric.number = some 0) := by
  refine ⟨?_, ?_, ?_, ?_, ?_, ?_, ?_, ?_, ?_, ?_⟩ <;> decide +kernel

/-- The heartbeat has stood still since 0 µs. -/
def silent (now : Nat) (none : Bool) : State := { up with sys := { up.sys with noStandby := none }, nowUs := now }
/-- Tenant 1 has the only ring, the mirror is current, and the standby has been rung. -/
def rungState : State :=
  { ((up.modTenant 0 (fun x => { x with ringSet := false })).modTenant 1 id) with sys := { up.sys with standbyRung := true } }

theorem witness_FailoverToStandby :
    (firmwareRuns up = true ∧ firmwareRuns (silent 20000 false) = true ∧ (silent 20000 false).sys.lastBeat + 20000 ≤ 20000
      ∧ (silent 20000 false).sys.noStandby = false ∧ (silent 20000 true).sys.noStandby = true ∧ firmwareRuns (silent 20000 true) = true
      ∧ 19999 < (silent 19999 false).sys.lastBeat + 20000)
    ∧ (firmwareRuns rungState = true ∧ rungState.sys.standbyRung = true ∧ rungState.sys.noStandby = false
      ∧ rungState.mirror.crcOk = true)
    ∧ (CanNotify rungState 1 ∧ tget (tenantDef 1).durable rungState.mirror.tenants 1 = (rungState.tenant 1).durable
      ∧ (∀ u : Fin 16, u ≠ 1 → (tget (tenantDef u).durable rungState.mirror.tenants u).ringSet = false)
      ∧ bit (tget 0 rungState.mem.host (tailKey rungState 1)).toNat 0 ≠ (rungState.tenant 1).tailPhase ∧ tenantFlights rungState 1 = []
      ∧ (rungState.tenant 1).unanswered = [] ∧ (∀ r ∈ (rungState.tenant 1).rings, r.waiting = [])) := by
  unfold CanNotify; refine ⟨?_, ?_, ?_⟩ <;> decide +kernel

/-! ### Power, sensors, DDR -/

/-- The wafer off, its input good, the casing changed by f. -/
def off (f : Casing → Casing) : State := { casing := f { standby := true, bankAbove := true } }
/-- Power-up: every converter ramps but those of `done`, which are good. -/
def ramping (done : Nat → Bool) (now : Nat) : State :=
  { casing := { standby := true, bankAbove := true, powered := true }, nowUs := now
    rims := (List.range 4).map (fun r => (r, { power := if done r then .good else .ramping }))
    fields := (List.range 70).map (fun i => (i, { power := if done (4 + i) then .good else .ramping })) }

theorem witness_PowerInputAndConverters :
    (MayPower (off id) ∧ (off id).casing.overvoltageOff = false ∧ (off id).casing.bankAbove = true ∧ (off id).casing.standby = true
      ∧ (off id).casing.powerOffLatch = false ∧ (42001 : Nat) ≤ 65000)
    ∧ (up.casing.powered = true ∧ up.sys.stores = [] ∧ 65000 < inputOf (.inputOvervoltage 65001))
    ∧ (poweredUp (ramping (fun _ => false) 300000) = true ∧ converter (ramping (fun _ => false) 300000) 73 = .ramping
      ∧ rampBegan (ramping (fun _ => false) 300000) 73 + 5000 ≤ 300000 ∧ stepDone (ramping (fun _ => false) 300000) 1 = false
      ∧ (ramping (fun _ => false) 300000).sys.romStartedAt = none)
    ∧ (∀ q : Fin 74, q ≠ 0 → converter (ramping (fun n => n ≠ 0) 100000) q ≠ .ramping)
    ∧ (converter (ramping (fun n => n ≠ 0) 100000) 0 = .ramping ∧ rampBegan (ramping (fun n => n ≠ 0) 100000) 0 ≤ 100000) := by
  unfold MayPower; refine ⟨?_, ?_, ?_, ?_, ?_⟩ <;> decide +kernel

/-- Field 0 powered and running; cluster 0 with its AVFS loop. -/
def warm (a : Avfs) (now : Nat) : State :=
  { up with fields := [(0, { power := .good, state := .running })], clusters := [(0, { awake := true, avfs := a })], nowUs := now }
def cased (f : Casing → Casing) (now : Nat) : State := { up with casing := f up.casing, nowUs := now }

theorem witness_SensorsLowerCeilings :
    (poweredUp (cased id 2) = true ∧ ((cased id 2).casing.iLimit - 10) * 10 < 4401 ∧ (cased id 2).casing.lastFall + 2 ≤ (cased id 2).nowUs)
    ∧ (4199 < ((cased id 0).casing.iLimit - 30) * 10
      ∧ (cased (fun c => { c with belowSince := some 4, ilimitCeiling := 60 }) 1004).casing.belowSince = some 4
      ∧ (cased (fun c => { c with belowSince := some 4, ilimitCeiling := 60 }) 1004).casing.lastIlimitRise + 1000 ≤ 1004)
    ∧ (((cased id 0).casing.iLimit - 30) * 10 ≤ 4200 ∧ 4400 ≤ ((cased id 0).casing.iLimit - 10) * 10)
    ∧ (((warm {} 0).field (fieldOfLogical 0)).power = .good ∧ ((warm {} 0).cluster 0).avfs.thermalCeiling = 64
      ∧ ((warm { thermalCeiling := 60 } 1000).cluster 0).avfs.lastRise + 1000 ≤ (warm { thermalCeiling := 60 } 1000).nowUs
      ∧ 1 ≤ ((warm { hot := 1 } 0).cluster 0).avfs.hot ∧ ((warm { hot := 1 } 0).field (fieldOfLogical 0)).state = .running)
    ∧ (poweredUp (warm {} 0) = true ∧ ((warm {} 0).field (0 : Fin 70)).power = .good ∧ ((warm {} 0).field (0 : Fin 70)).state = .running)
    ∧ ((cased (fun c => { c with badSamples := 9 }) 0).casing.standby = true ∧ 9 ≤ (cased (fun c => { c with badSamples := 9 }) 0).casing.badSamples
      ∧ 99 ≤ (cased (fun c => { c with clearSamples := 99, coolantWarn := true }) 0).casing.clearSamples
      ∧ 9 ≤ ({ warm {} 0 with casing := { up.casing with lowFlowSamples := 9 } } : State).casing.lowFlowSamples) := by
  refine ⟨?_, ?_, ?_, ?_, ?_, ?_⟩ <;> decide +kernel

/-- Physical cluster 40 in holdover, its one locked neighbour 41 at depth 3. -/
def holding40 : State := { up with silicon := { phys := [(40, { locked := true, holdover := true, depth := 2 }), (41, { locked := true, depth := 3 })] } }
/-- A usable cluster 0 on a field of a rail voltage. -/
def running0 (a : Avfs) (mv : Nat) : State :=
  { wkA { awake := true, avfs := a } with
    silicon := { live := { mapped := true, routerGood := [0], computeGood := [0], fmax := [(0, 50)] } }
    fields := [(fieldOfLogical 0, { power := .good, state := .running, railMv := mv })] }

theorem witness_VoltagesStepsAndReference :
    (((running0 {} 600).cluster 0).awake = true ∧ adjustDue ((running0 {} 600).cluster 0).avfs (running0 {} 600).nowUs = true
      ∧ adjustDue ((running0 { lastAdjust := some 5 } 600).cluster 0).avfs 14 = false ∧ false ∈ [true, false, true, true])
    ∧ (usable (running0 { step := 60 } 600) 0 = true ∧ clusterCeiling (running0 { step := 60 } 600) 0 ≤ ((running0 { step := 60 } 600).cluster 0).avfs.step)
    ∧ (((running0 {} 930).cluster 0).avfs.step < clusterCeiling (running0 {} 930) 0
      ∧ stepVoltage ((running0 {} 930).cluster 0).avfs (clusterCeiling (running0 {} 930) 0) + 30 ≤ ((running0 {} 930).field (fieldOfLogical 0)).railMv)
    ∧ (((running0 {} 929).cluster 0).avfs.step < clusterCeiling (running0 {} 929) 0
      ∧ ((running0 {} 929).field (fieldOfLogical 0)).railMv < stepVoltage ((running0 {} 929).cluster 0).avfs (clusterCeiling (running0 {} 929) 0) + 30)
    ∧ (((running0 {} 600).field (fieldOfLogical 0)).power = .good ∧ ((running0 {} 600).cluster 0).avfs.refLost = false
      ∧ 22528 + 512 * 40 = 10 * 4300 + 8)
    ∧ ((holding40.phys 41).locked = true ∧ firmwareRuns holding40 = true ∧ (holding40.phys 40).holdover = true ∧ newParents holding40 40 = [41])
    ∧ (∀ r, below holding40 40 64 r = true → r ≠ 40)
    ∧ (firmwareRuns (running0 {} 600) = true ∧ physOf (running0 {} 600) 0 ∉ (running0 {} 600).silicon.wear) := by
  refine ⟨?_, ?_, ?_, ?_, ?_, ?_, ?_, ?_⟩
  case refine_7 => intro r h hr; subst hr; revert h; decide +kernel
  all_goals decide +kernel

theorem witness_DdrKeptAndTrained :
    (rimOn up ((5 : Fin 24).val / 6) = true ∧ (up.rim ((5 : Fin 24).val / 6)).trained = true)
    ∧ (poweredUp up = true ∧ 0 < granules up * 2 ^ 24)
    ∧ (rimOn { up with rims := [(2, { power := .good })], sys := { up.sys with stepEnded := 0x3F } } 2 = true
      ∧ (({ up with rims := [(2, { power := .good })] } : State).rim 2).trained = false
      ∧ stepDone { up with rims := [(2, { power := .good })], sys := { up.sys with stepEnded := 0x3F } } 8 = false) := by
  refine ⟨?_, ?_, ?_⟩ <;> decide +kernel

/-! ### The PMBus target, the agent and the TAPs -/

theorem witness_PmbusTargetAnswers :
    (poweredUp up = true ∧ poweredUp State.reset = false ∧ (0x02 : Byte) ∉ pmbusCodes)
    ∧ ((450 : Nat) < 451 ∧ (99 : Nat) < 100 ∧ (64 : Nat) < 65 ∧ (66 : Nat) < 67) := by
  refine ⟨?_, ?_⟩ <;> decide +kernel

/-- Sessions 0 to n − 1 of the agent open, and the casing changed by f. -/
def agentWith (n : Nat) (f : Casing → Casing) : State :=
  { up with casing := f { up.casing with sessions := (List.range n).map (fun i => (i, { openFlag := true, openedAt := 5 })) } }
def inWindow (c : Casing) : Casing := { c with windowAt := some 0 }

theorem witness_AgentSessionsAndReads :
    (clientOk (agentWith 2 inWindow) [] = true ∧ ((agentWith 2 inWindow).agentSession 2).openFlag = false
      ∧ (∀ j : Fin 4, j < 2 → ((agentWith 2 inWindow).agentSession j).openFlag = true) ∧ (agentWith 2 inWindow).casing.standby = true)
    ∧ (clientOk (agentWith 2 id) [] = false ∧ (∀ j : Fin 4, ((agentWith 4 inWindow).agentSession j).openFlag = true))
    ∧ ((agentWith 2 (fun c => { c with lockHolder := some 1 })).casing.lockHolder = some 1)
    ∧ (Open (agentWith 2 id) 1 ∧ poweredUp (agentWith 2 id) = true ∧ Open (agentWith 2 (fun c => { c with powered := false })) 1
      ∧ poweredUp (agentWith 2 (fun c => { c with powered := false })) = false)
    ∧ (mayTrust (agentWith 2 inWindow) 1 = true ∧ mayTrust (agentWith 2 id) 1 = false ∧ (3 : Byte).toNat ≤ 3 ∧ 0x0C < (0x0D : BitVec 16).toNat)
    ∧ ((agentWith 2 inWindow).casing.windowAt = some 0 ∧ 0 + 600000000 ≤ ({ agentWith 2 inWindow with nowUs := 600000000 } : State).nowUs
      ∧ ({ agentWith 2 inWindow with nowUs := 599999999 } : State).nowUs < 0 + 600000000) := by
  unfold Open; refine ⟨?_, ?_, ?_, ?_, ?_, ?_⟩ <;> decide +kernel

def inHold : State := agentWith 2 (fun c => { c with hold := true })
def agentOff : State := agentWith 2 (fun c => { c with powered := false })
def recording (n : Nat) : State :=
  { up with
    sys := { up.sys with stores := [.fabricConfig 1 (9 : Word).toNat (List.replicate n 0x5A)] }
    casing := { up.casing with sessions := [(1, { openFlag := true, answers := [{ cmd := 5, tag := 9 }] })] } }

theorem witness_AgentControlsPowerAndStores :
    (Open (agentWith 2 id) 1 ∧ MayLock (agentWith 2 id) 1 ∧ (agentWith 2 id).casing.powered = true ∧ (agentWith 2 id).casing.hold = false)
    ∧ (Open agentOff 1 ∧ MayLock agentOff 1 ∧ agentOff.casing.powered = false ∧ agentOff.casing.enablePin = true ∧ agentOff.casing.bankAbove = true
      ∧ agentOff.casing.overvoltageOff = false)
    ∧ (Open inHold 1 ∧ MayLock inHold 1 ∧ inHold.casing.hold = true ∧ poweredUp inHold = true)
    ∧ (0x100000 % 4096 = 0 ∧ 0x800000 % 4096 = 0 ∧ 0x800000 ≠ 0 ∧ 0x100000 ≤ 0x100000 ∧ 0x100000 + 0x800000 ≤ 0x900000 ∧ 0xFF000 % 4096 = 0
      ∧ 0xFF000 < 0x100000 ∧ 0x900000 < 0x100000 + 0x801000)
    ∧ (0x8FFF00 % 256 = 0 ∧ 0x100000 ≤ 0x8FFF00 ∧ 0x8FFF00 + (zeros 256).length ≤ 0x900000 ∧ (zeros 256).length ≤ 65532
      ∧ flashBlank inHold 0x8FFF00 256 = true)
    ∧ (Open (agentWith 2 (fun c => { c with lockHolder := some 0 })) 1
      ∧ (agentWith 2 (fun c => { c with lockHolder := some 0 })).casing.lockHolder = some 0 ∧ 0 ≠ (1 : Fin 4).val)
    ∧ ((agentWith 2 (fun c => { c with powered := false, cycleAt := some 5 })).casing.cycleAt = some 5
      ∧ 5 + 2000000 ≤ ({ agentWith 2 (fun c => { c with powered := false, cycleAt := some 5 }) with nowUs := 2000005 } : State).nowUs)
    ∧ ((List.replicate 32 (0x5A : Byte)).length = 32 ∧ ready (agentWith 2 id) = true ∧ ready inHold = false)
    ∧ (firmwareRuns (recording 32) = true ∧ (recording 32).sys.stores = .fabricConfig 1 (9 : Word).toNat (List.replicate 32 0x5A) :: []
      ∧ ((recording 32).agentSession 1).answers = [{ cmd := 5, tag := (9 : Word).toNat }]) := by
  unfold Open MayLock; refine ⟨?_, ?_, ?_, ?_, ?_, ?_, ?_, ?_, ?_⟩ <;> decide +kernel

/-- A request behind a FABRIC_CONFIG is answered after it (R658). -/
theorem test_agent_order :
    (match exec (.eepromRead 1 7 []) (recording 32) with
     | .next t => t.out.isEmpty && (match exec (.fabricConfigStore false) t with
       | .next u => u.out.map (fun o => match o with | .agent _ c _ _ _ => c | _ => 0) == [3, 5]
       | .fault _ => false
       | .refused _ => false)
     | .fault _ => false
     | .refused _ => false) = true := by
  decide +kernel

/-- The cluster at P(0,0) sends its coordinate on to the east and to the south (R590). -/
theorem test_claims_forwarded : claimsFrom 0 0 0 = [(1, 1, 0), (35, 0, 1)] := by decide +kernel

theorem witness_TapsSelectInstructions : 4 < (0xFF : Byte).toNat ∧ 4 < (5 : Byte).toNat := by decide +kernel

/-! ## Small tests of single commands and operations; the results are those of the spec's worked examples, or its tables by hand -/

/-- The check value that CRC-32 with the IEEE 802.3 polynomial (R54) is known by: "123456789". -/
theorem test_crc32 : crc32 [0x31, 0x32, 0x33, 0x34, 0x35, 0x36, 0x37, 0x38, 0x39] = 0xCBF43926 := by decide +kernel

/-- 01, worked example: P(15,20) and P(17,20) are defective; C(13,20) is a hole at P(17,20) of field 24, and P(18,20) holds C(14,20). -/
def twoDefects : Live :=
  { mapped := true, routerGood := List.range 2100, computeGood := (List.range 2100).filter (fun q => q ≠ 715 ∧ q ≠ 717)
    defective := [⟨0, 0⟩, ⟨0, 0⟩] }
theorem test_shift : physX twoDefects 12 20 = 16 ∧ physX twoDefects 13 20 = 17 ∧ physX twoDefects 15 20 = 19 ∧ logicalX twoDefects 18 20 = some 14
    ∧ logicalX twoDefects 15 20 = none ∧ recordState twoDefects 13 20 = 1 ∧ recordState twoDefects 12 20 = 0 ∧ fieldOfLogical 573 = 24 := by
  decide +kernel

/-- 02, worked example: w = (3, −2, −4) in SINT3, a = (1, −2, 1) in SINT2, pass by pass. -/
def runDot : TileRun :=
  { n := 3, m := 2, wNeg := true, aNeg := true, acts := [[⟨1, 127, true⟩, ⟨2, 127, true⟩, ⟨1, 127, true⟩]]
    blocks := [{ cells := [[⟨0, 3, 127⟩, ⟨1, 6, 127⟩, ⟨2, 4, 127⟩]] }] }
theorem test_plane_order : planePairs 3 2 = [(2, 1), (2, 0), (1, 1), (1, 0), (0, 1), (0, 0)] := by decide +kernel
theorem test_pass_values : (planePairs 3 2).map (fun p => (passUpdates ((runDot.blocks.head?).getD {}) runDot { i := p.1, j := p.2 }).1)
    = [[(0, 8)], [(0, -4)], [(0, -4)], [(0, 2)], [(0, 0)], [(0, 1)]] := by decide +kernel
/-- The same example's requantization: t = 7.5 clamps to 7 with CLIP under RNE and is 7 without under TRUNC. -/
theorem test_requantize : quantize 1 4 0 0 (requantT 3 0 0x40200000 0) = ⟨7, true⟩ ∧ quantize 1 4 1 0 (requantT 3 0 0x40200000 0) = ⟨7, false⟩ := by
  decide +kernel
/-- 05, worked example: 1,000,003 × 2^−10 is 977, its halves and eighths apart 598 + 379 and 7 × 123 + 118. -/
theorem test_split_outputs : ([1000003, 612417, 387586, 125542, 121209].map (fun a => (quantize 1 16 0 0 (requantT a 0 0x3A800000 0)).code))
    = [977, 598, 379, 123, 118] := by decide +kernel
theorem test_saturation : satAcc (2 ^ 55) = 2 ^ 55 - 1 ∧ satAcc (-(2 ^ 55) - 1) = -(2 ^ 55) ∧ satHit (2 ^ 55) = true ∧ satHit (2 ^ 55 - 1) = false := by
  decide +kernel

/-- 03, worked example: w4a4, K_g = 4, s_c = 0.25, b_c = −2: T_c is 10, and the output settles low after significance 3, not before. -/
def runGate : TileRun := { n := 4, m := 4, wNeg := true, kg := 4 }
theorem test_threshold : thresholdOf 1 0 0 0x3E800000 0xC0000000 = .upTo 10 := by decide +kernel
theorem test_gating_bounds : [7, 6, 5, 4, 3].map (bounds runGate) = [(420, 480), (420, 224), (292, 96), (164, 32), (68, 0)] := by decide +kernel
theorem test_settlement : settleTest 1 0 (.upTo 10) (-128) 164 32 = none ∧ settleTest 1 0 (.upTo 10) (-112) 68 0 = some false
    ∧ settleTest 1 2 (.upTo 10) (-128) 420 224 = some false := by decide +kernel

/-- 04, worked example: the canonical bytes of the groups 0b0011, 0b0100 and 0b0000. -/
theorem test_mask_bytes : [[0, 1], [2], []].map canonByte = [0x34, 0x28, 0x04] := by decide +kernel

/-- The bytes that a clause leaves in the cistern from an address on. -/
def leaves (r : Res) (a : Nat) : List (Nat × Nat) :=
  match r with
  | .next s => (s.mem.cistern.filter (fun e => a ≤ e.1 ∧ e.1 < a + 0x1000)).map (fun e => (e.1 - a, e.2.toNat))
  | .fault _ => []
  | .refused _ => []
/-- Sums and products of the elements of [[1,2],[3,4]] and [[5,6],[7,8]], rows 64 bytes apart, and the sum 1 + 2 of the row that
the reduction reads, by hand. -/
theorem test_pointwise : leaves (exec (.pointwiseAdd 1 ⟨7, .clean⟩) (ready1 (pointWords 1) [] fresh)) 0 = [(0, 6), (1, 8), (64, 10), (65, 12)]
    ∧ leaves (exec (.pointwiseMul 1 ⟨7, .clean⟩) (ready1 (pointWords 3) [] fresh)) 0 = [(0, 5), (1, 12), (64, 21), (65, 32)] := by decide +kernel
theorem test_reduce : leaves (exec (.reduceSum 1 ⟨7, .clean⟩) (ready1 (reduceWords 0) [] fresh)) 0xA000 = [(0, 3), (1, 7)]
    ∧ leaves (exec (.reduceMax 1 ⟨7, .clean⟩) (ready1 (reduceWords 1) [] fresh)) 0xA000 = [(0, 2), (1, 4)] := by decide +kernel

/-- 08, worked example: tail 4,095 in the second pass: the notice goes to entry 4,095 with phase 0, and the tail wraps to 0 with phase 1. -/
def wrapping : State :=
  withMsg (up.modTenant 4 (fun _ => { ten with noticeBase := 0x840000000, tail := 4095, tailPhase := false, noticeHead := 4095, ringUsed := 4095 })) 4
    (msg 0x0A [])
theorem test_notice_wraps : (match exec (.ping 4) wrapping with
    | .next s => (readBytes 0 s.mem.host 0x84001FFE0 2, (s.tenant 4).tail, (s.tenant 4).tailPhase, (s.tenant 4).expected)
    | .fault _ => ([], 0, false, 0)
    | .refused _ => ([], 0, false, 0)) = ([0, 2], 0, true, 1) := by decide +kernel
/-- 08, worked example: SEQ 0x0044 where 0x0043 is expected is a gap; it is discarded and counted. -/
def gapState : State :=
  up.modTenant 4 (fun _ => { ten with expected := 0x43, requestRing := [entry ((msg 0x0A []).take 15 ++ [0x0044000A])] })
theorem test_gap : (match exec .pumphouseVisit gapState with
    | .next s => ((s.tenant 4).gap, (s.tenant 4).discarded, (s.tenant 4).expected, (s.tenant 4).copied)
    | .fault _ => (false, 0, 0, [])
    | .refused _ => (false, 0, 0, [])) = (true, 1, 0x43, []) := by decide +kernel

/-- 10, worked example: five wafers, T in COLLECT with every report. -/
def wire (l peer peerLink n : Nat) : List (Nat × LinkReport) :=
  (List.range n).map (fun i => (l + i, ⟨2, BitVec.ofNat 64 peer, BitVec.ofNat 5 (peerLink + i)⟩))
def infoOf (serial : Nat) (ws : List (Nat × LinkReport)) : WaferInfo :=
  { serial := BitVec.ofNat 64 serial, reports := (List.range 4).map (fun p => (p, (List.range 6).map (fun i => tget ⟨0, 0, 0⟩ ws (6 * p + i)))) }
def five (ts : List (Nat × LinkReport)) : State :=
  { up with
    sys := { up.sys with serial := 0xC44 }
    fabric := {
      phase := .elect, candidate := 0xC44, minWafers := 5
      links := (wire 0 0x1207 0 6 ++ ts).map (fun e => (e.1, { status := 2, peerSerial := e.2.peerSerial, peerLink := e.2.peerLink.toNat }))
      wafers := [infoOf 0x1207 (wire 0 0xC44 0 6 ++ wire 6 0xF31 0 6)
        , infoOf 0xF31 (wire 0 0x1207 6 6 ++ wire 6 0x1A02 4 2 ++ wire 8 0x1150 0 6)
        , infoOf 0x1A02 (wire 0 0xC44 6 4 ++ wire 4 0xF31 6 2 ++ wire 6 0x1150 6 2)
        , infoOf 0x1150 (wire 0 0xF31 8 6 ++ wire 6 0x1A02 6 2)] }
    nowUs := 20000 }
def numbered : State := match exec .electSettle (five (wire 6 0x1A02 0 4)) with
  | .next s => s
  | .fault _ => up
  | .refused _ => up
theorem test_numbering : numbered.fabric.serials = [(0, 0xC44), (1, 0x1207), (2, 0x1A02), (3, 0xF31), (4, 0x1150)] ∧ numbered.sys.waferCount = 5
    ∧ numbered.fabric.fabricId = 0xC44 ∧ [0, 1, 2, 3, 4].map (tget 0 numbered.fabric.levels) = [0, 1, 1, 2, 2] := by decide +kernel
theorem test_routes : (routeTo numbered numbered.fabric.levels 1 2).mAny = 0x3F ∧ (routeTo numbered numbered.fabric.levels 1 2).mDown = 0
    ∧ (routeTo numbered numbered.fabric.levels 4 1).mAny = 0x3F := by decide +kernel
/-- The four links of T to S have gone: S has no legal route, and the new levels are 0, 1, 3, 2 and 3. -/
def parted : State := { numbered with fabric := { numbered.fabric with links := numbered.fabric.links.take 6 } }
theorem test_reorientation : allLegal parted parted.fabric.levels = false
    ∧ [0, 1, 2, 3, 4].map (tget 0 (freshLevels parted)) = [0, 1, 3, 2, 3] ∧ allLegal parted (freshLevels parted) = true := by decide +kernel

/-- 11, worked example: with four rims present, offset 0xA_1234_5600 lies on global channel 4. -/
def rims4 : State := { up with rims := (List.range 4).map (fun r => (r, { power := .good, trained := true, online := true, capacityGiB := 128 })) }
theorem test_channel : channelOfOffset rims4 0xA12345600 = 4 ∧ granules rims4 = 3072 := by decide +kernel

/-- 12, worked example: West starts at 9 ms, F(3,4) at 12 ms, F(3,3) at 32 ms, F(6,0) at 288 ms. -/
theorem test_power_order : startTime 3 = 9000 ∧ [1, 6, 70, 63, 64].map fieldAt = [31, 24, 6, 63, 0]
    ∧ [1, 6, 70, 63, 64].map (fun n => startTime (n + 3)) = [12000, 32000, 288000, 260000, 264000] := by decide +kernel
/-- 12, worked example: above 440 A the current-limit ceiling falls; of 475.6 A the input draws 450 A (R564). -/
theorem test_current_limit : (match exec (.currentSample 4756 41000) (cased id 2) with
    | .next s => (s.casing.ilimitCeiling, s.casing.iinDa, s.casing.bankDa)
    | .fault _ => (0, 0, 0)
    | .refused _ => (0, 0, 0)) = (63, 4500, 256) := by decide +kernel


end Sys2Proof.Tests
end

/-!
The rules that proofs about accumulation and reduction (05) rest on: what a write of memory, a delivery of outputs and the stop of a
clause leave alone; then the obligations on the hash accumulator (R184 to R193) and on ranking (R199 to R203).
-/

namespace Sys2Proof.Machine

/-! ## Writes of this wafer's memory -/

/-- From s to s' nothing but memory has changed. -/
def MemOnly (s s' : State) : Prop := ∃ m, s' = { s with mem := m }

theorem MemOnly.refl (s : State) : MemOnly s s := ⟨s.mem, rfl⟩

theorem MemOnly.trans {a b c : State} (hab : MemOnly a b) (hbc : MemOnly b c) : MemOnly a c := by
  obtain ⟨m, rfl⟩ := hab
  obtain ⟨n, rfl⟩ := hbc
  exact ⟨n, rfl⟩

theorem MemOnly.cluster {s s' : State} (h : MemOnly s s') (q : Nat) : s'.cluster q = s.cluster q := by obtain ⟨m, rfl⟩ := h; rfl
theorem MemOnly.tenants {s s' : State} (h : MemOnly s s') : s'.tenants = s.tenants := by obtain ⟨m, rfl⟩ := h; rfl
theorem MemOnly.work {s s' : State} (h : MemOnly s s') : s'.work = s.work := by obtain ⟨m, rfl⟩ := h; rfl

theorem foldl_memOnly {β : Type} (g : State → β → State) (hg : ∀ s b, MemOnly s (g s b)) (l : List β) (s : State) :
    MemOnly s (l.foldl g s) := by
  induction l generalizing s with
  | nil => exact .refl s
  | cons b l ih => exact (hg s b).trans (ih _)

theorem putByte_memOnly (s : State) (g : Nat) (b : Byte) : MemOnly s (putByte s g b) := by
  unfold putByte
  split
  · exact ⟨_, rfl⟩
  · exact ⟨_, rfl⟩

theorem putBits_memOnly (s : State) (w : Nat × Nat × Nat) : MemOnly s (putBits s w) :=
  foldl_memOnly _ (fun _ _ => putByte_memOnly _ _ _) _ _

theorem putAll_memOnly (s : State) (ws : List (Nat × Nat × Nat)) : MemOnly s (putAll s ws) :=
  (foldl_memOnly putBits putBits_memOnly ws s).trans ⟨_, rfl⟩

theorem putRecord_memOnly (s : State) (r : Region) (k n : Nat) (e : Int × Nat) : MemOnly s (putRecord s r k n e) := putAll_memOnly _ _

theorem spillHeader_memOnly (s : State) (r : Region) (k count evictions flags : Nat) :
    MemOnly s (spillHeader s r k count evictions flags) := putAll_memOnly _ _

/-! ## Accesses of a clause, and the delivery of outputs -/

/-- From s to s' nothing but memory, the model's free values and the record of accesses has changed. -/
def AccessOnly (s s' : State) : Prop :=
  ∃ m n ts, s' = { s with mem := m, freeCtr := n, work := { s.work with touches := ts } }

theorem AccessOnly.refl (s : State) : AccessOnly s s := ⟨s.mem, s.freeCtr, s.work.touches, rfl⟩

theorem AccessOnly.trans {a b c : State} (hab : AccessOnly a b) (hbc : AccessOnly b c) : AccessOnly a c := by
  obtain ⟨m, n, ts, rfl⟩ := hab
  obtain ⟨m', n', ts', rfl⟩ := hbc
  exact ⟨m', n', ts', rfl⟩

theorem MemOnly.accessOnly {s s' : State} (h : MemOnly s s') : AccessOnly s s' := by
  obtain ⟨m, rfl⟩ := h
  exact ⟨m, s.freeCtr, s.work.touches, rfl⟩

theorem AccessOnly.cluster {s s' : State} (h : AccessOnly s s') (q : Nat) : s'.cluster q = s.cluster q := by
  obtain ⟨m, n, ts, rfl⟩ := h; rfl
theorem AccessOnly.tenants {s s' : State} (h : AccessOnly s s') : s'.tenants = s.tenants := by obtain ⟨m, n, ts, rfl⟩ := h; rfl
theorem AccessOnly.flights {s s' : State} (h : AccessOnly s s') : s'.work.flights = s.work.flights := by
  obtain ⟨m, n, ts, rfl⟩ := h; rfl

theorem leaveFree_accessOnly (s : State) (gs : List Nat) : AccessOnly s (leaveFree s gs) := by
  unfold leaveFree
  induction gs generalizing s with
  | nil => exact .refl s
  | cons g gs ih =>
    have hput : AccessOnly s (putByte s g (Config.freeByte s.freeCtr)) := (putByte_memOnly _ _ _).accessOnly
    have hstep : ∀ t : State, AccessOnly t (t.stepFree 1) := fun t => ⟨t.mem, t.freeCtr + 1, t.work.touches, rfl⟩
    exact (hput.trans (hstep _)).trans (ih _)

theorem race_accessOnly (s : State) (uid : Nat) (write : Bool) (rs : List (Nat × Nat)) : AccessOnly s (race s uid write rs) := by
  have htouch : ∀ (s : State) (t : Touch), AccessOnly s (addTouch s t) := fun s t => ⟨s.mem, s.freeCtr, s.work.touches ++ [t], rfl⟩
  exact (leaveFree_accessOnly s _).trans (htouch _ _)

theorem raceWrite_accessOnly (s : State) (f : Flight) (ws : List (Nat × Nat × Nat)) : AccessOnly s (raceWrite s f ws) := by
  unfold raceWrite
  split
  · exact .refl s
  · exact race_accessOnly _ _ _ _

/-- A delivery is an access, or it adds to the OUT halves of the clause's own cluster (R328, R431). -/
theorem deliver_cases (s : State) (j : Job) (l2 : Nat) (ws : List (Nat × Nat × Nat)) :
    AccessOnly s (deliver s j l2 ws) ∨ ∃ hs, deliver s j l2 ws = s.modCluster j.k (fun c => { c with outHalf := hs }) := by
  unfold deliver
  split
  · exact .inl (.refl s)
  · split
    · exact .inl ((putAll_memOnly s ws).accessOnly.trans (raceWrite_accessOnly _ _ _))
    · exact .inr ⟨_, rfl⟩

@[simp] theorem deliver_tenants (s : State) (j : Job) (l2 : Nat) (ws : List (Nat × Nat × Nat)) : (deliver s j l2 ws).tenants = s.tenants := by
  obtain h | ⟨hs, h⟩ := deliver_cases s j l2 ws
  · exact h.tenants
  · rw [h]; rfl

@[simp] theorem deliver_flights (s : State) (j : Job) (l2 : Nat) (ws : List (Nat × Nat × Nat)) :
    (deliver s j l2 ws).work.flights = s.work.flights := by
  obtain h | ⟨hs, h⟩ := deliver_cases s j l2 ws
  · exact h.flights
  · rw [h]; rfl

@[simp] theorem State.cluster_modCluster_same (s : State) (k : Nat) (f : Cluster → Cluster) :
    (s.modCluster k f).cluster k = f (s.cluster k) := s.cluster_setCluster_same _ _

theorem State.cluster_modCluster_other (s : State) (k q : Nat) (f : Cluster → Cluster) (h : q ≠ k) :
    (s.modCluster k f).cluster q = s.cluster q := s.cluster_setCluster_other _ _ _ h

/-- Outputs never pass through an accumulator. -/
@[simp] theorem deliver_unit (s : State) (j : Job) (l2 : Nat) (ws : List (Nat × Nat × Nat)) (q : Nat) :
    ((deliver s j l2 ws).cluster q).unit = (s.cluster q).unit := by
  obtain h | ⟨hs, h⟩ := deliver_cases s j l2 ws
  · rw [h.cluster]
  · rw [h]
    by_cases hq : q = j.k
    · rw [hq, State.cluster_modCluster_same]
    · rw [State.cluster_modCluster_other _ _ _ _ hq]

/-! ## The clause of a cluster -/

theorem jobFor_parts {s : State} {f : Flight} {k : Nat} {j : Job} (h : jobFor s f k = some j) : j.f = f ∧ j.k = k := by
  unfold jobFor at h
  split at h
  · cases h
  · dsimp only at h
    split at h
    · cases h
    · cases h; exact ⟨rfl, rfl⟩

theorem flightOf_uid {s : State} {u : Nat} {f : Flight} (h : flightOf s u = some f) : f.uid = u := by
  simpa using List.find?_some h

theorem jobOf_parts {s : State} {k u : Nat} {j : Job} (h : jobOf s k u = some j) : j.f.uid = u ∧ j.k = k := by
  unfold jobOf at h
  split at h
  · cases h
  · next f hf =>
    obtain ⟨hjf, hjk⟩ := jobFor_parts h
    exact ⟨hjf ▸ flightOf_uid hf, hjk⟩

theorem ownerJob_k {s : State} {k : Nat} {j : Job} (h : ownerJob s k = some j) : j.k = k := by
  unfold ownerJob at h
  split at h
  · cases h
  · exact (jobOf_parts h).2

theorem currentRun_run {s : State} {k : Nat} {j : Job} {r : TileRun} (h : currentRun s k = some (j, r)) : (s.cluster k).run = some r := by
  unfold currentRun at h
  split at h
  · cases h
  · split at h
    · next r' hr =>
      split at h
      · cases h; exact hr
      · cases h
    · cases h

/-! ## Stopping a clause (R411) -/

theorem flightOf_congr {s s' : State} (h : s'.work.flights = s.work.flights) (u : Nat) : flightOf s' u = flightOf s u := by
  unfold flightOf; rw [h]

theorem flightOf_modFlight (s : State) (uid u : Nat) (g : Flight → Flight) (hg : ∀ f, (g f).uid = f.uid) :
    flightOf (modFlight s uid g) u = (flightOf s u).map (fun f => if f.uid = uid then g f else f) := by
  have huid : ∀ f : Flight, (if f.uid = uid then g f else f).uid = f.uid := by
    intro f
    split
    · exact hg f
    · rfl
  simp only [flightOf, modFlight, setFlights, List.find?_map, Function.comp_def, huid]

theorem MemOnly.flightOf {s s' : State} (h : MemOnly s s') (u : Nat) : flightOf s' u = flightOf s u :=
  flightOf_congr (by rw [h.work]) u

/-- The event that stops a clause, none while nothing stops it. -/
def stopOf (s : State) (u : Nat) : Option Verdict := (flightOf s u).bind (fun f => f.stop)

/-- A change of a clause in flight that keeps its uid and its stop. -/
theorem stopOf_modFlight (s : State) (uid u : Nat) (g : Flight → Flight) (hu : ∀ f, (g f).uid = f.uid) (hs : ∀ f, (g f).stop = f.stop) :
    stopOf (modFlight s uid g) u = stopOf s u := by
  unfold stopOf
  rw [flightOf_modFlight s uid u g hu]
  cases flightOf s u with
  | none => rfl
  | some f =>
    simp only [Option.map_some, Option.bind_some]
    split
    · exact hs f
    · rfl

theorem stopOf_congr {s s' : State} (h : s'.work.flights = s.work.flights) (u : Nat) : stopOf s' u = stopOf s u := by
  unfold stopOf; rw [flightOf_congr h]

theorem stopOf_flushForming (s : State) (j : Job) (u : Nat) : stopOf (flushForming s j) u = stopOf s u := by
  unfold flushForming
  dsimp only
  split
  · rfl
  · refine (stopOf_modFlight _ _ _ _ ?_ ?_).trans (stopOf_congr ?_ u)
    · intro; rfl
    · intro; rfl
    · rw [deliver_flights]; rfl

theorem stopOf_flushMember (s : State) (k uid u : Nat) : stopOf (flushMember s k uid) u = stopOf s u := by
  unfold flushMember
  split
  · rfl
  · split
    · exact stopOf_flushForming s _ u
    · rfl

theorem stopOf_dropMember (s : State) (k uid u : Nat) : stopOf (dropMember s k uid) u = stopOf s u := by
  unfold dropMember
  refine (stopOf_modFlight _ _ _ _ ?_ ?_).trans (Eq.trans (stopOf_congr rfl u) (stopOf_flushMember s k uid u))
  · intro; rfl
  · intro; rfl

/-- The first event that stops a clause is the one noted. -/
theorem stopOf_stopClause {s : State} {uid : Nat} {f : Flight} (v : Verdict) (hf : flightOf s uid = some f) (hs : f.stop = none) :
    stopOf (stopClause s uid v) uid = some v := by
  have huid : f.uid = uid := flightOf_uid hf
  unfold stopOf stopClause
  rw [flightOf_modFlight s uid uid _ (by intro f; split <;> rfl), hf]
  simp [huid, hs]

/-- A trapped member's clause is stopped with the trap's verdict (R82, R191). -/
theorem trapMember_stops {s : State} {k uid : Nat} {f : Flight} (v : Verdict) (hf : flightOf s uid = some f) (hs : f.stop = none) :
    ∃ g, flightOf (trapMember s k uid v) uid = some g ∧ g.stop = some v := by
  have h : stopOf (trapMember s k uid v) uid = some v := by
    unfold trapMember
    rw [stopOf_dropMember, stopOf_stopClause v hf hs]
  exact Option.bind_eq_some_iff.mp h

/-- A cluster that drops a clause is not owned by it (R411). -/
theorem dropMember_owner (s : State) (k uid : Nat) : ((dropMember s k uid).cluster k).owner ≠ some uid := by
  have hcluster : ∀ (t : State) (g : Flight → Flight), (modFlight t uid g).cluster k = t.cluster k := fun _ _ => rfl
  unfold dropMember
  rw [hcluster, State.cluster_modCluster_same]
  dsimp only
  split
  · exact Option.some_ne_none uid |>.symm
  · next h => exact fun ho => h (decide_eq_true ho)

/-! ## Finishing a member (R183, R268) -/

@[simp] theorem finishMember_tenants (s : State) (k : Nat) : (finishMember s k).tenants = s.tenants := by
  unfold finishMember
  split
  · rfl
  · dsimp only
    split
    · rfl
    · rfl

/-- A finished member's accumulators are empty unless HOLD keeps them; those of ranking are empty before they may go. -/
theorem finishMember_unit (s : State) (k : Nat) :
    ((finishMember s k).cluster k).unit = (s.cluster k).unit
      ∨ (((finishMember s k).cluster k).unit = {} ∧ (s.cluster k).unit.ranks = []) := by
  unfold finishMember
  split
  · exact .inl rfl
  · next j _ =>
    dsimp only
    split
    · next hfin =>
      rw [State.cluster_setCluster_same]
      cases hhold : cHold j.c with
      | true => exact .inl (by simp)
      | false =>
        have hranks : (s.cluster k).unit.ranks = [] := by
          simp only [memberClear, hhold, Bool.false_or, Bool.and_eq_true, List.isEmpty_iff] at hfin
          obtain ⟨⟨-, -, hranks, -⟩, -⟩ := hfin
          exact hranks
        exact .inr ⟨by simp, hranks⟩
    · exact .inl rfl

@[simp] theorem finishMember_ranks (s : State) (k : Nat) : ((finishMember s k).cluster k).unit.ranks = (s.cluster k).unit.ranks := by
  obtain h | ⟨h, hnone⟩ := finishMember_unit s k
  · rw [h]
  · rw [h, hnone]

/-! ## Tables -/

/-- Keys that a filter drops read as the default, every other key as before. -/
theorem tget_filter {α : Type} (d : α) (p : Nat → Bool) (m : Tab α) (k : Nat) :
    tget d (m.filter (fun e => p e.1)) k = if p k then tget d m k else d := by
  induction m with
  | nil => simp [tget]
  | cons e rest ih =>
    by_cases hk : e.1 = k
    · cases hp : p e.1 with
      | true => simp [tget, hk, hk ▸ hp]
      | false => rw [List.filter_cons, hp, if_neg Bool.false_ne_true, ih]; simp [hk ▸ hp]
    · cases hp : p e.1 with
      | true => simp [hp, tget, hk, ih]
      | false => simp [hp, tget, hk, ih]

/-! ## The hash accumulator (R185, R186) -/

/-- An entry of the hash accumulator is valid and of key `key`. -/
def HoldsKey (u : AccUnit) (key i : Nat) : Prop := (tget {} u.hash i).valid = true ∧ (tget {} u.hash i).key = key

theorem hashSet_eq (key : Nat) : hashSet key = key * 0x9E3779B9 % 2 ^ 32 / 2 ^ 22 := by
  unfold hashSet bits
  omega

/-- The first of a set's four ways that passes a test. -/
theorem find_way {p : Nat → Bool} {base w : Nat} (hw : w < 4) (hp : p (base + w) = true) (hlow : ∀ x, x < w → ¬ p (base + x) = true) :
    ((List.range 4).map (fun x => base + x)).find? p = some (base + w) := by
  rw [List.find?_map]
  have h : (List.range 4).find? (p ∘ fun x => base + x) = some w := by
    rw [List.find?_range_eq_some]
    exact ⟨hp, List.mem_range.mpr hw, fun x hx => by simpa using hlow x hx⟩
  rw [h]; rfl

theorem find_way_none {p : Nat → Bool} {base : Nat} (h : ∀ x, x < 4 → ¬ p (base + x) = true) :
    ((List.range 4).map (fun x => base + x)).find? p = none := by
  rw [List.find?_eq_none]
  intro i hi
  obtain ⟨x, hx, rfl⟩ := List.mem_map.mp hi
  exact h x (List.mem_range.mp hx)

/-- A hit adds the update to its entry under R79. -/
theorem hashApply_hit {u : AccUnit} {key w : Nat} (v : Int) (hw : w < 4) (hit : HoldsKey u key (4 * hashSet key + w))
    (hlow : ∀ x, x < w → ¬ HoldsKey u key (4 * hashSet key + x)) :
    let e := tget {} u.hash (4 * hashSet key + w)
    hashApply u key v = { u with
      hash := tset {} u.hash (4 * hashSet key + w) ⟨true, key, satAcc (e.value + v)⟩, sat := u.sat || satHit (e.value + v) } := by
  obtain ⟨hvalid, hkey⟩ := hit
  unfold hashApply
  dsimp only
  rw [find_way hw (by simp [hvalid, hkey]) (fun x hx h => hlow x hx (by simpa [HoldsKey] using h))]
  simp only [hvalid, hkey]

/-- No way of the set of a key holds it. -/
def Misses (u : AccUnit) (key : Nat) : Prop := ∀ x, x < 4 → ¬ HoldsKey u key (4 * hashSet key + x)

/-- A miss takes the lowest-numbered free way. -/
theorem hashApply_free {u : AccUnit} {key w : Nat} (v : Int) (hw : w < 4) (hmiss : Misses u key)
    (hfree : (tget {} u.hash (4 * hashSet key + w)).valid = false)
    (hlow : ∀ x, x < w → (tget {} u.hash (4 * hashSet key + x)).valid = true) :
    hashApply u key v = { u with
      hash := tset {} u.hash (4 * hashSet key + w) ⟨true, key, satAcc v⟩, sat := u.sat || satHit v } := by
  unfold hashApply
  dsimp only
  rw [find_way_none (fun x hx h => hmiss x hx (by simpa [HoldsKey] using h)), find_way hw (by simp [hfree]) (fun x hx => by simp [hlow x hx])]

/-- A miss in a full set takes the way that NEXT_VICTIM names, whose entry is queued for the spill area. -/
theorem hashApply_evict {u : AccUnit} {key : Nat} (v : Int) (hmiss : Misses u key)
    (hfull : ∀ x, x < 4 → (tget {} u.hash (4 * hashSet key + x)).valid = true) :
    let w := tget 0 u.victim (hashSet key)
    let e := tget {} u.hash (4 * hashSet key + w)
    hashApply u key v = { u with
      hash := tset {} u.hash (4 * hashSet key + w) ⟨true, key, satAcc v⟩, victim := tset 0 u.victim (hashSet key) ((w + 1) % 4)
      spillQueue := u.spillQueue ++ [(e.value, e.key)], sat := u.sat || satHit v } := by
  unfold hashApply
  dsimp only
  rw [find_way_none (fun x hx h => hmiss x hx (by simpa [HoldsKey] using h)), find_way_none (fun x hx => by simp [hfull x hx])]

/-- HASH_UPDATE of a waiting total with room in the spill queue applies it, and nothing else changes. -/
theorem execHashUpdate_of_total {k : Nat} {j : Job} {r : TileRun} {t : Tile} {key : Nat} {v : Int} {rest : List (Nat × Int)} {s : State}
    (hrun : currentRun s k = some (j, r)) (htile : tileAt j r.l2 r.l1 = some t) (hhash : cTarget j.c = 1)
    (howner : (s.cluster k).owner = some r.uid) (htotals : r.totals = (key, v) :: rest) (hroom : (s.cluster k).unit.spillQueue.length < 8) :
    execHashUpdate k s = .next (s.setCluster k { s.cluster k with
      unit := hashApply (s.cluster k).unit key v, run := some { r with totals := rest } }) := by
  have hqueue : queueTotals j (s.cluster k) t r = s.cluster k := by simp [queueTotals, htotals]
  unfold execHashUpdate
  simp only [hrun, htile, hhash, howner, hqueue, enterTotal, currentRun_run hrun, htotals, hroom, decide_true, Bool.and_self, if_true]

/-! ## Spill records and the drain (R187 to R193) -/

theorem execSpillRecordWrite_of_room {k : Nat} {j : Job} {e : Int × Nat} {rest : List (Int × Nat)} {s : State}
    (howner : ownerJob s k = some j) (hqueue : (s.cluster k).unit.spillQueue = e :: rest)
    (hroom : (s.cluster k).unit.spillCount < j.region.spillCapacity) :
    execSpillRecordWrite k s = .next ((putRecord s j.region k (s.cluster k).unit.spillCount e).modCluster k (fun c => { c with
      unit := { c.unit with
        spillQueue := rest, spillCount := (s.cluster k).unit.spillCount + 1, evictions := (s.cluster k).unit.evictions + 1 } })) := by
  unfold execSpillRecordWrite
  simp only [howner, hqueue, if_neg (Nat.not_le.mpr hroom)]

theorem execSpillRecordWrite_of_full {k : Nat} {j : Job} {e : Int × Nat} {rest : List (Int × Nat)} {s : State}
    (howner : ownerJob s k = some j) (hqueue : (s.cluster k).unit.spillQueue = e :: rest)
    (hfull : j.region.spillCapacity ≤ (s.cluster k).unit.spillCount) :
    execSpillRecordWrite k s = .next (spillFull s j (tileNow (s.cluster k) j)) := by
  unfold execSpillRecordWrite
  simp only [howner, hqueue, if_pos hfull]

/-- SPILL_FULL stops the clause with COUNT, and the cluster drops it (R191). -/
theorem spillFull_stops {s : State} {j : Job} {f : Flight} (l2 : Nat) (hf : flightOf s j.f.uid = some f) (hs : f.stop = none) :
    (∃ g, flightOf (spillFull s j l2) j.f.uid = some g ∧ g.stop
        = some { status := stFaulted, reason := fSpillFull, l2Tile := l2, element := (s.cluster j.k).unit.spillCount })
      ∧ ((spillFull s j l2).cluster j.k).owner ≠ some j.f.uid := by
  unfold spillFull
  dsimp only
  constructor
  · refine trapMember_stops _ ?_ hs
    rwa [(spillHeader_memOnly _ _ _ _ _ _).flightOf]
  · exact dropMember_owner _ _ _

/-- With room for every resident entry, the drain ends with an empty hash accumulator and has changed no tenant. -/
theorem drainHash_of_room {s : State} {j : Job}
    (hroom : (s.cluster j.k).unit.spillCount + (hashRecords (s.cluster j.k).unit).length ≤ j.region.spillCapacity) :
    ((drainHash s j).cluster j.k).unit.hash = [] ∧ (drainHash s j).tenants = s.tenants := by
  have hfit : (hashRecords (s.cluster j.k).unit).take (j.region.spillCapacity - (s.cluster j.k).unit.spillCount)
      = hashRecords (s.cluster j.k).unit := List.take_of_length_le (by omega)
  unfold drainHash
  dsimp only
  rw [hfit, if_neg (Nat.lt_irrefl _)]
  constructor
  · rw [State.cluster_modCluster_same]
  · rw [State.modCluster_tenants, (spillHeader_memOnly _ _ _ _ _ _).tenants, State.modCluster_tenants]
    refine MemOnly.tenants (foldl_memOnly _ (fun _ _ => ?_) _ s)
    exact putRecord_memOnly _ _ _ _ _

theorem execHashDrain_of_end {k : Nat} {j : Job} {s : State} (howner : ownerJob s k = some j) (hhash : cTarget j.c = 1)
    (hhold : cHold j.c = false) (hdrain : (s.cluster k).drainDone = false) (hqueue : (s.cluster k).unit.spillQueue = [])
    (hend : (s.cluster k).slots.any (fun sl => sl.uid = j.f.uid && sl.finished) = true) (htrap : trapped j (s.cluster k).unit = false) :
    execHashDrain k s = .next (finishMember (drainHash s j) k) := by
  unfold execHashDrain
  simp only [howner, hhash, hhold, hdrain, hqueue, hend, htrap]
  rfl

/-- Settles O33: each kind of update is one equation of the hash accumulator; records and the drain write memory alone. -/
theorem hashUpdatesAndSpills : Obligations.HashUpdatesAndSpills := by
  unfold Obligations.HashUpdatesAndSpills
  refine ⟨?_, ?_⟩
  · intro k j r t key v rest s hrun htile hhash howner htotals hroom
    dsimp only
    rw [← hashSet_eq]
    refine ⟨_, execHashUpdate_of_total hrun htile hhash howner htotals hroom, rfl, rfl, fun q hq => s.cluster_setCluster_other _ _ _ hq,
      ⟨_, by rw [State.cluster_setCluster_same], rfl⟩, ?_, ?_, ?_⟩
    · intro w hw hvalid hkey hlow
      rw [State.cluster_setCluster_same]
      dsimp only
      rw [hashApply_hit v hw ⟨hvalid, hkey⟩ hlow]
      dsimp only
      exact ⟨tget_tset_same _ _ _ _, fun i hi => tget_tset_other _ _ _ _ _ hi, rfl⟩
    · intro w hw hmiss hfree hlow
      rw [State.cluster_setCluster_same]
      dsimp only
      rw [hashApply_free v hw hmiss hfree hlow]
      dsimp only
      exact ⟨tget_tset_same _ _ _ _, fun i hi => tget_tset_other _ _ _ _ _ hi, rfl⟩
    · intro hfull
      rw [State.cluster_setCluster_same]
      dsimp only
      rw [hashApply_evict v (fun x hx h => (hfull x hx).2 h.2) (fun x hx => (hfull x hx).1)]
      dsimp only
      exact ⟨tget_tset_same _ _ _ _, fun i hi => tget_tset_other _ _ _ _ _ hi, rfl, tget_tset_same _ _ _ _⟩
  · intro k j s howner
    have hk : j.k = k := ownerJob_k howner
    refine ⟨?_, ?_, ?_⟩
    · intro e rest hqueue hroom
      have hput := putRecord_memOnly s j.region k (s.cluster k).unit.spillCount e
      refine ⟨_, execSpillRecordWrite_of_room howner hqueue hroom, rfl, ?_, hput.work, fun q hq => ?_⟩
      · rw [State.cluster_modCluster_same, hput.cluster]
      · rw [State.cluster_modCluster_other _ _ _ _ hq, hput.cluster]
    · intro e rest f hqueue hfull hf hs
      obtain ⟨⟨g, hg, hstop⟩, hdropped⟩ := spillFull_stops (tileNow (s.cluster k) j) hf hs
      rw [hk] at hstop hdropped
      exact ⟨_, g, _, execSpillRecordWrite_of_full howner hqueue hfull, hg, hstop, rfl, rfl, rfl, hdropped⟩
    · intro hhash hhold hdrain hqueue hend htrap hroom
      rw [← hk] at hroom
      obtain ⟨hempty, htenants⟩ := drainHash_of_room hroom
      rw [hk] at hempty
      refine ⟨_, execHashDrain_of_end howner hhash hhold hdrain hqueue hend htrap, ?_, finishMember_mem _ _,
        (finishMember_tenants _ _).trans htenants⟩
      obtain hunit | ⟨hunit, -⟩ := finishMember_unit (drainHash s j) k
      · rw [hunit]; exact hempty
      · rw [hunit]

/-! ## Rank lists (R200, R203) -/

/-- Candidate a comes before candidate b: value descending, position ascending. -/
theorem ranksAbove_iff (a b : Int × Nat) : ranksAbove a b = true ↔ b.1 < a.1 ∨ (a.1 = b.1 ∧ a.2 ≤ b.2) := by simp [ranksAbove]

/-- Every candidate of a list is in its order. -/
def InRankOrder (l : List (Int × Nat)) : Prop := l.Pairwise (fun a b => b.1 < a.1 ∨ (a.1 = b.1 ∧ a.2 ≤ b.2))

theorem insertRank_perm (x : Int × Nat) (l : List (Int × Nat)) : (insertRank x l).Perm (x :: l) := by
  induction l with
  | nil => exact .refl _
  | cons y rest ih =>
    unfold insertRank
    split
    · exact (ih.cons y).trans (.swap x y rest)
    · exact .refl _

theorem insertRank_inRankOrder (x : Int × Nat) (l : List (Int × Nat)) (h : InRankOrder l) : InRankOrder (insertRank x l) := by
  induction l with
  | nil => exact List.pairwise_singleton _ _
  | cons y rest ih =>
    obtain ⟨hy, hrest⟩ := List.pairwise_cons.mp h
    unfold insertRank
    split
    · next hyx =>
      refine List.pairwise_cons.mpr ⟨fun z hz => ?_, ih hrest⟩
      rcases List.mem_cons.mp ((insertRank_perm x rest).mem_iff.mp hz) with rfl | hz
      · exact (ranksAbove_iff _ _).mp hyx
      · exact hy z hz
    · next hyx =>
      rw [ranksAbove_iff] at hyx
      refine List.pairwise_cons.mpr ⟨fun z hz => ?_, h⟩
      rcases List.mem_cons.mp hz with rfl | hz
      · omega
      · have := hy z hz
        omega

/-- What a group's list would be without the bound k. -/
def rankAll (l cs : List (Int × Nat)) : List (Int × Nat) :=
  cs.foldl (fun l c => if c.2 = 0xFFFFFFFF then l else insertRank c l) l

theorem mergeRanks_eq (k : Nat) (l cs : List (Int × Nat)) : mergeRanks k l cs = (rankAll l cs).take k := rfl

theorem rankAll_inRankOrder (l cs : List (Int × Nat)) (h : InRankOrder l) : InRankOrder (rankAll l cs) := by
  unfold rankAll
  induction cs generalizing l with
  | nil => exact h
  | cons c cs ih =>
    rw [List.foldl_cons]
    split
    · exact ih l h
    · exact ih _ (insertRank_inRankOrder c l h)

theorem rankAll_perm (l cs : List (Int × Nat)) (h : ∀ c ∈ cs, c.2 ≠ 0xFFFFFFFF) : (rankAll l cs).Perm (cs ++ l) := by
  unfold rankAll
  induction cs generalizing l with
  | nil => exact .refl _
  | cons c cs ih =>
    obtain ⟨hc, hcs⟩ := List.forall_mem_cons.mp h
    rw [List.foldl_cons, if_neg hc]
    exact (ih _ hcs).trans (((insertRank_perm c l).append_left cs).trans List.perm_middle)

theorem rankListBytes_nil (k : Nat) : rankListBytes k [] = (List.replicate k emptyPair).flatten := by
  simp [rankListBytes, List.flatMap_def, List.map_const']

theorem rankListBytes_cons (k : Nat) (c : Int × Nat) (l : List (Int × Nat)) :
    rankListBytes (k + 1) (c :: l) = pairBytes c.1 c.2 ++ rankListBytes k l := by
  simp [rankListBytes, List.range_succ_eq_map, List.flatMap_map]

/-- A list of fewer than k candidates is followed by empty entries (R203). -/
theorem rankListBytes_of_le (k : Nat) (l : List (Int × Nat)) (h : l.length ≤ k) :
    rankListBytes k l = l.flatMap (fun c => pairBytes c.1 c.2) ++ (List.replicate (k - l.length) emptyPair).flatten := by
  induction l generalizing k with
  | nil => exact rankListBytes_nil k
  | cons c l ih =>
    obtain ⟨k, rfl⟩ : ∃ n, k = n + 1 := Nat.exists_eq_succ_of_ne_zero (by simp at h; omega)
    rw [rankListBytes_cons, ih k (by simpa using h)]
    simp

/-! ## The rank unit (R201 to R203) -/

theorem execRankAccept_of_ready {k : Nat} {j : Job} {r : TileRun} {t : Tile} {s : State} (hrun : currentRun s k = some (j, r))
    (htile : tileAt j r.l2 r.l1 = some t) (hrank : cDecision j.c = 3) (hready : vectorReady j (s.cluster k) r = true)
    (htrap : trapped j (s.cluster k).unit = false) :
    execRankAccept k s = .next (s.setCluster k { s.cluster k with
      rankPending := (s.cluster k).rankPending ++ [vectorCandidates j (s.cluster k) t r r.drained]
      unit := { (s.cluster k).unit with acc := (s.cluster k).unit.acc.filter (fun e => e.1 / 128 ≠ r.drained) }
      run := some { r with drained := r.drained + 1 } }) := by
  unfold execRankAccept
  simp [hrun, htile, hrank, hready, htrap]

theorem execRankFloorUpdate_of_pending {k : Nat} {b : List (Nat × Int × Nat)} {rest : List (List (Nat × Int × Nat))} {s : State}
    (hpending : (s.cluster k).rankPending = b :: rest) :
    execRankFloorUpdate k s = .next (s.setCluster k { s.cluster k with
      rankPending := rest
      unit := { (s.cluster k).unit with ranks := b.foldl (rankOne (s.cluster k).unit.rankK) (s.cluster k).unit.ranks } }) := by
  unfold execRankFloorUpdate
  simp only [hpending]

theorem execRankGroupClose_of_full {k : Nat} {j : Job} {g : RankGroup} {s : State} (howner : ownerJob s k = some j)
    (hgroup : (s.cluster k).unit.ranks.find? (groupFull j) = some g) (hrank : cDecision j.c = 3) :
    execRankGroupClose k s = .next (finishMember ((deliver s j (tileNow (s.cluster k) j)
        (rankWrites s j (s.cluster k).unit.rankK (groupIdx j g.key) g.list)).modCluster k
      (fun c => { c with unit := { c.unit with ranks := c.unit.ranks.erase g } })) k) := by
  unfold execRankGroupClose
  simp [howner, hgroup, hrank]

/-- The list that the rank unit keeps of any candidates is the first k of them in order. -/
theorem mergeRanks_first (k : Nat) (cs : List (Int × Nat)) (h : ∀ c ∈ cs, c.2 ≠ 0xFFFFFFFF) :
    InRankOrder (mergeRanks k [] cs) ∧ (mergeRanks k [] cs).length = min k cs.length
      ∧ ∃ out, (mergeRanks k [] cs ++ out).Perm cs
        ∧ ∀ a ∈ mergeRanks k [] cs, ∀ b ∈ out, b.1 < a.1 ∨ (a.1 = b.1 ∧ a.2 ≤ b.2) := by
  have hperm : (rankAll [] cs).Perm cs := by simpa using rankAll_perm [] cs h
  have hsplit := List.take_append_drop k (rankAll [] cs)
  have horder : InRankOrder ((rankAll [] cs).take k ++ (rankAll [] cs).drop k) := by
    rw [hsplit]
    exact rankAll_inRankOrder [] cs List.Pairwise.nil
  obtain ⟨hkept, -, hacross⟩ := List.pairwise_append.mp horder
  rw [mergeRanks_eq]
  exact ⟨hkept, by rw [List.length_take, hperm.length_eq], (rankAll [] cs).drop k, by rw [hsplit]; exact hperm, hacross⟩

/-- Settles O34: the kept list is the first k of all candidates put in order, and each command of the rank unit is one equation. -/
theorem rankListsAndUnit : Obligations.RankListsAndUnit := by
  unfold Obligations.RankListsAndUnit
  refine ⟨⟨mergeRanks_first, rankListBytes_of_le⟩, ?_, ?_, ?_⟩
  · intro k j r t s hrun htile hrank hready htrap
    refine ⟨_, _, execRankAccept_of_ready hrun htile hrank hready htrap, by rw [State.cluster_setCluster_same], rfl, ?_, fun key => ?_,
      rfl, rfl, fun q hq => s.cluster_setCluster_other _ _ _ hq⟩
    · rw [State.cluster_setCluster_same]
    · rw [State.cluster_setCluster_same]
      dsimp only
      rw [tget_filter 0 (fun i => i / 128 ≠ r.drained)]
      by_cases hkey : key / 128 = r.drained
      · simp [hkey]
      · simp [hkey]
  · intro k b rest s hpending
    refine ⟨_, execRankFloorUpdate_of_pending hpending, ?_, ?_, ?_, rfl, rfl, fun q hq => s.cluster_setCluster_other _ _ _ hq⟩
    · rw [State.cluster_setCluster_same]
    · rw [State.cluster_setCluster_same]
    · rw [State.cluster_setCluster_same]
  · intro k j g s howner hgroup hrank
    refine ⟨_, execRankGroupClose_of_full howner hgroup hrank, ?_, by rw [finishMember_mem, State.modCluster_mem],
      by rw [finishMember_tenants, State.modCluster_tenants, deliver_tenants]⟩
    rw [finishMember_ranks, State.cluster_modCluster_same]
    dsimp only
    rw [deliver_unit]

end Sys2Proof.Machine

/-!
The rules that proofs about mailboxes and notices (08) rest on: two writes of one tenant are one, a notice that can be written goes into
the slot at TAIL and nowhere else (R369, R370), and a message that starts and is answered leaves exactly that (R357, R361); then the
obligations on the POST window, on CLAUSE and bad messages, on RING_SETUP and on held notices.
-/

namespace Sys2Proof.Machine

/-! ## Two writes of one key, and of one tenant -/

theorem filter_tins {α : Type} (k : Nat) (v : α) (m : Tab α) : (tins k v m).filter (fun e => e.1 ≠ k) = m.filter (fun e => e.1 ≠ k) := by
  induction m with
  | nil => simp [tins]
  | cons e rest ih =>
    simp only [tins]
    split
    · rw [List.filter_cons_of_neg (by simp)]
    · simp only [List.filter_cons, ih]

/-- The second write of a key makes the first one vain. -/
theorem tset_tset {α : Type} [DecidableEq α] (d v w : α) (k : Nat) (m : Tab α) : tset d (tset d m k v) k w = tset d m k w := by
  have hfilter : (tset d m k v).filter (fun e => e.1 ≠ k) = m.filter (fun e => e.1 ≠ k) := by
    unfold tset
    split
    · rw [List.filter_filter]; simp
    · rw [filter_tins, List.filter_filter]; simp
  have hset : ∀ m' : Tab α, tset d m' k w = if w = d then m'.filter (fun e => e.1 ≠ k) else tins k w (m'.filter (fun e => e.1 ≠ k)) :=
    fun _ => rfl
  rw [hset, hset, hfilter]

theorem Mirror.write_write (m : Mirror) (standby : Bool) (t : Nat) (x y : Tenant) :
    (m.write standby t x).write standby t y = m.write standby t y := by
  unfold Mirror.write
  split
  · rw [tset_tset]
  · rfl

/-- The second write of a tenant makes the first one vain. -/
@[simp] theorem State.setTenant_setTenant (s : State) (t : Nat) (x y : Tenant) : (s.setTenant t x).setTenant t y = s.setTenant t y := by
  unfold State.setTenant
  rw [tset_tset, Mirror.write_write]

@[simp] theorem State.modTenant_setTenant (s : State) (t : Nat) (x : Tenant) (f : Tenant → Tenant) :
    (s.setTenant t x).modTenant t f = s.setTenant t (f x) := by
  rw [State.modTenant, State.tenant_setTenant_same, State.setTenant_setTenant]

@[simp] theorem State.tenant_modTenant_same (s : State) (t : Nat) (f : Tenant → Tenant) : (s.modTenant t f).tenant t = f (s.tenant t) :=
  s.tenant_setTenant_same _ _

@[simp] theorem State.port_setTenant (s : State) (t : Nat) (x : Tenant) (p : Nat) : (s.setTenant t x).port p = s.port p := (rfl)
@[simp] theorem rimTaken_setTenant (s : State) (t : Nat) (x : Tenant) (p : Nat) : rimTaken (s.setTenant t x) p = rimTaken s p := (rfl)

theorem otherTenants_setTenant (s : State) (t : Nat) (x : Tenant) : OtherTenants s (s.setTenant t x) t :=
  fun u hu => s.tenant_setTenant_other t u x hu

theorem sameBeyondTenants_setTenant (s : State) (t : Nat) (x : Tenant) : SameBeyondTenants s (s.setTenant t x) :=
  ⟨rfl, rfl, rfl, rfl, rfl, rfl, rfl, rfl, rfl, rfl, rfl, rfl, rfl, rfl⟩

/-! ## Writing a notice (R369, R370) -/

/-- What the slot at TAIL depends on: the port, the base, TAIL and its phase. -/
def ringPlace (x : Tenant) : Nat × DWord × Nat × Bool := (x.hostPort, x.noticeBase, x.tail, x.tailPhase)

/-- What a notice needs of its tenant: its place, whether it can be written, and what is held before it. -/
def noticeState (x : Tenant) : (Nat × DWord × Nat × Bool) × Bool × Bool × Nat × List (List Byte) × Bool :=
  (ringPlace x, x.ringSet, x.bound, x.ringUsed, x.heldNotices, x.lostOwed)

/-- A notice as it is written in the slot at TAIL, the tenant as it was. -/
def writeSlot (s : State) (t : Nat) (body : List Byte) : State :=
  hostWrite s (s.tenant t).hostPort ((s.tenant t).noticeBase.toNat + 32 * (s.tenant t).tail) (slotBytes s t body)

/-- A tenant of whose ring one more entry is in use. -/
def tailMoved (x : Tenant) : Tenant :=
  { x with
    tail := (x.tail + 1) % 4096
    tailPhase := if x.tail = 4095 then !x.tailPhase else x.tailPhase
    ringUsed := x.ringUsed + 1 }

theorem writeNotice_eq (s : State) (t : Nat) (body : List Byte) :
    writeNotice s t body = (writeSlot s t body).setTenant t (tailMoved (s.tenant t)) := rfl

theorem hostWrite_setTenant (s : State) (t : Nat) (x : Tenant) (p a : Nat) (bs : List Byte) :
    hostWrite (s.setTenant t x) p a bs = (hostWrite s p a bs).setTenant t x := by
  unfold hostWrite
  rw [rimTaken_setTenant]
  split
  · rfl
  · rfl

/-- The slot at TAIL does not depend on what else of the tenant has changed. -/
theorem writeSlot_setTenant (s : State) (t : Nat) (x : Tenant) (body : List Byte) (hx : ringPlace x = ringPlace (s.tenant t)) :
    writeSlot (s.setTenant t x) t body = (writeSlot s t body).setTenant t x := by
  obtain ⟨hport, hbase, htail, hphase⟩ := by simpa only [ringPlace, Prod.mk.injEq] using hx
  unfold writeSlot slotBytes
  rw [State.tenant_setTenant_same, hostWrite_setTenant, hport, hbase, htail, hphase]

theorem writeNotice_setTenant (s : State) (t : Nat) (x : Tenant) (body : List Byte) (hx : ringPlace x = ringPlace (s.tenant t)) :
    writeNotice (s.setTenant t x) t body = (writeSlot s t body).setTenant t (tailMoved x) := by
  rw [writeNotice_eq, writeSlot_setTenant s t x body hx, State.tenant_setTenant_same, State.setTenant_setTenant]

theorem writeSlot_mem_of_not_taken {s : State} {t : Nat} (body : List Byte) (h : rimTaken s (s.tenant t).hostPort = false) :
    (writeSlot s t body).mem = { s.mem with host := writeBytes 0 s.mem.host (tailKey s t) (slotBytes s t body) } := by
  simp [writeSlot, hostWrite, h, tailKey]

/-- A notice of at most 32 bytes fills its slot. -/
theorem slotBytes_length (s : State) (t : Nat) {body : List Byte} (h : body.length ≤ 32) : (slotBytes s t body).length = 32 := by
  simp [slotBytes, padTo, zeros]
  omega

@[simp] theorem leBytes_length (n v : Nat) : (leBytes n v).length = n := by
  induction n generalizing v with
  | zero => rfl
  | succ n ih => simp [leBytes, ih]

@[simp] theorem replyNotice_length (seq status type reason index result cookie : Nat) :
    (replyNotice seq status type reason index result cookie).length = 32 := by
  simp [replyNotice, zeros]

@[simp] theorem messageNotice_length (seq kind type expected : Nat) : (messageNotice seq kind type expected).length = 32 := by
  simp [messageNotice, padTo, zeros]

@[simp] theorem readBytes_length (d : Byte) (m : List Host.Cell) (a n : Nat) : (readBytes d m a n).length = n := by
  induction n generalizing a with
  | zero => rfl
  | succ n ih => simp [readBytes, ih]

theorem readBytes_eq_of_tget {d : Byte} {m : List Host.Cell} (bs : List Byte) (a : Nat)
    (h : ∀ i, (hi : i < bs.length) → tget d m (a + i) = bs[i]) : readBytes d m a bs.length = bs := by
  induction bs generalizing a with
  | nil => rfl
  | cons b rest ih =>
    have hhead : tget d m a = b := h 0 (by simp)
    have htail : ∀ i, (hi : i < rest.length) → tget d m (a + 1 + i) = rest[i] := by
      intro i hi
      have := h (i + 1) (by simpa using hi)
      rwa [show a + (i + 1) = a + 1 + i by omega] at this
    rw [List.length_cons, readBytes, hhead, ih (a + 1) htail]

/-- What was written is read back. -/
theorem readBytes_writeBytes (d : Byte) (m : List Host.Cell) (a : Nat) (bs : List Byte) :
    readBytes d (writeBytes d m a bs) a bs.length = bs :=
  readBytes_eq_of_tget bs a (fun i hi => tget_writeBytes_inside d bs m a i hi)

section Slot

variable {s : State} {t : Nat} {body : List Byte} {x : Tenant}

/-- A notice in the slot, with TAIL moved on, is posted. -/
theorem notified_writeSlot (hrim : rimTaken s (s.tenant t).hostPort = false) (hlen : body.length ≤ 32)
    (htail : x.tail = ((s.tenant t).tail + 1) % 4096)
    (hphase : x.tailPhase = if (s.tenant t).tail = 4095 then !(s.tenant t).tailPhase else (s.tenant t).tailPhase) :
    Notified s ((writeSlot s t body).setTenant t x) t body := by
  refine ⟨?_, ?_, ?_⟩
  · rw [State.setTenant_mem, writeSlot_mem_of_not_taken body hrim, ← slotBytes_length s t hlen]
    exact readBytes_writeBytes _ _ _ _
  · rw [State.tenant_setTenant_same, htail]
  · rw [State.tenant_setTenant_same, hphase]

theorem hostOnlySlot_writeSlot (hrim : rimTaken s (s.tenant t).hostPort = false) (hlen : body.length ≤ 32) :
    HostOnlySlot s ((writeSlot s t body).setTenant t x) t := by
  intro a ha
  rw [State.setTenant_mem, writeSlot_mem_of_not_taken body hrim]
  exact tget_writeBytes_other _ _ _ _ _ (by rwa [slotBytes_length s t hlen])

/-- Nothing but host memory changes when a slot is written. -/
theorem writeSlot_hostOnly (s : State) (t : Nat) (body : List Byte) :
    ∃ h, writeSlot s t body = { s with mem := { s.mem with host := h } } := by
  unfold writeSlot hostWrite
  split
  · exact ⟨s.mem.host, rfl⟩
  · exact ⟨_, rfl⟩

theorem otherTenants_writeSlot : OtherTenants s ((writeSlot s t body).setTenant t x) t := by
  obtain ⟨h, heq⟩ := writeSlot_hostOnly s t body
  rw [heq]
  exact otherTenants_setTenant _ t x

theorem sameBeyondTenants_writeSlot : SameBeyondTenants s ((writeSlot s t body).setTenant t x) := by
  obtain ⟨h, heq⟩ := writeSlot_hostOnly s t body
  rw [heq]
  exact sameBeyondTenants_setTenant _ t x

theorem sameOwnMemory_writeSlot : SameOwnMemory s ((writeSlot s t body).setTenant t x) := by
  obtain ⟨h, heq⟩ := writeSlot_hostOnly s t body
  rw [heq]
  exact ⟨rfl, rfl, rfl, rfl, rfl⟩

end Slot

/-! ## Posting a notice (R372) -/

theorem noticeRoom_setTenant {s : State} {t : Nat} {x : Tenant} (hx : noticeState x = noticeState (s.tenant t)) :
    noticeRoom (s.setTenant t x) t = noticeRoom s t := by
  obtain ⟨⟨hport, -, -, -⟩, hset, hbound, hused, -, -⟩ := by simpa only [noticeState, ringPlace, Prod.mk.injEq] using hx
  simp only [noticeRoom, State.tenant_setTenant_same, State.port_setTenant, hset, hbound, hport, hused]

/-- A notice that can be written is written. -/
theorem postNotice_of_canNotify {s : State} {t : Nat} {x : Tenant} (body : List Byte) (h : CanNotify s t)
    (hx : noticeState x = noticeState (s.tenant t)) :
    postNotice (s.setTenant t x) t body = (writeSlot s t body).setTenant t (tailMoved x) := by
  obtain ⟨hroom, hheld, hlost, -⟩ := h
  obtain ⟨hplace, -, -, -, hheldx, hlostx⟩ := by simpa only [noticeState, Prod.mk.injEq] using hx
  have hwrite : postNotice (s.setTenant t x) t body = writeNotice (s.setTenant t x) t body := by
    unfold postNotice
    simp [noticeRoom_setTenant hx, hroom, hheldx, hheld, hlostx, hlost]
  rw [hwrite, writeNotice_setTenant s t x body hplace]

/-- A notice without room is held behind at most 63 others. -/
theorem postNotice_of_room_to_hold {s : State} {t : Nat} (body : List Byte) (hroom : noticeRoom s t = false)
    (hlen : (s.tenant t).heldNotices.length < 64) :
    postNotice s t body = s.setTenant t { s.tenant t with heldNotices := (s.tenant t).heldNotices ++ [body] } := by
  simp [postNotice, hroom, hlen]

/-- A notice without room behind 64 others is lost. -/
theorem postNotice_of_full {s : State} {t : Nat} (body : List Byte) (hroom : noticeRoom s t = false)
    (hlen : 64 ≤ (s.tenant t).heldNotices.length) :
    postNotice s t body = s.setTenant t { s.tenant t with
      lostCount := satInc 0xFFFF (s.tenant t).lostCount, noticeLost := true, lostOwed := true } := by
  simp [postNotice, hroom, Nat.not_lt.mpr hlen]

/-! ## Starting a message (R354, R357) -/

/-- A tenant whose head message has been accepted. -/
def acceptedTenant (x : Tenant) (m : List Word) : Tenant :=
  { x with copied := x.copied.drop 1, expected := BitVec.ofNat 16 (mSeq m + 1), gap := false }

/-- A tenant whose head message has been accepted and started. -/
def startedTenant (x : Tenant) (m : List Word) : Tenant :=
  { acceptedTenant x m with unanswered := x.unanswered ++ [(mSeq m, mType m)] }

theorem acceptHead_eq (s : State) (t : Nat) (m : List Word) : acceptHead s t m = s.setTenant t (acceptedTenant (s.tenant t) m) := rfl

theorem noticeState_startedTenant (x : Tenant) (m : List Word) : noticeState (startedTenant x m) = noticeState x := rfl

theorem settleAll_of_none_copied {s : State} {t : Nat} (h : (s.tenant t).copied = []) : settleAll s t = s := by
  unfold settleAll settle
  simp [h]

theorem headOf_of_atHead {s : State} {t : Nat} {m : List Word} {type : Nat} (h : AtHead s t m type) : headOf s t type = some m := by
  obtain ⟨⟨hready, hcopied, hacc⟩, hgood, htype⟩ := h
  simp [headOf, hcopied, hready, hacc, hgood, htype]

/-- The head message is started, and its effect is all that happens when no message waits behind it. -/
theorem onMessage_of_atHead {s r : State} {t : Nat} {m : List Word} {type : Nat} {x : Tenant} {f : State → List Word → State}
    (h : AtHead s t m type) (heffect : f (s.setTenant t (startedTenant (s.tenant t) m)) m = r.setTenant t x) (hcopied : x.copied = []) :
    onMessage s t type f = .next (r.setTenant t x) := by
  have hstart : noteStarted (acceptHead s t m) t m = s.setTenant t (startedTenant (s.tenant t) m) := by
    rw [noteStarted, acceptHead_eq, State.modTenant_setTenant]; rfl
  have hsettled : settleAll (r.setTenant t x) t = r.setTenant t x :=
    settleAll_of_none_copied (by rw [State.tenant_setTenant_same, hcopied])
  simp only [onMessage, headOf_of_atHead h, hstart, heffect, hsettled]

theorem consumed_setTenant {s : State} {t : Nat} {m : List Word} {x : Tenant} (hcopied : x.copied = [])
    (hexpected : x.expected = BitVec.ofNat 16 (mSeq m + 1)) (hgap : x.gap = false) : Consumed (s.setTenant t x) t m := by
  unfold Consumed
  rw [State.tenant_setTenant_same]
  exact ⟨hcopied, hexpected, hgap⟩

theorem copied_startedTenant {x : Tenant} {m : List Word} (h : x.copied = [m]) : (startedTenant x m).copied = [] := by
  simp [startedTenant, acceptedTenant, h]

theorem AtHead.copied {s : State} {t : Nat} {m : List Word} {type : Nat} (h : AtHead s t m type) : (s.tenant t).copied = [m] := h.1.2.1

/-! ## Answering a message (R361, R374) -/

/-- A tenant that has been answered: the message is taken off the unanswered ones. -/
def answeredTenant (x : Tenant) (seq type : Nat) : Tenant := { x with unanswered := x.unanswered.erase (seq, type) }

theorem answered_setTenant (s : State) (t : Nat) (x : Tenant) (seq type : Nat) :
    answered (s.setTenant t x) t seq type = s.setTenant t (answeredTenant x seq type) := State.modTenant_setTenant _ _ _ _

/-- A message whose effect is a REPLY that can be written leaves that REPLY and its consumption, and nothing else. -/
theorem onMessage_replies {s : State} {t : Nat} {m : List Word} {type status reason index result cookie : Nat}
    {f : State → List Word → State} (h : AtHead s t m type) (hnotify : CanNotify s t)
    (hf : ∀ s1, s1 = s.setTenant t (startedTenant (s.tenant t) m) → f s1 m = reply s1 t (mSeq m) type status reason index result cookie) :
    ∃ s', onMessage s t type f = .next s' ∧ Consumed s' t m ∧ Notified s s' t (replyNotice (mSeq m) status type reason index result cookie)
      ∧ HostOnlySlot s s' t ∧ OtherTenants s s' t ∧ SameBeyondTenants s s' ∧ SameOwnMemory s s' := by
  have hstarted := copied_startedTenant h.copied
  obtain ⟨-, -, -, hrim⟩ := id hnotify
  have hlen := (replyNotice_length (mSeq m) status type reason index result cookie).le
  have hreply := hf _ rfl
  rw [reply, postNotice_of_canNotify _ hnotify (noticeState_startedTenant _ _), answered_setTenant] at hreply
  exact ⟨_, onMessage_of_atHead h hreply hstarted, consumed_setTenant hstarted rfl rfl, notified_writeSlot hrim hlen rfl rfl,
    hostOnlySlot_writeSlot hrim hlen, otherTenants_writeSlot, sameBeyondTenants_writeSlot, sameOwnMemory_writeSlot⟩

/-! ## The POST window and the registers of a page (R345 to R351, R504) -/

/-- A poisoned write is logged at its port, whose link and the rest of the state stay. -/
theorem logPoison_ports (s : State) (p : Nat) (ep : Bool) :
    ∃ ps, logPoison s p ep = { s with ports := ps } ∧ ∀ q, (logPoison s p ep).port q = s.port q
      ∨ (logPoison s p ep).port q = { s.port q with aerPoisoned := true } := by
  unfold logPoison
  split
  · refine ⟨_, rfl, fun q => ?_⟩
    by_cases hq : q = p
    · rw [hq]; exact .inr (s.port_setPort_same _ _)
    · exact .inl (s.port_setPort_other _ _ _ hq)
  · exact ⟨s.ports, rfl, fun q => .inl rfl⟩

theorem logPoison_tenants (s : State) (p : Nat) (ep : Bool) : (logPoison s p ep).tenants = s.tenants := by
  obtain ⟨ps, heq, -⟩ := logPoison_ports s p ep
  rw [heq]

theorem logPoison_linkUp (s : State) (p : Nat) (ep : Bool) (q : Nat) : ((logPoison s p ep).port q).linkUp = (s.port q).linkUp := by
  obtain ⟨-, -, hport⟩ := logPoison_ports s p ep
  obtain hq | hq := hport q
  · rw [hq]
  · rw [hq]

@[simp] theorem pageLive_logPoison (s : State) (p : Nat) (ep : Bool) (q t : Nat) : pageLive (logPoison s p ep) q t = pageLive s q t := by
  obtain ⟨ps, heq, -⟩ := logPoison_ports s p ep
  have htenant : (logPoison s p ep).tenant t = s.tenant t := by rw [heq]; rfl
  have hsys : (logPoison s p ep).sys = s.sys := by rw [heq]
  have hlowest : lowestUp (logPoison s p ep) = lowestUp s := by simp only [lowestUp, logPoison_linkUp]
  rw [pageLive, pageLive, logPoison_linkUp, htenant, hsys, hlowest]

theorem linkUp_of_pageLive {s : State} {p t : Nat} (h : pageLive s p t = true) : (s.port p).linkUp = true := by
  simp only [pageLive, Bool.and_eq_true] at h
  exact h.1.1

/-- In state READY a page is live for an enabled tenant on the port it is bound to only (R504). -/
theorem pageLive_of_not_reached {s : State} {p t : Nat} (hready : s.sys.state = 1)
    (h : (s.tenant t).enabled = false ∨ (s.tenant t).bound = false ∨ (s.tenant t).hostPort ≠ p) : pageLive s p t = false := by
  obtain h | h | h := h
  · simp [pageLive, h]
  · simp [pageLive, hready, h]
  · simp [pageLive, hready, h]

theorem execPostWrite_of_live {s : State} {p t off : Nat} (ep : Bool) (data : List Byte) (hlive : pageLive s p t = true) (hoff : off < 0x1000) :
    execPostWrite p t off ep data s = .next ((logPoison s p ep).modTenant t (fun x => postTenant x off ep data)) := by
  simp [execPostWrite, linkUp_of_pageLive hlive, hoff, hlive]

theorem execPostWrite_of_dead {s : State} {p t : Nat} (off : Nat) (ep : Bool) (data : List Byte) (hdead : pageLive s p t = false) :
    ∃ s', execPostWrite p t off ep data s = .next s' ∧ s'.tenants = s.tenants := by
  unfold execPostWrite
  split
  · simp only [pageLive_logPoison, hdead]
    exact ⟨_, rfl, logPoison_tenants s p ep⟩
  · exact ⟨_, rfl, rfl⟩

theorem hostRegWrite_of_dead {s : State} {p t off : Nat} (v : Nat) (ep : Bool) (hoff : off < 0x100000) (hpage : off / 0x10000 = t)
    (hdead : pageLive s p t = false) : ∃ s', hostRegWrite s p off v ep = .next s' ∧ s'.tenants = s.tenants := by
  have hwrite : writeReg s p off v = s := by simp [writeReg, hoff, hpage, hdead]
  unfold hostRegWrite
  split
  · exact ⟨_, rfl, rfl⟩
  · split
    · exact ⟨_, rfl, logPoison_tenants s p true⟩
    · exact ⟨_, rfl, by rw [hwrite]⟩

theorem apertureRead_of_dead {s : State} {p a : Nat} (hdead : pageLive s p (a / 2 ^ 32) = false) : apertureRead s p a = 0 := by
  have hbyte : apertureByte s p a = none := by
    simp only [apertureByte, hdead, Bool.false_and, Bool.false_eq_true, if_false]
  rw [apertureRead, hbyte]

theorem isMessage_iff (off : Nat) (ep : Bool) (data : List Byte) :
    isMessage off ep data = true ↔ data.length = 64 ∧ off % 64 = 0 ∧ ep = false := by
  simp [isMessage, and_assoc]

/-- A message is appended where fewer than 64 wait (R348). -/
theorem postTenant_of_room {x : Tenant} {off : Nat} {ep : Bool} {data : List Byte} (hmsg : isMessage off ep data = true)
    (hroom : x.requestRing.length < 64) : postTenant x off ep data = { x with requestRing := x.requestRing ++ [data] } := by
  simp [postTenant, hmsg, Nat.not_le.mpr hroom]

/-- A message without room is dropped with OVERRUN (R350). -/
theorem postTenant_of_full {x : Tenant} {off : Nat} {ep : Bool} {data : List Byte} (hmsg : isMessage off ep data = true)
    (hfull : 64 ≤ x.requestRing.length) :
    postTenant x off ep data = { x with dropCount := min 0xFFFF (x.dropCount + 1), overrun := true } := by
  simp [postTenant, hmsg, hfull, dropPost, satInc]

/-- Any other write is dropped with MALFORMED (R349). -/
theorem postTenant_of_malformed {x : Tenant} {off : Nat} {ep : Bool} {data : List Byte} (hmsg : isMessage off ep data = false) :
    postTenant x off ep data = { x with dropCount := min 0xFFFF (x.dropCount + 1), malformed := true } := by
  simp [postTenant, hmsg, dropPost, satInc]

/-- Settles O5: on a live page the write does to the tenant what postTenant says, case by case; a dead page is reached by no write and
no aperture access. -/
theorem postWriteAppendsOrDrops : Obligations.PostWriteAppendsOrDrops := by
  unfold Obligations.PostWriteAppendsOrDrops
  refine ⟨?_, ?_⟩
  · intro p t off ep data s hlive hoff
    obtain ⟨ps, heq, -⟩ := logPoison_ports s p ep
    have htenant : ((logPoison s p ep).modTenant t (fun x => postTenant x off ep data)).tenant t = postTenant (s.tenant t) off ep data := by
      rw [State.tenant_modTenant_same, heq]; rfl
    refine ⟨_, execPostWrite_of_live ep data hlive hoff, ?_, ?_, ?_, ?_, ?_⟩
    · intro hmsg hroom
      rw [htenant, postTenant_of_room ((isMessage_iff _ _ _).mpr hmsg) hroom]
    · intro hmsg hfull
      rw [htenant, postTenant_of_full ((isMessage_iff _ _ _).mpr hmsg) hfull]
    · intro hmsg
      rw [htenant, postTenant_of_malformed (Bool.eq_false_iff.mpr (mt (isMessage_iff _ _ _).mp hmsg))]
    · rw [heq]
      exact otherTenants_setTenant _ _ _
    · rw [heq]
      exact ⟨rfl, rfl, rfl, rfl⟩
  · intro p t s hready hdead
    have hlive : pageLive s p t = false := pageLive_of_not_reached hready hdead
    have hreg : ∀ r v ep, r < 0x10000 → ∃ s', hostRegWrite s p (t * 0x10000 + r) v ep = .next s' ∧ s'.tenants = s.tenants :=
      fun r v ep hr => hostRegWrite_of_dead v ep (by omega) (by omega) hlive
    exact ⟨fun off ep data => execPostWrite_of_dead off ep data hlive, fun ep => hreg _ _ ep (by decide), fun ep => hreg _ _ ep (by decide),
      fun v ep => hreg _ _ ep (by decide), fun ep => hreg _ _ ep (by decide), fun a ha => apertureRead_of_dead (ha ▸ hlive)⟩

/-! ## Submission rings (R362) -/

theorem Tenant.ring_modRing_same (x : Tenant) (p : Nat) (f : SubRing → SubRing) (hp : p < x.rings.length) :
    (x.modRing p f).ring p = f (x.ring p) := by
  simp [Tenant.ring, Tenant.modRing, modAt, hp]

theorem Tenant.ring_modRing_other (x : Tenant) (p q : Nat) (f : SubRing → SubRing) (hq : q ≠ p) : (x.modRing p f).ring q = x.ring q := by
  simp only [Tenant.ring, Tenant.modRing, modAt, List.getD_eq_getElem?_getD, List.getElem?_mapIdx, if_neg hq, Option.map_id']

theorem cPrio_lt (c : Clause) : cPrio c < 4 := Nat.mod_lt _ (by decide)

/-- The priority class stands in the first word. -/
theorem cPrio_take (m : List Word) : cPrio (m.take 16) = cPrio m := by
  cases m with
  | nil => rfl
  | cons w rest => rfl

/-- A tenant that has accepted a clause into its ring. -/
def clauseTenant (x : Tenant) (m : List Word) : Tenant :=
  (acceptedTenant x m).modRing (cPrio m) (fun r => { r with waiting := r.waiting ++ [m.take 16] })

/-- A tenant that has refused a message of its ring and waits for it again. -/
def refusedTenant (x : Tenant) : Tenant := { x with copied := x.copied.drop 1, gap := true }

theorem clauseEffect_of_room {s : State} {t : Nat} {m : List Word} (hroom : ((s.tenant t).ring (cPrio m)).waiting.length < 512) :
    clauseEffect s t m = s.setTenant t (clauseTenant (s.tenant t) m) := by
  simp only [clauseEffect, cPrio_take, if_neg (Nat.not_le.mpr hroom), acceptHead_eq, State.modTenant_setTenant, clauseTenant]

theorem clauseEffect_of_full {s : State} {t : Nat} {m : List Word} (hfull : 512 ≤ ((s.tenant t).ring (cPrio m)).waiting.length)
    (hnotify : CanNotify s t) :
    clauseEffect s t m = (writeSlot s t (messageNotice (mSeq m) 3 (mType m) (s.tenant t).expected.toNat)).setTenant t
      (tailMoved (refusedTenant (s.tenant t))) := by
  simp only [clauseEffect, cPrio_take, if_pos hfull]
  exact postNotice_of_canNotify _ hnotify rfl

theorem execClause_of_atHead {s s' : State} {t : Nat} {m : List Word} (h : AtHead s t m 0x01) (heffect : clauseEffect s t m = s')
    (hcopied : (s'.tenant t).copied = []) : execClause t s = .next s' := by
  simp only [execClause, headOf_of_atHead h, heffect, settleAll_of_none_copied hcopied]

/-! ## Messages that are not carried out (R358, R359) -/

theorem execBadType_of_accepting {s : State} {t : Nat} {m : List Word} (h : Accepting s t m) (hbad : badEnvelope m = true)
    (hnotify : CanNotify s t) :
    execBadType t s = .next ((writeSlot s t (messageNotice (mSeq m) 2 (mType m) ((mSeq m + 1) % 65536))).setTenant t
      (tailMoved (acceptedTenant (s.tenant t) m))) := by
  obtain ⟨hready, hcopied, hacc⟩ := h
  have hexpected : (acceptedTenant (s.tenant t) m).expected.toNat = (mSeq m + 1) % 65536 := BitVec.toNat_ofNat _ _
  have hpost := postNotice_of_canNotify (messageNotice (mSeq m) 2 (mType m) ((mSeq m + 1) % 65536)) hnotify
    (show noticeState (acceptedTenant (s.tenant t) m) = _ from rfl)
  simp only [execBadType, hcopied, hready, hacc, hbad, Bool.and_self, if_true, acceptHead_eq, State.tenant_setTenant_same, hexpected, hpost]
  rw [settleAll_of_none_copied]
  rw [State.tenant_setTenant_same]
  simp [tailMoved, acceptedTenant, hcopied]

/-- An Admin message of another tenant is answered NOT_ADMIN, whatever its effect would be (R359). -/
theorem adminOnly_of_other {s1 : State} {t : Nat} {m : List Word} {type : Nat} (f : State → List Word → State) (ht : t ≠ 0)
    (htype : mType m = type) : adminOnly t f s1 m = reply s1 t (mSeq m) type 1 0x0202 0 0 0 := by
  rw [adminOnly, if_pos ht, htype]; rfl

/-- Settles O8: a CLAUSE is waiting or refused, a bad envelope is accepted with its notice, and each Admin message asks for tenant 0
first. -/
theorem clausesQueueAndBadMessagesAnswered : Obligations.ClausesQueueAndBadMessagesAnswered := by
  unfold Obligations.ClausesQueueAndBadMessagesAnswered
  refine ⟨?_, ?_, ?_⟩
  · intro t m s h hrings
    have hcopied : (s.tenant t).copied.drop 1 = [] := by rw [h.copied]; rfl
    have hclass : cPrio m < (acceptedTenant (s.tenant t) m).rings.length := (cPrio_lt m).trans_eq hrings.symm
    refine ⟨fun hroom => ?_, fun hfull hnotify => ?_⟩
    · refine ⟨_, execClause_of_atHead h (clauseEffect_of_room hroom) ?_, consumed_setTenant ?_ rfl rfl, ?_, fun q hq => ?_,
        otherTenants_setTenant _ _ _, rfl, sameBeyondTenants_setTenant _ _ _⟩
      · rw [State.tenant_setTenant_same]; exact hcopied
      · exact hcopied
      · rw [State.tenant_setTenant_same, clauseTenant, Tenant.ring_modRing_same _ _ _ hclass]
        rfl
      · rw [State.tenant_setTenant_same, clauseTenant, Tenant.ring_modRing_other _ _ _ _ hq]
        rfl
    · obtain ⟨-, -, -, hrim⟩ := id hnotify
      have heffect := clauseEffect_of_full hfull hnotify
      rw [show mType m = 0x01 from h.2.2] at heffect
      have hlen := (messageNotice_length (mSeq m) 3 0x01 (s.tenant t).expected.toNat).le
      have htenant := fun body => (writeSlot s t body).tenant_setTenant_same t (tailMoved (refusedTenant (s.tenant t)))
      refine ⟨_, execClause_of_atHead h heffect ?_, ?_, ?_, ?_, ?_, notified_writeSlot hrim hlen rfl rfl, hostOnlySlot_writeSlot hrim hlen⟩
      · rw [htenant]; exact hcopied
      · rw [htenant]; exact hcopied
      · rw [htenant]; rfl
      · rw [htenant]; rfl
      · rw [htenant]; rfl
  · intro t m s h hbad hnotify
    obtain ⟨-, hcopied, -⟩ := id h
    obtain ⟨-, -, -, hrim⟩ := id hnotify
    have hlen := (messageNotice_length (mSeq m) 2 (mType m) ((mSeq m + 1) % 65536)).le
    exact ⟨_, execBadType_of_accepting h hbad hnotify, consumed_setTenant (by simp [tailMoved, acceptedTenant, hcopied]) rfl rfl,
      notified_writeSlot hrim hlen rfl rfl, hostOnlySlot_writeSlot hrim hlen, otherTenants_writeSlot, sameBeyondTenants_writeSlot,
      sameOwnMemory_writeSlot⟩
  · intro t m s type c ht h hnotify hc
    have ht0 : (t : Nat) ≠ 0 := fun h0 => ht (Fin.ext h0)
    have hanswer : ∀ f : State → List Word → State, ∃ s', onMessage s t type (adminOnly t f) = .next s' ∧ Consumed s' t m
        ∧ Notified s s' t (replyNotice (mSeq m) 1 type 0x0202 0 0 0) ∧ HostOnlySlot s s' t ∧ OtherTenants s s' t
        ∧ SameBeyondTenants s s' ∧ SameOwnMemory s s' :=
      fun f => onMessage_replies h hnotify (fun s1 _ => adminOnly_of_other f ht0 h.2.2)
    obtain ⟨rfl, rfl⟩ | ⟨rfl, rfl⟩ | ⟨rfl, rfl⟩ | ⟨rfl, rfl⟩ := hc
    · exact hanswer _
    · exact hanswer _
    · exact hanswer _
    · exact hanswer _

/-! ## RING_SETUP (R363) -/

/-- A tenant with a fresh notice ring. -/
def ringTenant (x : Tenant) (m : List Word) : Tenant :=
  { x with
    tail := 0, tailPhase := true, ringUsed := 0, ringSet := true, noticeBase := BitVec.ofNat 64 (dword m 0), alerts := bit (word m 2) 0 }

/-- Nothing is written where nothing is held or owed. -/
theorem flushHeld_of_none_held {s : State} {t : Nat} (n : Nat) (hheld : (s.tenant t).heldNotices = []) (hlost : (s.tenant t).lostOwed = false) :
    flushHeld s t n = s := by
  cases n with
  | zero => rfl
  | succ n => simp [flushHeld, hheld, hlost]

theorem ringSetup_of_clear {s : State} {t : Nat} {m : List Word} {x : Tenant} (hclean : payloadClean m [0xFFFFFFFF, 0xFFFFFFFF, 1] = true)
    (hbase : dword m 0 % 4096 = 0) (hflights : tenantFlights s t = []) (hbound : x.bound = true)
    (hport : portWritable (s.port x.hostPort) = true) (hheld : x.heldNotices = []) (hlost : x.lostOwed = false) :
    ringSetup t (s.setTenant t x) m = (writeSlot (s.setTenant t (ringTenant x m)) t (replyNotice (mSeq m) 0 0x02 0 0 0 0)).setTenant t
      (answeredTenant (tailMoved (ringTenant x m)) (mSeq m) 0x02) := by
  have hflights' : tenantFlights (s.setTenant t x) t = [] := hflights
  have hsetup : ringSetup t (s.setTenant t x) m = answered (replyFirst (s.setTenant t (ringTenant x m)) t
      (replyNotice (mSeq m) 0 0x02 0 0 0 0)) t (mSeq m) 0x02 := by
    simp [ringSetup, hclean, hbase, hflights', ringTenant]
  have hroom : noticeRoom (s.setTenant t (ringTenant x m)) t = true := by
    simp [noticeRoom, ringTenant, hbound, hport]
  rw [hsetup, replyFirst, if_pos hroom, writeNotice_eq, State.tenant_setTenant_same, flushHeld_of_none_held, answered_setTenant]
  · rw [State.tenant_setTenant_same]; exact hheld
  · rw [State.tenant_setTenant_same]; exact hlost

/-- The first slot of a fresh ring. -/
theorem tailKey_ringTenant (s : State) (t : Nat) (x : Tenant) (m : List Word) :
    tailKey (s.setTenant t (ringTenant x m)) t = hostKey x.hostPort (dword m 0) := by
  rw [tailKey, State.tenant_setTenant_same]
  simp [ringTenant, hostKey]

theorem slotBytes_ringTenant (s : State) (t : Nat) (x : Tenant) (m : List Word) {body : List Byte} (hlen : body.length = 32) :
    slotBytes (s.setTenant t (ringTenant x m)) t body = 1 :: body.drop 1 := by
  rw [slotBytes, State.tenant_setTenant_same, padTo, hlen]
  simp [ringTenant, b2n, zeros]

/-- A RING_SETUP that cannot be carried out is rejected for one reason or another; with a clause in flight nothing else can come of it. -/
theorem ringSetup_of_flight {s : State} {t : Nat} {m : List Word} (hflights : tenantFlights s t ≠ []) :
    ∃ why, ringSetup t s m = rejectRing s t m why := by
  unfold ringSetup
  split
  · exact ⟨_, rfl⟩
  · split
    · exact ⟨_, rfl⟩
    · exact ⟨rBusy, by simp [hflights]⟩

theorem ringSetup_busy {s : State} {t : Nat} {m : List Word} (hclean : payloadClean m [0xFFFFFFFF, 0xFFFFFFFF, 1] = true)
    (hbase : dword m 0 % 4096 = 0) (hflights : tenantFlights s t ≠ []) (hring : (s.tenant t).ringSet = true) :
    ringSetup t s m = reply s t (mSeq m) 0x02 1 0x0201 0 0 0 := by
  simp [ringSetup, hclean, hbase, hflights, rejectRing, hring, replyRejected, rBusy]

/-- A rejection without a ring is counted alone. -/
theorem rejectRing_of_no_ring {s : State} {t : Nat} {x : Tenant} (m : List Word) (why : Nat) (hring : x.ringSet = false) :
    rejectRing (s.setTenant t x) t m why
      = s.setTenant t (answeredTenant { x with discarded := min 0xFFFF (x.discarded + 1) } (mSeq m) 0x02) := by
  simp [rejectRing, hring, answered_setTenant, satInc]

/-- Settles O9: RING_SETUP puts its reply into the first slot of the ring that it has just made; with a clause in flight it is rejected. -/
theorem ringSetupStartsRing : Obligations.RingSetupStartsRing := by
  unfold Obligations.RingSetupStartsRing
  intro t m s h
  have hstarted := copied_startedTenant h.copied
  refine ⟨?_, ?_, ?_⟩
  · intro hclean hbase hflights hbound hport hheld hlost hrim
    have heffect := ringSetup_of_clear (x := startedTenant (s.tenant t) m) hclean hbase hflights hbound hport hheld hlost
    have hreply := replyNotice_length (mSeq m) 0 0x02 0 0 0 0
    set y := ringTenant (startedTenant (s.tenant t) m) m
    have hold := s.tenant_setTenant_same t y
    obtain ⟨hread, -, -⟩ := notified_writeSlot (s := s.setTenant t y) (x := answeredTenant (tailMoved y) (mSeq m) 0x02)
      (by rw [hold]; exact hrim) hreply.le (by rw [hold]; rfl) (by rw [hold]; rfl)
    rw [tailKey_ringTenant, slotBytes_ringTenant s t _ m hreply] at hread
    refine ⟨_, onMessage_of_atHead h heffect hstarted, consumed_setTenant hstarted rfl rfl, hread, ?_⟩
    rw [State.tenant_setTenant_same]
    exact ⟨rfl, rfl, rfl, rfl, rfl, rfl⟩
  · intro hclean hbase hflights hring hnotify
    obtain ⟨s', hexec, hconsumed, hnotified, -⟩ := onMessage_replies (f := ringSetup t) h hnotify (fun s1 hs1 =>
      ringSetup_busy hclean hbase (hs1 ▸ hflights) (by rw [hs1, State.tenant_setTenant_same]; exact hring))
    exact ⟨s', hexec, hconsumed, hnotified⟩
  · intro hring hflights
    obtain ⟨why, hwhy⟩ := ringSetup_of_flight (s := s.setTenant t (startedTenant (s.tenant t) m)) (t := t) (m := m) hflights
    rw [rejectRing_of_no_ring (x := startedTenant (s.tenant t) m) m why hring] at hwhy
    refine ⟨_, onMessage_of_atHead h hwhy hstarted, consumed_setTenant hstarted rfl rfl, ?_, rfl, ?_⟩
    · rw [State.tenant_setTenant_same]; exact hring
    · rw [State.tenant_setTenant_same]; rfl

/-! ## Held notices (R371, R372) -/

/-- An accepted PING whose payload is clean has a REPLY that carries its cookie for its effect (R367). -/
theorem execPing_of_clean {s : State} {t : Nat} {m : List Word} {x : Tenant} (h : AtHead s t m 0x0A)
    (hclean : payloadClean m [0xFFFFFFFF, 0xFFFFFFFF] = true)
    (hpost : postNotice (s.setTenant t (startedTenant (s.tenant t) m)) t (replyNotice (mSeq m) 0 0x0A 0 0 0 (dword m 0)) = s.setTenant t x)
    (hcopied : x.copied = []) : execPing t s = .next (s.setTenant t (answeredTenant x (mSeq m) 0x0A)) := by
  refine onMessage_of_atHead h ?_ hcopied
  rw [cleanOnly, if_pos hclean, reply, hpost, answered_setTenant]

/-- The clause of O11 on a PING whose reply cannot be written. -/
theorem ping_heldOrLost (t : Fin 16) (m : List Word) (s : State) (h : AtHead s t m 0x0A)
    (hclean : payloadClean m [0xFFFFFFFF, 0xFFFFFFFF] = true) (hroom : noticeRoom s t = false) :
    ∃ s', exec (.ping t) s = .next s' ∧ Consumed s' t m ∧ s'.mem = s.mem
      ∧ ((s.tenant t).heldNotices.length < 64 →
          (s'.tenant t).heldNotices = (s.tenant t).heldNotices ++ [replyNotice (mSeq m) 0 0x0A 0 0 0 (dword m 0)])
      ∧ (64 ≤ (s.tenant t).heldNotices.length → (s'.tenant t).heldNotices = (s.tenant t).heldNotices
          ∧ (s'.tenant t).lostCount = min 0xFFFF ((s.tenant t).lostCount + 1) ∧ (s'.tenant t).noticeLost = true
          ∧ (s'.tenant t).lostOwed = true) := by
  have hstarted := copied_startedTenant h.copied
  have hroom1 := (noticeRoom_setTenant (noticeState_startedTenant (s.tenant t) m)).trans hroom
  have htenant := s.tenant_setTenant_same t (startedTenant (s.tenant t) m)
  by_cases hlen : (s.tenant t).heldNotices.length < 64
  · have hpost := postNotice_of_room_to_hold (replyNotice (mSeq m) 0 0x0A 0 0 0 (dword m 0)) hroom1 (by rw [htenant]; exact hlen)
    rw [htenant, State.setTenant_setTenant] at hpost
    refine ⟨_, execPing_of_clean h hclean hpost hstarted, consumed_setTenant hstarted rfl rfl, rfl, fun _ => ?_, fun hfull => ?_⟩
    · rw [State.tenant_setTenant_same]; rfl
    · omega
  · have hpost := postNotice_of_full (replyNotice (mSeq m) 0 0x0A 0 0 0 (dword m 0)) hroom1 (by rw [htenant]; exact Nat.not_lt.mp hlen)
    rw [htenant, State.setTenant_setTenant] at hpost
    refine ⟨_, execPing_of_clean h hclean hpost hstarted, consumed_setTenant hstarted rfl rfl, rfl, fun hless => ?_, fun _ => ?_⟩
    · omega
    · rw [State.tenant_setTenant_same]
      exact ⟨rfl, rfl, rfl, rfl⟩

/-- The clause of O11 on NOTICE_STATUS. -/
theorem noticeStatus_held (t : Fin 16) (s : State) (htail : (s.tenant t).tail < 4096) (hheld : (s.tenant t).heldNotices.length ≤ 64) :
    bits (tenantReg s t 0x1008) 19 13 = (s.tenant t).heldNotices.length := by
  have hphase : b2n (s.tenant t).tailPhase ≤ 1 := by unfold b2n; split <;> decide
  simp only [tenantReg, bits]
  omega

/-- From s to s' no memory, no tenant but t, no link of a port and no TAP has changed, and of t only the alerts that wait. -/
def AlertsOnly (s s' : State) (t : Nat) : Prop :=
  s'.mem = s.mem ∧ s'.taps = s.taps ∧ (∀ p, portWritable (s'.port p) = portWritable (s.port p))
    ∧ ∃ due, s'.tenant t = { s.tenant t with owedAlerts := due }

theorem AlertsOnly.refl (s : State) (t : Nat) : AlertsOnly s s t := ⟨rfl, rfl, fun _ => rfl, (s.tenant t).owedAlerts, rfl⟩

theorem AlertsOnly.trans {a b c : State} {t : Nat} (hab : AlertsOnly a b t) (hbc : AlertsOnly b c t) : AlertsOnly a c t := by
  obtain ⟨hmem, htaps, hport, due, htenant⟩ := hab
  obtain ⟨hmem', htaps', hport', due', htenant'⟩ := hbc
  exact ⟨hmem'.trans hmem, htaps'.trans htaps, fun p => (hport' p).trans (hport p), due', by rw [htenant', htenant]⟩

theorem sendMsix_alertsOnly (s : State) (p v t : Nat) : AlertsOnly s (sendMsix s p v) t := by
  unfold sendMsix
  dsimp only
  split
  · exact .refl s t
  · split
    · refine ⟨rfl, rfl, fun q => ?_, (s.tenant t).owedAlerts, rfl⟩
      by_cases hq : q = p
      · rw [hq, State.port_setPort_same]; rfl
      · rw [State.port_setPort_other _ _ _ _ hq]
    · split
      · exact .refl s t
      · exact ⟨rfl, rfl, fun _ => rfl, (s.tenant t).owedAlerts, rfl⟩

theorem releaseAlerts_alertsOnly (s : State) (t : Nat) : AlertsOnly s (releaseAlerts s t) t := by
  have hfold : ∀ (l : List Nat) (p v : Nat) (s : State), AlertsOnly s (l.foldl (fun s _ => sendMsix s p v) s) t := by
    intro l p v
    induction l with
    | nil => exact fun s => .refl s t
    | cons n l ih => exact fun s => (sendMsix_alertsOnly s p v t).trans (ih _)
  refine AlertsOnly.trans ?_ (hfold _ _ _ _)
  exact ⟨rfl, rfl, fun _ => rfl, _, s.tenant_setTenant_same _ _⟩

theorem readBytes_add (d : Byte) (m : List Host.Cell) (a n k : Nat) : readBytes d m a (n + k) = readBytes d m a n ++ readBytes d m (a + n) k := by
  induction n generalizing a with
  | zero => simp [readBytes]
  | succ n ih => rw [Nat.succ_add, readBytes, ih, readBytes, List.cons_append, Nat.succ_add_eq_add_succ]

theorem readBytes_congr {d : Byte} {m m' : List Host.Cell} {a n : Nat} (h : ∀ x, a ≤ x → x < a + n → tget d m x = tget d m' x) :
    readBytes d m a n = readBytes d m' a n := by
  induction n generalizing a with
  | zero => rfl
  | succ n ih => rw [readBytes, readBytes, h a (Nat.le_refl a) (by omega), ih (fun x hx hlt => h x (by omega) (by omega))]

/-- A held notice is written, the tenant being x but for its ring, and the alerts that waited for it alone go out. -/
def writeHeld (s : State) (t : Nat) (x : Tenant) (body : List Byte) : State := releaseAlerts (writeNotice (s.setTenant t x) t body) t

section WriteHeld

variable {s : State} {t : Nat} {x : Tenant} {body : List Byte}

theorem writeHeld_setTenant (y : Tenant) : writeHeld (s.setTenant t y) t x body = writeHeld s t x body := by
  rw [writeHeld, writeHeld, State.setTenant_setTenant]

theorem writeHeld_alertsOnly (hplace : ringPlace x = ringPlace (s.tenant t)) :
    AlertsOnly ((writeSlot s t body).setTenant t (tailMoved x)) (writeHeld s t x body) t := by
  unfold writeHeld
  rw [writeNotice_setTenant s t x body hplace]
  exact releaseAlerts_alertsOnly _ t

theorem writeHeld_tenant (hplace : ringPlace x = ringPlace (s.tenant t)) :
    ∃ due, (writeHeld s t x body).tenant t = { tailMoved x with owedAlerts := due } := by
  obtain ⟨-, -, -, due, htenant⟩ := writeHeld_alertsOnly (body := body) hplace
  exact ⟨due, by rw [htenant, State.tenant_setTenant_same]⟩

theorem writeHeld_rimTaken (hplace : ringPlace x = ringPlace (s.tenant t)) (r : Nat) : rimTaken (writeHeld s t x body) r = rimTaken s r := by
  obtain ⟨-, htaps, -, -⟩ := writeHeld_alertsOnly (body := body) hplace
  obtain ⟨h, heq⟩ := writeSlot_hostOnly s t body
  simp only [rimTaken, State.tap, htaps, State.setTenant_taps, heq]

theorem writeHeld_portWritable (hplace : ringPlace x = ringPlace (s.tenant t)) (p : Nat) :
    portWritable ((writeHeld s t x body).port p) = portWritable (s.port p) := by
  obtain ⟨-, -, hport, -⟩ := writeHeld_alertsOnly (body := body) hplace
  obtain ⟨h, heq⟩ := writeSlot_hostOnly s t body
  rw [hport, State.port_setTenant, heq]
  rfl

theorem notified_writeHeld (hplace : ringPlace x = ringPlace (s.tenant t)) (hrim : rimTaken s (s.tenant t).hostPort = false)
    (hlen : body.length ≤ 32) : Notified s (writeHeld s t x body) t body := by
  obtain ⟨-, -, htail, hphase⟩ := by simpa only [ringPlace, Prod.mk.injEq] using hplace
  obtain ⟨hmem, -, -, due, htenant⟩ := writeHeld_alertsOnly (body := body) hplace
  have hslot := notified_writeSlot (x := tailMoved x) hrim hlen (by rw [← htail]; rfl) (by rw [← htail, ← hphase]; rfl)
  unfold Notified at hslot ⊢
  rwa [hmem, htenant]

theorem hostOnlySlot_writeHeld (hplace : ringPlace x = ringPlace (s.tenant t)) (hrim : rimTaken s (s.tenant t).hostPort = false)
    (hlen : body.length ≤ 32) : HostOnlySlot s (writeHeld s t x body) t := by
  obtain ⟨hmem, -, -, -⟩ := writeHeld_alertsOnly (body := body) hplace
  have hslot := hostOnlySlot_writeSlot (x := tailMoved x) hrim hlen
  unfold HostOnlySlot at hslot ⊢
  rwa [hmem]

/-- The first held notice is written when there is room. -/
theorem flushHeld_of_held {rest : List (List Byte)} (n : Nat) (hroom : noticeRoom s t = true) (hheld : (s.tenant t).heldNotices = body :: rest) :
    flushHeld s t (n + 1) = flushHeld (writeHeld s t { s.tenant t with heldNotices := rest } body) t n := by
  simp [flushHeld, hroom, hheld, writeHeld]

/-- The NOTICES_LOST event is written behind the last held notice. -/
theorem flushHeld_of_lost (n : Nat) (hroom : noticeRoom s t = true) (hheld : (s.tenant t).heldNotices = [])
    (hlost : (s.tenant t).lostOwed = true) :
    flushHeld s t (n + 1) = writeHeld s t { s.tenant t with lostOwed := false } (eventNotice 2 (s.tenant t).lostCount 0) := by
  simp [flushHeld, hroom, hheld, hlost, writeHeld]

theorem noticeRoom_writeHeld (hplace : ringPlace x = ringPlace (s.tenant t)) (hset : x.ringSet = true) (hbound : x.bound = true)
    (hport : portWritable (s.port x.hostPort) = true) (hused : x.ringUsed + 1 < 4096) : noticeRoom (writeHeld s t x body) t = true := by
  obtain ⟨due, hafter⟩ := writeHeld_tenant (body := body) hplace
  simp only [noticeRoom, hafter, tailMoved, writeHeld_portWritable hplace, hset, hbound, hport, hused, decide_true, Bool.and_self]

end WriteHeld

/-- Two notices posted one after the other stand side by side. -/
theorem readBytes_of_notified_twice {s a c : State} {t : Nat} {b e : List Byte} (hfirst : Notified s a t b) (hsecond : Notified a c t e)
    (honly : HostOnlySlot a c t) (hkey : tailKey a t = tailKey s t + 32) :
    readBytes 0 c.mem.host (tailKey s t) 64 = slotBytes s t b ++ slotBytes a t e := by
  obtain ⟨hread, -, -⟩ := hfirst
  obtain ⟨hread', -, -⟩ := hsecond
  have hkept : readBytes 0 c.mem.host (tailKey s t) 32 = readBytes 0 a.mem.host (tailKey s t) 32 :=
    readBytes_congr (fun k _ hk => honly k (.inl (by omega)))
  rw [readBytes_add 0 c.mem.host (tailKey s t) 32 32, hkept, hread, ← hkey, hread']

/-- The slot after TAIL stands 32 bytes further where the ring does not wrap. -/
theorem hostKey_slot_succ (p base tail : Nat) (h : base + 32 * tail + 32 < 2 ^ 64) :
    hostKey p (base + 32 * (tail + 1)) = hostKey p (base + 32 * tail) + 32 := by
  rw [hostKey, hostKey, Nat.mod_eq_of_lt (by omega), Nat.mod_eq_of_lt (by omega)]
  omega

/-- With room for two, the one held notice is written and the NOTICES_LOST event after it. -/
theorem flushHeld_writes_held_and_lost {s : State} {t : Nat} {b : List Byte} (n : Nat) (hfits : b.length ≤ 32)
    (hset : (s.tenant t).ringSet = true) (hbound : (s.tenant t).bound = true)
    (hport : portWritable (s.port (s.tenant t).hostPort) = true) (hrim : rimTaken s (s.tenant t).hostPort = false)
    (hused : (s.tenant t).ringUsed + 1 < 4096) (hheld : (s.tenant t).heldNotices = [b]) (hlost : (s.tenant t).lostOwed = true)
    (htail : (s.tenant t).tail + 1 < 4096) (hbase : (s.tenant t).noticeBase.toNat + 131072 ≤ 2 ^ 64) :
    ((flushHeld s t (n + 2)).tenant t).heldNotices = [] ∧ ((flushHeld s t (n + 2)).tenant t).lostOwed = false
      ∧ ((flushHeld s t (n + 2)).tenant t).tail = ((s.tenant t).tail + 2) % 4096
      ∧ readBytes 0 (flushHeld s t (n + 2)).mem.host (tailKey s t) 64
        = slotBytes s t b ++ slotBytes s t (eventNotice 2 (s.tenant t).lostCount 0) := by
  have hroom : noticeRoom s t = true := by
    simp only [noticeRoom, hset, hbound, hport, Nat.lt_of_succ_lt hused, decide_true, Bool.and_self]
  have hplace : ringPlace { s.tenant t with heldNotices := [] } = ringPlace (s.tenant t) := rfl
  have hfirst := notified_writeHeld hplace hrim hfits
  have hroom' := noticeRoom_writeHeld (body := b) hplace hset hbound hport hused
  have hrim' := (writeHeld_rimTaken (body := b) hplace (s.tenant t).hostPort).trans hrim
  obtain ⟨due, htenant⟩ := writeHeld_tenant (body := b) hplace
  rw [flushHeld_of_held (n + 1) hroom hheld]
  generalize writeHeld s t { s.tenant t with heldNotices := [] } b = a at hfirst hroom' hrim' htenant
  have hplace' : ringPlace { a.tenant t with lostOwed := false } = ringPlace (a.tenant t) := rfl
  have hevent : (eventNotice 2 (s.tenant t).lostCount 0).length ≤ 32 := by simp [eventNotice, padTo, zeros]
  have hport' : (a.tenant t).hostPort = (s.tenant t).hostPort := by rw [htenant]; rfl
  have hcount : (a.tenant t).lostCount = (s.tenant t).lostCount := by rw [htenant]; rfl
  have htail' : (a.tenant t).tail = (s.tenant t).tail + 1 := by rw [htenant]; exact Nat.mod_eq_of_lt htail
  have hphase : (a.tenant t).tailPhase = (s.tenant t).tailPhase := by rw [htenant]; exact if_neg (show (s.tenant t).tail ≠ 4095 by omega)
  have hkey : tailKey a t = tailKey s t + 32 := by
    have hsucc := hostKey_slot_succ (s.tenant t).hostPort (s.tenant t).noticeBase.toNat (s.tenant t).tail (by omega)
    rw [tailKey, htail', htenant]
    exact hsucc
  have hslot : slotBytes a t (eventNotice 2 (s.tenant t).lostCount 0) = slotBytes s t (eventNotice 2 (s.tenant t).lostCount 0) := by
    rw [slotBytes, hphase]; rfl
  have hsecond := notified_writeHeld hplace' (hport' ▸ hrim') hevent
  have honly := hostOnlySlot_writeHeld hplace' (hport' ▸ hrim') hevent
  obtain ⟨due', htenant'⟩ := writeHeld_tenant (body := eventNotice 2 (s.tenant t).lostCount 0) hplace'
  rw [flushHeld_of_lost n hroom' (by rw [htenant]; rfl) (by rw [htenant]; exact hlost), hcount]
  refine ⟨?_, ?_, ?_, ?_⟩
  · rw [htenant', htenant]; rfl
  · rw [htenant']; rfl
  · rw [hsecond.2.1, htail']
  · rw [readBytes_of_notified_twice hfirst hsecond honly hkey, hslot]

/-- Held QUERY results change host memory and the list of them alone. -/
theorem flushResults_keeps (s : State) (t : Nat) :
    (flushResults s t).taps = s.taps ∧ (flushResults s t).ports = s.ports
      ∧ ∃ rs, (flushResults s t).tenant t = { s.tenant t with heldResults := rs } := by
  have hwrite : ∀ (s : State) (p a : Nat) (bs : List Byte), MemOnly s (hostWrite s p a bs) := by
    intro s p a bs
    unfold hostWrite
    split
    · exact .refl s
    · exact ⟨_, rfl⟩
  unfold flushResults
  dsimp only
  split
  · obtain ⟨m, heq⟩ := foldl_memOnly (fun s' (r : Nat × List Byte) => hostWrite s' (s.tenant t).hostPort r.1 r.2) (fun _ _ => hwrite _ _ _ _)
      (s.tenant t).heldResults (s.setTenant t { s.tenant t with heldResults := [] })
    rw [heq]
    exact ⟨rfl, rfl, [], State.tenant_setTenant_same _ _ _⟩
  · exact ⟨rfl, rfl, (s.tenant t).heldResults, rfl⟩

theorem rimTaken_of_reached {s : State} {p t : Nat} (hreached : PageReached s p t) : rimTaken s p = false := by
  have hport := hreached.1
  simp only [portReached, Bool.and_eq_true, Bool.not_eq_true'] at hport
  exact hport.2

theorem flushResults_of_none_held {s : State} {t : Nat} (h : (s.tenant t).heldResults = []) : flushResults s t = s := by
  simp [flushResults, h]

/-- A NOTICE_HEAD write that reaches a page has all written that the new room allows. -/
theorem execNoticeHeadWrite_of_reached {p t : Nat} {s : State} (v : Word) (ht : t < 16) (hreached : PageReached s p t) (hready : ready s = true) :
    execNoticeHeadWrite p t v false s
      = .next (flushHeld (flushResults (s.setTenant t (writeNoticeHead (s.tenant t) v.toNat)) t) t 66) := by
  obtain ⟨hport, hlive⟩ := hreached
  have hoff : t * 0x10000 + 0x1004 < 0x100000 := by omega
  have hpage : (t * 0x10000 + 0x1004) / 0x10000 = t := by omega
  have hreg : (t * 0x10000 + 0x1004) % 0x10000 = 0x1004 := by omega
  have hready' : ready (s.setTenant t (writeNoticeHead (s.tenant t) v.toNat)) = true := hready
  simp only [execNoticeHeadWrite, hostRegWrite, hport, Bool.not_true, Bool.false_eq_true, if_false, writeReg, if_pos hoff, hpage, hlive, if_true,
    hreg, writeTenantReg, State.modTenant, flushTenant, hready', if_neg (show ¬ 0x1004 = 0x1000 by decide)]

section HeadWrite

variable {p : Fin 4} {t : Fin 16} {v : Word} {b : List Byte} {s : State}

/-- The clause of O11 on a NOTICE_HEAD write with no loss owed, for a held notice that fits an entry of the ring. -/
theorem noticeHeadWrite_writesHeld (hfits : b.length ≤ 32) (hreached : PageReached s p t) (hready : ready s = true)
    (hring : (s.tenant t).ringSet = true) (hbound : (s.tenant t).bound = true) (hport : (s.tenant t).hostPort = p)
    (hwritable : portWritable (s.port p) = true) (hheld : (s.tenant t).heldNotices = [b]) (hresults : (s.tenant t).heldResults = [])
    (hused : ringUsedAfter (s.tenant t) (v.toNat % 4096) < 4095) (hlost : (s.tenant t).lostOwed = false) :
    ∃ s', exec (.noticeHeadWrite p t v false) s = .next s' ∧ (s'.tenant t).heldNotices = [] ∧ Notified s s' t b ∧ HostOnlySlot s s' t := by
  have hexec := execNoticeHeadWrite_of_reached v t.isLt hreached hready
  set y := writeNoticeHead (s.tenant t) v.toNat with hy
  have htenant := s.tenant_setTenant_same t y
  have hroom : noticeRoom (s.setTenant t y) t = true := by
    simp [noticeRoom, hy, writeNoticeHead, hring, hbound, hport, hwritable]
    omega
  have hrim : rimTaken s (s.tenant t).hostPort = false := by rw [hport, rimTaken_of_reached hreached]
  have hplace : ringPlace { y with heldNotices := [] } = ringPlace (s.tenant t) := rfl
  obtain ⟨due, hafter⟩ := writeHeld_tenant (body := b) hplace
  rw [flushResults_of_none_held (by rw [htenant]; exact hresults), flushHeld_of_held 65 hroom (by rw [htenant]; exact hheld), htenant,
    writeHeld_setTenant, flushHeld_of_none_held 65 (by rw [hafter]; rfl) (by rw [hafter]; exact hlost)] at hexec
  exact ⟨_, hexec, by rw [hafter]; rfl, notified_writeHeld hplace hrim hfits, hostOnlySlot_writeHeld hplace hrim hfits⟩

/-- The clause of O11 on a NOTICE_HEAD write with a loss owed, for a held notice that fits an entry of the ring. -/
theorem noticeHeadWrite_writesHeldAndLost (hfits : b.length ≤ 32) (hreached : PageReached s p t) (hready : ready s = true)
    (hring : (s.tenant t).ringSet = true) (hbound : (s.tenant t).bound = true) (hport : (s.tenant t).hostPort = p)
    (hwritable : portWritable (s.port p) = true) (hheld : (s.tenant t).heldNotices = [b])
    (htail : (s.tenant t).tail + 1 < 4096) (hbase : (s.tenant t).noticeBase.toNat + 131072 ≤ 2 ^ 64)
    (hused : ringUsedAfter (s.tenant t) (v.toNat % 4096) < 4095) (hlost : (s.tenant t).lostOwed = true) :
    ∃ s', exec (.noticeHeadWrite p t v false) s = .next s' ∧ (s'.tenant t).heldNotices = [] ∧ (s'.tenant t).lostOwed = false
      ∧ (s'.tenant t).tail = ((s.tenant t).tail + 2) % 4096
      ∧ readBytes 0 s'.mem.host (tailKey s t) 64 = slotBytes s t b ++ slotBytes s t (eventNotice 2 (s.tenant t).lostCount 0) := by
  refine ⟨_, execNoticeHeadWrite_of_reached v t.isLt hreached hready, ?_⟩
  obtain ⟨htaps, hports, rs, htenant⟩ := flushResults_keeps (s.setTenant t (writeNoticeHead (s.tenant t) v.toNat)) t
  rw [State.tenant_setTenant_same] at htenant
  generalize flushResults (s.setTenant t (writeNoticeHead (s.tenant t) v.toNat)) t = r at htaps hports htenant
  have hwritable' : portWritable (r.port (r.tenant t).hostPort) = true := by
    rw [State.port, hports, htenant]; exact hport ▸ hwritable
  have hfree : rimTaken s (s.tenant t).hostPort = false := by rw [hport, rimTaken_of_reached hreached]
  have hrim : rimTaken r (r.tenant t).hostPort = false := by
    rw [rimTaken, State.tap, htaps, htenant]; exact hfree
  have hkey : tailKey r t = tailKey s t := by rw [tailKey, htenant]; rfl
  have hslot : ∀ body, slotBytes r t body = slotBytes s t body := fun body => by rw [slotBytes, htenant]; rfl
  have hflush := flushHeld_writes_held_and_lost 64 hfits (by rw [htenant]; exact hring) (by rw [htenant]; exact hbound) hwritable' hrim
    (by rw [htenant]; exact Nat.succ_lt_succ hused) (by rw [htenant]; exact hheld) (by rw [htenant]; exact hlost)
    (by rw [htenant]; exact htail) (by rw [htenant]; exact hbase)
  rwa [hkey, hslot, hslot, htenant] at hflush

end HeadWrite

/-- Tenant 0 has a full ring and one notice held, of 33 bytes, one more than an entry of the ring has. -/
def overlongHeld : State :=
  { casing := { powered := true }
    sys := { state := 1 }
    ports := [(0, { linkUp := true, busMaster := true })]
    tenants := [(0, { enabled := true, bound := true, ringSet := true, ringUsed := 4096, heldNotices := [zeros 33] })] }

/-- Refutes O11: its clause on a NOTICE_HEAD write that makes room takes any list of bytes for the held notice. One of 33 bytes is written
whole, and no 32 bytes read back are equal to it. No notice of R291 and R374 to R377 has more than 32; for one that fits, the clauses hold
(ping_heldOrLost, noticeHeadWrite_writesHeld, noticeHeadWrite_writesHeldAndLost, noticeStatus_held). -/
theorem not_noticesHeldAndLost : ¬ Obligations.NoticesHeldAndLost := by
  unfold Obligations.NoticesHeldAndLost
  rintro ⟨-, hwritten, -, -⟩
  obtain ⟨s', -, -, ⟨hread, -, -⟩, -⟩ := hwritten 0 0 2 (zeros 33) overlongHeld (by unfold PageReached; decide) (by decide) (by decide)
    (by decide) (by decide) (by decide) (by decide) (by decide) (by decide) (by decide)
  have hslot : (slotBytes overlongHeld 0 (zeros 33)).length = 33 := by decide
  have hlen := congrArg List.length hread
  rw [readBytes_length] at hlen
  exact absurd (hlen.trans hslot) (by decide)

end Sys2Proof.Machine

/-!
The rules that proofs about host ports (11) rest on: what an alert changes, that an unmasked pending vector is sent by a pass over the
vectors and by the write that unmasks it (R508, R518), and that the return of a port writes what one tenant has held; then the obligation
on MSI-X and held notices, clause by clause, with the one input that its last clause does not allow for.
-/

namespace Sys2Proof.Machine

/-! ## Alerts (R415, R518) -/

/-- From s to s' no tenant has changed, and of the ports only the pending vectors, to which some may have come. -/
def AlertsAdded (s s' : State) : Prop :=
  s'.tenants = s.tenants
    ∧ ∀ q, ∃ pending, s'.port q = { s.port q with msixPending := pending } ∧ ∀ v, v ∈ (s.port q).msixPending → v ∈ pending

theorem AlertsAdded.refl (s : State) : AlertsAdded s s := ⟨rfl, fun q => ⟨(s.port q).msixPending, rfl, fun _ h => h⟩⟩

theorem AlertsAdded.trans {a b c : State} (hab : AlertsAdded a b) (hbc : AlertsAdded b c) : AlertsAdded a c := by
  obtain ⟨htenants, hports⟩ := hab
  obtain ⟨htenants', hports'⟩ := hbc
  refine ⟨htenants'.trans htenants, fun q => ?_⟩
  obtain ⟨pending, hport, hsub⟩ := hports q
  obtain ⟨pending', hport', hsub'⟩ := hports' q
  rw [hport] at hport' hsub'
  exact ⟨pending', hport', fun v hv => hsub' v (hsub v hv)⟩

section Alert

variable {s : State} {p v : Nat}

/-- An alert of a masked vector waits in its pending bit. -/
theorem sendMsix_of_masked (henable : (s.port p).msixEnable = true) (hmasked : msixMasked (s.port p) v = true) :
    ∃ pending, sendMsix s p v = s.setPort p { s.port p with msixPending := pending } ∧ v ∈ pending := by
  refine ⟨_, by simp only [sendMsix, henable, hmasked, Bool.not_true, Bool.false_eq_true, if_false, Bool.true_or, if_true]; rfl, ?_⟩
  split
  · next hpending => exact List.contains_iff_mem.mp hpending
  · exact List.mem_append_right _ (List.mem_singleton_self v)

/-- An alert of an unmasked vector goes out where the port can write. -/
theorem sendMsix_of_unmasked (henable : (s.port p).msixEnable = true) (hmasked : msixMasked (s.port p) v = false)
    (hwritable : portWritable (s.port p) = true) (hrim : rimTaken s p = false) : sendMsix s p v = s.emit (.msix p v) := by
  simp [sendMsix, henable, hmasked, hwritable, hrim]

theorem sendMsix_alertsAdded (s : State) (p v : Nat) : AlertsAdded s (sendMsix s p v) := by
  unfold sendMsix
  dsimp only
  split
  · exact .refl s
  · split
    · refine ⟨rfl, fun q => ?_⟩
      by_cases hq : q = p
      · rw [hq, State.port_setPort_same]
        refine ⟨_, rfl, fun w hw => ?_⟩
        split
        · exact hw
        · exact List.mem_append_left _ hw
      · rw [State.port_setPort_other _ _ _ _ hq]
        exact ⟨(s.port q).msixPending, rfl, fun _ h => h⟩
    · split
      · exact .refl s
      · exact .refl s

end Alert

theorem releaseAlerts_alertsAdded (s : State) (t : Nat) : ∃ x, AlertsAdded (s.setTenant t x) (releaseAlerts s t) := by
  have hfold : ∀ (l : List Nat) (p v : Nat) (s : State), AlertsAdded s (l.foldl (fun s _ => sendMsix s p v) s) := by
    intro l p v
    induction l with
    | nil => exact fun s => .refl s
    | cons n l ih => exact fun s => (sendMsix_alertsAdded s p v).trans (ih _)
  exact ⟨_, hfold _ _ _ _⟩

theorem writeNotice_port (s : State) (t : Nat) (body : List Byte) (q : Nat) : (writeNotice s t body).port q = s.port q := by
  obtain ⟨h, heq⟩ := writeSlot_hostOnly s t body
  rw [writeNotice_eq, State.port_setTenant, heq]
  rfl

theorem otherTenants_writeNotice (s : State) (t : Nat) (body : List Byte) : OtherTenants s (writeNotice s t body) t := otherTenants_writeSlot

theorem otherTenants_writeHeld (s : State) (t : Nat) (x : Tenant) (body : List Byte) : OtherTenants s (writeHeld s t x body) t := by
  intro u hu
  obtain ⟨y, htenants, -⟩ := releaseAlerts_alertsAdded (writeNotice (s.setTenant t x) t body) t
  calc (writeHeld s t x body).tenant u
    _ = ((writeNotice (s.setTenant t x) t body).setTenant t y).tenant u := by rw [writeHeld, State.tenant, htenants, State.tenant]
    _ = (writeNotice (s.setTenant t x) t body).tenant u := State.tenant_setTenant_other _ t u y hu
    _ = (s.setTenant t x).tenant u := otherTenants_writeNotice _ t body u hu
    _ = s.tenant u := s.tenant_setTenant_other t u x hu

/-- Of a port, a held notice that is written changes the pending vectors alone, and takes none away. -/
theorem writeHeld_port (s : State) (t : Nat) (x : Tenant) (body : List Byte) (q : Nat) : ∃ pending,
    (writeHeld s t x body).port q = { s.port q with msixPending := pending } ∧ ∀ v, v ∈ (s.port q).msixPending → v ∈ pending := by
  obtain ⟨y, -, hports⟩ := releaseAlerts_alertsAdded (writeNotice (s.setTenant t x) t body) t
  obtain ⟨pending, hport, hsub⟩ := hports q
  rw [State.port_setTenant, writeNotice_port, State.port_setTenant] at hport hsub
  exact ⟨pending, hport, hsub⟩

/-! ## Pending vectors (R508, R518) -/

/-- Vector v of port p is pending, and nothing keeps its message back. -/
def VectorSendable (s : State) (p v : Nat) : Prop :=
  (s.port p).msixEnable = true ∧ v ∈ (s.port p).msixPending ∧ msixMasked (s.port p) v = false ∧ portWritable (s.port p) = true
    ∧ rimTaken s p = false

/-- Vector v of port p is not pending, and its message is out. -/
def VectorSent (s : State) (p v : Nat) : Prop := v ∉ (s.port p).msixPending ∧ Output.msix p v ∈ s.out

@[simp] theorem State.port_emit (s : State) (o : Output) (p : Nat) : (s.emit o).port p = s.port p := (rfl)

section Vector

variable {s : State} {p v w : Nat}

theorem flushVector_of_sendable (h : VectorSendable s p v) :
    flushVector s p v
      = (s.setPort p { s.port p with msixPending := (s.port p).msixPending.filter (fun w => w ≠ v) }).emit (.msix p v) := by
  obtain ⟨henable, hpending, hmasked, hwritable, hrim⟩ := h
  have hrim' : ∀ x, rimTaken (s.setPort p x) p = false := fun _ => hrim
  simp [flushVector, henable, hpending, hmasked, hwritable, hrim']

theorem flushVector_of_not_pending (h : v ∉ (s.port p).msixPending) : flushVector s p v = s := by
  simp [flushVector, h]

/-- A vector that is looked at loses its pending bit at most, and a message may go out. -/
theorem flushVector_cases (s : State) (p w : Nat) :
    flushVector s p w = s ∨ ∃ out, (∀ o, o ∈ s.out → o ∈ out) ∧ flushVector s p w
      = { s.setPort p { s.port p with msixPending := (s.port p).msixPending.filter (fun v => v ≠ w) } with out := out } := by
  unfold flushVector
  dsimp only
  split
  · refine .inr ?_
    split
    · exact ⟨s.out, fun _ h => h, rfl⟩
    · exact ⟨.msix p w :: s.out, fun _ h => List.mem_cons_of_mem _ h, rfl⟩
  · exact .inl rfl

theorem flushVector_tenants (s : State) (p w : Nat) : (flushVector s p w).tenants = s.tenants := by
  obtain heq | ⟨out, -, heq⟩ := flushVector_cases s p w
  · rw [heq]
  · rw [heq]; rfl

/-- Looking at another vector keeps nothing back. -/
theorem VectorSendable.flushVector_other (h : VectorSendable s p v) (hw : v ≠ w) : VectorSendable (flushVector s p w) p v := by
  obtain heq | ⟨out, -, heq⟩ := flushVector_cases s p w
  · rwa [heq]
  · obtain ⟨henable, hpending, hmasked, hwritable, hrim⟩ := h
    have hport := s.port_setPort_same p { s.port p with msixPending := (s.port p).msixPending.filter (fun v => v ≠ w) }
    rw [heq]
    unfold VectorSendable
    simp only [State.port] at hport ⊢
    rw [hport]
    exact ⟨henable, List.mem_filter.mpr ⟨hpending, by simpa using hw⟩, hmasked, hwritable, hrim⟩

/-- What has been sent stays sent. -/
theorem VectorSent.flushVector (h : VectorSent s p v) (w : Nat) : VectorSent (flushVector s p w) p v := by
  obtain heq | ⟨out, hout, heq⟩ := flushVector_cases s p w
  · rwa [heq]
  · obtain ⟨hpending, hsent⟩ := h
    have hport := s.port_setPort_same p { s.port p with msixPending := (s.port p).msixPending.filter (fun v => v ≠ w) }
    rw [heq]
    unfold VectorSent
    simp only [State.port] at hport ⊢
    rw [hport]
    exact ⟨fun hv => hpending (List.mem_of_mem_filter hv), hout _ hsent⟩

theorem sent_flushVector (h : VectorSendable s p v) : VectorSent (flushVector s p v) p v := by
  rw [flushVector_of_sendable h]
  refine ⟨?_, List.mem_cons_self⟩
  rw [State.port_emit, State.port_setPort_same]
  simp

theorem sent_foldl_flushVector (l : List Nat) (s : State) (hv : v ∈ l) (h : VectorSendable s p v) :
    VectorSent (l.foldl (fun s w => flushVector s p w) s) p v := by
  have hstays : ∀ (l : List Nat) (s : State), VectorSent s p v → VectorSent (l.foldl (fun s w => flushVector s p w) s) p v := by
    intro l
    induction l with
    | nil => exact fun s hs => hs
    | cons w l ih => exact fun s hs => ih _ (hs.flushVector w)
  induction l generalizing s with
  | nil => simp at hv
  | cons w l ih =>
    rw [List.foldl_cons]
    by_cases hw : v = w
    · rw [← hw]
      exact hstays l _ (sent_flushVector h)
    · exact ih _ (List.mem_of_ne_of_mem hw hv) (h.flushVector_other hw)

/-- A pass over the vectors sends each one that nothing keeps back. -/
theorem sent_flushVectors (hv : v < 17) (h : VectorSendable s p v) : VectorSent (flushVectors s p) p v :=
  sent_foldl_flushVector _ s (List.mem_range.mpr hv) h

theorem flushVectors_tenants (s : State) (p : Nat) : (flushVectors s p).tenants = s.tenants := by
  have hfold : ∀ (l : List Nat) (s : State), (l.foldl (fun s w => flushVector s p w) s).tenants = s.tenants := by
    intro l
    induction l with
    | nil => exact fun s => rfl
    | cons w l ih => exact fun s => (ih _).trans (flushVector_tenants s p w)
  exact hfold _ s

end Vector

/-! ## Unmasking a vector (R518, R540) -/

theorem msixByte_writeMsixByte (x : Port) (off i : Nat) (b : Byte) :
    msixByte (writeMsixByte x off b) i = if i = off then b else msixByte x i := by
  unfold msixByte writeMsixByte
  split
  · next h => rw [h, tget_tset_same]
  · next h => rw [tget_tset_default _ _ _ _ _ _ h]

/-- A port with zero in the vector control of vector v. -/
def unmaskPort (x : Port) (v : Nat) : Port :=
  ((leBytes 4 0).zipIdx).foldl (fun (x : Port) e => writeMsixByte x (16 * v + 12 + e.2) e.1) x

/-- The vector control of v is zero, and every other byte of the table is as it was. -/
theorem msixByte_unmaskPort (x : Port) (v i : Nat) :
    msixByte (unmaskPort x v) i = if 16 * v + 12 ≤ i ∧ i < 16 * v + 16 then 0 else msixByte x i := by
  simp only [unmaskPort, leBytes, List.zipIdx_cons, List.zipIdx_nil, List.foldl_cons, List.foldl_nil, msixByte_writeMsixByte]
  grind

theorem msixMasked_unmaskPort_same (x : Port) (v : Nat) : msixMasked (unmaskPort x v) v = false := by
  rw [msixMasked, msixByte_unmaskPort, if_pos (by omega)]
  rfl

theorem msixMasked_unmaskPort_other (x : Port) {v w : Nat} (h : w ≠ v) : msixMasked (unmaskPort x v) w = msixMasked x w := by
  rw [msixMasked, msixByte_unmaskPort, if_neg (by omega)]
  rfl

theorem unmaskPort_eq (x : Port) (v : Nat) : ∃ table, unmaskPort x v = { x with msixTable := table } := by
  simp only [unmaskPort, leBytes, List.zipIdx_cons, List.zipIdx_nil, List.foldl_cons, List.foldl_nil, writeMsixByte]
  exact ⟨_, rfl⟩

theorem execMsixUnmask_of_reached {s : State} {p v : Nat} (hv : v < 17) (h : portReached s p = true) :
    execMsixUnmask p v s = .next (flushVector (s.setPort p (unmaskPort (s.port p) v)) p v) := by
  have hoff : 16 * v + 12 < 17 * 16 := by omega
  have hvector : (16 * v + 12) / 16 = v := by omega
  simp only [execMsixUnmask, h, if_true, writeBar4, if_pos hoff, hvector, Nat.zero_mod, ite_self]
  rfl

/-! ## The clauses of O25 -/

/-- The clause of O25 on MSIX_UNMASK. -/
theorem msixUnmask_sendsPending (p : Fin 4) (v : Fin 17) (s : State) (hreached : portReached s p = true)
    (henable : (s.port p).msixEnable = true) (hwritable : portWritable (s.port p) = true) :
    ∃ s', exec (.msixUnmask p v) s = .next s' ∧ msixMasked (s'.port p) v = false ∧ v.val ∉ (s'.port p).msixPending
      ∧ s'.out = (if v.val ∈ (s.port p).msixPending then .msix p v :: s.out else s.out) ∧ s'.tenants = s.tenants ∧ s'.mem = s.mem
      ∧ ∀ w : Fin 17, w ≠ v → msixMasked (s'.port p) w = msixMasked (s.port p) w := by
  have hrim : rimTaken s p = false := by
    simp only [portReached, Bool.and_eq_true, Bool.not_eq_true'] at hreached
    exact hreached.2
  have hsame := msixMasked_unmaskPort_same (s.port p) v
  have hother : ∀ w : Fin 17, w ≠ v → msixMasked (unmaskPort (s.port p) v) w = msixMasked (s.port p) w :=
    fun w hw => msixMasked_unmaskPort_other _ (fun heq => hw (Fin.ext heq))
  have hport := s.port_setPort_same p (unmaskPort (s.port p) v)
  obtain ⟨table, htable⟩ := unmaskPort_eq (s.port p) v
  refine ⟨_, execMsixUnmask_of_reached v.isLt hreached, ?_⟩
  by_cases hpending : v.val ∈ (s.port p).msixPending
  · have hsendable : VectorSendable (s.setPort p (unmaskPort (s.port p) v)) p v := by
      unfold VectorSendable
      rw [hport]
      exact ⟨by rw [htable]; exact henable, by rw [htable]; exact hpending, hsame, by rw [htable]; exact hwritable, hrim⟩
    obtain ⟨hcleared, -⟩ := sent_flushVector hsendable
    refine ⟨?_, hcleared, ?_, flushVector_tenants _ _ _, ?_, fun w hw => ?_⟩
    all_goals rw [flushVector_of_sendable hsendable]
    · rw [State.port_emit, State.port_setPort_same, hport]
      exact hsame
    · rw [if_pos hpending]; rfl
    · rfl
    · rw [State.port_emit, State.port_setPort_same, hport]
      exact hother w hw
  · have hnone : v.val ∉ ((s.setPort p (unmaskPort (s.port p) v)).port p).msixPending := by rw [hport, htable]; exact hpending
    rw [flushVector_of_not_pending hnone]
    refine ⟨by rw [hport]; exact hsame, hnone, by rw [if_neg hpending]; rfl, rfl, rfl, fun w hw => ?_⟩
    rw [hport]
    exact hother w hw

/-- The clause of O25 on an alert. -/
theorem sendMsix_pendingOrSent (p : Fin 4) (v : Nat) (s : State) (henable : (s.port p).msixEnable = true) :
    (msixMasked (s.port p) v = true → v ∈ ((sendMsix s p v).port p).msixPending ∧ (sendMsix s p v).out = s.out)
      ∧ (msixMasked (s.port p) v = false → portWritable (s.port p) = true → rimTaken s p = false →
        sendMsix s p v = s.emit (.msix p v)) := by
  refine ⟨fun hmasked => ?_, sendMsix_of_unmasked henable⟩
  obtain ⟨pending, heq, hv⟩ := sendMsix_of_masked henable hmasked
  rw [heq, State.port_setPort_same]
  exact ⟨hv, rfl⟩

/-- The clause of O25 on UNSUPPORTED_REQUEST. -/
theorem unsupportedRequest_answered (p : Fin 4) (what : BadRequest) (s : State) (h : portReached s p = true) :
    exec (.unsupportedRequest p what) s
      = .next ((s.setPort p { s.port p with aerUnsupported := true }).emit (.unsupported p)) := if_pos h

/-- Nothing is held or owed for a tenant. -/
def NothingHeld (x : Tenant) : Prop := x.heldResults = [] ∧ x.heldNotices = [] ∧ x.lostOwed = false

theorem resumeTenant_of_nothing_held {s : State} {t : Nat} (p : Nat) (h : NothingHeld (s.tenant t)) : resumeTenant s p t = s := by
  obtain ⟨hresults, hheld, hlost⟩ := h
  simp [resumeTenant, flushTenant, flushResults_of_none_held hresults, flushHeld_of_none_held 66 hheld hlost]

theorem foldl_resumeTenant_of_nothing_held (p : Nat) (l : List Nat) (s : State) (h : ∀ u ∈ l, NothingHeld (s.tenant u)) :
    l.foldl (fun s u => resumeTenant s p u) s = s := by
  induction l with
  | nil => rfl
  | cons u l ih =>
    rw [List.foldl_cons, resumeTenant_of_nothing_held p (h u List.mem_cons_self)]
    exact ih (fun w hw => h w (List.mem_cons_of_mem _ hw))

/-- Where something is held for one tenant alone, and nothing is left held, its turn is all of the pass over the tenants. -/
theorem foldl_resumeTenant_of_one_held {p t : Nat} (l : List Nat) (s : State) (ht : t ∈ l)
    (hothers : ∀ u ∈ l, u ≠ t → NothingHeld (s.tenant u)) (hafter : ∀ u ∈ l, NothingHeld ((resumeTenant s p t).tenant u)) :
    l.foldl (fun s u => resumeTenant s p u) s = resumeTenant s p t := by
  induction l with
  | nil => simp at ht
  | cons u l ih =>
    rw [List.foldl_cons]
    by_cases hu : u = t
    · rw [hu]
      exact foldl_resumeTenant_of_nothing_held p l _ (fun w hw => hafter w (List.mem_cons_of_mem _ hw))
    · rw [resumeTenant_of_nothing_held p (hothers u List.mem_cons_self hu)]
      exact ih (List.mem_of_ne_of_mem (Ne.symm hu) ht) (fun w hw => hothers w (List.mem_cons_of_mem _ hw))
        (fun w hw => hafter w (List.mem_cons_of_mem _ hw))

section Resume

variable {s : State} {p t : Nat} {b : List Byte}

/-- The one held notice of a tenant is written when its port can write again. -/
theorem resumeTenant_of_one_held (hready : ready s = true) (hbound : (s.tenant t).bound = true) (hport : (s.tenant t).hostPort = p)
    (hring : (s.tenant t).ringSet = true) (hused : (s.tenant t).ringUsed < 4096) (hwritable : portWritable (s.port p) = true)
    (hheld : (s.tenant t).heldNotices = [b]) (hlost : (s.tenant t).lostOwed = false) (hresults : (s.tenant t).heldResults = []) :
    resumeTenant s p t = writeHeld s t { s.tenant t with heldNotices := [] } b := by
  have hroom : noticeRoom s t = true := by simp [noticeRoom, hring, hbound, hport, hwritable, hused]
  obtain ⟨due, hafter⟩ := writeHeld_tenant (body := b) (show ringPlace { s.tenant t with heldNotices := [] } = ringPlace (s.tenant t) from rfl)
  have hwritten : flushHeld s t 66 = writeHeld s t { s.tenant t with heldNotices := [] } b := by
    rw [flushHeld_of_held 65 hroom hheld, flushHeld_of_none_held 65 (by rw [hafter]; rfl) (by rw [hafter]; exact hlost)]
  simp only [resumeTenant, hbound, hport, decide_true, Bool.and_self, if_true, flushTenant, hready, flushResults_of_none_held hresults,
    hwritten]

/-- The clause of O25 on a held notice, on a port that can write again, for a notice that fits an entry of the ring. -/
theorem resumePort_writesHeld (ht : t < 16) (hfits : b.length ≤ 32) (hrim : rimTaken s p = false) (hready : ready s = true)
    (hwritable : portWritable (s.port p) = true) (hbound : (s.tenant t).bound = true) (hport : (s.tenant t).hostPort = p)
    (hring : (s.tenant t).ringSet = true) (hused : (s.tenant t).ringUsed < 4096) (hheld : (s.tenant t).heldNotices = [b])
    (hlost : (s.tenant t).lostOwed = false) (hresults : (s.tenant t).heldResults = [])
    (hothers : ∀ u, u < 16 → u ≠ t → NothingHeld (s.tenant u)) :
    ((resumePort s p).tenant t).heldNotices = [] ∧ Notified s (resumePort s p) t b ∧ HostOnlySlot s (resumePort s p) t
      ∧ ∀ v, v ∈ (s.port p).msixPending → (s.port p).msixEnable = true → msixMasked (s.port p) v = false → v < 17 →
        VectorSent (resumePort s p) p v := by
  have hplace : ringPlace { s.tenant t with heldNotices := [] } = ringPlace (s.tenant t) := rfl
  have hrim' : rimTaken s (s.tenant t).hostPort = false := hport ▸ hrim
  have hturn := resumeTenant_of_one_held hready hbound hport hring hused hwritable hheld hlost hresults
  obtain ⟨due, htenant⟩ := writeHeld_tenant (body := b) hplace
  have hkept := otherTenants_writeHeld s t { s.tenant t with heldNotices := [] } b
  obtain ⟨pending, hafter, hsub⟩ := writeHeld_port s t { s.tenant t with heldNotices := [] } b p
  have hnotified := notified_writeHeld hplace hrim' hfits
  have honly := hostOnlySlot_writeHeld hplace hrim' hfits
  have hstill := (writeHeld_rimTaken (body := b) hplace p).trans hrim
  have hresume : resumePort s p = flushVectors (writeHeld s t { s.tenant t with heldNotices := [] } b) p := by
    rw [resumePort, foldl_resumeTenant_of_one_held _ s (List.mem_range.mpr ht) (fun u hu => hothers u (List.mem_range.mp hu)), hturn]
    intro u hu
    rw [hturn]
    by_cases hut : u = t
    · rw [hut, htenant]
      exact ⟨hresults, rfl, hlost⟩
    · rw [hkept u hut]
      exact hothers u (List.mem_range.mp hu) hut
  rw [hresume]
  generalize writeHeld s t { s.tenant t with heldNotices := [] } b = r at htenant hafter hnotified honly hstill
  have hsame : (flushVectors r p).tenant t = r.tenant t := by rw [State.tenant, flushVectors_tenants]; rfl
  refine ⟨by rw [hsame, htenant]; rfl, ?_, ?_, fun v hv henable hmasked hlt => sent_flushVectors hlt ?_⟩
  · unfold Notified at hnotified ⊢
    rwa [hsame, flushVectors_mem]
  · unfold HostOnlySlot at honly ⊢
    rwa [flushVectors_mem]
  · unfold VectorSendable
    rw [hafter]
    exact ⟨henable, hsub v hv, hmasked, hwritable, hstill⟩

end Resume

/-- The clause of O25 on a port's return from D3hot, for a held notice that fits an entry of the ring. -/
theorem portResume_writesHeld (p : Fin 4) (t : Fin 16) (b : List Byte) (s : State) (hfits : b.length ≤ 32) (hon : rimOn s p = true)
    (hrim : rimTaken s p = false) (hready : ready s = true) (hlink : (s.port p).linkUp = true) (hmaster : (s.port p).busMaster = true)
    (hbound : (s.tenant t).bound = true) (hport : (s.tenant t).hostPort = p) (hring : (s.tenant t).ringSet = true)
    (hused : (s.tenant t).ringUsed < 4096) (hheld : (s.tenant t).heldNotices = [b]) (hlost : (s.tenant t).lostOwed = false)
    (hothers : ∀ u : Fin 16, (s.tenant u).heldResults = []
      ∧ (u ≠ t → (s.tenant u).heldNotices = [] ∧ (s.tenant u).lostOwed = false)) :
    ∃ s', exec (.portResume p .d3hot) s = .next s' ∧ (s'.tenant t).heldNotices = [] ∧ Notified s s' t b ∧ HostOnlySlot s s' t
      ∧ (∀ v, v ∈ (s.port p).msixPending → (s.port p).msixEnable = true → msixMasked (s.port p) v = false → v < 17 →
          v ∉ (s'.port p).msixPending ∧ Output.msix p v ∈ s'.out) := by
  have hawake := s.port_setPort_same p { s.port p with d3hot := false }
  have hwritable : portWritable ((s.setPort p { s.port p with d3hot := false }).port p) = true := by
    rw [hawake, portWritable]
    simp [hlink, hmaster]
  have hnothing : ∀ u : Nat, u < 16 → u ≠ t → NothingHeld (s.tenant u) := fun u hu hne =>
    ⟨(hothers ⟨u, hu⟩).1, (hothers ⟨u, hu⟩).2 (fun h => hne (congrArg Fin.val h))⟩
  obtain ⟨hwritten, hnotified, honly, hsent⟩ := resumePort_writesHeld (s := s.setPort p { s.port p with d3hot := false }) t.isLt hfits
    hrim hready hwritable hbound hport hring hused hheld hlost (hothers t).1 hnothing
  rw [hawake] at hsent
  exact ⟨_, by simp only [exec, execPortResume, hon, Bool.not_true, Bool.false_eq_true, if_false], hwritten, hnotified, honly, hsent⟩

/-- Port 0 sleeps in D3hot with one notice of tenant 0 held, of 33 bytes, one more than an entry of the ring has. -/
def overlongAsleep : State :=
  { overlongHeld with
    rims := [(0, { power := .good })]
    ports := [(0, { linkUp := true, busMaster := true, d3hot := true })]
    tenants := [(0, { enabled := true, bound := true, ringSet := true, heldNotices := [zeros 33] })] }

/-- Refutes O25: its clause on the return from D3hot takes any list of bytes for the held notice. One of 33 bytes is written whole, and no
32 bytes read back are equal to it. No notice of R291 and R374 to R377 has more than 32; for one that fits, that clause holds
(portResume_writesHeld), and the other clauses hold as they stand (msixUnmask_sendsPending, sendMsix_pendingOrSent,
unsupportedRequest_answered). -/
theorem not_msixAndHeldNotices : ¬ Obligations.MsixAndHeldNotices := by
  unfold Obligations.MsixAndHeldNotices
  rintro ⟨-, hresumed⟩
  obtain ⟨s', -, -, ⟨hread, -, -⟩, -⟩ := hresumed 0 0 (zeros 33) overlongAsleep (by decide) (by decide) (by decide) (by decide) (by decide)
    (by decide) (by decide) (by decide) (by decide) (by decide) (by decide) (by decide)
  have hslot : (slotBytes overlongAsleep 0 (zeros 33)).length = 33 := by decide
  have hlen := congrArg List.length hread
  rw [readBytes_length] at hlen
  exact absurd (hlen.trans hslot) (by decide)

end Sys2Proof.Machine

/-!
The canonical form of the memories (11, 13): every command keeps it, and with it every step; each command's own law is cited.
-/

namespace Sys2Proof.Machine

theorem resAll_sound_of_mem {s : State} {r : Res} (hr : ResAll (fun t => t.mem = s.mem) r) (h : s.mem.wf = true) :
    ResAll (fun t => t.mem.wf = true) r := by
  cases r with
  | next t => exact (congrArg Mems.wf hr).trans h
  | fault e => trivial
  | refused e => trivial

theorem exec_sound (c : Instr) (s : State) (h : s.mem.wf = true) : ResAll (fun t => t.mem.wf = true) (exec c s) := by
  cases c with
  | postWrite p t off ep data => exact resAll_sound_of_mem (execPostWrite_mem p t off ep data s) h
  | pumphouseVisit => exact execPumphouseVisit_sound s h
  | clause t => exact execClause_sound t s h
  | badType t => exact execBadType_sound t s h
  | ringSetup t => exact execRingSetup_sound t s h
  | planLoad t => exact execPlanLoad_sound t s h
  | planLoadDone t => exact execPlanLoadDone_sound t s h
  | planUnload t => exact execPlanUnload_sound t s h
  | queueClear t => exact execQueueClear_sound t s h
  | resetTenant t => exact execResetTenant_sound t s h
  | resetRegion t => exact execResetRegion_sound t s h
  | resetField t => exact execResetField_sound t s h
  | fieldResetOutcome f => exact execFieldResetOutcome_sound f s h
  | epochIncrement t => exact execEpochIncrement_sound t s h
  | resetReply t => exact execResetReply_sound t s h
  | sessionOpen t => exact execSessionOpen_sound t s h
  | sessionClose t => exact execSessionClose_sound t s h
  | queryTopology t => exact execQueryTopology_sound t s h
  | queryTenantStatus t => exact execQueryTenantStatus_sound t s h
  | queryInFlightTags t => exact execQueryInFlightTags_sound t s h
  | queryLedger t => exact execQueryLedger_sound t s h
  | queryTelemetry t => exact execQueryTelemetry_sound t s h
  | ping t => exact execPing_sound t s h
  | tenantConfig t => exact execTenantConfig_sound t s h
  | tenantConfigDone t => exact execTenantConfigDone_sound t s h
  | fwStage t => exact execFwStage_sound t s h
  | fwStageDone deviceOk => exact execFwStageDone_sound deviceOk s h
  | fwActivate t => exact execFwActivate_sound t s h
  | requalify t => exact execRequalify_sound t s h
  | requalifyDone deviceOk => exact execRequalifyDone_sound deviceOk s h
  | overrunClear p t ep => exact execOverrunClear_sound p t ep s h
  | malformedClear p t ep => exact execMalformedClear_sound p t ep s h
  | noticeHeadWrite p t value ep => exact execNoticeHeadWrite_sound p t value ep s h
  | noticeLostClear p t ep => exact execNoticeLostClear_sound p t ep s h
  | alertStatusClear p value ep => exact execAlertStatusClear_sound p value ep s h
  | forceFailover p value ep => exact execForceFailover_sound p value ep s h
  | registerWrite p space off ep enables data => exact execRegisterWrite_sound p space off ep enables data s h
  | bar2Write p off relaxed ep ecc data => exact execBar2Write_sound p off relaxed ep ecc data s h
  | bar2Read p off len ecc => exact execBar2Read_sound p off len ecc s h
  | unsupportedRequest p what => exact resAll_sound_of_mem (execUnsupportedRequest_mem p what s) h
  | msixUnmask p v => exact resAll_sound_of_mem (execMsixUnmask_mem p v s) h
  | portLinkUp p receptacle0 => exact execPortLinkUp_sound p receptacle0 s h
  | portLinkDown p cause => exact resAll_sound_of_mem (execPortLinkDown_mem p cause s) h
  | portResume p cause => exact execPortResume_sound p cause s h
  | hotReset p => exact resAll_sound_of_mem (execHotReset_mem p s) h
  | perst receptacle => exact resAll_sound_of_mem (execPerst_mem receptacle s) h
  | clusterWake k => exact resAll_sound_of_mem (execClusterWake_mem k s) h
  | polledWake k => exact resAll_sound_of_mem (execPolledWake_mem k s) h
  | clusterDormant k => exact resAll_sound_of_mem (execClusterDormant_mem k s) h
  | slotTake k => exact resAll_sound_of_mem (execSlotTake_mem k s) h
  | landingComplete k ecc => exact execLandingComplete_sound k ecc s h
  | weightBlockLoad k => exact execWeightBlockLoad_sound k s h
  | passIssue k => exact execPassIssue_sound k s h
  | passCommit k => exact resAll_sound_of_mem (execPassCommit_mem k s) h
  | settlementEffect k => exact resAll_sound_of_mem (execSettlementEffect_mem k s) h
  | bankCombine k bank => exact resAll_sound_of_mem (execBankCombine_mem k bank s) h
  | requantVector k => exact execRequantVector_sound k s h
  | hashUpdate k => exact resAll_sound_of_mem (execHashUpdate_mem k s) h
  | spillRecordWrite k => exact execSpillRecordWrite_sound k s h
  | hashDrain k => exact execHashDrain_sound k s h
  | rankAccept k => exact execRankAccept_sound k s h
  | rankFloorUpdate k => exact resAll_sound_of_mem (execRankFloorUpdate_mem k s) h
  | rankGroupClose k => exact execRankGroupClose_sound k s h
  | l2TileBoundary k => exact execL2TileBoundary_sound k s h
  | contextRestore k => exact execContextRestore_sound k s h
  | outWriteBack k ecc => exact execOutWriteBack_sound k ecc s h
  | mergeSlotGrant k => exact execMergeSlotGrant_sound k s h
  | mergeStep k => exact resAll_sound_of_mem (execMergeStep_mem k s) h
  | clauseComplete t tag => exact execClauseComplete_sound t tag s h
  | contract t tag => exact execContract_sound t tag s h
  | contractSparse t tag => exact execContractSparse_sound t tag s h
  | pointwisePass t run => exact execPointwisePass_sound t run s h
  | pointwiseAdd t run => exact execPointwiseAdd_sound t run s h
  | pointwiseSub t run => exact execPointwiseSub_sound t run s h
  | pointwiseMul t run => exact execPointwiseMul_sound t run s h
  | pointwiseMax t run => exact execPointwiseMax_sound t run s h
  | pointwiseMin t run => exact execPointwiseMin_sound t run s h
  | reduceSum t run => exact execReduceSum_sound t run s h
  | reduceMax t run => exact execReduceMax_sound t run s h
  | reduceMin t run => exact execReduceMin_sound t run s h
  | reduceKeyed t run => exact execReduceKeyed_sound t run s h
  | rankElements t run => exact execRankElements_sound t run s h
  | rankListMerge t run => exact execRankListMerge_sound t run s h
  | gather t run => exact execGather_sound t run s h
  | scatter t run => exact execScatter_sound t run s h
  | pumpMapped t run => exact execPumpMapped_sound t run s h
  | pumpBytes t run => exact execPumpBytes_sound t run s h
  | compress t run => exact execCompress_sound t run s h
  | expand t run => exact execExpand_sound t run s h
  | bind t prio => exact execBind_sound t prio s h
  | signal t tag => exact execSignal_sound t tag s h
  | wait t tag => exact execWait_sound t tag s h
  | waitTimeout t tag => exact execWaitTimeout_sound t tag s h
  | fence t tag => exact execFence_sound t tag s h
  | save t run => exact execSave_sound t run s h
  | restore t run => exact execRestore_sound t run s h
  | maskloadS24 t run => exact execMaskloadS24_sound t run s h
  | maskloadS24T t run => exact execMaskloadS24T_sound t run s h
  | lutload t run => exact execLutload_sound t run s h
  | read pkt ecc => exact execRead_sound pkt ecc s h
  | write pkt ecc => exact execWrite_sound pkt ecc s h
  | readData pkt => exact execReadData_sound pkt s h
  | writeAck pkt => exact execWriteAck_sound pkt s h
  | nack pkt => exact execNack_sound pkt s h
  | control msg => exact resAll_sound_of_mem (execControl_mem msg s) h
  | requestTimeout txn => exact execRequestTimeout_sound txn s h
  | peerInboxPoll => exact resAll_sound_of_mem (execPeerInboxPoll_mem s) h
  | frameReceive l fec frame => exact resAll_sound_of_mem (execFrameReceive_mem l fec frame s) h
  | skipFrame l => exact resAll_sound_of_mem (execSkipFrame_mem l s) h
  | laneFailure l lane => exact resAll_sound_of_mem (execLaneFailure_mem l lane s) h
  | linkTrainingDone l ok => exact resAll_sound_of_mem (execLinkTrainingDone_mem l ok s) h
  | linkRetry l => exact resAll_sound_of_mem (execLinkRetry_mem l s) h
  | linkHoldExpiry l => exact resAll_sound_of_mem (execLinkHoldExpiry_mem l s) h
  | qsfpInsert l watts => exact resAll_sound_of_mem (execQsfpInsert_mem l watts s) h
  | qsfpRemove l => exact resAll_sound_of_mem (execQsfpRemove_mem l s) h
  | hello => exact resAll_sound_of_mem (execHello_mem s) h
  | links => exact resAll_sound_of_mem (execLinks_mem s) h
  | map => exact resAll_sound_of_mem (execMap_mem s) h
  | routes => exact resAll_sound_of_mem (execRoutes_mem s) h
  | status => exact resAll_sound_of_mem (execStatus_mem s) h
  | switch => exact resAll_sound_of_mem (execSwitch_mem s) h
  | switchPauseEnd => exact resAll_sound_of_mem (execSwitchPauseEnd_mem s) h
  | primary => exact resAll_sound_of_mem (execPrimary_mem s) h
  | peerMessageRepeat kind => exact resAll_sound_of_mem (execPeerMessageRepeat_mem kind s) h
  | linkTrainExit => exact resAll_sound_of_mem (execLinkTrainExit_mem s) h
  | electSettle => exact execElectSettle_sound s h
  | discoveryWindow => exact resAll_sound_of_mem (execDiscoveryWindow_mem s) h
  | mapTimeout => exact resAll_sound_of_mem (execMapTimeout_mem s) h
  | waferAbsent w => exact resAll_sound_of_mem (execWaferAbsent_mem w s) h
  | heartbeatTick => exact resAll_sound_of_mem (execHeartbeatTick_mem s) h
  | heartbeatWatchdog => exact execHeartbeatWatchdog_sound s h
  | failover => exact execFailover_sound s h
  | inputPowerUp mV => exact execInputPowerUp_sound mV s h
  | powerGoodTimeout pos => exact resAll_sound_of_mem (execPowerGoodTimeout_mem pos s) h
  | undervoltage mV => exact execUndervoltage_sound mV s h
  | inputOvervoltage mV => exact execInputOvervoltage_sound mV s h
  | overvoltageRecovery mV => exact execOvervoltageRecovery_sound mV s h
  | enable level => exact execEnable_sound level s h
  | standbyStart mV => exact execStandbyStart_sound mV s h
  | lidOpen => exact execLidOpen_sound s h
  | currentSample dA mV => exact resAll_sound_of_mem (execCurrentSample_mem dA mV s) h
  | thermalSample k quarterC => exact execThermalSample_sound k quarterC s h
  | vpmFault f => exact execVpmFault_sound f s h
  | coolantSample inletD outletD flowD => exact execCoolantSample_sound inletD outletD flowD s h
  | avfsAdjust k slack => exact resAll_sound_of_mem (execAvfsAdjust_mem k slack s) h
  | stepChange k => exact resAll_sound_of_mem (execStepChange_mem k s) h
  | fllWindow k cycles => exact resAll_sound_of_mem (execFllWindow_mem k cycles s) h
  | referenceLoss q => exact resAll_sound_of_mem (execReferenceLoss_mem q s) h
  | clusterReparent q => exact resAll_sound_of_mem (execClusterReparent_mem q s) h
  | agingMeasure k d => exact resAll_sound_of_mem (execAgingMeasure_mem k d s) h
  | telemetryRefresh => exact resAll_sound_of_mem (execTelemetryRefresh_mem s) h
  | ddrRefresh ch deviceC => exact resAll_sound_of_mem (execDdrRefresh_mem ch deviceC s) h
  | patrolScrub line found => exact execPatrolScrub_sound line found s h
  | ondieScrubRead ch errors => exact resAll_sound_of_mem (execOndieScrubRead_mem ch errors s) h
  | ddrTraining r dimms => exact resAll_sound_of_mem (execDdrTraining_mem r dimms s) h
  | statusWord => exact resAll_sound_of_mem (execStatusWord_mem s) h
  | iinOcWarnLimit write => exact resAll_sound_of_mem (execIinOcWarnLimit_mem write s) h
  | readVin => exact resAll_sound_of_mem (execReadVin_mem s) h
  | readIin => exact resAll_sound_of_mem (execReadIin_mem s) h
  | readPin => exact resAll_sound_of_mem (execReadPin_mem s) h
  | readTemperature1 => exact resAll_sound_of_mem (execReadTemperature1_mem s) h
  | mfrPolicyCeiling write => exact resAll_sound_of_mem (execMfrPolicyCeiling_mem write s) h
  | mfrFieldCeiling write => exact resAll_sound_of_mem (execMfrFieldCeiling_mem write s) h
  | mfrTelemetryPage page => exact resAll_sound_of_mem (execMfrTelemetryPage_mem page s) h
  | mfrTelemetryRead => exact resAll_sound_of_mem (execMfrTelemetryRead_mem s) h
  | pmbusUnsupported code => exact resAll_sound_of_mem (execPmbusUnsupported_mem code s) h
  | agentConnect cert => exact resAll_sound_of_mem (execAgentConnect_mem cert s) h
  | pmbus sess tag payload => exact execPmbus_sound sess tag payload s h
  | telemetry sess tag payload => exact execTelemetry_sound sess tag payload s h
  | eepromRead sess tag payload => exact execEepromRead_sound sess tag payload s h
  | statusRead sess tag payload => exact execStatusRead_sound sess tag payload s h
  | fabricConfig sess tag payload => exact execFabricConfig_sound sess tag payload s h
  | fabricConfigStore deviceOk => exact execFabricConfigStore_sound deviceOk s h
  | powerOff sess tag payload => exact execPowerOff_sound sess tag payload s h
  | powerOn sess tag payload => exact execPowerOn_sound sess tag payload s h
  | powerCycle sess tag payload => exact execPowerCycle_sound sess tag payload s h
  | powerCycleResume => exact execPowerCycleResume_sound s h
  | holdAssert sess tag payload => exact execHoldAssert_sound sess tag payload s h
  | holdRelease sess tag payload => exact execHoldRelease_sound sess tag payload s h
  | flashRead sess tag payload => exact execFlashRead_sound sess tag payload s h
  | flashErase sess tag payload => exact execFlashErase_sound sess tag payload s h
  | flashProgram sess tag payload => exact execFlashProgram_sound sess tag payload s h
  | netConfig sess tag payload => exact execNetConfig_sound sess tag payload s h
  | trustSet sess tag payload => exact execTrustSet_sound sess tag payload s h
  | badCmd sess tag code => exact execBadCmd_sound sess tag code s h
  | serviceHold3s => exact resAll_sound_of_mem (execServiceHold3s_mem s) h
  | serviceHold15s => exact resAll_sound_of_mem (execServiceHold15s_mem s) h
  | trustWindowExpiry => exact resAll_sound_of_mem (execTrustWindowExpiry_mem s) h
  | pumphouseBoot => exact execPumphouseBoot_sound s h
  | firmwareStartTimeout => exact execFirmwareStartTimeout_sound s h
  | referenceLock q src => exact resAll_sound_of_mem (execReferenceLock_mem q src s) h
  | referenceLockTimeout => exact resAll_sound_of_mem (execReferenceLockTimeout_mem s) h
  | coordinateClaim q x y => exact resAll_sound_of_mem (execCoordinateClaim_mem q x y s) h
  | floodTimeout => exact resAll_sound_of_mem (execFloodTimeout_mem s) h
  | neighbourTestRound reports slotFails => exact execNeighbourTestRound_sound reports slotFails s h
  | ledgerStore deviceOk => exact execLedgerStore_sound deviceOk s h
  | generationSectorErase deviceOk => exact execGenerationSectorErase_sound deviceOk s h
  | testLogicReset r => exact resAll_sound_of_mem (execTestLogicReset_mem r s) h
  | extest r pins => exact resAll_sound_of_mem (execExtest_mem r pins s) h
  | idcode r => exact resAll_sound_of_mem (execIdcode_mem r s) h
  | samplePreload r pins => exact resAll_sound_of_mem (execSamplePreload_mem r pins s) h
  | clamp r => exact resAll_sound_of_mem (execClamp_mem r s) h
  | highz r => exact resAll_sound_of_mem (execHighz_mem r s) h
  | bypass r opcode => exact resAll_sound_of_mem (execBypass_mem r opcode s) h
  | powerGood pos => exact resAll_sound_of_mem (execPowerGood_mem pos s) h
  | standbyLoss mV => exact execStandbyLoss_sound mV s h
  | agentDisconnect sess => exact resAll_sound_of_mem (execAgentDisconnect_mem sess s) h
  | engineReadCompletion st ep data => exact execEngineReadCompletion_sound st ep data s h
  | completionTimeout => exact execCompletionTimeout_sound s h

theorem step_sound (s : State) (h : s.mem.wf = true) : ResAll (fun t => t.mem.wf = true) (step s) := by
  unfold step
  split
  · exact h
  · next c rest _ => exact exec_sound c _ h

/-- Settles O3: every command, and the idle microsecond, keeps the canonical form. -/
theorem memoryFormKept : Obligations.MemoryFormKept := by
  intro s t h hstep
  have hall := step_sound s h
  rw [hstep] at hall
  exact hall

end Sys2Proof.Machine

/-!
No command is refused (95): each answers a next state, or the fault of R637 where the input it brings is above 65 V. First the operations
that many commands share, then the commands.
-/

namespace Sys2Proof.Machine

/-- An outcome of a command that brings an input of mV: a next state, or a fault above 65 V. -/
def Answers (mV : Nat) : Res → Prop
  | .next _ => True
  | .fault _ => 65000 < mV
  | .refused _ => False

theorem answers_next (mV : Nat) (t : State) : Answers mV (.next t) := trivial

theorem answers_ite {mV : Nat} {c : Prop} [Decidable c] {a b : Res} (ha : Answers mV a) (hb : Answers mV b) :
    Answers mV (if c then a else b) := by
  split
  · exact ha
  · exact hb

section
variable (mV : Nat) (s : State)

theorem onMessage_answers (t type : Nat) (f : State → List Word → State) : Answers mV (onMessage s t type f) := by
  unfold onMessage
  split <;> trivial

theorem onReset_answers (t : Nat) (kinds : List Nat) (f : State → List Word → State) : Answers mV (onReset s t kinds f) := by
  unfold onReset
  split
  · trivial
  · split
    · exact onMessage_answers mV s t _ _
    · trivial

theorem onQuery_answers (t : Nat) (whats : List Nat) (f : State → List Word → State) : Answers mV (onQuery t whats f s) := by
  unfold onQuery
  split
  · trivial
  · split
    · exact onMessage_answers mV s t _ _
    · trivial

theorem onVerb_answers (t : Nat) (tag : BitVec 16) (ok : Clause → Bool) (isReady : State → Flight → Bool)
    (body : State → Flight → List Job → State) : Answers mV (onVerb s t tag ok isReady body) := by
  unfold onVerb
  split
  · trivial
  · dsimp only
    split <;> trivial

theorem contraction_answers (verb t : Nat) (tag : BitVec 16) : Answers mV (contraction verb t tag s) := by
  unfold contraction
  split
  · trivial
  · split <;> trivial

theorem hostRegWrite_answers (p off v : Nat) (ep : Bool) : Answers mV (hostRegWrite s p off v ep) := by
  unfold hostRegWrite
  split
  · trivial
  · split <;> trivial

theorem withInput_answers (f : State → State) : Answers mV (withInput mV s f) := by
  unfold withInput
  split
  · next h => exact h
  · trivial

theorem pmbusTarget_answers (f : State → State) : Answers mV (pmbusTarget s f) := by
  unfold pmbusTarget
  split <;> trivial

theorem onSession_answers (sess : Nat) (f : State → State) : Answers mV (onSession s sess f) := by
  unfold onSession
  split <;> trivial

theorem onPacket_answers (kind : Nat) (p : Packet) (f : State → State) : Answers mV (onPacket s kind p f) := by
  unfold onPacket
  split <;> trivial

theorem onPeer_answers (f : State → PeerBody → Option State) : Answers mV (onPeer s f) := by
  unfold onPeer
  split
  · split
    · trivial
    · split <;> trivial
  · trivial

/-! ## The commands with cases of their own -/

theorem execPostWrite_answers (p t : Nat) (off : Nat) (ep : Bool) (data : List Byte) : Answers 0 (execPostWrite p t off ep data s) := by
  simp only [execPostWrite]
  (repeat' apply answers_ite) <;> exact answers_next _ _

theorem execPumphouseVisit_answers : Answers 0 (execPumphouseVisit s) := by
  simp only [execPumphouseVisit]
  (repeat' apply answers_ite) <;> exact answers_next _ _

theorem execClause_answers (t : Nat) : Answers 0 (execClause t s) := by
  simp only [execClause]
  (repeat' split) <;> exact answers_next _ _

theorem execBadType_answers (t : Nat) : Answers 0 (execBadType t s) := by
  simp only [execBadType]
  (repeat' split) <;> exact answers_next _ _

theorem execPlanLoadDone_answers (t : Nat) : Answers 0 (execPlanLoadDone t s) := by
  simp only [execPlanLoadDone]
  (repeat' split) <;> exact answers_next _ _

theorem execEpochIncrement_answers (t : Nat) : Answers 0 (execEpochIncrement t s) := by
  simp only [execEpochIncrement]
  (repeat' split) <;> exact answers_next _ _

theorem execResetReply_answers (t : Nat) : Answers 0 (execResetReply t s) := by
  simp only [execResetReply]
  (repeat' split) <;> exact answers_next _ _

theorem execFwStageDone_answers (deviceOk : Bool) : Answers 0 (execFwStageDone deviceOk s) := by
  simp only [execFwStageDone]
  (repeat' split) <;> exact answers_next _ _

theorem execRequalifyDone_answers (deviceOk : Bool) : Answers 0 (execRequalifyDone deviceOk s) := by
  simp only [execRequalifyDone]
  (repeat' split) <;> exact answers_next _ _

theorem execRegisterWrite_answers (p : Nat) (space : RegSpace) (off : Nat) (ep : Bool) (enables : List Bool) (data : List Byte) :
    Answers 0 (execRegisterWrite p space off ep enables data s) := by
  simp only [execRegisterWrite]
  (repeat' split) <;> exact answers_next _ _

theorem execBar2Write_answers (p off : Nat) (relaxed ep : Bool) (ecc : ScrubFinding) (data : List Byte) :
    Answers 0 (execBar2Write p off relaxed ep ecc data s) := by
  simp only [execBar2Write]
  (repeat' apply answers_ite) <;> exact answers_next _ _

theorem execBar2Read_answers (p off len : Nat) (ecc : Ecc) : Answers 0 (execBar2Read p off len ecc s) := by
  simp only [execBar2Read]
  (repeat' split) <;> exact answers_next _ _

theorem execUnsupportedRequest_answers (p : Nat) (_what : BadRequest) : Answers 0 (execUnsupportedRequest p _what s) := by
  simp only [execUnsupportedRequest]
  (repeat' apply answers_ite) <;> exact answers_next _ _

theorem execMsixUnmask_answers (p v : Nat) : Answers 0 (execMsixUnmask p v s) := by
  simp only [execMsixUnmask]
  (repeat' apply answers_ite) <;> exact answers_next _ _

theorem execPortLinkUp_answers (p : Nat) (receptacle0 : Bool) : Answers 0 (execPortLinkUp p receptacle0 s) := by
  simp only [execPortLinkUp]
  (repeat' apply answers_ite) <;> exact answers_next _ _

theorem execPortLinkDown_answers (p : Nat) (cause : PortCause) : Answers 0 (execPortLinkDown p cause s) := by
  simp only [execPortLinkDown]
  (repeat' split) <;> exact answers_next _ _

theorem execPortResume_answers (p : Nat) (cause : PortCause) : Answers 0 (execPortResume p cause s) := by
  simp only [execPortResume]
  (repeat' split) <;> exact answers_next _ _

theorem execHotReset_answers (p : Nat) : Answers 0 (execHotReset p s) := answers_next _ _

theorem execPerst_answers (receptacle : Nat) : Answers 0 (execPerst receptacle s) := by
  simp only [execPerst]
  (repeat' apply answers_ite) <;> exact answers_next _ _

theorem execClusterWake_answers (k : Nat) : Answers 0 (execClusterWake k s) := by
  simp only [execClusterWake]
  (repeat' apply answers_ite) <;> exact answers_next _ _

theorem execPolledWake_answers (k : Nat) : Answers 0 (execPolledWake k s) := by
  simp only [execPolledWake]
  (repeat' apply answers_ite) <;> exact answers_next _ _

theorem execClusterDormant_answers (k : Nat) : Answers 0 (execClusterDormant k s) := by
  simp only [execClusterDormant]
  (repeat' split) <;> exact answers_next _ _

theorem execSlotTake_answers (k : Nat) : Answers 0 (execSlotTake k s) := by
  simp only [execSlotTake]
  (repeat' split) <;> exact answers_next _ _

theorem execLandingComplete_answers (k : Nat) (ecc : Ecc) : Answers 0 (execLandingComplete k ecc s) := by
  simp only [execLandingComplete]
  (repeat' split) <;> exact answers_next _ _

theorem execWeightBlockLoad_answers (k : Nat) : Answers 0 (execWeightBlockLoad k s) := by
  simp only [execWeightBlockLoad]
  (repeat' split) <;> exact answers_next _ _

theorem execPassIssue_answers (k : Nat) : Answers 0 (execPassIssue k s) := by
  simp only [execPassIssue]
  (repeat' split) <;> exact answers_next _ _

theorem execPassCommit_answers (k : Nat) : Answers 0 (execPassCommit k s) := by
  simp only [execPassCommit]
  (repeat' split) <;> exact answers_next _ _

theorem execSettlementEffect_answers (k : Nat) : Answers 0 (execSettlementEffect k s) := by
  simp only [execSettlementEffect]
  (repeat' split) <;> exact answers_next _ _

theorem execBankCombine_answers (k : Nat) (bank : Nat) : Answers 0 (execBankCombine k bank s) := answers_next _ _

theorem execRequantVector_answers (u : UnitRun) : Answers 0 (execRequantVector u s) := by
  simp only [execRequantVector, requantVector]
  (repeat' split) <;> exact answers_next _ _

theorem execHashUpdate_answers (k : Nat) : Answers 0 (execHashUpdate k s) := by
  simp only [execHashUpdate]
  (repeat' split) <;> exact answers_next _ _

theorem execSpillRecordWrite_answers (k : Nat) : Answers 0 (execSpillRecordWrite k s) := by
  simp only [execSpillRecordWrite]
  (repeat' split) <;> exact answers_next _ _

theorem execHashDrain_answers (k : Nat) : Answers 0 (execHashDrain k s) := by
  simp only [execHashDrain]
  (repeat' split) <;> exact answers_next _ _

theorem execRankAccept_answers (k : Nat) : Answers 0 (execRankAccept k s) := by
  simp only [execRankAccept]
  (repeat' split) <;> exact answers_next _ _

theorem execRankFloorUpdate_answers (k : Nat) : Answers 0 (execRankFloorUpdate k s) := by
  simp only [execRankFloorUpdate]
  (repeat' split) <;> exact answers_next _ _

theorem execRankGroupClose_answers (k : Nat) : Answers 0 (execRankGroupClose k s) := by
  simp only [execRankGroupClose]
  (repeat' split) <;> exact answers_next _ _

theorem execL2TileBoundary_answers (k : Nat) : Answers 0 (execL2TileBoundary k s) := by
  simp only [execL2TileBoundary]
  (repeat' split) <;> exact answers_next _ _

theorem execContextRestore_answers (u : UnitRun) : Answers 0 (execContextRestore u s) := by
  simp only [execContextRestore, restoreContext]
  (repeat' split) <;> exact answers_next _ _

theorem execOutWriteBack_answers (k : Nat) (ecc : Ecc) : Answers 0 (execOutWriteBack k ecc s) := by
  simp only [execOutWriteBack]
  (repeat' split) <;> exact answers_next _ _

theorem execMergeSlotGrant_answers (k : Nat) : Answers 0 (execMergeSlotGrant k s) := by
  simp only [execMergeSlotGrant]
  (repeat' split) <;> exact answers_next _ _

theorem execMergeStep_answers (k : Nat) : Answers 0 (execMergeStep k s) := by
  simp only [execMergeStep]
  (repeat' split) <;> exact answers_next _ _

theorem execClauseComplete_answers (t : Nat) (tag : BitVec 16) : Answers 0 (execClauseComplete t tag s) := by
  simp only [execClauseComplete]
  (repeat' split) <;> exact answers_next _ _

theorem execBind_answers (t : Nat) (prio : Nat) : Answers 0 (execBind t prio s) := by
  simp only [execBind]
  (repeat' split) <;> exact answers_next _ _

theorem execSignal_answers (t : Nat) (tag : BitVec 16) : Answers 0 (execSignal t tag s) := by
  simp only [execSignal]
  (repeat' split) <;> exact answers_next _ _

theorem execWait_answers (t : Nat) (tag : BitVec 16) : Answers 0 (execWait t tag s) := by
  simp only [execWait]
  (repeat' split) <;> exact answers_next _ _

theorem execWaitTimeout_answers (t : Nat) (tag : BitVec 16) : Answers 0 (execWaitTimeout t tag s) := by
  simp only [execWaitTimeout]
  (repeat' split) <;> exact answers_next _ _

theorem execFence_answers (t : Nat) (tag : BitVec 16) : Answers 0 (execFence t tag s) := by
  simp only [execFence]
  (repeat' split) <;> exact answers_next _ _

theorem execRequestTimeout_answers (txn : Nat) : Answers 0 (execRequestTimeout txn s) := by
  simp only [execRequestTimeout]
  (repeat' split) <;> exact answers_next _ _

theorem execPeerInboxPoll_answers : Answers 0 (execPeerInboxPoll s) := by
  simp only [execPeerInboxPoll]
  (repeat' apply answers_ite) <;> exact answers_next _ _

theorem execFrameReceive_answers (l : Nat) (fec : Option Nat) (frame : List Byte) : Answers 0 (execFrameReceive l fec frame s) := by
  simp only [execFrameReceive]
  (repeat' apply answers_ite) <;> exact answers_next _ _

theorem execSkipFrame_answers (l : Nat) : Answers 0 (execSkipFrame l s) := by
  simp only [execSkipFrame]
  (repeat' apply answers_ite) <;> exact answers_next _ _

theorem execLaneFailure_answers (l lane : Nat) : Answers 0 (execLaneFailure l lane s) := by
  simp only [execLaneFailure]
  (repeat' split) <;> exact answers_next _ _

theorem execLinkTrainingDone_answers (l : Nat) (ok : Bool) : Answers 0 (execLinkTrainingDone l ok s) := by
  simp only [execLinkTrainingDone]
  (repeat' split) <;> exact answers_next _ _

theorem execLinkRetry_answers (l : Nat) : Answers 0 (execLinkRetry l s) := by
  simp only [execLinkRetry]
  (repeat' apply answers_ite) <;> exact answers_next _ _

theorem execLinkHoldExpiry_answers (l : Nat) : Answers 0 (execLinkHoldExpiry l s) := by
  simp only [execLinkHoldExpiry]
  (repeat' apply answers_ite) <;> exact answers_next _ _

theorem execQsfpInsert_answers (l watts : Nat) : Answers 0 (execQsfpInsert l watts s) := by
  simp only [execQsfpInsert]
  (repeat' apply answers_ite) <;> exact answers_next _ _

theorem execQsfpRemove_answers (l : Nat) : Answers 0 (execQsfpRemove l s) := by
  simp only [execQsfpRemove]
  (repeat' apply answers_ite) <;> exact answers_next _ _

theorem execSwitchPauseEnd_answers : Answers 0 (execSwitchPauseEnd s) := by
  simp only [execSwitchPauseEnd]
  (repeat' split) <;> exact answers_next _ _

theorem execPeerMessageRepeat_answers (kind : PeerType) : Answers 0 (execPeerMessageRepeat kind s) := by
  simp only [execPeerMessageRepeat]
  (repeat' split) <;> exact answers_next _ _

theorem execLinkTrainExit_answers : Answers 0 (execLinkTrainExit s) := by
  simp only [execLinkTrainExit]
  (repeat' apply answers_ite) <;> exact answers_next _ _

theorem execElectSettle_answers : Answers 0 (execElectSettle s) := by
  simp only [execElectSettle]
  (repeat' apply answers_ite) <;> exact answers_next _ _

theorem execDiscoveryWindow_answers : Answers 0 (execDiscoveryWindow s) := by
  simp only [execDiscoveryWindow]
  (repeat' apply answers_ite) <;> exact answers_next _ _

theorem execMapTimeout_answers : Answers 0 (execMapTimeout s) := by
  simp only [execMapTimeout]
  (repeat' apply answers_ite) <;> exact answers_next _ _

theorem execWaferAbsent_answers (w : Nat) : Answers 0 (execWaferAbsent w s) := by
  simp only [execWaferAbsent]
  (repeat' apply answers_ite) <;> exact answers_next _ _

theorem execHeartbeatTick_answers : Answers 0 (execHeartbeatTick s) := by
  simp only [execHeartbeatTick]
  (repeat' apply answers_ite) <;> exact answers_next _ _

theorem execHeartbeatWatchdog_answers : Answers 0 (execHeartbeatWatchdog s) := by
  simp only [execHeartbeatWatchdog]
  (repeat' apply answers_ite) <;> exact answers_next _ _

theorem execFailover_answers : Answers 0 (execFailover s) := by
  simp only [execFailover]
  (repeat' apply answers_ite) <;> exact answers_next _ _

theorem execPowerGoodTimeout_answers (pos : Nat) : Answers 0 (execPowerGoodTimeout pos s) := by
  simp only [execPowerGoodTimeout]
  (repeat' apply answers_ite) <;> exact answers_next _ _

theorem execUndervoltage_answers (mV : Nat) : Answers 0 (execUndervoltage mV s) := by
  simp only [execUndervoltage]
  (repeat' apply answers_ite) <;> exact answers_next _ _

theorem execLidOpen_answers : Answers 0 (execLidOpen s) := answers_next _ _

theorem execThermalSample_answers (k : Nat) (quarterC : Int) : Answers 0 (execThermalSample k quarterC s) := by
  simp only [execThermalSample]
  (repeat' apply answers_ite) <;> exact answers_next _ _

theorem execVpmFault_answers (f : Nat) : Answers 0 (execVpmFault f s) := by
  simp only [execVpmFault]
  (repeat' apply answers_ite) <;> exact answers_next _ _

theorem execCoolantSample_answers (inletD outletD : Int) (flowD : Nat) : Answers 0 (execCoolantSample inletD outletD flowD s) := by
  simp only [execCoolantSample]
  (repeat' apply answers_ite) <;> exact answers_next _ _

theorem execAvfsAdjust_answers (k : Nat) (slack : List Bool) : Answers 0 (execAvfsAdjust k slack s) := by
  simp only [execAvfsAdjust]
  (repeat' apply answers_ite) <;> exact answers_next _ _

theorem execStepChange_answers (k : Nat) : Answers 0 (execStepChange k s) := by
  simp only [execStepChange]
  (repeat' apply answers_ite) <;> exact answers_next _ _

theorem execFllWindow_answers (k : Nat) (cycles : Nat) : Answers 0 (execFllWindow k cycles s) := by
  simp only [execFllWindow]
  (repeat' apply answers_ite) <;> exact answers_next _ _

theorem execReferenceLoss_answers (q : Nat) : Answers 0 (execReferenceLoss q s) := by
  simp only [execReferenceLoss]
  (repeat' apply answers_ite) <;> exact answers_next _ _

theorem execAgingMeasure_answers (k d : Nat) : Answers 0 (execAgingMeasure k d s) := by
  simp only [execAgingMeasure]
  (repeat' apply answers_ite) <;> exact answers_next _ _

theorem execTelemetryRefresh_answers : Answers 0 (execTelemetryRefresh s) := by
  simp only [execTelemetryRefresh]
  (repeat' apply answers_ite) <;> exact answers_next _ _

theorem execDdrRefresh_answers (ch : Nat) (deviceC : Int) : Answers 0 (execDdrRefresh ch deviceC s) := by
  simp only [execDdrRefresh]
  (repeat' apply answers_ite) <;> exact answers_next _ _

theorem execPatrolScrub_answers (line : Nat) (found : ScrubFinding) : Answers 0 (execPatrolScrub line found s) := by
  simp only [execPatrolScrub]
  (repeat' apply answers_ite) <;> exact answers_next _ _

theorem execOndieScrubRead_answers (ch errors : Nat) : Answers 0 (execOndieScrubRead ch errors s) := by
  simp only [execOndieScrubRead]
  (repeat' apply answers_ite) <;> exact answers_next _ _

theorem execDdrTraining_answers (r : Nat) (dimms : List (Option Dimm)) : Answers 0 (execDdrTraining r dimms s) := by
  simp only [execDdrTraining]
  (repeat' apply answers_ite) <;> exact answers_next _ _

theorem execPmbusUnsupported_answers (code : Byte) : Answers 0 (execPmbusUnsupported code s) := by
  simp only [execPmbusUnsupported]
  (repeat' apply answers_ite) <;> exact answers_next _ _

theorem execAgentConnect_answers (cert : List Byte) : Answers 0 (execAgentConnect cert s) := by
  simp only [execAgentConnect]
  (repeat' split) <;> exact answers_next _ _

theorem execFabricConfigStore_answers (deviceOk : Bool) : Answers 0 (execFabricConfigStore deviceOk s) := by
  simp only [execFabricConfigStore]
  (repeat' split) <;> exact answers_next _ _

theorem execPowerCycleResume_answers : Answers 0 (execPowerCycleResume s) := by
  simp only [execPowerCycleResume]
  (repeat' split) <;> exact answers_next _ _

theorem execServiceHold3s_answers : Answers 0 (execServiceHold3s s) := by
  simp only [execServiceHold3s]
  (repeat' apply answers_ite) <;> exact answers_next _ _

theorem execServiceHold15s_answers : Answers 0 (execServiceHold15s s) := by
  simp only [execServiceHold15s]
  (repeat' apply answers_ite) <;> exact answers_next _ _

theorem execTrustWindowExpiry_answers : Answers 0 (execTrustWindowExpiry s) := by
  simp only [execTrustWindowExpiry]
  (repeat' apply answers_ite) <;> exact answers_next _ _

theorem execPumphouseBoot_answers : Answers 0 (execPumphouseBoot s) := by
  simp only [execPumphouseBoot]
  (repeat' split) <;> exact answers_next _ _

theorem execFirmwareStartTimeout_answers : Answers 0 (execFirmwareStartTimeout s) := by
  simp only [execFirmwareStartTimeout]
  (repeat' split) <;> exact answers_next _ _

theorem execReferenceLock_answers (q : Nat) (src : RefSource) : Answers 0 (execReferenceLock q src s) := by
  simp only [execReferenceLock]
  (repeat' split) <;> exact answers_next _ _

theorem execReferenceLockTimeout_answers : Answers 0 (execReferenceLockTimeout s) := by
  simp only [execReferenceLockTimeout]
  (repeat' apply answers_ite) <;> exact answers_next _ _

theorem execCoordinateClaim_answers (q : Nat) (x y : Int) : Answers 0 (execCoordinateClaim q x y s) := by
  simp only [execCoordinateClaim]
  (repeat' apply answers_ite) <;> exact answers_next _ _

theorem execFloodTimeout_answers : Answers 0 (execFloodTimeout s) := by
  simp only [execFloodTimeout]
  (repeat' apply answers_ite) <;> exact answers_next _ _

theorem execNeighbourTestRound_answers (reports : List TestReport) (slotFails : Nat) :
    Answers 0 (execNeighbourTestRound reports slotFails s) := by
  simp only [execNeighbourTestRound]
  (repeat' apply answers_ite) <;> exact answers_next _ _

theorem execLedgerStore_answers (deviceOk : Bool) : Answers 0 (execLedgerStore deviceOk s) := by
  simp only [execLedgerStore]
  (repeat' split) <;> exact answers_next _ _

theorem execGenerationSectorErase_answers (deviceOk : Bool) : Answers 0 (execGenerationSectorErase deviceOk s) := by
  simp only [execGenerationSectorErase]
  (repeat' split) <;> exact answers_next _ _

theorem execTestLogicReset_answers (r : Nat) : Answers 0 (execTestLogicReset r s) := answers_next _ _

theorem execExtest_answers (r : Nat) (pins : List Bool) : Answers 0 (execExtest r pins s) := answers_next _ _

theorem execSamplePreload_answers (r : Nat) (pins : List Bool) : Answers 0 (execSamplePreload r pins s) := answers_next _ _

theorem execClamp_answers (r : Nat) : Answers 0 (execClamp r s) := answers_next _ _

theorem execHighz_answers (r : Nat) : Answers 0 (execHighz r s) := answers_next _ _

theorem execBypass_answers (r : Nat) (opcode : Byte) : Answers 0 (execBypass r opcode s) := by
  simp only [execBypass, selectTap]
  (repeat' apply answers_ite) <;> exact answers_next _ _

theorem execPowerGood_answers (pos : Nat) : Answers 0 (execPowerGood pos s) := by
  simp only [execPowerGood]
  (repeat' apply answers_ite) <;> exact answers_next _ _

theorem execStandbyLoss_answers (mV : Nat) : Answers 0 (execStandbyLoss mV s) := by
  simp only [execStandbyLoss]
  (repeat' apply answers_ite) <;> exact answers_next _ _

theorem execEngineReadCompletion_answers (st : CplStatus) (ep : Bool) (data : List Byte) :
    Answers 0 (execEngineReadCompletion st ep data s) := by
  simp only [execEngineReadCompletion]
  (repeat' apply answers_ite) <;> exact answers_next _ _

theorem execCompletionTimeout_answers : Answers 0 (execCompletionTimeout s) := by
  simp only [execCompletionTimeout]
  (repeat' apply answers_ite) <;> exact answers_next _ _

theorem execTenantConfigDone_answers (t : Nat) : Answers 0 (execTenantConfigDone t s) := by
  unfold execTenantConfigDone
  dsimp only
  split
  · exact answers_next _ _
  · split
    · exact answers_next _ _
    · exact answers_next _ _

theorem execCurrentSample_answers (dA mV : Nat) : Answers mV (execCurrentSample dA mV s) := by
  unfold execCurrentSample
  exact withInput_answers mV s _

theorem execNetConfig_answers (sess : Nat) (tag : Word) (payload : List Byte) : Answers 0 (execNetConfig sess tag payload s) := by
  unfold execNetConfig
  exact onSession_answers 0 s _ _

theorem execTrustSet_answers (sess : Nat) (tag : Word) (payload : List Byte) : Answers 0 (execTrustSet sess tag payload s) := by
  unfold execTrustSet
  exact onSession_answers 0 s _ _

theorem execBadCmd_answers (sess : Nat) (tag : Word) (code : BitVec 16) : Answers 0 (execBadCmd sess tag code s) := by
  unfold execBadCmd
  split
  · exact answers_next _ _
  · exact onSession_answers 0 s _ _

theorem execIdcode_answers (r : Nat) : Answers 0 (execIdcode r s) := by
  unfold execIdcode selectTap
  exact answers_next _ _

theorem execFieldResetOutcome_answers (f : Nat) : Answers 0 (execFieldResetOutcome f s) := by
  unfold execFieldResetOutcome
  generalize fieldReplyAt s f = n
  dsimp only
  split
  · exact answers_next _ _
  · cases (s.field f).liftAt with
    | none => exact answers_ite (answers_next _ _) (answers_ite (answers_next _ _) (answers_next _ _))
    | some l => exact answers_ite (answers_ite (answers_next _ _) (answers_next _ _)) (answers_ite (answers_next _ _) (answers_next _ _))

theorem execClusterReparent_answers (q : Nat) : Answers 0 (execClusterReparent q s) := by
  unfold execClusterReparent
  generalize newParents s q = ps
  exact answers_ite (answers_ite (answers_next _ _) (answers_next _ _)) (answers_next _ _)

theorem execEnable_answers (level : Bool) : Answers 0 (execEnable level s) := answers_next _ _

theorem execAgentDisconnect_answers (sess : Nat) : Answers 0 (execAgentDisconnect sess s) := answers_next _ _

end

theorem exec_answers (c : Instr) (s : State) : Answers (inputOf c) (exec c s) := by
  cases c with
  | postWrite p t off ep data => exact execPostWrite_answers s p t off ep data
  | pumphouseVisit => exact execPumphouseVisit_answers s
  | clause t => exact execClause_answers s t
  | badType t => exact execBadType_answers s t
  | ringSetup t => exact onMessage_answers 0 s _ _ _
  | planLoad t => exact onMessage_answers 0 s _ _ _
  | planLoadDone t => exact execPlanLoadDone_answers s t
  | planUnload t => exact onMessage_answers 0 s _ _ _
  | queueClear t => exact onMessage_answers 0 s _ _ _
  | resetTenant t => exact onReset_answers 0 s _ _ _
  | resetRegion t => exact onReset_answers 0 s _ _ _
  | resetField t => exact onReset_answers 0 s _ _ _
  | fieldResetOutcome f => exact execFieldResetOutcome_answers s f
  | epochIncrement t => exact execEpochIncrement_answers s t
  | resetReply t => exact execResetReply_answers s t
  | sessionOpen t => exact onMessage_answers 0 s _ _ _
  | sessionClose t => exact onMessage_answers 0 s _ _ _
  | queryTopology t => exact onQuery_answers 0 s _ _ _
  | queryTenantStatus t => exact onQuery_answers 0 s _ _ _
  | queryInFlightTags t => exact onQuery_answers 0 s _ _ _
  | queryLedger t => exact onQuery_answers 0 s _ _ _
  | queryTelemetry t => exact onQuery_answers 0 s _ _ _
  | ping t => exact onMessage_answers 0 s _ _ _
  | tenantConfig t => exact onMessage_answers 0 s _ _ _
  | tenantConfigDone t => exact execTenantConfigDone_answers s t
  | fwStage t => exact onMessage_answers 0 s _ _ _
  | fwStageDone deviceOk => exact execFwStageDone_answers s deviceOk
  | fwActivate t => exact onMessage_answers 0 s _ _ _
  | requalify t => exact onMessage_answers 0 s _ _ _
  | requalifyDone deviceOk => exact execRequalifyDone_answers s deviceOk
  | overrunClear p t ep => exact hostRegWrite_answers 0 s _ _ _ _
  | malformedClear p t ep => exact hostRegWrite_answers 0 s _ _ _ _
  | noticeHeadWrite p t value ep => exact hostRegWrite_answers 0 s _ _ _ _
  | noticeLostClear p t ep => exact hostRegWrite_answers 0 s _ _ _ _
  | alertStatusClear p value ep => exact hostRegWrite_answers 0 s _ _ _ _
  | forceFailover p value ep => exact hostRegWrite_answers 0 s _ _ _ _
  | registerWrite p space off ep enables data => exact execRegisterWrite_answers s p space off ep enables data
  | bar2Write p off relaxed ep ecc data => exact execBar2Write_answers s p off relaxed ep ecc data
  | bar2Read p off len ecc => exact execBar2Read_answers s p off len ecc
  | unsupportedRequest p what => exact execUnsupportedRequest_answers s p what
  | msixUnmask p v => exact execMsixUnmask_answers s p v
  | portLinkUp p receptacle0 => exact execPortLinkUp_answers s p receptacle0
  | portLinkDown p cause => exact execPortLinkDown_answers s p cause
  | portResume p cause => exact execPortResume_answers s p cause
  | hotReset p => exact execHotReset_answers s p
  | perst receptacle => exact execPerst_answers s receptacle
  | clusterWake k => exact execClusterWake_answers s k
  | polledWake k => exact execPolledWake_answers s k
  | clusterDormant k => exact execClusterDormant_answers s k
  | slotTake k => exact execSlotTake_answers s k
  | landingComplete k ecc => exact execLandingComplete_answers s k ecc
  | weightBlockLoad k => exact execWeightBlockLoad_answers s k
  | passIssue k => exact execPassIssue_answers s k
  | passCommit k => exact execPassCommit_answers s k
  | settlementEffect k => exact execSettlementEffect_answers s k
  | bankCombine k bank => exact execBankCombine_answers s k bank
  | requantVector k => exact execRequantVector_answers s k
  | hashUpdate k => exact execHashUpdate_answers s k
  | spillRecordWrite k => exact execSpillRecordWrite_answers s k
  | hashDrain k => exact execHashDrain_answers s k
  | rankAccept k => exact execRankAccept_answers s k
  | rankFloorUpdate k => exact execRankFloorUpdate_answers s k
  | rankGroupClose k => exact execRankGroupClose_answers s k
  | l2TileBoundary k => exact execL2TileBoundary_answers s k
  | contextRestore k => exact execContextRestore_answers s k
  | outWriteBack k ecc => exact execOutWriteBack_answers s k ecc
  | mergeSlotGrant k => exact execMergeSlotGrant_answers s k
  | mergeStep k => exact execMergeStep_answers s k
  | clauseComplete t tag => exact execClauseComplete_answers s t tag
  | contract t tag => exact contraction_answers 0 s _ _ _
  | contractSparse t tag => exact contraction_answers 0 s _ _ _
  | pointwisePass t run => exact onVerb_answers 0 s _ _ _ _ _
  | pointwiseAdd t run => exact onVerb_answers 0 s _ _ _ _ _
  | pointwiseSub t run => exact onVerb_answers 0 s _ _ _ _ _
  | pointwiseMul t run => exact onVerb_answers 0 s _ _ _ _ _
  | pointwiseMax t run => exact onVerb_answers 0 s _ _ _ _ _
  | pointwiseMin t run => exact onVerb_answers 0 s _ _ _ _ _
  | reduceSum t run => exact onVerb_answers 0 s _ _ _ _ _
  | reduceMax t run => exact onVerb_answers 0 s _ _ _ _ _
  | reduceMin t run => exact onVerb_answers 0 s _ _ _ _ _
  | reduceKeyed t run => exact onVerb_answers 0 s _ _ _ _ _
  | rankElements t run => exact onVerb_answers 0 s _ _ _ _ _
  | rankListMerge t run => exact onVerb_answers 0 s _ _ _ _ _
  | gather t run => exact onVerb_answers 0 s _ _ _ _ _
  | scatter t run => exact onVerb_answers 0 s _ _ _ _ _
  | pumpMapped t run => exact onVerb_answers 0 s _ _ _ _ _
  | pumpBytes t run => exact onVerb_answers 0 s _ _ _ _ _
  | compress t run => exact onVerb_answers 0 s _ _ _ _ _
  | expand t run => exact onVerb_answers 0 s _ _ _ _ _
  | bind t prio => exact execBind_answers s t prio
  | signal t tag => exact execSignal_answers s t tag
  | wait t tag => exact execWait_answers s t tag
  | waitTimeout t tag => exact execWaitTimeout_answers s t tag
  | fence t tag => exact execFence_answers s t tag
  | save t run => exact onVerb_answers 0 s _ _ _ _ _
  | restore t run => exact onVerb_answers 0 s _ _ _ _ _
  | maskloadS24 t run => exact onVerb_answers 0 s _ _ _ _ _
  | maskloadS24T t run => exact onVerb_answers 0 s _ _ _ _ _
  | lutload t run => exact onVerb_answers 0 s _ _ _ _ _
  | read pkt ecc =>
    simp only [exec, execRead]
    exact onPacket_answers 0 s _ _ _
  | write pkt ecc =>
    simp only [exec, execWrite]
    exact onPacket_answers 0 s _ _ _
  | readData pkt =>
    simp only [exec, execReadData]
    exact onPacket_answers 0 s _ _ _
  | writeAck pkt =>
    simp only [exec, execWriteAck]
    exact onPacket_answers 0 s _ _ _
  | nack pkt =>
    simp only [exec, execNack]
    exact onPacket_answers 0 s _ _ _
  | control msg =>
    simp only [exec, execControl]
    exact onPacket_answers 0 s _ _ _
  | requestTimeout txn => exact execRequestTimeout_answers s txn
  | peerInboxPoll => exact execPeerInboxPoll_answers s
  | frameReceive l fec frame => exact execFrameReceive_answers s l fec frame
  | skipFrame l => exact execSkipFrame_answers s l
  | laneFailure l lane => exact execLaneFailure_answers s l lane
  | linkTrainingDone l ok => exact execLinkTrainingDone_answers s l ok
  | linkRetry l => exact execLinkRetry_answers s l
  | linkHoldExpiry l => exact execLinkHoldExpiry_answers s l
  | qsfpInsert l watts => exact execQsfpInsert_answers s l watts
  | qsfpRemove l => exact execQsfpRemove_answers s l
  | hello =>
    simp only [exec, execHello]
    exact onPeer_answers 0 s _
  | links =>
    simp only [exec, execLinks]
    exact onPeer_answers 0 s _
  | map =>
    simp only [exec, execMap]
    exact onPeer_answers 0 s _
  | routes =>
    simp only [exec, execRoutes]
    exact onPeer_answers 0 s _
  | status =>
    simp only [exec, execStatus]
    exact onPeer_answers 0 s _
  | switch =>
    simp only [exec, execSwitch]
    exact onPeer_answers 0 s _
  | switchPauseEnd => exact execSwitchPauseEnd_answers s
  | primary =>
    simp only [exec, execPrimary]
    exact onPeer_answers 0 s _
  | peerMessageRepeat kind => exact execPeerMessageRepeat_answers s kind
  | linkTrainExit => exact execLinkTrainExit_answers s
  | electSettle => exact execElectSettle_answers s
  | discoveryWindow => exact execDiscoveryWindow_answers s
  | mapTimeout => exact execMapTimeout_answers s
  | waferAbsent w => exact execWaferAbsent_answers s w
  | heartbeatTick => exact execHeartbeatTick_answers s
  | heartbeatWatchdog => exact execHeartbeatWatchdog_answers s
  | failover => exact execFailover_answers s
  | inputPowerUp mV => exact withInput_answers _ s _
  | powerGoodTimeout pos => exact execPowerGoodTimeout_answers s pos
  | undervoltage mV => exact execUndervoltage_answers s mV
  | inputOvervoltage mV => exact withInput_answers _ s _
  | overvoltageRecovery mV => exact withInput_answers _ s _
  | enable level => exact execEnable_answers s level
  | standbyStart mV => exact withInput_answers _ s _
  | lidOpen => exact execLidOpen_answers s
  | currentSample dA mV => exact execCurrentSample_answers s dA mV
  | thermalSample k quarterC => exact execThermalSample_answers s k quarterC
  | vpmFault f => exact execVpmFault_answers s f
  | coolantSample inletD outletD flowD => exact execCoolantSample_answers s inletD outletD flowD
  | avfsAdjust k slack => exact execAvfsAdjust_answers s k slack
  | stepChange k => exact execStepChange_answers s k
  | fllWindow k cycles => exact execFllWindow_answers s k cycles
  | referenceLoss q => exact execReferenceLoss_answers s q
  | clusterReparent q => exact execClusterReparent_answers s q
  | agingMeasure k d => exact execAgingMeasure_answers s k d
  | telemetryRefresh => exact execTelemetryRefresh_answers s
  | ddrRefresh ch deviceC => exact execDdrRefresh_answers s ch deviceC
  | patrolScrub line found => exact execPatrolScrub_answers s line found
  | ondieScrubRead ch errors => exact execOndieScrubRead_answers s ch errors
  | ddrTraining r dimms => exact execDdrTraining_answers s r dimms
  | statusWord =>
    simp only [exec, execStatusWord]
    exact pmbusTarget_answers 0 s _
  | iinOcWarnLimit write =>
    simp only [exec, execIinOcWarnLimit]
    exact pmbusTarget_answers 0 s _
  | readVin =>
    simp only [exec, execReadVin]
    exact pmbusTarget_answers 0 s _
  | readIin =>
    simp only [exec, execReadIin]
    exact pmbusTarget_answers 0 s _
  | readPin =>
    simp only [exec, execReadPin]
    exact pmbusTarget_answers 0 s _
  | readTemperature1 =>
    simp only [exec, execReadTemperature1]
    exact pmbusTarget_answers 0 s _
  | mfrPolicyCeiling write =>
    simp only [exec, execMfrPolicyCeiling]
    exact pmbusTarget_answers 0 s _
  | mfrFieldCeiling write =>
    simp only [exec, execMfrFieldCeiling]
    exact pmbusTarget_answers 0 s _
  | mfrTelemetryPage page =>
    simp only [exec, execMfrTelemetryPage]
    exact pmbusTarget_answers 0 s _
  | mfrTelemetryRead =>
    simp only [exec, execMfrTelemetryRead]
    exact pmbusTarget_answers 0 s _
  | pmbusUnsupported code => exact execPmbusUnsupported_answers s code
  | agentConnect cert => exact execAgentConnect_answers s cert
  | pmbus sess tag payload => exact onSession_answers 0 s _ _
  | telemetry sess tag payload => exact onSession_answers 0 s _ _
  | eepromRead sess tag payload => exact onSession_answers 0 s _ _
  | statusRead sess tag payload => exact onSession_answers 0 s _ _
  | fabricConfig sess tag payload => exact onSession_answers 0 s _ _
  | fabricConfigStore deviceOk => exact execFabricConfigStore_answers s deviceOk
  | powerOff sess tag payload => exact onSession_answers 0 s _ _
  | powerOn sess tag payload => exact onSession_answers 0 s _ _
  | powerCycle sess tag payload => exact onSession_answers 0 s _ _
  | powerCycleResume => exact execPowerCycleResume_answers s
  | holdAssert sess tag payload => exact onSession_answers 0 s _ _
  | holdRelease sess tag payload => exact onSession_answers 0 s _ _
  | flashRead sess tag payload => exact onSession_answers 0 s _ _
  | flashErase sess tag payload => exact onSession_answers 0 s _ _
  | flashProgram sess tag payload => exact onSession_answers 0 s _ _
  | netConfig sess tag payload => exact execNetConfig_answers s sess tag payload
  | trustSet sess tag payload => exact execTrustSet_answers s sess tag payload
  | badCmd sess tag code => exact execBadCmd_answers s sess tag code
  | serviceHold3s => exact execServiceHold3s_answers s
  | serviceHold15s => exact execServiceHold15s_answers s
  | trustWindowExpiry => exact execTrustWindowExpiry_answers s
  | pumphouseBoot => exact execPumphouseBoot_answers s
  | firmwareStartTimeout => exact execFirmwareStartTimeout_answers s
  | referenceLock q src => exact execReferenceLock_answers s q src
  | referenceLockTimeout => exact execReferenceLockTimeout_answers s
  | coordinateClaim q x y => exact execCoordinateClaim_answers s q x y
  | floodTimeout => exact execFloodTimeout_answers s
  | neighbourTestRound reports slotFails => exact execNeighbourTestRound_answers s reports slotFails
  | ledgerStore deviceOk => exact execLedgerStore_answers s deviceOk
  | generationSectorErase deviceOk => exact execGenerationSectorErase_answers s deviceOk
  | testLogicReset r => exact execTestLogicReset_answers s r
  | extest r pins => exact execExtest_answers s r pins
  | idcode r => exact execIdcode_answers s r
  | samplePreload r pins => exact execSamplePreload_answers s r pins
  | clamp r => exact execClamp_answers s r
  | highz r => exact execHighz_answers s r
  | bypass r opcode => exact execBypass_answers s r opcode
  | powerGood pos => exact execPowerGood_answers s pos
  | standbyLoss mV => exact execStandbyLoss_answers s mV
  | agentDisconnect sess => exact execAgentDisconnect_answers s sess
  | engineReadCompletion st ep data => exact execEngineReadCompletion_answers s st ep data
  | completionTimeout => exact execCompletionTimeout_answers s

/-- Settles O2: of a command that brings at most 65 V, of the three outcomes only a next state is left. -/
theorem everyCommandCompletes : Obligations.EveryCommandCompletes := by
  refine ⟨fun c s r h => ?_, fun c s hinput => ?_⟩
  · have hall := exec_answers c s
    rw [h] at hall
    exact hall
  · have hall := exec_answers c s
    cases h : exec c s with
    | next t => exact ⟨t, rfl⟩
    | fault e =>
      rw [h] at hall
      exact absurd hinput (Nat.not_le.mpr hall)
    | refused r =>
      rw [h] at hall
      exact hall.elim

end Sys2Proof.Machine

/-!
The passes of a contraction (02): the value of an operand is the sum of its planes, and the passes of all pairs of planes add the products
of the planes (R65, R66). Then the bounds of gating (R106), which hold whatever the passes left bring.
-/

namespace Sys2Proof.Machine

/-! ## Pairs of planes -/

theorem mem_planePairs (n m : Nat) (p : Nat × Nat) : p ∈ planePairs n m ↔ p.1 < n ∧ p.2 < m := by
  obtain ⟨i, j⟩ := p
  simp only [planePairs, List.mem_flatMap, List.mem_reverse, List.mem_range, List.mem_filterMap]
  constructor
  · rintro ⟨sg, _, x, hx, hxy⟩
    split at hxy
    · next hfits =>
      obtain ⟨rfl, rfl⟩ := Prod.mk.injEq .. ▸ Option.some.inj hxy
      exact ⟨hx, hfits.2⟩
    · cases hxy
  · rintro ⟨hi, hj⟩
    refine ⟨i + j, by omega, i, hi, ?_⟩
    rw [if_pos ⟨by omega, by omega⟩, Nat.add_sub_cancel_left]

theorem planePairs_nodup (n m : Nat) : (planePairs n m).Nodup := by
  have hsum : ∀ sg i (p : Nat × Nat), p ∈ (if i ≤ sg ∧ sg - i < m then some (i, sg - i) else none) → p.1 = i ∧ p.1 + p.2 = sg := by
    intro sg i p hp
    split at hp
    · next hfits =>
      obtain rfl := Option.some.inj hp
      exact ⟨rfl, by dsimp only; omega⟩
    · cases hp
  refine List.nodup_flatMap.mpr ⟨fun sg _ => ?_, ?_⟩
  · refine List.Nodup.filterMap (fun i i' p hp hp' => ?_) (List.nodup_reverse.mpr List.nodup_range)
    exact (hsum sg i p hp).1.symm.trans (hsum sg i' p hp').1
  · refine (List.nodup_reverse.mpr List.nodup_range).imp (fun {sg sg'} hne => ?_)
    refine List.disjoint_left.mpr (fun p hp hp' => hne ?_)
    obtain ⟨i, _, hi⟩ := List.mem_filterMap.mp hp
    obtain ⟨i', _, hi'⟩ := List.mem_filterMap.mp hp'
    exact (hsum sg i p hi).2.symm.trans (hsum sg' i' p hi').2

theorem planePairs_toFinset (n m : Nat) : (planePairs n m).toFinset = Finset.range n ×ˢ Finset.range m := by
  ext p
  simp [mem_planePairs]

theorem sum_planePairs (n m : Nat) (f : Nat → Nat → Int) :
    ((planePairs n m).map (fun p => f p.1 p.2)).sum = ∑ i ∈ Finset.range n, ∑ j ∈ Finset.range m, f i j := by
  rw [← List.sum_toFinset _ (planePairs_nodup n m), planePairs_toFinset, Finset.sum_product]

/-! ## The planes of an operand -/

/-- What a set bit of plane i stands for: the top plane of a two's complement operand is negative. -/
def planeUnit (neg : Bool) (n i : Nat) : Int := if neg && decide (i + 1 = n) then -2 ^ i else 2 ^ i

/-- The value of a code as the sum of its planes. -/
def planeSum (neg : Bool) (n v : Nat) : Int := ∑ i ∈ Finset.range n, if bit v i then planeUnit neg n i else 0

theorem bit_mul_pow (v i : Nat) : ((if bit v i then 2 ^ i else 0 : Nat)) = 2 ^ i * (v / 2 ^ i % 2) := by
  unfold bit
  rcases Nat.mod_two_eq_zero_or_one (v / 2 ^ i) with h | h
  · simp [h]
  · simp [h]

theorem sum_bits (n v : Nat) : ∑ i ∈ Finset.range n, (if bit v i then 2 ^ i else 0 : Nat) = v % 2 ^ n := by
  induction n with
  | zero => simp [Nat.mod_one]
  | succ n ih => rw [Finset.sum_range_succ, ih, bit_mul_pow, Nat.mod_pow_succ]

theorem sum_low_planes (neg : Bool) (n v : Nat) :
    ∑ i ∈ Finset.range n, (if bit v i then planeUnit neg (n + 1) i else 0) = ((v % 2 ^ n : Nat) : Int) := by
  rw [← sum_bits, Nat.cast_sum]
  refine Finset.sum_congr rfl (fun i hi => ?_)
  have hlow : i ≠ n := Nat.ne_of_lt (Finset.mem_range.mp hi)
  simp [planeUnit, hlow]

theorem planeSum_eq (neg : Bool) {n : Nat} (v : Nat) (hn : 1 ≤ n) :
    planeSum neg n v = if neg then signed n v else ((v % 2 ^ n : Nat) : Int) := by
  obtain ⟨n, rfl⟩ : ∃ k, n = k + 1 := ⟨n - 1, by omega⟩
  have htop : v % 2 ^ (n + 1) = v % 2 ^ n + if bit v n then 2 ^ n else 0 := by rw [bit_mul_pow, Nat.mod_pow_succ]
  have hlow : v % 2 ^ n < 2 ^ n := Nat.mod_lt _ (Nat.two_pow_pos n)
  unfold planeSum
  rw [Finset.sum_range_succ, sum_low_planes]
  unfold signed planeUnit
  rw [htop]
  cases hb : bit v n <;> cases neg
  · simp
  · simp [hlow]
  · simp
  · simp [Nat.pow_succ]
    omega

/-! ## One pass -/

theorem negPair_unit (wNeg aNeg : Bool) (n m i j : Nat) :
    (if negPair wNeg aNeg n m i j then -1 else 1) * ((2 ^ (i + j) : Nat) : Int) = planeUnit wNeg n i * planeUnit aNeg m j := by
  unfold negPair planeUnit
  rw [pow_add]
  cases wNeg && decide (i + 1 = n) <;> cases aNeg && decide (j + 1 = m) <;> simp

/-- What one cell adds in the pass of planes i and j: the product of the two planes. -/
def cellProduct (r : TileRun) (acts : List AElem) (w : WCell) (i j : Nat) : Int :=
  if (actAt acts w).on then
    (if bit w.code i then planeUnit r.wNeg r.n i else 0) * (if bit (actAt acts w).code j then planeUnit r.aNeg r.m j else 0)
  else 0

theorem cellProduct_eq (r : TileRun) (acts : List AElem) (w : WCell) (i j : Nat) :
    cellProduct r acts w i j = if cellHit false i j w (actAt acts w) then planeUnit r.wNeg r.n i * planeUnit r.aNeg r.m j else 0 := by
  unfold cellProduct cellHit
  cases (actAt acts w).on <;> cases bit w.code i <;> cases bit (actAt acts w).code j <;> simp

theorem countP_mul_eq_sum {α : Type} (p : α → Bool) (c : Int) (l : List α) :
    (l.countP p : Int) * c = (l.map (fun x => if p x then c else 0)).sum := by
  induction l with
  | nil => simp
  | cons x l ih =>
    rw [List.countP_cons, List.map_cons, List.sum_cons, ← ih]
    split
    · push_cast; ring
    · simp

theorem passValue_eq_sum {r : TileRun} (i j : Nat) (cells : List WCell) (acts : List AElem) (hbfp : r.bfp = false)
    (hbip : r.bipolar = false) : (passValue r i j cells acts).1 = (cells.map (fun w => cellProduct r acts w i j)).sum := by
  simp only [passValue, hbfp, hbip, Bool.false_eq_true, if_false, cellProduct_eq]
  rw [← countP_mul_eq_sum, ← negPair_unit, Nat.cast_mul]
  ring

theorem sum_cellProduct {r : TileRun} (acts : List AElem) (w : WCell) (hn : 1 ≤ r.n) (hm : 1 ≤ r.m) :
    ∑ i ∈ Finset.range r.n, ∑ j ∈ Finset.range r.m, cellProduct r acts w i j
      = if (actAt acts w).on then
          (if r.wNeg then signed r.n w.code else ((w.code % 2 ^ r.n : Nat) : Int))
            * (if r.aNeg then signed r.m (actAt acts w).code else (((actAt acts w).code % 2 ^ r.m : Nat) : Int)) else 0 := by
  rw [← planeSum_eq r.wNeg _ hn, ← planeSum_eq r.aNeg _ hm]
  unfold cellProduct
  cases (actAt acts w).on
  · simp
  · simp only [if_true]
    exact (Finset.sum_mul_sum ..).symm

/-- In BIPOLAR an agreement counts twice, less one for each active row. -/
theorem bipolar_cell (w : WCell) (a : AElem) :
    2 * (((if cellHit true 0 0 w a then 1 else 0 : Nat)) : Int) - (if a.on then 1 else 0 : Nat)
      = if a.on then codeValue 2 1 w.code * codeValue 2 1 a.code else 0 := by
  simp only [cellHit, codeValue, bit, pow_zero, Nat.div_one]
  rcases Nat.mod_two_eq_zero_or_one w.code with h | h <;> rcases Nat.mod_two_eq_zero_or_one a.code with h' | h' <;>
    cases a.on <;> simp [h, h']

theorem bipolar_sum (cells : List WCell) (acts : List AElem) :
    2 * (cells.countP (fun w => cellHit true 0 0 w (actAt acts w)) : Int) - (cells.countP (fun w => (actAt acts w).on) : Nat)
      = (cells.map (fun w => if (actAt acts w).on then codeValue 2 1 w.code * codeValue 2 1 (actAt acts w).code else 0)).sum := by
  induction cells with
  | nil => simp
  | cons w cells ih =>
    rw [List.countP_cons, List.countP_cons, List.map_cons, List.sum_cons, ← ih, ← bipolar_cell]
    push_cast
    ring

/-- Settles O30: the passes add, cell by cell, the products of all pairs of planes; in BIPOLAR a pass counts agreements. -/
theorem passesSumToDotProduct : Obligations.PassesSumToDotProduct := by
  refine ⟨fun r cells acts hbfp hbip hn hm => ?_, fun r cells acts hbfp hbip hn hm => ?_⟩
  · simp only [passValue_eq_sum _ _ cells acts hbfp hbip]
    rw [sum_planePairs r.n r.m (fun i j => (cells.map (fun w => cellProduct r acts w i j)).sum)]
    induction cells with
    | nil => simp
    | cons w cells ih =>
      simp only [List.map_cons, List.sum_cons, Finset.sum_add_distrib, sum_cellProduct acts w hn hm]
      rw [ih]
  · have hpairs : planePairs 1 1 = [(0, 0)] := by decide
    rw [hn, hm, hpairs, ← bipolar_sum]
    simp [passValue, hbfp, hbip]

/-! ## The bounds of gating (R106, R107) -/

theorem sumNat_eq_sum (l : List Nat) : sumNat l = l.sum := List.sum_eq_foldl.symm

/-- What the pairs of planes of one sign weigh together. -/
def planeWeight (r : TileRun) (neg : Bool) (ps : List (Nat × Nat)) : Nat :=
  sumNat ((ps.filter (fun p => negPair r.wNeg r.aNeg r.n r.m p.1 p.2 == neg)).map (fun p => 2 ^ (p.1 + p.2)))

theorem planeWeight_cons (r : TileRun) (neg : Bool) (p : Nat × Nat) (ps : List (Nat × Nat)) :
    planeWeight r neg (p :: ps)
      = (if negPair r.wNeg r.aNeg r.n r.m p.1 p.2 = neg then 2 ^ (p.1 + p.2) else 0) + planeWeight r neg ps := by
  unfold planeWeight
  rw [sumNat_eq_sum, sumNat_eq_sum, List.filter_cons]
  cases h : negPair r.wNeg r.aNeg r.n r.m p.1 p.2 <;> cases neg <;> simp

theorem passValue_of_planes {r : TileRun} (i j : Nat) (cells : List WCell) (acts : List AElem) (hbfp : r.bfp = false)
    (hbip : r.bipolar = false) :
    (passValue r i j cells acts).1
      = (if negPair r.wNeg r.aNeg r.n r.m i j then -1 else 1)
          * ((cells.countP (fun w => cellHit false i j w (actAt acts w)) * 2 ^ (i + j) : Nat) : Int) := by
  simp [passValue, hbfp, hbip]

/-- The passes of any pairs of planes stay within what their planes of either sign weigh in K_g rows. -/
theorem sum_passes_bounded {r : TileRun} {cells : List WCell} {acts : List AElem} (hbfp : r.bfp = false) (hbip : r.bipolar = false)
    (hkg : cells.length ≤ r.kg) (ps : List (Nat × Nat)) :
    -((r.kg * planeWeight r true ps : Nat) : Int) ≤ (ps.map (fun p => (passValue r p.1 p.2 cells acts).1)).sum
      ∧ (ps.map (fun p => (passValue r p.1 p.2 cells acts).1)).sum ≤ ((r.kg * planeWeight r false ps : Nat) : Int) := by
  induction ps with
  | nil => simp [planeWeight, sumNat]
  | cons p ps ih =>
    obtain ⟨hlow, hhigh⟩ := ih
    have hcount : cells.countP (fun w => cellHit false p.1 p.2 w (actAt acts w)) ≤ r.kg := List.countP_le_length.trans hkg
    have hpass : cells.countP (fun w => cellHit false p.1 p.2 w (actAt acts w)) * 2 ^ (p.1 + p.2) ≤ r.kg * 2 ^ (p.1 + p.2) :=
      Nat.mul_le_mul_right _ hcount
    rw [List.map_cons, List.sum_cons, planeWeight_cons, planeWeight_cons, passValue_of_planes _ _ cells acts hbfp hbip, Nat.mul_add,
      Nat.mul_add]
    cases negPair r.wNeg r.aNeg r.n r.m p.1 p.2
    · simp only [Bool.false_eq_true, if_false, if_true, Nat.mul_zero, Nat.zero_add, one_mul, Nat.cast_add]
      exact ⟨by omega, by omega⟩
    · simp only [Bool.true_eq_false, if_false, if_true, Nat.mul_zero, Nat.zero_add, neg_one_mul, Nat.cast_add]
      exact ⟨by omega, by omega⟩

theorem bounds_of_planes {r : TileRun} (sg : Nat) (hbip : r.bipolar = false) :
    bounds r sg = (r.kg * planeWeight r false ((planePairs r.n r.m).filter (fun p => decide (p.1 + p.2 < sg))),
      r.kg * planeWeight r true ((planePairs r.n r.m).filter (fun p => decide (p.1 + p.2 < sg)))) := by
  simp [bounds, hbip, planeWeight]

/-- The one pass of BIPOLAR adds at most K_g and at least its negative. -/
theorem bipolar_pass_bounded {r : TileRun} {cells : List WCell} {acts : List AElem} (hbfp : r.bfp = false) (hbip : r.bipolar = true)
    (hkg : cells.length ≤ r.kg) :
    -(r.kg : Int) ≤ (passValue r 0 0 cells acts).1 ∧ (passValue r 0 0 cells acts).1 ≤ (r.kg : Int) := by
  have hhits : cells.countP (fun w => cellHit true 0 0 w (actAt acts w)) ≤ cells.countP (fun w => (actAt acts w).on) :=
    List.countP_mono_left (fun w _ hw => by simp only [cellHit, Bool.and_eq_true] at hw; exact hw.1)
  have hon : cells.countP (fun w => (actAt acts w).on) ≤ r.kg := List.countP_le_length.trans hkg
  have hvalue : (passValue r 0 0 cells acts).1 = 2 * (cells.countP (fun w => cellHit true 0 0 w (actAt acts w)) : Int)
      - (cells.countP (fun w => (actAt acts w).on) : Nat) := by simp [passValue, hbfp, hbip]
  rw [hvalue]
  exact ⟨by omega, by omega⟩

/-- The passes below significance sg add at least −L and at most U of R106. -/
theorem passes_within_bounds {r : TileRun} {cells : List WCell} {acts : List AElem} (sg : Nat) (hbfp : r.bfp = false)
    (hkg : cells.length ≤ r.kg) (hone : r.bipolar = true → r.n = 1 ∧ r.m = 1) :
    -((bounds r sg).2 : Int)
        ≤ (((planePairs r.n r.m).filter (fun p => decide (p.1 + p.2 < sg))).map (fun p => (passValue r p.1 p.2 cells acts).1)).sum
      ∧ (((planePairs r.n r.m).filter (fun p => decide (p.1 + p.2 < sg))).map (fun p => (passValue r p.1 p.2 cells acts).1)).sum
        ≤ ((bounds r sg).1 : Int) := by
  cases hbip : r.bipolar with
  | false =>
    rw [bounds_of_planes sg hbip]
    exact sum_passes_bounded hbfp hbip hkg _
  | true =>
    obtain ⟨hn, hm⟩ := hone hbip
    have hpairs : planePairs 1 1 = [(0, 0)] := by decide
    rw [hn, hm, hpairs]
    by_cases hsg : sg = 0
    · simp [bounds, hbip, hsg]
    · simpa [bounds, hbip, hsg, Nat.pos_of_ne_zero hsg] using bipolar_pass_bounded hbfp hbip hkg

/-- An output that settles against an upper threshold has that outcome for every rest within the bounds. -/
theorem settleTest_upTo {d : Nat} {a t x : Int} {u l : Nat} {b : Bool} (hx : -(l : Int) ≤ x ∧ x ≤ (u : Int))
    (h : settleTest d 0 (.upTo t) a u l = some b) : a + x ≤ t ↔ b = false := by
  simp only [settleTest, pow_zero, Nat.div_one] at h
  split at h
  · cases h
    exact ⟨fun _ => rfl, fun _ => by omega⟩
  · split at h
    · next hhigh =>
      cases h
      have hlo : t < a - l := of_decide_eq_true (Bool.and_eq_true_iff.mp hhigh).2
      exact ⟨fun _ => by omega, fun hb => by cases hb⟩
    · cases h

theorem settleTest_downTo {d : Nat} {a t x : Int} {u l : Nat} {b : Bool} (hx : -(l : Int) ≤ x ∧ x ≤ (u : Int))
    (h : settleTest d 0 (.downTo t) a u l = some b) : t ≤ a + x ↔ b = false := by
  simp only [settleTest, pow_zero, Nat.div_one] at h
  split at h
  · cases h
    exact ⟨fun _ => rfl, fun _ => by omega⟩
  · split at h
    · next hhigh =>
      cases h
      have hhi : a + u < t := of_decide_eq_true (Bool.and_eq_true_iff.mp hhigh).2
      exact ⟨fun _ => by omega, fun hb => by cases hb⟩
    · cases h

/-! ## Settlements taking effect (R108) -/

theorem foldl_min_eq {n e : Nat} {l : List Nat} (hn : n ∈ e :: l) (hle : ∀ x ∈ e :: l, n ≤ x) : l.foldl min e = n := by
  induction l generalizing e with
  | nil => exact (List.mem_singleton.mp hn).symm
  | cons x l ih =>
    refine ih ?_ ?_
    · rcases List.mem_cons.mp hn with rfl | hn
      · rw [Nat.min_eq_left (hle x (by simp))]
        exact List.mem_cons_self
      · rcases List.mem_cons.mp hn with rfl | hn
        · rw [Nat.min_eq_right (hle e (by simp))]
          exact List.mem_cons_self
        · exact List.mem_cons_of_mem _ hn
    · intro y hy
      rcases List.mem_cons.mp hy with rfl | hy
      · exact Nat.le_min.mpr ⟨hle e (by simp), hle x (by simp)⟩
      · exact hle y (by simp [hy])

/-- The cycles at which settlements that wait are due. -/
def dueCycles (r : TileRun) : List Nat := (r.settled.filter (fun e => !e.inEffect && due r e.effectAt)).map (fun e => e.effectAt)

theorem mem_dueCycles {r : TileRun} {x : Nat} :
    x ∈ dueCycles r ↔ ∃ e ∈ r.settled, e.effectAt = x ∧ e.inEffect = false ∧ due r x = true := by
  unfold dueCycles
  simp only [List.mem_map, List.mem_filter, Bool.and_eq_true, Bool.not_eq_true']
  constructor
  · rintro ⟨e, ⟨he, hwaits, hdue⟩, rfl⟩
    exact ⟨e, he, rfl, hwaits, hdue⟩
  · rintro ⟨e, he, rfl, hwaits, hdue⟩
    exact ⟨e, ⟨he, hwaits, hdue⟩, rfl⟩

theorem execSettlementEffect_of_due {k : Nat} {j : Job} {r : TileRun} {n : Nat} {s : State} (hrun : currentRun s k = some (j, r))
    (hn : n ∈ dueCycles r) (hfirst : ∀ x ∈ dueCycles r, n ≤ x) :
    execSettlementEffect k s
      = .next (setRun s k { r with settled := r.settled.map (fun e => if e.effectAt = n then { e with inEffect := true } else e) }) := by
  unfold execSettlementEffect
  rw [hrun]
  dsimp only
  change (match dueCycles r with | [] => _ | e :: es => _) = _
  cases hdue : dueCycles r with
  | nil => rw [hdue] at hn; cases hn
  | cons e es =>
    rw [hdue] at hn hfirst
    have hmin : (e :: es).foldl min e = n := by rw [List.foldl_cons, Nat.min_self, foldl_min_eq hn hfirst]
    dsimp only
    rw [hmin]

/-- Settles O31: the passes left stay within the bounds, so a settled outcome stands; the earliest due settlements take effect. -/
theorem gatingBoundsAndSettlement : Obligations.GatingBoundsAndSettlement := by
  refine ⟨fun r cells acts sg hbfp hkg hone => ?_, fun k j r n s hrun hwaits hdue hfirst => ?_⟩
  · have hx := passes_within_bounds (acts := acts) sg hbfp hkg hone
    exact ⟨hx, fun d a t b h => settleTest_upTo hx h, fun d a t b h => settleTest_downTo hx h⟩
  · obtain ⟨e, he, hat, hnot⟩ := hwaits
    have hmem : n ∈ dueCycles r := mem_dueCycles.mpr ⟨e, he, hat, hnot, hdue⟩
    have hmin : ∀ x ∈ dueCycles r, n ≤ x := by
      intro x hx
      obtain ⟨e', he', rfl, hnot', hdue'⟩ := mem_dueCycles.mp hx
      exact hfirst e' he' hnot' hdue'
    refine ⟨_, execSettlementEffect_of_due hrun hmem hmin, ?_, ?_, rfl, rfl, rfl, fun q hq => ?_⟩
    · rw [setRun, State.cluster_modCluster_same]
    · rw [setRun, State.cluster_modCluster_same]
    · rw [setRun, State.cluster_modCluster_other _ _ _ _ hq]

end Sys2Proof.Machine

/-!
Boundary scan (13): a TAP command selects one instruction on the TAP of one rim (R627 to R630).
-/

namespace Sys2Proof.Machine

@[simp] theorem State.tap_emit (s : State) (o : Output) (r : Nat) : (s.emit o).tap r = s.tap r := rfl

/-- From s to s', TAP r is x, and nothing else has changed but the output. -/
def TapOnly (s s' : State) (r : Nat) (x : Tap) : Prop :=
  s'.tap r = x ∧ (∀ q, q ≠ r → s'.tap q = s.tap q) ∧ s' = { s with taps := s'.taps, out := s'.out }

theorem tapOnly_setTap (s : State) (r : Nat) (x : Tap) (os : List Output) : TapOnly s { s.setTap r x with out := os } r x :=
  ⟨s.tap_setTap_same r x, fun q hq => s.tap_setTap_other r q x hq, rfl⟩

/-- The fields of the identity that IDCODE shifts out (R628). -/
theorem idcodeOf_fields (r : Fin 4) : (idcodeOf r).getLsbD 0 = true ∧ (idcodeOf r).extractLsb' 1 11 = Config.jep106
    ∧ (idcodeOf r).extractLsb' 12 16 = BitVec.ofNat 16 (0x7070 + r.val) ∧ (idcodeOf r).extractLsb' 28 4 = 1 := by
  have hr := r.isLt
  have hmaker := Config.jep106.isLt
  have hword : (idcodeOf r).toNat = 0x10000000 + (0x7070 + r) * 4096 + Config.jep106.toNat * 2 + 1 := by
    unfold idcodeOf
    exact Nat.mod_eq_of_lt (by omega)
  refine ⟨?_, ?_, ?_, ?_⟩
  · rw [BitVec.getLsbD, hword, Nat.testBit_zero, decide_eq_true_eq]
    omega
  all_goals
    apply BitVec.eq_of_toNat_eq
    rw [BitVec.extractLsb'_toNat, hword, Nat.shiftRight_eq_div_pow]
  · omega
  · rw [BitVec.toNat_ofNat]
    omega
  · change _ = 1
    omega

/-- A command that selects an instruction and is no IDCODE changes its own TAP and the output. -/
theorem selection_answer {c : Instr} {s : State} {r : Fin 4} {op : Byte} {x : Tap} {P : State → Prop}
    (hexec : exec c s = .next ((s.setTap r x).emit (.tapSelected r op))) (hc : c ≠ .idcode r) :
    ∃ s', exec c s = .next s' ∧ s'.tap r = x ∧ (∀ q, q ≠ r.val → s'.tap q = s.tap q) ∧ s' = { s with taps := s'.taps, out := s'.out }
      ∧ (c = .idcode r → P s') := by
  obtain ⟨hsame, hother, hframe⟩ := tapOnly_setTap s r x (.tapSelected r op :: s.out)
  exact ⟨_, hexec, hsame, hother, hframe, fun h => absurd h hc⟩

/-- Settles O60: each command is a selection with its own instruction, and IDCODE shifts out the identity besides. -/
theorem tapsSelectInstructions : Obligations.TapsSelectInstructions := by
  intro r pins op s quiet old c x hcase
  rcases hcase with ⟨rfl, rfl⟩ | ⟨rfl, rfl⟩ | ⟨rfl, rfl⟩ | ⟨rfl, rfl⟩ | ⟨rfl, rfl⟩ | ⟨rfl, rfl⟩ | ⟨rfl, hop, rfl⟩
  · exact selection_answer (op := 1) rfl nofun
  · obtain ⟨hsame, hother, hframe⟩ := tapOnly_setTap s r (quiet 1 old false false) (.idcode r (idcodeOf r) :: .tapSelected r 1 :: s.out)
    exact ⟨_, rfl, hsame, hother, hframe, fun _ => ⟨_, _, rfl, idcodeOf_fields r⟩⟩
  · exact selection_answer (op := 0) rfl nofun
  · exact selection_answer (op := 2) rfl nofun
  · exact selection_answer (op := 3) rfl nofun
  · exact selection_answer (op := 4) rfl nofun
  · have hexec : exec (.bypass r op) s = selectTap s r op id := if_neg (Nat.not_le.mpr hop)
    exact selection_answer (op := op) hexec nofun

end Sys2Proof.Machine

/-!
The PMBus target of the engine (12, R573): what each read answers, what each write sets, and what is not acknowledged.
-/

namespace Sys2Proof.Machine

theorem pmbusTarget_on {s : State} (f : State → State) (h : poweredUp s = true) : pmbusTarget s f = .next (f s) := if_pos h

theorem pmbusTarget_off {s : State} (f : State → State) (h : poweredUp s = false) : pmbusTarget s f = .next (s.emit .pmbusNack) :=
  if_neg (by simp [h])

@[simp] theorem padTo_length (n : Nat) (bs : List Byte) : (padTo n bs).length = max n bs.length := by
  simp [padTo, zeros]
  omega

/-- A byte of a padded list is that of the list, zero past its end. -/
theorem getD_padTo (n i : Nat) (bs : List Byte) : (padTo n bs).getD i 0 = bs.getD i 0 := by
  unfold padTo zeros
  rcases Nat.lt_or_ge i bs.length with h | h
  · rw [List.getD_append _ _ _ _ h]
  · rw [List.getD_append_right _ _ _ _ h, List.getD_eq_default bs 0 h]
    simp only [List.getD_eq_getElem?_getD, List.getElem?_replicate]
    split <;> rfl

theorem getD_take_drop (l : List Byte) {a n i : Nat} (hi : i < n) : ((l.drop a).take n).getD i 0 = l.getD (a + i) 0 := by
  simp [List.getD_eq_getElem?_getD, hi]

/-- The page of the latched snapshot that a telemetry read gives (R573, R579). -/
def latchedPage (s : State) : List Byte := padTo 128 ((s.casing.teleLatch.drop (128 * s.casing.telePage)).take 128)

theorem latchedPage_length (s : State) : (latchedPage s).length = 128 := by
  simp [latchedPage]

theorem getD_latchedPage (s : State) {i : Nat} (hi : i < 128) :
    (latchedPage s).getD i 0 = s.casing.teleLatch.getD (128 * s.casing.telePage + i) 0 := by
  rw [latchedPage, getD_padTo, getD_take_drop _ hi]

theorem leBytes_one (v : Nat) : leBytes 1 v = [BitVec.ofNat 8 v] := rfl

/-- What every read of a powered target answers, register by register (R573). -/
theorem pmbus_reads {s : State} (hon : poweredUp s = true) :
    exec .statusWord s = .next (s.emit (.pmbusStatus s.casing.overvoltageBit (decide (s.casing.ilimitCeiling < 64))
        (anyThrottled s || s.casing.coolantWarn)))
      ∧ exec (.iinOcWarnLimit none) s = .next (s.emit (.pmbusData s.casing.iLimit))
      ∧ exec .readVin s = .next (s.emit (.pmbusData s.casing.vinMv))
      ∧ exec .readIin s = .next (s.emit (.pmbusData s.casing.iinDa))
      ∧ exec .readPin s = .next (s.emit (.pmbusData (inputWatts s)))
      ∧ exec .readTemperature1 s = .next (s.emit (.pmbusData (unsignedOf 16 (hottest s))))
      ∧ exec (.mfrPolicyCeiling none) s = .next (s.emit (.pmbusData s.casing.policyCeiling))
      ∧ exec (.mfrFieldCeiling none) s = .next (s.emit (.pmbusBlock
          [BitVec.ofNat 8 s.casing.selectedField, BitVec.ofNat 8 (s.field s.casing.selectedField).ceiling]))
      ∧ exec .mfrTelemetryRead s = .next (s.emit (.pmbusBlock (latchedPage s))) := by
  simp only [exec, execStatusWord, execIinOcWarnLimit, execReadVin, execReadIin, execReadPin, execReadTemperature1, execMfrPolicyCeiling,
    execMfrFieldCeiling, execMfrTelemetryRead, pmbusTarget_on _ hon, leBytes_one, List.singleton_append, latchedPage, and_self]

theorem execMfrFieldCeiling_of_range {s : State} {f v : Nat} (hon : poweredUp s = true) (hf : f < 70) (hv : v ≤ 64) :
    execMfrFieldCeiling (some (f, v)) s
      = .next { s.modField f (fun x => { x with ceiling := v }) with casing := { s.casing with selectedField := f } } := by
  simp only [execMfrFieldCeiling, pmbusTarget_on _ hon, if_pos (And.intro hf hv)]

theorem execMfrTelemetryPage_of_page {s : State} {n : Nat} (hon : poweredUp s = true) (hlow : 1 ≤ n) (hhigh : n ≤ 66) :
    execMfrTelemetryPage n s = .next { s with casing := { s.casing with telePage := n } } := by
  simp only [execMfrTelemetryPage, pmbusTarget_on _ hon, if_neg (Nat.not_lt.mpr hhigh), if_neg (Nat.ne_of_gt hlow)]

/-- A value out of range, and a command that is not known, are not acknowledged. -/
theorem pmbus_nacks {c : Instr} {s : State} (hon : poweredUp s = true)
    (hc : (∃ v, (v < 100 ∨ 450 < v) ∧ c = .iinOcWarnLimit (some v)) ∨ (∃ v, 64 < v ∧ c = .mfrPolicyCeiling (some v))
      ∨ (∃ f v, (70 ≤ f ∨ 64 < v) ∧ c = .mfrFieldCeiling (some (f, v))) ∨ (∃ n, 66 < n ∧ c = .mfrTelemetryPage n)
      ∨ (∃ b, b ∉ pmbusCodes ∧ c = .pmbusUnsupported b)) : exec c s = .next (s.emit .pmbusNack) := by
  rcases hc with ⟨v, hv, rfl⟩ | ⟨v, hv, rfl⟩ | ⟨f, v, hv, rfl⟩ | ⟨n, hn, rfl⟩ | ⟨b, hb, rfl⟩
  · have hrange : ¬ (100 ≤ v ∧ v ≤ 450) := by omega
    simp only [exec, execIinOcWarnLimit, pmbusTarget_on _ hon, if_neg hrange]
  · simp only [exec, execMfrPolicyCeiling, pmbusTarget_on _ hon, if_neg (Nat.not_le.mpr hv)]
  · have hrange : ¬ (f < 70 ∧ v ≤ 64) := by omega
    simp only [exec, execMfrFieldCeiling, pmbusTarget_on _ hon, if_neg hrange]
  · simp only [exec, execMfrTelemetryPage, pmbusTarget_on _ hon, if_pos hn]
  · exact if_neg (by simpa using hb)

/-- A target that is off acknowledges none of its commands. -/
theorem pmbus_off {c : Instr} {s : State} (hoff : poweredUp s = false)
    (hc : c = .statusWord ∨ c = .readVin ∨ c = .readIin ∨ c = .readPin ∨ c = .readTemperature1 ∨ c = .mfrTelemetryRead
        ∨ (∃ w, c = .iinOcWarnLimit w) ∨ (∃ w, c = .mfrPolicyCeiling w) ∨ (∃ w, c = .mfrFieldCeiling w) ∨ (∃ n, c = .mfrTelemetryPage n)) :
    exec c s = .next (s.emit .pmbusNack) := by
  rcases hc with rfl | rfl | rfl | rfl | rfl | rfl | ⟨w, rfl⟩ | ⟨w, rfl⟩ | ⟨w, rfl⟩ | ⟨n, rfl⟩ <;>
    simp only [exec, execStatusWord, execIinOcWarnLimit, execReadVin, execReadIin, execReadPin, execReadTemperature1, execMfrPolicyCeiling,
      execMfrFieldCeiling, execMfrTelemetryPage, execMfrTelemetryRead, pmbusTarget_off _ hoff]

/-- Settles O57: on a powered wafer the target runs its register's answer, on an unpowered one nobody acknowledges. -/
theorem pmbusTargetAnswers : Obligations.PmbusTargetAnswers := by
  refine ⟨fun s hon => ?_, fun c s hoff hc => pmbus_off hoff hc⟩
  obtain ⟨hstatus, hlimit, hvin, hiin, hpin, htemp, hpolicy, hfield, hpage⟩ := pmbus_reads hon
  refine ⟨hstatus, hlimit, hvin, hiin, hpin, htemp, hpolicy, hfield,
    ⟨latchedPage s, hpage, latchedPage_length s, fun i hi => getD_latchedPage s hi⟩, fun v hlow hhigh => ?_, fun v hv => ?_,
    fun f v hf hv => ?_, ?_, fun n hlow hhigh => execMfrTelemetryPage_of_page hon hlow hhigh, fun c hc => pmbus_nacks hon hc⟩
  · simp only [exec, execIinOcWarnLimit, pmbusTarget_on _ hon, if_pos (And.intro hlow hhigh)]
  · simp only [exec, execMfrPolicyCeiling, pmbusTarget_on _ hon, if_pos hv]
  · refine ⟨_, execMfrFieldCeiling_of_range hon hf hv, ?_, rfl, fun g hg => s.field_setField_other f g _ hg, rfl⟩
    exact congrArg Field.ceiling (s.field_setField_same f _)
  · simp only [exec, execMfrTelemetryPage, pmbusTarget_on _ hon, Nat.not_lt_zero, if_false, if_true]

end Sys2Proof.Machine

/-!
The DDR channels (11): refresh and scrub of a channel, the patrol scrub of a line (R531, R532), and the training that sets the rims up.
-/

namespace Sys2Proof.Machine

/-- What each step of a fold establishes for its own element, and every step keeps, holds of every element folded over. -/
theorem foldl_establishes {α β : Type} (g : α → β → α) (Q : α → β → Prop) (hest : ∀ a b, Q (g a b) b)
    (hkeep : ∀ a b c, Q a c → Q (g a b) c) {l : List β} {c : β} (a : α) (hc : c ∈ l) : Q (l.foldl g a) c := by
  induction l generalizing a with
  | nil => cases hc
  | cons b l ih =>
    rcases List.mem_cons.mp hc with rfl | hc
    · exact foldl_keeps (fun a => Q a c) g (fun a b h => hkeep a b c h) l (g a c) (hest a c)
    · exact ih (g a b) hc

/-! ## Training (R525 to R528) -/

/-- A rim is set up: one that has been trained is online when none of its channels failed. -/
def RimSettled (s : State) (q : Nat) : Prop := (s.rim q).trained = true → ((s.rim q).online = true ↔ (s.rim q).failedChannels = [])

/-- What setting the rims up leaves of them: training, DIMMs and power, and all of a rim that has not been trained. -/
def RimsKept (s s' : State) : Prop :=
  (∀ q, (s'.rim q).trained = (s.rim q).trained ∧ (s'.rim q).dimms = (s.rim q).dimms ∧ (s'.rim q).power = (s.rim q).power
    ∧ ((s.rim q).trained = false → s'.rim q = s.rim q)) ∧ s' = { s with rims := s'.rims }

theorem RimsKept.refl (s : State) : RimsKept s s := ⟨fun _ => ⟨rfl, rfl, rfl, fun _ => rfl⟩, rfl⟩

theorem RimsKept.trans {a b c : State} (hab : RimsKept a b) (hbc : RimsKept b c) : RimsKept a c := by
  refine ⟨fun q => ?_, ?_⟩
  · obtain ⟨htrained, hdimms, hpower, hsame⟩ := hab.1 q
    obtain ⟨htrained', hdimms', hpower', hsame'⟩ := hbc.1 q
    exact ⟨htrained'.trans htrained, hdimms'.trans hdimms, hpower'.trans hpower,
      fun h => (hsame' (htrained.trans h)).trans (hsame h)⟩
  · rw [hbc.2, hab.2]

/-- Setting one rim up by the channels' common configuration and speed. -/
def settleRim (cfg : Option (Nat × Nat × Nat)) (speed : Nat) (s : State) (r : Nat) : State :=
  if (s.rim r).trained then
    s.setRim r { s.rim r with
      failedChannels := failedIn s r cfg speed, online := (failedIn s r cfg speed).isEmpty, speed := speed
      capacityGiB := match cfg with | some c => c.1 | none => 0
      ranks := match cfg with | some c => c.2.1 | none => 0
      deviceWidth := match cfg with | some c => c.2.2 | none => 0 }
  else s

theorem settleDdr_eq (s : State) : settleDdr s = (List.range 4).foldl
    (settleRim (mostFrequent ((acceptedDimms s).map (fun e => dimmConfig e.2))) (ddrSpeed ((acceptedDimms s).map (fun e => e.2)))) s := rfl

section
variable (cfg : Option (Nat × Nat × Nat)) (speed : Nat) (s : State) (r : Nat)

theorem settleRim_other {q : Nat} (h : q ≠ r) : (settleRim cfg speed s r).rim q = s.rim q := by
  unfold settleRim
  split
  · exact s.rim_setRim_other r q _ h
  · rfl

theorem settleRim_kept : RimsKept s (settleRim cfg speed s r) := by
  refine ⟨fun q => ?_, ?_⟩
  · by_cases hq : q = r
    · subst hq
      unfold settleRim
      split
      · next h => rw [s.rim_setRim_same]; exact ⟨rfl, rfl, rfl, fun hnot => absurd (h.symm.trans hnot) (by decide)⟩
      · exact ⟨rfl, rfl, rfl, fun _ => rfl⟩
    · rw [settleRim_other cfg speed s r hq]
      exact ⟨rfl, rfl, rfl, fun _ => rfl⟩
  · unfold settleRim
    split <;> rfl

theorem settleRim_settles : RimSettled (settleRim cfg speed s r) r := by
  unfold settleRim
  split
  · intro _
    rw [s.rim_setRim_same]
    exact List.isEmpty_iff
  · next h => exact fun htrained => absurd htrained h

theorem settleRim_keeps_settled {q : Nat} (h : RimSettled s q) : RimSettled (settleRim cfg speed s r) q := by
  by_cases hq : q = r
  · exact hq ▸ settleRim_settles cfg speed s q
  · unfold RimSettled
    rw [settleRim_other cfg speed s r hq]
    exact h

end

theorem settleDdr_kept (s : State) : RimsKept s (settleDdr s) := by
  rw [settleDdr_eq]
  exact foldl_keeps (RimsKept s) _ (fun a b h => h.trans (settleRim_kept _ _ a b)) _ _ (.refl s)

theorem settleDdr_settles (s : State) {q : Nat} (hq : q < 4) : RimSettled (settleDdr s) q := by
  rw [settleDdr_eq]
  exact foldl_establishes _ RimSettled (settleRim_settles _ _) (fun a b _ h => settleRim_keeps_settled _ _ a b h) s (List.mem_range.mpr hq)

theorem rimOn_iff (s : State) (r : Nat) : rimOn s r = true ↔ poweredUp s = true ∧ (s.rim r).power = .good := by
  simp [rimOn]

theorem ddrTraining_setsUp (r : Fin 4) (ds : List (Option Dimm)) (s : State) (hon : rimOn s r = true) (hnew : (s.rim r).trained = false)
    (hboot : stepDone s 8 = false) :
    ∃ s', exec (.ddrTraining r ds) s = .next s' ∧ (s'.rim r).trained = true ∧ (s'.rim r).dimms = ds ∧ (s'.rim r).power = .good
      ∧ (∀ q : Fin 4, (s'.rim q).trained = true → ((s'.rim q).online = true ↔ (s'.rim q).failedChannels = []))
      ∧ (∀ q : Fin 4, q ≠ r → (s.rim q).trained = false → s'.rim q = s.rim q)
      ∧ exec (.ddrTraining r ds) s' = .next s' ∧ s'.mem = s.mem ∧ s'.tenants = s.tenants := by
  let s1 := s.setRim r { s.rim r with dimms := ds, trained := true }
  have hrim : s1.rim r = { s.rim r with dimms := ds, trained := true } := s.rim_setRim_same r _
  obtain ⟨hkept, hframe⟩ := settleDdr_kept s1
  obtain ⟨htrained, hdimms, hpower, -⟩ := hkept r
  rw [hrim] at htrained hdimms hpower
  refine ⟨settleDdr s1, if_pos (by simp [hon, hnew, hboot]), htrained, hdimms, hpower.trans ((rimOn_iff s r).mp hon).2,
    fun q => settleDdr_settles s1 q.isLt, fun q hq hnot => ?_, if_neg (by simp [htrained]), settleDdr_mem s1, ?_⟩
  · have hsame : s1.rim q = s.rim q := s.rim_setRim_other r q _ (fun h => hq (Fin.ext h))
    exact ((hkept q).2.2.2 (hsame ▸ hnot)).trans hsame
  · exact (congrArg State.tenants hframe).trans rfl

/-! ## Refresh and scrubs (R531, R532) -/

theorem channel_answer {c : Instr} {s : State} {ch : Nat} {x : Channel} (hexec : exec c s = .next (s.setChannel ch x)) :
    ∃ s', exec c s = .next s' ∧ s'.channel ch = x ∧ (∀ i, i ≠ ch → s'.channel i = s.channel i) ∧ s' = { s with channels := s'.channels } :=
  ⟨_, hexec, s.channel_setChannel_same ch x, fun i hi => s.channel_setChannel_other ch i x hi, rfl⟩

theorem patrolScrub_eq {l : Nat} {s : State} (found : ScrubFinding) (hon : poweredUp s = true) (hl : l < granules s * 2 ^ 24) :
    exec (.patrolScrub l found) s = .next (mergeFinding s found [l]) := by
  refine if_pos ?_
  rw [hon, Bool.true_and, decide_eq_true hl]

theorem mem_poisonLine (s : State) (l x : Nat) : x ∈ (poisonLine s l).mem.poisoned ↔ x = l ∨ x ∈ s.mem.poisoned := by
  unfold poisonLine
  split
  · next h =>
    refine ⟨.inr, fun hx => hx.elim (fun heq => ?_) id⟩
    exact heq ▸ List.contains_iff_mem.mp h
  · exact (List.mem_insertionSort (· ≤ ·)).trans List.mem_cons

@[simp] theorem poisonLine_ddr (s : State) (l : Nat) : (poisonLine s l).mem.ddr = s.mem.ddr := by
  unfold poisonLine
  split <;> rfl

@[simp] theorem poisonLine_channels (s : State) (l : Nat) : (poisonLine s l).channels = s.channels := by
  unfold poisonLine
  split <;> rfl

/-- Settles O56, clause by clause: the channel of a refresh or scrub, the line of a patrol scrub, the rims of a training. -/
theorem ddrKeptAndTrained : Obligations.DdrKeptAndTrained := by
  refine ⟨fun ch d n s hon htrained => ⟨?_, ?_⟩, fun l s hon hl => ⟨?_, ?_, ?_⟩, ddrTraining_setsUp⟩
  · obtain ⟨s', hexec, hsame, hother, hframe⟩ := channel_answer (c := .ddrRefresh ch d) (s := s) (if_pos (by simp [hon, htrained]))
    exact ⟨s', hexec, by rw [hsame], by rw [hsame], by rw [hsame], hother, hframe⟩
  · obtain ⟨s', hexec, hsame, hother, hframe⟩ := channel_answer (c := .ondieScrubRead ch n) (s := s) (if_pos (by simp [hon, htrained]))
    exact ⟨s', hexec, by rw [hsame], by rw [hsame], hframe⟩
  · exact patrolScrub_eq .clean hon hl
  · refine ⟨_, patrolScrub_eq .corrected hon hl, ?_, rfl, rfl⟩
    exact congrArg Channel.corrected (s.channel_setChannel_same _ _)
  · exact ⟨_, patrolScrub_eq .uncorrectable hon hl, mem_poisonLine s l, poisonLine_ddr s l, poisonLine_channels s l⟩

end Sys2Proof.Machine

/-!
What the shared operations leave alone: an alert changes the alert status, the ports and the output; an answer of the agent the sessions and
the output; a store flash, the free values and STORE_FAILED.
-/

namespace Sys2Proof.Machine

/-! ## Alerts (R415) -/

/-- From s to s' nothing but the ports and the output has changed. -/
def SentOnly (s s' : State) : Prop := ∃ ps os, s' = { s with ports := ps, out := os }

theorem SentOnly.refl (s : State) : SentOnly s s := ⟨s.ports, s.out, rfl⟩

theorem SentOnly.trans {a b c : State} (hab : SentOnly a b) (hbc : SentOnly b c) : SentOnly a c := by
  obtain ⟨ps, os, rfl⟩ := hab
  obtain ⟨ps', os', rfl⟩ := hbc
  exact ⟨ps', os', rfl⟩

theorem sendMsix_sentOnly (s : State) (p v : Nat) : SentOnly s (sendMsix s p v) := by
  unfold sendMsix
  dsimp only
  split
  · exact .refl s
  · split
    · exact ⟨_, s.out, rfl⟩
    · split
      · exact .refl s
      · exact ⟨s.ports, _, rfl⟩

theorem sendAlert0_sentOnly (s : State) : SentOnly s (sendAlert0 s) :=
  foldl_keeps (SentOnly s) _ (fun a p h => h.trans (sendMsix_sentOnly a p 0)) _ _ (.refl s)

/-- An alert sets its bits; besides them, and the ports and the output, nothing changes. -/
theorem raiseAlert_frame (s : State) (bs : BitVec 5) :
    ∃ ps os, raiseAlert s bs = { s with sys := { s.sys with alertStatus := s.sys.alertStatus ||| bs }, ports := ps, out := os } := by
  unfold raiseAlert
  dsimp only
  split
  · exact sendAlert0_sentOnly _
  · exact ⟨s.ports, s.out, rfl⟩

/-! ## Answers of the agent (R658) -/

/-- From s to s' nothing but the agent's sessions and the output has changed. -/
def AgentOnly (s s' : State) : Prop := ∃ xs os, s' = { s with casing := { s.casing with sessions := xs }, out := os }

theorem AgentOnly.refl (s : State) : AgentOnly s s := ⟨s.casing.sessions, s.out, rfl⟩

theorem AgentOnly.trans {a b c : State} (hab : AgentOnly a b) (hbc : AgentOnly b c) : AgentOnly a c := by
  obtain ⟨xs, os, rfl⟩ := hab
  obtain ⟨xs', os', rfl⟩ := hbc
  exact ⟨xs', os', rfl⟩

theorem sendAnswers_agentOnly (s : State) (sess : Nat) (l : List AgentAnswer) : AgentOnly s (sendAnswers s sess l) := by
  induction l generalizing s with
  | nil => exact ⟨_, s.out, rfl⟩
  | cons a rest ih =>
    unfold sendAnswers
    split
    · exact AgentOnly.trans ⟨s.casing.sessions, _, rfl⟩ (ih _)
    · exact ⟨_, s.out, rfl⟩

theorem agentDone_agentOnly (s : State) (sess cmd tag status : Nat) (payload : List Byte) :
    AgentOnly s (agentDone s sess cmd tag status payload) := sendAnswers_agentOnly _ _ _

/-- Records that wait for their store are answered and dropped (R664); nothing else but the sessions and the output changes. -/
theorem dropRecords_frame (s : State) :
    ∃ xs os st, dropRecords s = { s with casing := { s.casing with sessions := xs }, out := os, sys := { s.sys with stores := st } } := by
  have hkeep : ∀ (p : Store → Bool) (t : State), AgentOnly s t →
      ∃ xs os st, { t with sys := { t.sys with stores := t.sys.stores.filter p } }
        = { s with casing := { s.casing with sessions := xs }, out := os, sys := { s.sys with stores := st } } := by
    rintro p t ⟨xs, os, rfl⟩
    exact ⟨xs, os, _, rfl⟩
  unfold dropRecords
  refine hkeep _ _ (foldl_keeps (AgentOnly s) _ (fun a st h => ?_) _ _ (.refl s))
  split
  · exact h.trans (agentDone_agentOnly a _ _ _ _ _)
  · exact h
  · exact h
  · exact h
  · exact h

/-- A stopped engine keeps everything but its state, the alert and the records that wait. -/
theorem enterStopped_frame (s : State) :
    ∃ xs os st ps, enterStopped s
      = { s with
          casing := { s.casing with sessions := xs }, out := os, ports := ps
          sys := { s.sys with state := 2, alertStatus := s.sys.alertStatus ||| alStopped, stores := st } } := by
  unfold enterStopped
  obtain ⟨ps, os, heq⟩ := raiseAlert_frame { s with sys := { s.sys with state := 2 } } alStopped
  rw [heq]
  obtain ⟨xs, os', st, heq'⟩ := dropRecords_frame
    { s with sys := { s.sys with state := 2, alertStatus := s.sys.alertStatus ||| alStopped }, ports := ps, out := os }
  exact ⟨xs, os', st, ps, heq'⟩

/-! ## Stores in flash (R605 to R607) -/

/-- From s to s' nothing but flash, the free values and STORE_FAILED has changed. -/
def StoreOnly (s s' : State) : Prop :=
  ∃ fl n b, s' = { s with mem := { s.mem with flash := fl }, freeCtr := n, sys := { s.sys with storeFailed := b } }

theorem StoreOnly.refl (s : State) : StoreOnly s s := ⟨s.mem.flash, s.freeCtr, s.sys.storeFailed, rfl⟩

theorem StoreOnly.trans {a b c : State} (hab : StoreOnly a b) (hbc : StoreOnly b c) : StoreOnly a c := by
  obtain ⟨fl, n, x, rfl⟩ := hab
  obtain ⟨fl', n', x', rfl⟩ := hbc
  exact ⟨fl', n', x', rfl⟩

theorem flashErase_storeOnly (s : State) (a n : Nat) : StoreOnly s (flashErase s a n) := by
  unfold flashErase
  exact ⟨_, s.freeCtr, s.sys.storeFailed, rfl⟩

theorem flashProgram_storeOnly (s : State) (a : Nat) (bs : List Byte) : StoreOnly s (flashProgram s a bs) := by
  unfold flashProgram
  exact ⟨_, s.freeCtr, s.sys.storeFailed, rfl⟩

theorem writeCopy_storeOnly (s : State) (a : Area) (bs : List Byte) (seq : Nat) : StoreOnly s (writeCopy s a bs seq) :=
  ((flashErase_storeOnly _ _ _).trans (flashProgram_storeOnly _ _ _)).trans (flashProgram_storeOnly _ _ _)

theorem abandonStore_storeOnly (s : State) (a : Area) : StoreOnly s (abandonStore s a) := by
  have hfail : ∀ t : State, StoreOnly t { t with sys := { t.sys with storeFailed := true } } := fun t => ⟨t.mem.flash, t.freeCtr, true, rfl⟩
  have hstep : ∀ (t : State) (n : Nat), StoreOnly t (t.stepFree n) := fun t n => ⟨t.mem.flash, _, t.sys.storeFailed, rfl⟩
  unfold abandonStore
  dsimp only
  refine StoreOnly.trans ?_ (hstep _ _)
  refine StoreOnly.trans ?_ (flashProgram_storeOnly _ _ _)
  refine StoreOnly.trans ?_ (flashProgram_storeOnly _ _ _)
  exact (flashErase_storeOnly s a.base a.size).trans (hfail _)

/-- A store that power cuts leaves what has been programmed of it (R607); with none under way flash is as before. -/
theorem cutStore_frame (s : State) : StoreOnly s (cutStore s) ∧ (s.sys.stores = [] → (cutStore s).mem = s.mem) := by
  have hfree : ∀ n, StoreOnly s (s.stepFree n) := fun n => ⟨s.mem.flash, _, s.sys.storeFailed, rfl⟩
  have hstep : ∀ (t : State) (n : Nat), StoreOnly t (t.stepFree n) := fun t n => ⟨t.mem.flash, _, t.sys.storeFailed, rfl⟩
  have hsys : ∀ (t : State) (a : Area), StoreOnly t { abandonStore t a with sys := t.sys } := by
    intro t a
    obtain ⟨fl, n, b, h⟩ := abandonStore_storeOnly t a
    rw [h]
    exact ⟨fl, n, t.sys.storeFailed, rfl⟩
  have hcopy : ∀ (a : Area) (bs : List Byte) (seq : Nat) (b : Bool) (x : List Byte) (n : Nat),
      StoreOnly s (if n % 3 = 0 then s.stepFree 1
        else if n % 3 = 1 then { abandonStore (s.stepFree 1) a with sys := (s.stepFree 1).sys }
        else if b then (flashProgram (writeCopy (s.stepFree 1) a bs seq) (a.page + 8) x).stepFree 4
          else writeCopy (s.stepFree 1) a bs seq) := by
    intro a bs seq b x n
    split
    · exact hfree 1
    · split
      · exact (hfree 1).trans (hsys _ a)
      · split
        · exact (((hfree 1).trans (writeCopy_storeOnly _ _ _ _)).trans (flashProgram_storeOnly _ _ _)).trans (hstep _ 4)
        · exact (hfree 1).trans (writeCopy_storeOnly _ _ _ _)
  unfold cutStore
  dsimp only
  split
  · exact ⟨hfree 1, fun _ => rfl⟩
  · next h => exact ⟨hcopy _ _ _ _ _ _, fun hnone => nomatch hnone.symm.trans h⟩
  · next h => exact ⟨hcopy _ _ _ _ _ _, fun hnone => nomatch hnone.symm.trans h⟩
  · next h => exact ⟨hcopy _ _ _ _ _ _, fun hnone => nomatch hnone.symm.trans h⟩
  · next h =>
    refine ⟨?_, fun hnone => nomatch hnone.symm.trans h⟩
    split
    · exact hfree 1
    · exact ((hfree 1).trans (flashErase_storeOnly _ _ _)).trans (flashProgram_storeOnly _ _ _)
  · next h => exact ⟨(hfree 1).trans (flashErase_storeOnly _ _ _), fun hnone => nomatch hnone.symm.trans h⟩

end Sys2Proof.Machine

/-!
The power input and the converters (12, 14): when the wafer powers on and off, what is left of the state (R549), and how a converter comes up
or fails.
-/

namespace Sys2Proof.Machine

/-! ## Powering off (R549) -/

/-- A power-down leaves the Casing but for what R549 takes, and nothing of the engine. -/
theorem powerDown_frame {s : State} (hon : s.casing.powered = true) :
    PoweredOff s (powerDown s) ∧ ∃ xs, (powerDown s).casing = { s.casing with
      powered := false, powerGood := false, upAt := 0, iLimit := 450, ilimitCeiling := 64, lastFall := 0, belowSince := none
      lastIlimitRise := 0, policyCeiling := 44, selectedField := 0, telePage := 0, teleLatch := [], sessions := xs } := by
  obtain ⟨⟨fl, n, b, hcut⟩, hflash⟩ := cutStore_frame s
  obtain ⟨xs, os, st, hdrop⟩ := dropRecords_frame (cutStore s)
  have hstart : dropRecords (if s.casing.powered then cutStore s else s) = dropRecords (cutStore s) := by rw [hon]; rfl
  have hkeep : s.sys.stores = [] → fl = s.mem.flash := fun hnone => by
    have hmem := hflash hnone
    rw [hcut] at hmem
    exact congrArg Mems.flash hmem
  unfold powerDown
  rw [hstart, hdrop, hcut]
  exact ⟨⟨rfl, rfl, rfl, rfl, rfl, rfl, rfl, rfl, rfl, rfl, rfl, rfl, rfl, rfl, rfl, rfl, rfl, hkeep, rfl, rfl, rfl, rfl⟩, xs, rfl⟩

theorem tryPowerDown_of_on {s : State} (hon : s.casing.powered = true) : tryPowerDown s = powerDown s := if_pos hon

/-- A Casing that differs in its own settings alone is powered off alike. -/
theorem poweredOff_of_casing {s s' : State} {c : Casing} (h : PoweredOff { s with casing := c } s') : PoweredOff s s' := h

/-! ## Powering on (R548) -/

theorem converter_setConverter_same (s : State) (pos : Nat) (x : Power) : converter (setConverter s pos x) pos = x := by
  unfold converter setConverter
  by_cases hpos : pos < 4
  · simp only [hpos, if_true]
    exact congrArg Rim.power (s.rim_setRim_same pos _)
  · simp only [hpos, if_false]
    exact congrArg Field.power (s.field_setField_same _ _)

/-- A converter set as another already stands keeps that one as it stands, even where both stand for one field. -/
theorem converter_setConverter_keeps (s : State) (pos q : Nat) (x : Power) (h : converter s q = x) :
    converter (setConverter s pos x) q = x := by
  unfold converter setConverter at *
  by_cases hpos : pos < 4 <;> by_cases hq : q < 4 <;> simp only [hpos, hq, if_true, if_false] at h ⊢
  · by_cases hqp : q = pos
    · exact hqp ▸ congrArg Rim.power (s.rim_setRim_same pos _)
    · rw [s.rim_setRim_other pos q _ hqp]; exact h
  · exact h
  · exact h
  · by_cases hqp : fieldAt (q - 3) = fieldAt (pos - 3)
    · rw [hqp]; exact congrArg Field.power (s.field_setField_same _ _)
    · exact (congrArg Field.power (s.field_setField_other _ _ _ hqp)).trans h

/-- From s to s' nothing but converters has changed. -/
def ConvertersOnly (s s' : State) : Prop := ∃ fs rs, s' = { s with fields := fs, rims := rs }

theorem setConverter_only (s : State) (pos : Nat) (x : Power) : ConvertersOnly s (setConverter s pos x) := by
  unfold setConverter
  split
  · exact ⟨s.fields, _, rfl⟩
  · exact ⟨_, s.rims, rfl⟩

theorem ConvertersOnly.trans {a b c : State} (hab : ConvertersOnly a b) (hbc : ConvertersOnly b c) : ConvertersOnly a c := by
  obtain ⟨fs, rs, rfl⟩ := hab
  obtain ⟨fs', rs', rfl⟩ := hbc
  exact ⟨fs', rs', rfl⟩

/-- Every converter starts its ramp (R548). -/
def rampAll (s : State) : State := (List.range 74).foldl (fun s pos => setConverter s pos .ramping) s

theorem rampAll_only (s : State) : ConvertersOnly s (rampAll s) :=
  foldl_keeps (ConvertersOnly s) _ (fun a pos h => h.trans (setConverter_only a pos .ramping)) _ _ ⟨s.fields, s.rims, rfl⟩

theorem converter_rampAll (s : State) {pos : Nat} (hpos : pos < 74) : converter (rampAll s) pos = .ramping :=
  foldl_establishes _ (fun a pos => converter a pos = .ramping) (fun a pos => converter_setConverter_same a pos .ramping)
    (fun a pos q h => converter_setConverter_keeps a pos q .ramping h) s (List.mem_range.mpr hpos)

theorem converter_congr {s s' : State} (hfields : s'.fields = s.fields) (hrims : s'.rims = s.rims) (pos : Nat) :
    converter s' pos = converter s pos := by
  unfold converter State.rim State.field
  rw [hfields, hrims]

theorem powerUp_poweredOn (s : State) : PoweredOn s (powerUp s) ∧ (powerUp s).casing.standby = s.casing.standby
    ∧ (powerUp s).casing.overvoltageOff = s.casing.overvoltageOff := by
  let s1 := { s with
    casing := { s.casing with powered := true, powerGood := false, upAt := s.nowUs }
    sys := { s.sys with serial := eepromSerial s } }
  have hup : powerUp s = if s.casing.hold then enterStopped (rampAll s1) else rampAll s1 := by
    obtain ⟨fs, rs, hramp⟩ := rampAll_only s1
    have hhold : (rampAll s1).casing.hold = s.casing.hold := by rw [hramp]
    rw [← hhold]
    rfl
  have hconv : ∀ pos, pos < 74 → converter (rampAll s1) pos = .ramping := fun pos hpos => converter_rampAll s1 hpos
  obtain ⟨fs, rs, hramp⟩ := rampAll_only s1
  rw [hup]
  split
  · obtain ⟨xs, os, st, ps, hstop⟩ := enterStopped_frame (rampAll s1)
    have hsame : ∀ pos, converter (enterStopped (rampAll s1)) pos = converter (rampAll s1) pos :=
      converter_congr (by rw [hstop]) (by rw [hstop])
    refine ⟨⟨?_, ?_, fun pos hpos => (hsame pos).trans (hconv pos hpos), ?_, ?_, ?_, fun _ => ?_⟩, ?_, ?_⟩ <;> rw [hstop, hramp]
  · next hhold =>
    refine ⟨⟨?_, ?_, hconv, ?_, ?_, ?_, fun h => absurd h hhold⟩, ?_, ?_⟩ <;> rw [hramp]

theorem tryPowerUp_of_permitted {s : State} (hoff : s.casing.powered = false) (hstandby : s.casing.standby = true)
    (hpin : s.casing.enablePin = true) (hlatch : s.casing.powerOffLatch = false) (hbank : s.casing.bankAbove = true)
    (hvoltage : s.casing.overvoltageOff = false) : tryPowerUp s = powerUp s := by
  simp [tryPowerUp, hoff, hstandby, hpin, hlatch, hbank, hvoltage]

/-! ## The input voltage (R637 to R643) -/

theorem withInput_within {mV : Nat} (s : State) (f : State → State) (h : mV ≤ 65000) :
    withInput mV s f = .next (f { s with casing := { s.casing with vinMv := mV } }) := if_neg (Nat.not_lt.mpr h)

theorem withInput_beyond {mV : Nat} (s : State) (f : State → State) (h : 65000 < mV) : withInput mV s f = .fault .outsideRatings :=
  if_pos h

/-- A change of the Casing that leaves its overvoltage and the rest of the permission, and the power-up that it permits. -/
theorem poweredOn_of_permitted {s : State} {c : Casing} (hoff : c.powered = false) (hstandby : c.standby = true)
    (hpin : c.enablePin = true) (hlatch : c.powerOffLatch = false) (hbank : c.bankAbove = true) (hvoltage : c.overvoltageOff = false)
    (hhold : c.hold = s.casing.hold) :
    PoweredOn s (tryPowerUp { s with casing := c }) ∧ (tryPowerUp { s with casing := c }).casing.standby = true
      ∧ (tryPowerUp { s with casing := c }).casing.overvoltageOff = false := by
  rw [tryPowerUp_of_permitted hoff hstandby hpin hlatch hbank hvoltage]
  obtain ⟨⟨hpowered, hat, hramps, hserial, hmem, htenants, hstop⟩, hs, ho⟩ := powerUp_poweredOn { s with casing := c }
  exact ⟨⟨hpowered, hat, hramps, hserial, hmem, htenants, fun h => hstop (hhold.trans h)⟩, hs.trans hstandby, ho.trans hvoltage⟩

theorem input_powersOn (mV : Nat) (s : State) (hrated : mV ≤ 65000) (hmay : MayPower s) :
    (42000 < mV → s.casing.overvoltageOff = false → ∃ s', exec (.inputPowerUp mV) s = .next s' ∧ PoweredOn s s')
      ∧ (36000 < mV → s.casing.bankAbove = true → s.casing.overvoltageOff = false →
          ∃ s', exec (.standbyStart mV) s = .next s' ∧ PoweredOn s s' ∧ s'.casing.standby = true)
      ∧ (mV < 59000 → s.casing.standby = true → s.casing.bankAbove = true →
          ∃ s', exec (.overvoltageRecovery mV) s = .next s' ∧ PoweredOn s s' ∧ s'.casing.overvoltageOff = false) := by
  obtain ⟨hoff, hpin, hlatch⟩ := hmay
  refine ⟨fun hmV hvoltage => ?_, fun hmV hbank hvoltage => ?_, fun hmV hstandby hbank => ?_⟩
  · refine ⟨_, (withInput_within s _ hrated).trans (congrArg _ (if_pos hmV)), ?_⟩
    exact (poweredOn_of_permitted (s := s) (c := { s.casing with vinMv := mV, bankAbove := true, standby := true })
      hoff rfl hpin hlatch rfl hvoltage rfl).1
  · refine ⟨_, (withInput_within s _ hrated).trans (congrArg _ (if_pos hmV)), ?_⟩
    have h := poweredOn_of_permitted (s := s) (c := { s.casing with vinMv := mV, standby := true }) hoff rfl hpin hlatch hbank hvoltage rfl
    exact ⟨h.1, h.2.1⟩
  · refine ⟨_, (withInput_within s _ hrated).trans (congrArg _ (if_pos hmV)), ?_⟩
    have h := poweredOn_of_permitted (s := s) (c := { s.casing with vinMv := mV, overvoltageOff := false })
      hoff hstandby hpin hlatch hbank rfl rfl
    exact ⟨h.1, h.2.2⟩

/-- A powered wafer with any change of its Casing's own settings goes off. -/
theorem tryPowerDown_poweredOff {s : State} {c : Casing} (hon : c.powered = true) :
    PoweredOff s (tryPowerDown { s with casing := c }) ∧ ∃ xs, (tryPowerDown { s with casing := c }).casing = { c with
      powered := false, powerGood := false, upAt := 0, iLimit := 450, ilimitCeiling := 64, lastFall := 0, belowSince := none
      lastIlimitRise := 0, policyCeiling := 44, selectedField := 0, telePage := 0, teleLatch := [], sessions := xs } := by
  rw [tryPowerDown_of_on hon]
  exact powerDown_frame (s := { s with casing := c }) hon

theorem input_powersOff (mV : Nat) (s : State) (hon : s.casing.powered = true) :
    (mV < 38000 → ∃ s', exec (.undervoltage mV) s = .next s' ∧ PoweredOff s s' ∧ s'.casing.bankAbove = false)
      ∧ (61000 < mV → mV ≤ 65000 → ∃ s', exec (.inputOvervoltage mV) s = .next s' ∧ PoweredOff s s' ∧ s'.casing.overvoltageBit = true
          ∧ s'.casing.overvoltageOff = true)
      ∧ (mV ≤ 36000 → ∃ s', exec (.standbyLoss mV) s = .next s' ∧ PoweredOff s s' ∧ s'.casing.standby = false ∧ s'.casing.sessions = [])
      ∧ (∃ s', exec (.enable false) s = .next s' ∧ PoweredOff s s' ∧ s'.casing.enablePin = false)
      ∧ (∃ s', exec .lidOpen s = .next s' ∧ PoweredOff s s') := by
  refine ⟨fun hmV => ?_, fun hmV hrated => ?_, fun hmV => ?_, ?_, ?_⟩
  · obtain ⟨hoff, xs, hcasing⟩ := tryPowerDown_poweredOff (s := s) (c := { s.casing with vinMv := mV, bankAbove := false }) hon
    exact ⟨_, if_neg (Nat.not_le.mpr hmV), hoff, by rw [hcasing]⟩
  · obtain ⟨hoff, xs, hcasing⟩ := tryPowerDown_poweredOff (s := s)
      (c := { s.casing with vinMv := mV, overvoltageBit := true, overvoltageOff := true }) hon
    exact ⟨_, (withInput_within s _ hrated).trans (congrArg _ (if_pos hmV)), hoff, by rw [hcasing], by rw [hcasing]⟩
  · obtain ⟨hoff, xs, hcasing⟩ := tryPowerDown_poweredOff (s := s) (c := { s.casing with vinMv := mV }) hon
    obtain ⟨hpowered, hgood, hrest⟩ := hoff
    exact ⟨_, if_neg (Nat.not_lt.mpr hmV), ⟨hpowered, hgood, hrest⟩, rfl, rfl⟩
  · obtain ⟨hoff, xs, hcasing⟩ := tryPowerDown_poweredOff (s := s) (c := { s.casing with enablePin := false }) hon
    exact ⟨_, rfl, hoff, congrArg Casing.enablePin hcasing⟩
  · exact ⟨_, rfl, (tryPowerDown_poweredOff (s := s) (c := s.casing) hon).1⟩

theorem exec_beyond_ratings (c : Instr) (s : State) (h : 65000 < inputOf c) : exec c s = .fault .outsideRatings := by
  cases c
  case inputPowerUp mV => exact withInput_beyond s _ h
  case standbyStart mV => exact withInput_beyond s _ h
  case inputOvervoltage mV => exact withInput_beyond s _ h
  case overvoltageRecovery mV => exact withInput_beyond s _ h
  case currentSample dA mV => simp only [exec, execCurrentSample]; exact withInput_beyond s _ h
  all_goals exact absurd h (Nat.not_lt_zero _)

/-! ## Converters (R548 to R550) -/

/-- The order of the field converters names each of the 70 fields once. -/
theorem orderTable_fieldAt : ∀ n, 1 ≤ n → n ≤ 70 → orderTable.getD (fieldAt n) 0 = n := by decide

theorem fieldAt_injective {a b : Nat} (ha : 1 ≤ a ∧ a ≤ 70) (hb : 1 ≤ b ∧ b ≤ 70) (h : fieldAt a = fieldAt b) : a = b := by
  rw [← orderTable_fieldAt a ha.1 ha.2, h, orderTable_fieldAt b hb.1 hb.2]

theorem converter_setConverter_other (s : State) (pos q : Fin 74) (x : Power) (h : q ≠ pos) :
    converter (setConverter s pos x) q = converter s q := by
  have hval : q.val ≠ pos.val := fun heq => h (Fin.ext heq)
  unfold converter setConverter
  by_cases hpos : pos.val < 4 <;> by_cases hq : q.val < 4 <;> simp only [hpos, hq, if_true, if_false]
  · exact congrArg Rim.power (s.rim_setRim_other pos q _ hval)
  · rfl
  · rfl
  · refine congrArg Field.power (s.field_setField_other _ _ _ (fun heq => hval ?_))
    have := fieldAt_injective (a := q - 3) (b := pos - 3) (by omega) (by omega) heq
    omega

/-- A change of a field's state and voltage touches no converter. -/
theorem converter_modField (s : State) (f : Nat) (g : Field → Field) (hg : ∀ x, (g x).power = x.power) (q : Nat) :
    converter (s.modField f g) q = converter s q := by
  unfold converter
  split
  · rfl
  · by_cases hq : fieldAt (q - 3) = f
    · rw [hq]; exact (congrArg Field.power (s.field_setField_same f _)).trans (hg _)
    · exact congrArg Field.power (s.field_setField_other f _ _ hq)

@[simp] theorem State.field_modField_same (s : State) (f : Nat) (g : Field → Field) : (s.modField f g).field f = g (s.field f) :=
  s.field_setField_same f _

theorem State.field_modField_other (s : State) (f i : Nat) (g : Field → Field) (h : i ≠ f) : (s.modField f g).field i = s.field i :=
  s.field_setField_other f i _ h

/-- The start of step 2 notes the ROM's time and list, and nothing else. -/
theorem step2Start_frame (s : State) : ∃ at' tries, step2Start s = { s with sys := { s.sys with romStartedAt := at', romTries := tries } } := by
  have hsame : ∃ at' tries, s = { s with sys := { s.sys with romStartedAt := at', romTries := tries } } :=
    ⟨s.sys.romStartedAt, s.sys.romTries, rfl⟩
  unfold step2Start beginStep2
  split
  · split
    · exact hsame
    · exact ⟨_, _, rfl⟩
  · exact hsame

/-- The end of step 1 notes the step and PWR_GOOD, and nothing else. -/
theorem step1End_frame (s : State) : ∃ ended at' good,
    step1End s = { s with sys := { s.sys with stepEnded := ended, stepAt := at' }, casing := { s.casing with powerGood := good } } := by
  unfold step1End
  split
  · exact ⟨_, _, true, rfl⟩
  · exact ⟨s.sys.stepEnded, s.sys.stepAt, s.casing.powerGood, rfl⟩

/-- What the two steps of cold boot leave of a change of a converter: all but their own notes. -/
theorem step1End_step2Start_frame (s : State) :
    let s' := step1End (step2Start s)
    s'.fields = s.fields ∧ s'.rims = s.rims ∧ s'.mem = s.mem ∧ s'.tenants = s.tenants ∧ s'.clusters = s.clusters := by
  obtain ⟨at', tries, h2⟩ := step2Start_frame s
  obtain ⟨ended, at'', good, h1⟩ := step1End_frame (step2Start s)
  dsimp only
  rw [h1, h2]
  exact ⟨rfl, rfl, rfl, rfl, rfl⟩

theorem isRamping_congr {s s' : State} (hfields : s'.fields = s.fields) (hrims : s'.rims = s.rims) (q : Nat) :
    isRamping s' q = isRamping s q := by
  unfold isRamping
  rw [converter_congr hfields hrims]

/-- With no converter ramping any more, step 1 ends with PWR_GOOD. -/
theorem step1End_of_last {s : State} (hstep : stepDone s 1 = false) (hlast : ∀ q : Fin 74, converter s q ≠ .ramping) :
    stepDone (step1End (step2Start s)) 1 = true ∧ (step1End (step2Start s)).casing.powerGood = true := by
  obtain ⟨at', tries, h2⟩ := step2Start_frame s
  have hdone : stepDone (step2Start s) 1 = false := by rw [h2]; exact hstep
  have hall : (List.range 74).all (fun pos => !isRamping (step2Start s) pos) = true := by
    refine List.all_eq_true.mpr (fun q hq => ?_)
    have hnot : ¬ isRamping s q = true := fun h => hlast ⟨q, List.mem_range.mp hq⟩ (of_decide_eq_true h)
    rw [isRamping_congr (s := s) (by rw [h2]) (by rw [h2]), Bool.eq_false_iff.mpr hnot]
    rfl
  unfold step1End
  rw [hdone, hall]
  refine ⟨?_, rfl⟩
  simp only [Bool.not_false, Bool.and_self, if_true, stepDone, bit, endStep]
  simp [BitVec.toNat_or]

/-- A field converter that has come up runs its field at 600 mV while step 1 lasts (R548); no converter changes. -/
theorem fieldUp_frame (s : State) (pos : Nat) : ∃ fs, fieldUp s pos = { s with fields := fs } := by
  unfold fieldUp
  split
  · exact ⟨s.fields, rfl⟩
  · exact ⟨_, rfl⟩

theorem converter_fieldUp (s : State) (pos q : Nat) : converter (fieldUp s pos) q = converter s q := by
  unfold fieldUp
  split
  · rfl
  · refine converter_modField s _ _ ?_ q
    intro x
    rfl

theorem powerGood_comesUp (pos : Fin 74) (s : State) (hon : poweredUp s = true) (hramp : converter s pos = .ramping)
    (hat : rampBegan s pos ≤ s.nowUs) :
    ∃ s', exec (.powerGood pos) s = .next s' ∧ converter s' pos = .good ∧ (∀ q : Fin 74, q ≠ pos → converter s' q = converter s q)
      ∧ (4 ≤ pos.val → stepDone s 1 = false → (s'.field (fieldAt (pos.val - 3))).state = .running ∧ (s'.field (fieldAt (pos.val - 3))).railMv = 600)
      ∧ (pos.val = 0 → s.sys.romStartedAt = none → s'.sys.romStartedAt = some s.nowUs ∧ s'.sys.romTries = bootable s)
      ∧ (stepDone s 1 = false → (∀ q : Fin 74, q ≠ pos → converter s q ≠ .ramping) → stepDone s' 1 = true ∧ s'.casing.powerGood = true)
      ∧ s'.mem = s.mem ∧ s'.tenants = s.tenants ∧ s'.clusters = s.clusters := by
  obtain ⟨fs, rs, hset⟩ := setConverter_only s pos .good
  obtain ⟨fs', hup⟩ := fieldUp_frame (setConverter s pos .good) pos
  let s2 := fieldUp (setConverter s pos .good) pos
  have hs2 : s2 = { s with fields := fs', rims := rs } := hup.trans (by rw [hset])
  have hsame : converter s2 pos = .good := (converter_fieldUp _ _ _).trans (converter_setConverter_same s pos .good)
  have hother : ∀ q : Fin 74, q ≠ pos → converter s2 q = converter s q := fun q hq =>
    (converter_fieldUp _ _ _).trans (converter_setConverter_other s pos q .good hq)
  obtain ⟨hfields, hrims, hmem, htenants, hclusters⟩ := step1End_step2Start_frame s2
  refine ⟨step1End (step2Start s2), if_pos (by simp [hon, isRamping, hramp, hat]), (converter_congr hfields hrims pos).trans hsame,
    fun q hq => (converter_congr hfields hrims q).trans (hother q hq), fun hpos hstep => ?_, fun hpos hrom => ?_, fun hstep hlast => ?_,
    hmem.trans (by rw [hs2]), htenants.trans (by rw [hs2]), hclusters.trans (by rw [hs2])⟩
  · have hfield : (step1End (step2Start s2)).field (fieldAt (pos.val - 3)) = s2.field (fieldAt (pos.val - 3)) := by
      unfold State.field
      rw [hfields]
    have hstep' : stepDone (setConverter s pos .good) 1 = false := by rw [hset]; exact hstep
    have hrunning : s2 = (setConverter s pos .good).modField (fieldAt (pos - 3)) (fun x => { x with state := .running, railMv := 600 }) :=
      if_neg (by simp [hstep', hpos])
    rw [hfield, hrunning, State.field_modField_same]
    exact ⟨rfl, rfl⟩
  · have hgood : (s2.rim 0).power = .good := by
      rw [hpos] at hsame
      exact hsame
    have hbegin : step2Start s2 = { s2 with sys := { s2.sys with romStartedAt := some s2.nowUs, romTries := bootable s2 } } := by
      have hnone : s2.sys.romStartedAt = none := by rw [hs2]; exact hrom
      simp [step2Start, beginStep2, hgood, hnone]
    obtain ⟨ended, at', good, h1⟩ := step1End_frame (step2Start s2)
    rw [h1, hbegin, hs2]
    exact ⟨rfl, rfl⟩
  · refine step1End_of_last (by rw [hs2]; exact hstep) (fun q => ?_)
    by_cases hq : q = pos
    · rw [hq, hsame]
      decide
    · rw [hother q hq]
      exact hlast q hq

theorem powerGoodTimeout_fails (pos : Fin 74) (s : State) (hon : poweredUp s = true) (hramp : converter s pos = .ramping)
    (hat : rampBegan s pos + 5000 ≤ s.nowUs) :
    ∃ s', exec (.powerGoodTimeout pos) s = .next s' ∧ converter s' pos = .failed
      ∧ (∀ q : Fin 74, q ≠ pos → converter s' q = converter s q)
      ∧ (4 ≤ pos.val → (s'.field (fieldAt (pos.val - 3))).state = .unpowered) ∧ s'.mem = s.mem ∧ s'.tenants = s.tenants := by
  obtain ⟨fs, rs, hset⟩ := setConverter_only s pos .failed
  let s2 := if pos.val < 4 then setConverter s pos .failed
    else (setConverter s pos .failed).modField (fieldAt (pos - 3)) (fun x => { x with state := .unpowered })
  have hconv : ∀ q, converter s2 q = converter (setConverter s pos .failed) q := by
    intro q
    unfold s2
    split
    · rfl
    · refine converter_modField _ _ _ ?_ q
      intro x
      rfl
  obtain ⟨hfields, hrims, hmem, htenants, -⟩ := step1End_step2Start_frame s2
  have hkept : s2.mem = s.mem ∧ s2.tenants = s.tenants := by
    unfold s2
    split <;> rw [hset] <;> exact ⟨rfl, rfl⟩
  refine ⟨step1End (step2Start s2), if_pos (by simp [hon, isRamping, hramp, hat]), ?_, fun q hq => ?_, fun hpos => ?_,
    hmem.trans hkept.1, htenants.trans hkept.2⟩
  · exact (converter_congr hfields hrims pos).trans ((hconv pos).trans (converter_setConverter_same s pos .failed))
  · exact (converter_congr hfields hrims q).trans ((hconv q).trans (converter_setConverter_other s pos q .failed hq))
  · have hfield : (step1End (step2Start s2)).field (fieldAt (pos.val - 3)) = s2.field (fieldAt (pos.val - 3)) := by
      unfold State.field
      rw [hfields]
    have hmod : s2 = (setConverter s pos .failed).modField (fieldAt (pos - 3)) (fun x => { x with state := .unpowered }) :=
      if_neg (Nat.not_lt.mpr hpos)
    rw [hfield, hmod, State.field_modField_same]

/-- Settles O53: power on, power off, the limit of the ratings, and a converter that comes up or fails. -/
theorem powerInputAndConverters : Obligations.PowerInputAndConverters := by
  refine ⟨input_powersOn, fun s hoff hstandby hbank hvoltage hlatch => ?_, input_powersOff, exec_beyond_ratings, fun pos s hon hramp =>
    ⟨powerGood_comesUp pos s hon hramp, powerGoodTimeout_fails pos s hon hramp⟩⟩
  exact ⟨_, rfl, (poweredOn_of_permitted (s := s) (c := { s.casing with enablePin := true }) hoff hstandby rfl hlatch hbank hvoltage rfl).1⟩

end Sys2Proof.Machine

/-!
What notices and the end of a clause leave alone (08, 09). A notice changes the host's memory, the tenants' notice state, pending vectors and
the output; the end of a clause takes it out of flight and releases its clusters besides.
-/

namespace Sys2Proof.Machine

/-! ## Tenants -/

/-- From x to y nothing of a tenant has changed but its notices and results held, HALTED, the clears owed and the messages not yet answered. -/
def TenantMail (x y : Tenant) : Prop :=
  ∃ tl ph used held results lost cnt owed al hal cl un, y = { x with
    tail := tl, tailPhase := ph, ringUsed := used, heldNotices := held, heldResults := results, noticeLost := lost, lostCount := cnt, lostOwed := owed
    owedAlerts := al, halted := hal, clears := cl, unanswered := un }

theorem TenantMail.refl (x : Tenant) : TenantMail x x := ⟨_, _, _, _, _, _, _, _, _, _, _, _, rfl⟩

theorem TenantMail.trans {x y z : Tenant} (hxy : TenantMail x y) (hyz : TenantMail y z) : TenantMail x z := by
  obtain ⟨_, _, _, _, _, _, _, _, _, _, _, _, rfl⟩ := hxy
  obtain ⟨_, _, _, _, _, _, _, _, _, _, _, _, rfl⟩ := hyz
  exact ⟨_, _, _, _, _, _, _, _, _, _, _, _, rfl⟩

/-! ## Notices (R369 to R372, R415) -/

/-- From s to s' nothing has changed but the host's memory, the tenants' notices with their mirror, pending vectors and the output. -/
structure MailFrame (s s' : State) : Prop where
  rest : ∃ h ts mr ps os, s' = { s with mem := { s.mem with host := h }, tenants := ts, mirror := mr, ports := ps, out := os }
  tenants : ∀ u, TenantMail (s.tenant u) (s'.tenant u)
  ports : ∀ q, ∃ pending, s'.port q = { s.port q with msixPending := pending }

theorem MailFrame.refl (s : State) : MailFrame s s :=
  ⟨⟨s.mem.host, s.tenants, s.mirror, s.ports, s.out, rfl⟩, fun _ => .refl _, fun q => ⟨(s.port q).msixPending, rfl⟩⟩

theorem MailFrame.trans {a b c : State} (hab : MailFrame a b) (hbc : MailFrame b c) : MailFrame a c := by
  refine ⟨?_, fun u => (hab.tenants u).trans (hbc.tenants u), fun q => ?_⟩
  · obtain ⟨h, ts, mr, ps, os, hb⟩ := hab.rest
    obtain ⟨h', ts', mr', ps', os', hc⟩ := hbc.rest
    rw [hc, hb]
    exact ⟨h', ts', mr', ps', os', rfl⟩
  · obtain ⟨pending, hb⟩ := hab.ports q
    obtain ⟨pending', hc⟩ := hbc.ports q
    rw [hc, hb]
    exact ⟨pending', rfl⟩

theorem foldl_mailFrame {β : Type} (g : State → β → State) (hg : ∀ s b, MailFrame s (g s b)) (l : List β) (s : State) :
    MailFrame s (l.foldl g s) := foldl_keeps (MailFrame s) g (fun a b h => h.trans (hg a b)) l s (.refl s)

theorem setTenant_mailFrame (s : State) (t : Nat) (x : Tenant) (hx : TenantMail (s.tenant t) x) : MailFrame s (s.setTenant t x) := by
  refine ⟨⟨s.mem.host, _, _, s.ports, s.out, rfl⟩, fun u => ?_, fun q => ⟨(s.port q).msixPending, rfl⟩⟩
  by_cases hu : u = t
  · rw [hu, s.tenant_setTenant_same]
    exact hx
  · rw [s.tenant_setTenant_other t u x hu]
    exact .refl _

theorem sendMsix_mailFrame (s : State) (p v : Nat) : MailFrame s (sendMsix s p v) := by
  obtain ⟨ps, os, heq⟩ := sendMsix_sentOnly s p v
  refine ⟨⟨s.mem.host, s.tenants, s.mirror, ps, os, heq⟩, fun u => ?_, fun q => ?_⟩
  · rw [heq]
    exact .refl _
  · obtain ⟨pending, hport, -⟩ := (sendMsix_alertsAdded s p v).2 q
    exact ⟨pending, hport⟩

theorem hostWrite_mailFrame (s : State) (p a : Nat) (bs : List Byte) : MailFrame s (hostWrite s p a bs) := by
  unfold hostWrite
  split
  · exact .refl s
  · exact ⟨⟨_, s.tenants, s.mirror, s.ports, s.out, rfl⟩, fun u => .refl _, fun q => ⟨(s.port q).msixPending, rfl⟩⟩

theorem writeNotice_mailFrame (s : State) (t : Nat) (body : List Byte) : MailFrame s (writeNotice s t body) := by
  have hslot : MailFrame s (writeSlot s t body) := hostWrite_mailFrame _ _ _ _
  have htenant : (writeSlot s t body).tenant t = s.tenant t := by
    unfold writeSlot hostWrite
    split <;> rfl
  rw [writeNotice_eq]
  refine hslot.trans (setTenant_mailFrame _ t _ ?_)
  rw [htenant]
  exact ⟨_, _, _, _, _, _, _, _, _, _, _, _, rfl⟩

theorem postNotice_mailFrame (s : State) (t : Nat) (body : List Byte) : MailFrame s (postNotice s t body) := by
  unfold postNotice
  dsimp only
  split
  · exact writeNotice_mailFrame s t body
  · split
    · exact setTenant_mailFrame s t _ ⟨_, _, _, _, _, _, _, _, _, _, _, _, rfl⟩
    · exact setTenant_mailFrame s t _ ⟨_, _, _, _, _, _, _, _, _, _, _, _, rfl⟩

theorem reply_mailFrame (s : State) (t seq type status reason index result cookie : Nat) :
    MailFrame s (reply s t seq type status reason index result cookie) :=
  (postNotice_mailFrame s t _).trans (setTenant_mailFrame _ t _ ⟨_, _, _, _, _, _, _, _, _, _, _, _, rfl⟩)

theorem haltAlert_mailFrame (s : State) (t : Nat) : MailFrame s (haltAlert s t) := by
  unfold haltAlert
  dsimp only
  split
  · exact .refl s
  · split
    · exact sendMsix_mailFrame s _ _
    · exact setTenant_mailFrame s t _ ⟨_, _, _, _, _, _, _, _, _, _, _, _, rfl⟩

theorem clearDone_mailFrame (s : State) (t : Nat) (c : Nat × Nat × List Nat) : MailFrame s (clearDone s t c) :=
  (setTenant_mailFrame s t _ ⟨_, _, _, _, _, _, _, _, _, _, _, _, rfl⟩).trans (reply_mailFrame _ t _ _ _ _ _ _ _)

theorem finishClears_mailFrame (s : State) (t : Nat) : MailFrame s (finishClears s t) := by
  refine foldl_mailFrame _ (fun s c => ?_) _ s
  split
  · exact .refl s
  · exact clearDone_mailFrame s t c

theorem setHalted_mailFrame (s : State) (t prio : Nat) : MailFrame s (setHalted s t prio) :=
  setTenant_mailFrame s t _ ⟨_, _, _, _, _, _, _, _, _, _, _, _, rfl⟩

theorem releaseAlerts_mailFrame (s : State) (t : Nat) : MailFrame s (releaseAlerts s t) := by
  unfold releaseAlerts
  exact (setTenant_mailFrame s t _ ⟨_, _, _, _, _, _, _, _, _, _, _, _, rfl⟩).trans (foldl_mailFrame _ (fun s _ => sendMsix_mailFrame s _ _) _ _)

theorem flushHeld_mailFrame (s : State) (t n : Nat) : MailFrame s (flushHeld s t n) := by
  induction n generalizing s with
  | zero => exact .refl s
  | succ n ih =>
    unfold flushHeld
    dsimp only
    split
    · split
      · refine MailFrame.trans ?_ (ih _)
        exact ((setTenant_mailFrame s t _ ⟨_, _, _, _, _, _, _, _, _, _, _, _, rfl⟩).trans (writeNotice_mailFrame _ t _)).trans
          (releaseAlerts_mailFrame _ t)
      · split
        · exact ((setTenant_mailFrame s t _ ⟨_, _, _, _, _, _, _, _, _, _, _, _, rfl⟩).trans (writeNotice_mailFrame _ t _)).trans
            (releaseAlerts_mailFrame _ t)
        · exact .refl s
    · exact .refl s

theorem flushResults_mailFrame (s : State) (t : Nat) : MailFrame s (flushResults s t) := by
  unfold flushResults
  dsimp only
  split
  · exact (setTenant_mailFrame s t _ ⟨_, _, _, _, _, _, _, _, _, _, _, _, rfl⟩).trans
      (foldl_mailFrame _ (fun s r => hostWrite_mailFrame s _ _ _) _ _)
  · exact .refl s

theorem flushTenant_mailFrame (s : State) (t : Nat) : MailFrame s (flushTenant s t) := by
  unfold flushTenant
  split
  · exact (flushResults_mailFrame s t).trans (flushHeld_mailFrame _ t _)
  · exact .refl s

theorem flushVector_mailFrame (s : State) (p v : Nat) : MailFrame s (flushVector s p v) := by
  have hport : ∀ pending, MailFrame s (s.setPort p { s.port p with msixPending := pending }) := fun pending => by
    refine ⟨⟨s.mem.host, s.tenants, s.mirror, _, s.out, rfl⟩, fun u => .refl _, fun q => ?_⟩
    by_cases hq : q = p
    · rw [hq, s.port_setPort_same]
      exact ⟨pending, rfl⟩
    · rw [s.port_setPort_other p q _ hq]
      exact ⟨(s.port q).msixPending, rfl⟩
  unfold flushVector
  dsimp only
  split
  · split
    · exact hport _
    · exact ⟨⟨s.mem.host, s.tenants, s.mirror, _, _, rfl⟩, fun u => .refl _, (hport _).ports⟩
  · exact .refl s

/-- What goes out when a port can write again is notices, results and vectors (R508). -/
theorem resumePort_mailFrame (s : State) (p : Nat) : MailFrame s (resumePort s p) := by
  have htenants : MailFrame s ((List.range 16).foldl (fun s t => resumeTenant s p t) s) :=
    foldl_mailFrame _ (fun s t => by
      unfold resumeTenant
      dsimp only
      split
      · exact flushTenant_mailFrame s t
      · exact .refl s) _ s
  exact htenants.trans (foldl_mailFrame _ (fun s v => flushVector_mailFrame s p v) _ _)

/-! ## The end of a clause (R292, R408, R413) -/

/-- From s to s' clauses may have ended: besides notices, only flights have gone and clusters been released. -/
structure ClauseFrame (s s' : State) : Prop where
  rest : ∃ h ts mr ps os w cs,
    s' = { s with mem := { s.mem with host := h }, tenants := ts, mirror := mr, ports := ps, out := os, work := w, clusters := cs }
  tenants : ∀ u, TenantMail (s.tenant u) (s'.tenant u)
  ports : ∀ q, ∃ pending, s'.port q = { s.port q with msixPending := pending }
  work : ∃ fs os ld ts, s'.work = { s.work with flights := fs, outstanding := os, landed := ld, touches := ts } ∧ fs.Sublist s.work.flights

theorem MailFrame.clauseFrame {s s' : State} (h : MailFrame s s') : ClauseFrame s s' := by
  obtain ⟨hm, ts, mr, ps, os, heq⟩ := h.rest
  refine ⟨⟨hm, ts, mr, ps, os, s.work, s.clusters, heq⟩, h.tenants, h.ports, ?_⟩
  rw [heq]
  exact ⟨_, _, _, _, rfl, List.Sublist.refl _⟩

theorem ClauseFrame.refl (s : State) : ClauseFrame s s := (MailFrame.refl s).clauseFrame

theorem ClauseFrame.trans {a b c : State} (hab : ClauseFrame a b) (hbc : ClauseFrame b c) : ClauseFrame a c := by
  refine ⟨?_, fun u => (hab.tenants u).trans (hbc.tenants u), fun q => ?_, ?_⟩
  · obtain ⟨h, ts, mr, ps, os, w, cs, hb⟩ := hab.rest
    obtain ⟨h', ts', mr', ps', os', w', cs', hc⟩ := hbc.rest
    rw [hc, hb]
    exact ⟨h', ts', mr', ps', os', w', cs', rfl⟩
  · obtain ⟨pending, hb⟩ := hab.ports q
    obtain ⟨pending', hc⟩ := hbc.ports q
    rw [hc, hb]
    exact ⟨pending', rfl⟩
  · obtain ⟨fs, os, ld, ts, hb, hsub⟩ := hab.work
    obtain ⟨fs', os', ld', ts', hc, hsub'⟩ := hbc.work
    rw [hc, hb]
    rw [hb] at hsub'
    exact ⟨fs', os', ld', ts', rfl, hsub'.trans hsub⟩

theorem foldl_clauseFrame {β : Type} (g : State → β → State) (hg : ∀ s b, ClauseFrame s (g s b)) (l : List β) (s : State) :
    ClauseFrame s (l.foldl g s) := foldl_keeps (ClauseFrame s) g (fun a b h => h.trans (hg a b)) l s (.refl s)

theorem setWork_clauseFrame (s : State) {w : Work} {cs : Tab Cluster}
    (hw : ∃ fs os ld ts, w = { s.work with flights := fs, outstanding := os, landed := ld, touches := ts } ∧ fs.Sublist s.work.flights) :
    ClauseFrame s { s with work := w, clusters := cs } :=
  ⟨⟨s.mem.host, s.tenants, s.mirror, s.ports, s.out, w, cs, rfl⟩, fun _ => .refl _, fun q => ⟨(s.port q).msixPending, rfl⟩, hw⟩

/-- Releasing the clusters of a clause changes nothing else. -/
theorem releaseClusters_only (s : State) (uid : Nat) : ∃ cs, releaseClusters s uid = { s with clusters := cs } := by
  unfold releaseClusters
  refine foldl_keeps (fun a => ∃ cs, a = { s with clusters := cs }) _ (fun a e h => ?_) _ _ ⟨s.clusters, rfl⟩
  obtain ⟨cs, rfl⟩ := h
  split
  · exact ⟨_, rfl⟩
  · exact ⟨cs, rfl⟩

theorem removeFlight_clauseFrame (s : State) (uid : Nat) : ClauseFrame s (removeFlight s uid) := by
  obtain ⟨cs, heq⟩ := releaseClusters_only s uid
  unfold removeFlight
  rw [heq]
  exact setWork_clauseFrame s ⟨_, _, _, _, rfl, List.filter_sublist⟩

theorem forgetClause_clauseFrame (s : State) (t seq : Nat) : ClauseFrame s (forgetClause s t seq) :=
  setWork_clauseFrame s (cs := s.clusters) ⟨s.work.flights, s.work.outstanding, s.work.landed, _, rfl, List.Sublist.refl _⟩

theorem endClause_clauseFrame (s : State) (f : Flight) (v : Verdict) : ClauseFrame s (endClause s f v) := by
  unfold endClause
  refine ClauseFrame.trans ?_ (finishClears_mailFrame _ _).clauseFrame
  have hgone : ClauseFrame s (forgetClause (removeFlight s f.uid) f.tenant (mSeq f.words)) :=
    (removeFlight_clauseFrame s f.uid).trans (forgetClause_clauseFrame _ _ _)
  split
  · exact hgone
  · exact hgone.trans (postNotice_mailFrame _ _ _).clauseFrame

theorem cancelAll_clauseFrame (s : State) (fs : List Flight) : ClauseFrame s (cancelAll s fs) :=
  foldl_clauseFrame _ (fun s f => endClause_clauseFrame s f _) fs s

theorem haltRing_clauseFrame (s : State) (t prio : Nat) : ClauseFrame s (haltRing s t prio) := by
  have hcancel : ∀ fs, ClauseFrame s (cancelAll (setHalted s t prio) fs) := fun fs =>
    (setHalted_mailFrame s t prio).clauseFrame.trans (cancelAll_clauseFrame _ fs)
  unfold haltRing
  dsimp only
  split
  · exact hcancel _
  · exact (hcancel _).trans (haltAlert_mailFrame _ _).clauseFrame

theorem completeClause_clauseFrame (s : State) (f : Flight) (v : Verdict) : ClauseFrame s (completeClause s f v) := by
  unfold completeClause
  dsimp only
  split
  · exact (endClause_clauseFrame s f v).trans (haltRing_clauseFrame _ _ _)
  · exact endClause_clauseFrame s f v

end Sys2Proof.Machine

/-!
Sensors and ceilings (12): the current limit, the temperatures and the coolant move their ceilings (R564 to R571), and a field that is shut
down is fenced, unpowered and reported (R566, R571, R438).
-/

namespace Sys2Proof.Machine

/-! ## Shutting a field down (R438) -/

theorem ClauseFrame.fields {s s' : State} (h : ClauseFrame s s') : s'.fields = s.fields := by
  obtain ⟨_, _, _, _, _, _, _, heq⟩ := h.rest
  rw [heq]

theorem ClauseFrame.sys {s s' : State} (h : ClauseFrame s s') : s'.sys = s.sys := by
  obtain ⟨_, _, _, _, _, _, _, heq⟩ := h.rest
  rw [heq]

theorem ClauseFrame.casing {s s' : State} (h : ClauseFrame s s') : s'.casing = s.casing := by
  obtain ⟨_, _, _, _, _, _, _, heq⟩ := h.rest
  rw [heq]

theorem writeRoutes_only (s : State) : ∃ x, writeRoutes s = { s with silicon := x } := by
  unfold writeRoutes
  dsimp only
  split
  · exact ⟨_, rfl⟩
  · exact ⟨s.silicon, rfl⟩

theorem fencedNotices_mailFrame (s : State) (f : Nat) : MailFrame s (fencedNotices s f) := by
  refine foldl_mailFrame _ (fun s t => ?_) _ s
  split
  · exact .refl s
  · exact postNotice_mailFrame s t _

theorem absentClauses_clauseFrame (s : State) (f : Nat) : ClauseFrame s (absentClauses s f) := by
  refine foldl_clauseFrame _ (fun s g => ?_) _ s
  split
  · exact .refl s
  · exact completeClause_clauseFrame s _ _

/-- A field as it stands when it has been shut down. -/
def shutDown (x : Field) (st : FieldState) : Field := { x with fenced := true, state := st, power := .off }

/-- A cluster that loses its power: its monitors, counts and bells' kinds stay. -/
def unpowerCluster (s : State) (k : Nat) : State :=
  s.modCluster k (fun c => { avfs := c.avfs, ecc := c.ecc, idleSince := s.nowUs, bells := c.bells.map (fun b => { b with slots := 0 }) })

theorem foldl_unpowerCluster_only (l : List Nat) (s : State) : ∃ cs, l.foldl unpowerCluster s = { s with clusters := cs } := by
  refine foldl_keeps (fun a => ∃ cs, a = { s with clusters := cs }) _ (fun a k h => ?_) l s ⟨s.clusters, rfl⟩
  obtain ⟨cs, rfl⟩ := h
  exact ⟨_, rfl⟩

theorem foldl_unpowerCluster_off {l : List Nat} {k : Nat} (s : State) (hk : k ∈ l) :
    ((l.foldl unpowerCluster s).cluster k).awake = false := by
  refine foldl_establishes unpowerCluster (fun a k => (a.cluster k).awake = false) (fun a b => ?_) (fun a b c hc => ?_) s hk
  · exact congrArg Cluster.awake (State.cluster_modCluster_same a b _)
  · by_cases hcb : c = b
    · rw [hcb]; exact congrArg Cluster.awake (State.cluster_modCluster_same a b _)
    · exact (congrArg Cluster.awake (State.cluster_modCluster_other a b c _ hcb)).trans hc

/-- The state in which a field has been fenced and its shutdown reported. -/
def fieldShut (s : State) (f : Nat) (st : FieldState) : State :=
  raiseAlert (writeRoutes (s.modField f (fun x => shutDown x st))) alFieldShutdown

theorem fieldShut_frame (s : State) (f : Nat) (st : FieldState) :
    (fieldShut s f st).fields = (s.modField f (fun x => shutDown x st)).fields ∧ (fieldShut s f st).casing = s.casing
      ∧ (fieldShut s f st).sys = { s.sys with alertStatus := s.sys.alertStatus ||| alFieldShutdown } := by
  obtain ⟨x, hroutes⟩ := writeRoutes_only (s.modField f (fun x => shutDown x st))
  obtain ⟨ps, os, halert⟩ := raiseAlert_frame { s.modField f (fun x => shutDown x st) with silicon := x } alFieldShutdown
  unfold fieldShut
  rw [hroutes, halert]
  exact ⟨rfl, rfl, rfl⟩

theorem shutField_eq {s : State} {f : Nat} (st : FieldState) (h : ((s.field f).fenced && decide ((s.field f).state ≠ .running)) = false) :
    shutField s f st
      = (fieldClusters f).foldl unpowerCluster (absentClauses (fencedNotices (fieldShut s f st) f) f) := by
  unfold shutField
  rw [h]
  rfl

theorem shutField_of_shut {s : State} {f : Nat} (st : FieldState) (h : ((s.field f).fenced && decide ((s.field f).state ≠ .running)) = true) :
    shutField s f st = s := if_pos h

/-- A field that is shut down alone changes of the fields; its alert is set, and its clusters are off. -/
theorem shutField_frame {s : State} {f : Nat} (st : FieldState) (h : ((s.field f).fenced && decide ((s.field f).state ≠ .running)) = false) :
    (shutField s f st).fields = (s.modField f (fun x => shutDown x st)).fields ∧ (shutField s f st).casing = s.casing
      ∧ (shutField s f st).sys = { s.sys with alertStatus := s.sys.alertStatus ||| alFieldShutdown }
      ∧ ∀ k ∈ fieldClusters f, ((shutField s f st).cluster k).awake = false := by
  obtain ⟨hfields, hcasing, hsys⟩ := fieldShut_frame s f st
  have hclauses : ClauseFrame (fieldShut s f st) (absentClauses (fencedNotices (fieldShut s f st) f) f) :=
    (fencedNotices_mailFrame _ f).clauseFrame.trans (absentClauses_clauseFrame _ f)
  rw [shutField_eq st h]
  rw [← hfields, ← hcasing, ← hsys, ← hclauses.fields, ← hclauses.casing, ← hclauses.sys]
  generalize absentClauses (fencedNotices (fieldShut s f st) f) f = t
  obtain ⟨cs, hcs⟩ := foldl_unpowerCluster_only (fieldClusters f) t
  exact ⟨by rw [hcs], by rw [hcs], by rw [hcs], fun k hk => foldl_unpowerCluster_off t hk⟩

theorem field_congr {s s' : State} (h : s'.fields = s.fields) (f : Nat) : s'.field f = s.field f := by
  unfold State.field
  rw [h]

theorem shutField_field_same {s : State} {f : Nat} (st : FieldState)
    (h : ((s.field f).fenced && decide ((s.field f).state ≠ .running)) = false) : (shutField s f st).field f = shutDown (s.field f) st :=
  (field_congr (shutField_frame st h).1 f).trans (s.field_modField_same f _)

theorem shutField_field_other (s : State) (f g : Nat) (st : FieldState) (hg : g ≠ f) : (shutField s f st).field g = s.field g := by
  cases h : (s.field f).fenced && decide ((s.field f).state ≠ .running) with
  | true => rw [shutField_of_shut st h]
  | false => exact (field_congr (shutField_frame st h).1 g).trans (s.field_modField_other f g _ hg)

theorem not_shut_of_running {s : State} {f : Nat} (h : (s.field f).state = .running) :
    ((s.field f).fenced && decide ((s.field f).state ≠ .running)) = false := by simp [h]

theorem alertBit_fieldShutdown {s s' : State} (h : s'.sys = { s.sys with alertStatus := s.sys.alertStatus ||| alFieldShutdown }) :
    alertBit s' 2 = true := by
  have hbit : alFieldShutdown.getLsbD 2 = true := by decide
  rw [alertBit, h]
  simp [hbit]

/-! ## The input current (R564) -/

/-- The Casing with a sample of voltage and current: the input draws up to 450 A, the bank the rest. -/
def sampled (c : Casing) (dA mV : Nat) : Casing := { c with vinMv := mV, iinDa := min 4500 dA, bankDa := dA - 4500 }

theorem execCurrentSample_eq {dA mV : Nat} {s : State} (hrated : mV ≤ 65000) (hon : poweredUp s = true) :
    exec (.currentSample dA mV) s = .next { s with casing := currentCeiling (sampled s.casing dA mV) s.nowUs (min 4500 dA) } := by
  simp only [exec, execCurrentSample]
  rw [withInput_within s _ hrated]
  exact congrArg _ (congrArg (fun c => { s with casing := c }) (if_pos hon))

/-- The ceiling of the current limit is all that a sample moves besides its own times. -/
theorem currentCeiling_frame (c : Casing) (now dA : Nat) : ∃ n fall since rise,
    currentCeiling c now dA = { c with ilimitCeiling := n, lastFall := fall, belowSince := since, lastIlimitRise := rise } := by
  unfold currentCeiling
  dsimp only
  split
  · split <;> exact ⟨_, _, _, _, rfl⟩
  · split
    · split <;> exact ⟨_, _, _, _, rfl⟩
    · exact ⟨_, _, _, _, rfl⟩

theorem currentCeiling_falls {c : Casing} {now dA : Nat} (hover : (c.iLimit - 10) * 10 < dA) (hdue : c.lastFall + 2 ≤ now) :
    (currentCeiling c now dA).ilimitCeiling = c.ilimitCeiling - 1 := by
  simp [currentCeiling, hover, hdue]

theorem currentCeiling_rises {c : Casing} {now dA t0 : Nat} (hunder : dA < (c.iLimit - 30) * 10) (hsince : c.belowSince = some t0)
    (hlong : t0 + 1000 ≤ now) (hdue : c.lastIlimitRise + 1000 ≤ now) :
    (currentCeiling c now dA).ilimitCeiling = min 64 (c.ilimitCeiling + 1) := by
  have hnot : ¬ (c.iLimit - 10) * 10 < dA := by omega
  simp [currentCeiling, hnot, hunder, hsince, hlong, hdue]

theorem currentCeiling_stays {c : Casing} {now dA : Nat} (hlow : (c.iLimit - 30) * 10 ≤ dA) (hhigh : dA ≤ (c.iLimit - 10) * 10) :
    (currentCeiling c now dA).ilimitCeiling = c.ilimitCeiling := by
  simp [currentCeiling, Nat.not_lt.mpr hlow, Nat.not_lt.mpr hhigh]

/-! ## Temperatures (R566, R567) -/

theorem thermalStep_hot (a : Avfs) (now : Nat) (q : Int) : (thermalStep a now q).hot = if 440 ≤ q then a.hot + 1 else 0 := by
  unfold thermalStep
  dsimp only
  split
  · rfl
  · split
    · split <;> rfl
    · rfl

theorem thermalStep_reading (a : Avfs) (now : Nat) (q : Int) : (thermalStep a now q).reading = q := by
  unfold thermalStep
  dsimp only
  split
  · rfl
  · split
    · split <;> rfl
    · rfl

theorem thermalStep_falls {a : Avfs} {now : Nat} {q : Int} (hq : 380 ≤ q) :
    (thermalStep a now q).thermalCeiling = a.thermalCeiling - 1 := by
  simp [thermalStep, hq]

theorem thermalStep_rises {a : Avfs} {now : Nat} {q : Int} (hq : q < 368) (hdue : a.lastRise + 1000 ≤ now) (hlow : a.thermalCeiling < 64) :
    (thermalStep a now q).thermalCeiling = a.thermalCeiling + 1 := by
  have hnot : ¬ 380 ≤ q := by omega
  simp [thermalStep, hnot, hq, hdue, hlow]

theorem thermalStep_stays {a : Avfs} {now : Nat} {q : Int} (hlow : 368 ≤ q) (hhigh : q < 380) :
    (thermalStep a now q).thermalCeiling = a.thermalCeiling := by
  simp [thermalStep, Int.not_le.mpr hhigh, Int.not_lt.mpr hlow]

/-- A reading below 110 °C, and a first one at it out of a lift, does not shut a field down. -/
theorem tooHot_of_cool (s : State) (f : Nat) {a : Avfs} (h : a.hot = 0) : tooHot s f a = false := by simp [tooHot, h]

theorem State.cluster_modField (s : State) (f : Nat) (g : Field → Field) (k : Nat) : (s.modField f g).cluster k = s.cluster k := rfl

/-- The state in which a reading has been noted: the cluster's ceiling, and the throttle event of the field. -/
def thermalNoted (s : State) (k : Nat) (q : Int) : State :=
  let s1 := s.modCluster k (fun c => { c with avfs := thermalStep (s.cluster k).avfs s.nowUs q })
  if (s.cluster k).avfs.thermalCeiling = 64 ∧ (thermalStep (s.cluster k).avfs s.nowUs q).thermalCeiling < 64 then
    s1.modField (fieldOfLogical k) (fun x => { x with throttleEvents := satInc 0xFFFFFFFF x.throttleEvents })
  else s1

theorem execThermalSample_eq {k : Fin 1680} {q : Int} {s : State} (hgood : (s.field (fieldOfLogical k)).power = .good) :
    exec (.thermalSample k q) s = .next (
      if tooHot (thermalNoted s k q) (fieldOfLogical k) (thermalStep (s.cluster k).avfs s.nowUs q)
          && decide (((thermalNoted s k q).field (fieldOfLogical k)).state = .running) then
        shutField (thermalNoted s k q) (fieldOfLogical k) .shutdown
      else thermalNoted s k q) := if_pos hgood

section
variable (s : State) (k : Nat) (q : Int)

theorem thermalNoted_cluster_same : (thermalNoted s k q).cluster k = { s.cluster k with avfs := thermalStep (s.cluster k).avfs s.nowUs q } := by
  unfold thermalNoted
  dsimp only
  split
  · exact (State.cluster_modField _ _ _ _).trans (s.cluster_modCluster_same k _)
  · exact s.cluster_modCluster_same k _

theorem thermalNoted_cluster_other (i : Nat) (h : i ≠ k) : (thermalNoted s k q).cluster i = s.cluster i := by
  unfold thermalNoted
  dsimp only
  split
  · exact (State.cluster_modField _ _ _ _).trans (s.cluster_modCluster_other k i _ h)
  · exact s.cluster_modCluster_other k i _ h

theorem thermalNoted_field : (thermalNoted s k q).field (fieldOfLogical k) = { s.field (fieldOfLogical k) with
    throttleEvents := if (s.cluster k).avfs.thermalCeiling = 64 ∧ (thermalStep (s.cluster k).avfs s.nowUs q).thermalCeiling < 64 then
      satInc 0xFFFFFFFF (s.field (fieldOfLogical k)).throttleEvents else (s.field (fieldOfLogical k)).throttleEvents } := by
  unfold thermalNoted
  dsimp only
  split
  · exact State.field_modField_same _ _ _
  · rfl

theorem thermalNoted_fields
    (h : ¬ ((s.cluster k).avfs.thermalCeiling = 64 ∧ (thermalStep (s.cluster k).avfs s.nowUs q).thermalCeiling < 64)) :
    (thermalNoted s k q).fields = s.fields := by
  unfold thermalNoted
  rw [if_neg h]
  rfl

end

/-- A reading below 110 °C is noted, and nothing is shut down. -/
theorem execThermalSample_of_cool {k : Fin 1680} {q : Int} {s : State} (hgood : (s.field (fieldOfLogical k)).power = .good) (hq : q < 440) :
    exec (.thermalSample k q) s = .next (thermalNoted s k q) := by
  have hcool : (thermalStep (s.cluster k).avfs s.nowUs q).hot = 0 := by rw [thermalStep_hot, if_neg (by omega)]
  rw [execThermalSample_eq hgood, tooHot_of_cool _ _ hcool]
  rfl

theorem thermalSample_moves (k : Fin 1680) (q : Int) (s : State) (hgood : (s.field (fieldOfLogical k)).power = .good) :
    let a := (s.cluster k).avfs
    let f := fieldOfLogical k
    (380 ≤ q → q < 440 →
      ∃ s', exec (.thermalSample k q) s = .next s' ∧ (s'.cluster k).avfs.thermalCeiling = a.thermalCeiling - 1
        ∧ (s'.cluster k).avfs.reading = q ∧ (∀ i, i ≠ k.val → s'.cluster i = s.cluster i) ∧ (s'.field f).state = (s.field f).state
        ∧ (s'.field f).throttleEvents
            = (if a.thermalCeiling = 64 then min 0xFFFFFFFF ((s.field f).throttleEvents + 1) else (s.field f).throttleEvents))
    ∧ (q < 368 → a.lastRise + 1000 ≤ s.nowUs → a.thermalCeiling < 64 →
      ∃ s', exec (.thermalSample k q) s = .next s' ∧ (s'.cluster k).avfs.thermalCeiling = a.thermalCeiling + 1 ∧ s'.fields = s.fields)
    ∧ (368 ≤ q → q < 380 →
      ∃ s', exec (.thermalSample k q) s = .next s' ∧ (s'.cluster k).avfs.thermalCeiling = a.thermalCeiling ∧ s'.fields = s.fields)
    ∧ (440 ≤ q → 1 ≤ a.hot → (s.field f).state = .running →
      ∃ s', exec (.thermalSample k q) s = .next s' ∧ (s'.field f).state = .shutdown ∧ (s'.field f).fenced = true
        ∧ (s'.field f).power = .off ∧ (∀ i ∈ fieldClusters f, (s'.cluster i).awake = false) ∧ alertBit s' 2 = true) := by
  intro a f
  refine ⟨fun hlow hhigh => ?_, fun hq hdue hceiling => ?_, fun hlow hhigh => ?_, fun hq hhot hrun => ?_⟩
  · refine ⟨_, execThermalSample_of_cool hgood hhigh, ?_, ?_, fun i hi => thermalNoted_cluster_other s k q i hi, ?_, ?_⟩
    · rw [thermalNoted_cluster_same]; exact thermalStep_falls hlow
    · rw [thermalNoted_cluster_same]; exact thermalStep_reading _ _ _
    · rw [thermalNoted_field]
    · rw [thermalNoted_field, thermalStep_falls hlow]
      have hfall : (a.thermalCeiling = 64 ∧ a.thermalCeiling - 1 < 64) ↔ a.thermalCeiling = 64 := by omega
      simp only [a, f] at hfall ⊢
      simp only [hfall]
      rfl
  · refine ⟨_, execThermalSample_of_cool hgood (by omega), ?_, thermalNoted_fields s k q (fun h => ?_)⟩
    · rw [thermalNoted_cluster_same]; exact thermalStep_rises hq hdue hceiling
    · exact absurd h.1 (Nat.ne_of_lt hceiling)
  · refine ⟨_, execThermalSample_of_cool hgood (by omega), ?_, thermalNoted_fields s k q (fun h => ?_)⟩
    · rw [thermalNoted_cluster_same]; exact thermalStep_stays hlow hhigh
    · rw [thermalStep_stays hlow hhigh] at h
      omega
  · have hrun' : ((thermalNoted s k q).field f).state = .running := by rw [thermalNoted_field]; exact hrun
    have htoo : tooHot (thermalNoted s k q) f (thermalStep a s.nowUs q) = true := by
      have : 2 ≤ (thermalStep a s.nowUs q).hot := by rw [thermalStep_hot, if_pos hq]; omega
      simp [tooHot, this]
    have hnot := not_shut_of_running hrun'
    obtain ⟨-, -, hsys, hoff⟩ := shutField_frame .shutdown hnot
    refine ⟨_, (execThermalSample_eq hgood).trans (congrArg _ (if_pos ?_)), ?_, ?_, ?_, hoff, alertBit_fieldShutdown hsys⟩
    · exact Bool.and_eq_true_iff.mpr ⟨htoo, decide_eq_true hrun'⟩
    all_goals rw [shutField_field_same .shutdown hnot]; rfl

/-! ## Power-module faults (R566) -/

theorem vpmFault_shuts (f : Fin 70) (s : State) (hon : poweredUp s = true) (hgood : (s.field f).power = .good)
    (hrun : (s.field f).state = .running) :
    ∃ s', exec (.vpmFault f) s = .next s' ∧ (s'.field f).state = .vpmFault ∧ (s'.field f).fenced = true ∧ (s'.field f).power = .off
      ∧ alertBit s' 2 = true ∧ (∀ g : Fin 70, g ≠ f → s'.field g = s.field g) := by
  have hnot := not_shut_of_running hrun
  obtain ⟨-, -, hsys, -⟩ := shutField_frame .vpmFault hnot
  have hexec : exec (.vpmFault f) s = .next (shutField s f .vpmFault) :=
    (if_pos (by simp [hon, hgood])).trans (if_pos hrun)
  refine ⟨_, hexec, ?_, ?_, ?_, alertBit_fieldShutdown hsys, fun g hg => ?_⟩
  · rw [shutField_field_same .vpmFault hnot]; rfl
  · rw [shutField_field_same .vpmFault hnot]; rfl
  · rw [shutField_field_same .vpmFault hnot]; rfl
  · exact shutField_field_other s f g .vpmFault (fun h => hg (Fin.ext h))

/-! ## The coolant (R571) -/

theorem coolantStep_warns {c : Casing} {i o : Int} {fl : Nat} (hbad : fl < 270 ∨ 340 < i) (hnine : 9 ≤ c.badSamples) :
    (coolantStep c i o fl).coolantWarn = true ∧ (coolantStep c i o fl).coolantCeiling = 20 := by
  simp [coolantStep, hbad, hnine]

theorem coolantStep_clears {c : Casing} {i o : Int} {fl : Nat} (hflow : 270 ≤ fl) (hcool : i ≤ 340) (hclear : 99 ≤ c.clearSamples) :
    (coolantStep c i o fl).coolantWarn = false ∧ (coolantStep c i o fl).coolantCeiling = 64 := by
  simp [coolantStep, Nat.not_lt.mpr hflow, Int.not_lt.mpr hcool, hclear]

theorem coolantStep_lowFlow (c : Casing) (i o : Int) (fl : Nat) :
    (coolantStep c i o fl).lowFlowSamples = if fl < 150 then c.lowFlowSamples + 1 else 0 := by
  simp only [coolantStep, apply_ite Casing.lowFlowSamples, ite_self]

theorem coolantStep_powered (c : Casing) (i o : Int) (fl : Nat) : (coolantStep c i o fl).powered = c.powered := by
  simp only [coolantStep, apply_ite Casing.powered, ite_self]

/-- With flow enough a coolant sample changes the Casing only. -/
theorem execCoolantSample_of_flow {i o : Int} {fl : Nat} {s : State} (hstandby : s.casing.standby = true) (hflow : 150 ≤ fl) :
    exec (.coolantSample i o fl) s = .next { s with casing := coolantStep s.casing i o fl } := by
  refine (if_pos hstandby).trans (if_neg ?_)
  simp [coolantStep_lowFlow, Nat.not_lt.mpr hflow]

/-- A field with its rail good is shut down, any other stays. -/
def shutPowered (s : State) (f : Nat) : State := if (s.field f).power = .good then shutField s f .shutdown else s

theorem shutPowered_other (s : State) (f g : Nat) (hg : g ≠ f) : (shutPowered s f).field g = s.field g := by
  unfold shutPowered
  split
  · exact shutField_field_other s f g .shutdown hg
  · rfl

/-- After its turn a field is not running on a good rail. -/
theorem shutPowered_stops (s : State) (f : Nat) :
    ¬ (((shutPowered s f).field f).power = .good ∧ ((shutPowered s f).field f).state = .running) := by
  unfold shutPowered
  split
  · cases h : (s.field f).fenced && decide ((s.field f).state ≠ .running) with
    | true =>
      rw [shutField_of_shut .shutdown h]
      exact fun hrun => of_decide_eq_true (Bool.and_eq_true_iff.mp h).2 hrun.2
    | false =>
      rw [shutField_field_same .shutdown h]
      exact fun hrun => Power.noConfusion hrun.1
  · rename_i hoff
    exact fun hrun => hoff hrun.1

/-- A turn of another field or its own leaves a running field as it was or shuts it down. -/
theorem shutPowered_kept_or_shut {s a : State} {g : Nat} (f : Nat) (hrun : (s.field g).state = .running)
    (h : a.field g = s.field g ∨ a.field g = shutDown (s.field g) .shutdown) :
    (shutPowered a f).field g = s.field g ∨ (shutPowered a f).field g = shutDown (s.field g) .shutdown := by
  by_cases hgf : g = f
  · subst hgf
    unfold shutPowered
    split
    · rename_i hgood
      rcases h with h | h
      · have hnot : ((a.field g).fenced && decide ((a.field g).state ≠ .running)) = false := by simp [h, hrun]
        exact .inr ((shutField_field_same .shutdown hnot).trans (congrArg (shutDown · .shutdown) h))
      · rw [h] at hgood; exact Power.noConfusion hgood
    · exact h
  · rw [shutPowered_other a f g hgf]; exact h

theorem foldl_shutPowered (s : State) {l : List Nat} {g : Nat} (hg : g ∈ l) (hgood : (s.field g).power = .good)
    (hrun : (s.field g).state = .running) : (l.foldl shutPowered s).field g = shutDown (s.field g) .shutdown := by
  have hkept := foldl_keeps (fun a => a.field g = s.field g ∨ a.field g = shutDown (s.field g) .shutdown) shutPowered
    (fun a f h => shutPowered_kept_or_shut f hrun h) l s (.inl rfl)
  have hstopped := foldl_establishes shutPowered (fun a f => ¬ ((a.field f).power = .good ∧ (a.field f).state = .running))
    shutPowered_stops (fun a b c h => by
      by_cases hcb : c = b
      · rw [hcb]; exact shutPowered_stops a b
      · rw [shutPowered_other a b c hcb]; exact h) s hg
  refine hkept.resolve_left (fun h => hstopped ?_)
  rw [h]
  exact ⟨hgood, hrun⟩

theorem coolantSample_moves (i o : Int) (fl : Nat) (s : State) (hstandby : s.casing.standby = true) :
    ((fl < 270 ∨ 340 < i) → 9 ≤ s.casing.badSamples → 150 ≤ fl →
      ∃ s', exec (.coolantSample i o fl) s = .next s' ∧ s'.casing.coolantWarn = true ∧ s'.casing.coolantCeiling = 20
        ∧ s' = { s with casing := s'.casing })
    ∧ (270 ≤ fl → i ≤ 340 → 99 ≤ s.casing.clearSamples →
      ∃ s', exec (.coolantSample i o fl) s = .next s' ∧ s'.casing.coolantWarn = false ∧ s'.casing.coolantCeiling = 64
        ∧ s' = { s with casing := s'.casing })
    ∧ (poweredUp s = true → fl < 150 → 9 ≤ s.casing.lowFlowSamples →
      ∃ s', exec (.coolantSample i o fl) s = .next s' ∧ ∀ f : Fin 70, (s.field f).power = .good → (s.field f).state = .running →
        (s'.field f).state = .shutdown ∧ (s'.field f).fenced = true ∧ (s'.field f).power = .off) := by
  refine ⟨fun hbad hnine hflow => ?_, fun hflow hcool hclear => ?_, fun hon hflow hlow => ?_⟩
  · obtain ⟨hwarn, hceiling⟩ := coolantStep_warns (o := o) hbad hnine
    exact ⟨_, execCoolantSample_of_flow hstandby hflow, hwarn, hceiling, rfl⟩
  · obtain ⟨hwarn, hceiling⟩ := coolantStep_clears (o := o) hflow hcool hclear
    exact ⟨_, execCoolantSample_of_flow hstandby (by omega), hwarn, hceiling, rfl⟩
  · have hcond : (poweredUp { s with casing := coolantStep s.casing i o fl }
        && decide (10 ≤ (coolantStep s.casing i o fl).lowFlowSamples)) = true := by
      have hwafer : poweredUp { s with casing := coolantStep s.casing i o fl } = poweredUp s := coolantStep_powered s.casing i o fl
      rw [hwafer, hon, coolantStep_lowFlow, if_pos hflow]
      exact decide_eq_true (by omega)
    refine ⟨_, (if_pos hstandby).trans (if_pos hcond), fun f hgood hrun => ?_⟩
    have hshut := foldl_shutPowered { s with casing := coolantStep s.casing i o fl } (List.mem_range.mpr f.isLt) hgood hrun
    exact ⟨congrArg Field.state hshut, congrArg Field.fenced hshut, congrArg Field.power hshut⟩

/-- Settles O54: the ceilings of the current limit, of temperature and of the coolant, and the fields shut down. -/
theorem sensorsLowerCeilings : Obligations.SensorsLowerCeilings := by
  refine ⟨fun dA mV s hrated hon => ?_, fun k q s hgood => thermalSample_moves k q s hgood, vpmFault_shuts, coolantSample_moves⟩
  intro c i
  have hexec := execCurrentSample_eq (dA := dA) hrated hon
  refine ⟨⟨_, hexec, ?_⟩, fun hover hdue => ⟨_, hexec, currentCeiling_falls (c := sampled c dA mV) hover hdue⟩,
    fun t0 hunder hsince hlong hdue => ⟨_, hexec, currentCeiling_rises (c := sampled c dA mV) hunder hsince hlong hdue⟩,
    fun hlow hhigh => ⟨_, hexec, currentCeiling_stays (c := sampled c dA mV) hlow hhigh⟩⟩
  obtain ⟨n, fall, since, rise, hframe⟩ := currentCeiling_frame (sampled c dA mV) s.nowUs i
  rw [show currentCeiling (sampled s.casing dA mV) s.nowUs (min 4500 dA) = _ from hframe]
  exact ⟨rfl, rfl, rfl, rfl⟩

end Sys2Proof.Machine

/-!
One step, and the state after reset (00, 13).
-/

namespace Sys2Proof.Machine

/-- Settles O1: the front command is taken, and an empty queue lets a microsecond pass (log 7). -/
theorem stepTakesFrontCommand : Obligations.StepTakesFrontCommand := by
  refine ⟨fun c rest s => rfl, fun s hnone => ?_⟩
  unfold step
  rw [hnone]

/-- After reset no tenant's record is in the table, so that each reads as the one its number begins with. -/
theorem tenant_reset (t : Nat) : State.reset.tenant t = tenantDef t := rfl

theorem tenantFlights_reset (t : Nat) : tenantFlights State.reset t = [] := rfl

/-- Settles O4: the memories are empty, and the registers of a page read what the reset gives them. -/
theorem resetState : Obligations.ResetState := by
  refine ⟨⟨rfl, by decide⟩, fun t => ?_⟩
  by_cases ht : t = 0 <;> simp [tenantReg, tenant_reset, tenantFlights_reset, tenantDef, ht, b2n]

end Sys2Proof.Machine

/-!
Voltages, clocks and their reference (12, 13): the voltage of an awake cluster follows its monitors (R552 to R556), a step follows its ceiling
(R563), the trim follows the window (R558), a lost reference is taken from a neighbour (R557), and wear is recorded (R618, R619).
-/

namespace Sys2Proof.Machine

/-! ## Rails -/

theorem holdRail_cluster (s : State) (f k : Nat) : (holdRail s f).cluster k = s.cluster k := rfl

/-- What a field's rail has to cover is said by the clusters alone. -/
theorem railFor_congr {s s' : State} (h : s'.clusters = s.clusters) (f : Nat) : railFor s' f = railFor s f := by
  simp only [railFor, awakeIn, State.cluster, h]

theorem holdRail_railMv (s : State) (f : Nat) : ((holdRail s f).field f).railMv = railFor s f := by
  rw [holdRail, State.field_modField_same]

theorem le_foldl_max {l : List Nat} {x : Nat} (n : Nat) (h : x ∈ l) : x ≤ l.foldl max n :=
  foldl_establishes max (fun a b => b ≤ a) (fun a b => Nat.le_max_right a b) (fun a b _ hc => hc.trans (Nat.le_max_left a b)) n h

/-- The rail of a field covers the voltage and the request of each of its awake clusters (R555). -/
theorem request_le_railFor (s : State) (k : Fin 1680) (hawake : (s.cluster k).awake = true) :
    (s.cluster k).avfs.request + 30 ≤ railFor s (fieldOfLogical k) := by
  have hmem : k.val ∈ awakeIn s (fieldOfLogical k) := by
    simp [awakeIn, hawake]
  have hle := le_foldl_max 0 (List.mem_map_of_mem (f := fun k => max (s.cluster k).avfs.millivolts (s.cluster k).avfs.request + 30) hmem)
  exact ((Nat.add_le_add_right (Nat.le_max_right _ _) 30).trans hle).trans (Nat.le_max_right 600 _)

/-! ## The voltage follows the monitors (R552, R555) -/

theorem avfsAdjust_moves (k : Fin 1680) (sl : List Bool) (s : State) (hawake : (s.cluster k).awake = true) :
    (adjustDue (s.cluster k).avfs s.nowUs = true →
      ∃ s', exec (.avfsAdjust k sl) s = .next s' ∧ (s'.field (fieldOfLogical k)).railMv = railFor s' (fieldOfLogical k)
        ∧ ((∀ b ∈ sl, b = true) → (s'.cluster k).avfs.millivolts = max 580 ((s.cluster k).avfs.millivolts - 5))
        ∧ (false ∈ sl → (s'.cluster k).avfs.millivolts = min 900 ((s.cluster k).avfs.millivolts + 5))
        ∧ (s'.cluster k).avfs.step = (s.cluster k).avfs.step ∧ (∀ i, i ≠ k.val → s'.cluster i = s.cluster i) ∧ s'.mem = s.mem)
    ∧ (adjustDue (s.cluster k).avfs s.nowUs = false → exec (.avfsAdjust k sl) s = .next s) := by
  refine ⟨fun hdue => ⟨_, if_pos (by simp [hawake, hdue]), (holdRail_railMv _ _).trans (railFor_congr (by rfl) _).symm, fun hall => ?_, fun hnone => ?_, ?_, fun i hi => ?_, rfl⟩,
    fun hnot => if_neg (by simp [hnot])⟩
  · rw [holdRail_cluster, State.cluster_setCluster_same]
    exact if_pos (List.all_eq_true.mpr hall)
  · rw [holdRail_cluster, State.cluster_setCluster_same]
    exact if_neg (fun hall => Bool.noConfusion (List.all_eq_true.mp hall _ hnone))
  · rw [holdRail_cluster, State.cluster_setCluster_same]
    rfl
  · rw [holdRail_cluster, State.cluster_setCluster_other _ _ _ _ hi]

/-! ## The step follows its ceiling (R563) -/

theorem execStepChange_lowers {k : Fin 1680} {s : State} (husable : usable s k = true) (hawake : (s.cluster k).awake = true)
    (hlow : clusterCeiling s k ≤ (s.cluster k).avfs.step) :
    exec (.stepChange k) s = .next (s.setCluster k { s.cluster k with
      avfs := { (s.cluster k).avfs with step := clusterCeiling s k, request := 0 } }) :=
  (if_neg (by simp [husable])).trans ((if_neg (by simp [hawake])).trans (if_pos hlow))

theorem execStepChange_raises {k : Fin 1680} {s : State} (husable : usable s k = true) (hawake : (s.cluster k).awake = true)
    (hhigh : (s.cluster k).avfs.step < clusterCeiling s k) :
    exec (.stepChange k) s = .next (raiseStep s k (clusterCeiling s k)) :=
  (if_neg (by simp [husable])).trans ((if_neg (by simp [hawake])).trans (if_neg (Nat.not_le.mpr hhigh)))

theorem stepChange_moves (k : Fin 1680) (s : State) (husable : usable s k = true) (hawake : (s.cluster k).awake = true) :
    (clusterCeiling s k ≤ (s.cluster k).avfs.step →
      ∃ s', exec (.stepChange k) s = .next s' ∧ (s'.cluster k).avfs.step = clusterCeiling s k ∧ s'.fields = s.fields)
    ∧ ((s.cluster k).avfs.step < clusterCeiling s k →
      stepVoltage (s.cluster k).avfs (clusterCeiling s k) + 30 ≤ (s.field (fieldOfLogical k)).railMv →
      ∃ s', exec (.stepChange k) s = .next s' ∧ (s'.cluster k).avfs.step = clusterCeiling s k
        ∧ (s'.cluster k).avfs.millivolts = stepVoltage (s.cluster k).avfs (clusterCeiling s k))
    ∧ ((s.cluster k).avfs.step < clusterCeiling s k →
      (s.field (fieldOfLogical k)).railMv < stepVoltage (s.cluster k).avfs (clusterCeiling s k) + 30 →
      ∃ s', exec (.stepChange k) s = .next s' ∧ (s'.cluster k).avfs.step = (s.cluster k).avfs.step
        ∧ stepVoltage (s.cluster k).avfs (clusterCeiling s k) + 30 ≤ (s'.field (fieldOfLogical k)).railMv) := by
  refine ⟨fun hlow => ⟨_, execStepChange_lowers husable hawake hlow, ?_, rfl⟩,
    fun hhigh hcovered => ⟨_, (execStepChange_raises husable hawake hhigh).trans (congrArg _ (if_pos hcovered)), ?_⟩,
    fun hhigh hbelow => ⟨_, (execStepChange_raises husable hawake hhigh).trans (congrArg _ (if_neg (Nat.not_le.mpr hbelow))), ?_⟩⟩
  · rw [State.cluster_setCluster_same]
  · rw [holdRail_cluster, State.cluster_setCluster_same]
    exact ⟨rfl, rfl⟩
  · have hsame := s.cluster_setCluster_same k { s.cluster k with
      avfs := { (s.cluster k).avfs with request := stepVoltage (s.cluster k).avfs (clusterCeiling s k) } }
    refine ⟨congrArg (fun c => c.avfs.step) hsame, ?_⟩
    rw [holdRail_railMv]
    have hrail := request_le_railFor (s.setCluster k { s.cluster k with
      avfs := { (s.cluster k).avfs with request := stepVoltage (s.cluster k).avfs (clusterCeiling s k) } }) k
      (by rw [hsame]; exact hawake)
    rw [hsame] at hrail
    exact hrail

/-! ## The window and the reference (R557, R558) -/

theorem fllWindow_moves (k : Fin 1680) (n : Nat) (s : State) (hgood : (s.field (fieldOfLogical k)).power = .good)
    (hlocked : (s.cluster k).avfs.refLost = false) :
    let want := 22528 + 512 * (s.cluster k).avfs.step
    ∃ s', exec (.fllWindow k n) s = .next s'
      ∧ (want < 10 * n → (s'.cluster k).avfs.trim = (s.cluster k).avfs.trim - 1)
      ∧ (10 * n < want → (s'.cluster k).avfs.trim = (s.cluster k).avfs.trim + 1)
      ∧ (10 * n = want → s'.cluster k = s.cluster k) ∧ (∀ i, i ≠ k.val → s'.cluster i = s.cluster i) ∧ s'.mem = s.mem := by
  intro want
  refine ⟨_, if_pos (by simp [hgood, hlocked]), fun hfast => ?_, fun hslow => ?_, fun heq => ?_,
    fun i hi => State.cluster_setCluster_other _ _ _ _ hi, rfl⟩
  · rw [State.cluster_setCluster_same]
    exact congrArg ((s.cluster k).avfs.trim + ·) (if_pos hfast)
  · rw [State.cluster_setCluster_same]
    exact congrArg ((s.cluster k).avfs.trim + ·) ((if_neg (by omega)).trans (if_pos hslow))
  · rw [State.cluster_setCluster_same, if_neg (by omega), if_neg (by omega), Int.add_zero]

theorem State.phys_setPhys_same (s : State) (q : Nat) (x : Phys) : (s.setPhys q x).phys q = x := tget_tset_same _ _ _ _

theorem State.phys_setPhys_other (s : State) (q r : Nat) (x : Phys) (h : r ≠ q) : (s.setPhys q x).phys r = s.phys r :=
  tget_tset_other _ _ _ _ _ h

theorem setRefLost_frame (s : State) (q : Nat) (lost : Bool) : ∃ cs, setRefLost s q lost = { s with clusters := cs } := by
  unfold setRefLost
  split
  · exact ⟨_, rfl⟩
  · exact ⟨s.clusters, rfl⟩

theorem setRefLost_refLost {s : State} {q k : Nat} (lost : Bool) (h : logicalOf s q = some k) :
    ((setRefLost s q lost).cluster k).avfs.refLost = lost := by
  unfold setRefLost
  rw [h]
  exact congrArg (fun c => c.avfs.refLost) (s.cluster_modCluster_same k _)

theorem setRefLost_phys (s : State) (q : Nat) (lost : Bool) (r : Nat) : (setRefLost s q lost).phys r = s.phys r := by
  obtain ⟨cs, h⟩ := setRefLost_frame s q lost
  rw [h]
  rfl

theorem referenceLoss_holdsOver (q : Fin 2100) (s : State) (hlocked : (s.phys q).locked = true) :
    ∃ s', exec (.referenceLoss q) s = .next s' ∧ (s'.phys q).holdover = true ∧ (∀ r, r ≠ q.val → s'.phys r = s.phys r)
      ∧ (∀ k, logicalOf s q = some k → (s'.cluster k).avfs.refLost = true) ∧ s'.mem = s.mem := by
  refine ⟨_, if_pos hlocked, ?_, fun r hr => ?_, fun k hk => setRefLost_refLost true hk, setRefLost_mem _ _ _⟩
  · rw [setRefLost_phys, State.phys_setPhys_same]
  · rw [setRefLost_phys, State.phys_setPhys_other _ _ _ _ hr]

/-- The depths of a subtree move with its root; the live tables and the other records stay. -/
theorem foldl_setPhys_other (g : State → Nat → Phys) (l : List Nat) (s : State) (q : Nat) (h : q ∉ l) :
    (l.foldl (fun s r => s.setPhys r (g s r)) s).phys q = s.phys q := by
  induction l generalizing s with
  | nil => rfl
  | cons r l ih =>
    obtain ⟨hr, hl⟩ := not_or.mp (mt List.mem_cons.mpr h)
    exact (ih _ hl).trans (State.phys_setPhys_other _ _ _ _ hr)

theorem foldl_setPhys_live (g : State → Nat → Phys) (l : List Nat) (s : State) :
    (l.foldl (fun s r => s.setPhys r (g s r)) s).silicon.live = s.silicon.live :=
  foldl_keeps (fun a => a.silicon.live = s.silicon.live) (fun s r => s.setPhys r (g s r)) (fun _ _ h => h) l s rfl

theorem reparent_phys {s : State} {q p : Nat} (hroot : ∀ r, below s q 64 r = true → r ≠ q) :
    (reparent s q p).phys q = { s.phys q with parent := some (.cluster p), depth := (s.phys p).depth + 1, holdover := false } := by
  unfold reparent
  dsimp only
  rw [setRefLost_phys, foldl_setPhys_other, State.phys_setPhys_same]
  exact fun hq => hroot q (List.mem_filter.mp hq).2 rfl

theorem reparent_refLost {s : State} {q p k : Nat} (h : logicalOf s q = some k) : ((reparent s q p).cluster k).avfs.refLost = false := by
  unfold reparent
  dsimp only
  refine setRefLost_refLost false ?_
  unfold logicalOf
  rw [foldl_setPhys_live]
  exact h

theorem clusterReparent_takes (q : Fin 2100) (p : Nat) (s : State) (hruns : firmwareRuns s = true) (hover : (s.phys q).holdover = true)
    (hone : newParents s q = [p]) (hroot : ∀ r, below s q 64 r = true → r ≠ q.val) :
    ∃ s', exec (.clusterReparent q) s = .next s' ∧ (s'.phys q).holdover = false ∧ (s'.phys q).parent = some (.cluster p)
      ∧ (s'.phys q).depth = (s.phys p).depth + 1 ∧ (∀ k, logicalOf s q = some k → (s'.cluster k).avfs.refLost = false) := by
  have hexec : exec (.clusterReparent q) s = .next (reparent (s.stepFree 1) q p) := by
    refine (if_pos (by simp [hruns, hover])).trans ?_
    rw [hone, List.length_singleton, Nat.mod_one]
    rfl
  have hbelow : ∀ n r, below (s.stepFree 1) q n r = below s q n r := fun n => by
    induction n with
    | zero => exact fun r => rfl
    | succ n ih => simp only [below, ih]; exact fun r => rfl
  have hphys := reparent_phys (s := s.stepFree 1) (q := q) (p := p) (fun r hr => hroot r ((hbelow 64 r).symm.trans hr))
  exact ⟨_, hexec, congrArg Phys.holdover hphys, congrArg Phys.parent hphys, congrArg Phys.depth hphys, fun k hk => reparent_refLost hk⟩

/-! ## Wear (R618, R619) and telemetry (R574) -/

theorem requestLedger_frame (s : State) (st : Store) :
    (∃ x, requestLedger s st = { s with sys := x })
      ∧ ((requestLedger s st).sys.stores = s.sys.stores ++ [st] ∨ (requestLedger s st).sys.ledgerFull = true) := by
  unfold requestLedger
  split
  · exact ⟨⟨_, rfl⟩, .inr rfl⟩
  · exact ⟨⟨_, rfl⟩, .inl rfl⟩

theorem raiseWear_records {s : State} {k : Nat} (hnew : physOf s k ∉ s.silicon.wear) :
    (raiseWear s k).cluster k = { s.cluster k with avfs := { (s.cluster k).avfs with wear := true } }
      ∧ physOf s k ∈ (raiseWear s k).silicon.wear
      ∧ ((raiseWear s k).sys.stores = s.sys.stores ++ [.ledger] ∨ (raiseWear s k).sys.ledgerFull = true) := by
  unfold raiseWear
  dsimp only
  generalize hcore : (State.mk _ _ _ _ _ _ _ _ _ _ _ _ _ _ _ _ _ _) = t
  obtain ⟨⟨x, hx⟩, hstore⟩ := requestLedger_frame t .ledger
  refine ⟨?_, ?_, ?_⟩
  · rw [hx, ← hcore]; exact s.cluster_modCluster_same k (fun c => { c with avfs := { c.avfs with wear := true } })
  · rw [hx, ← hcore]
    simp [State.modCluster, State.setCluster, hnew]
  · have hsys : t.sys = s.sys := by rw [← hcore]; rfl
    rw [hsys] at hstore
    exact hstore

theorem agingMeasure_records (k : Fin 1680) (d : Nat) (s : State) (hruns : firmwareRuns s = true) (husable : usable s k = true)
    (hawake : (s.cluster k).awake = true) :
    ∃ s', exec (.agingMeasure k d) s = .next s' ∧ (s'.cluster k).avfs.agingD = d
      ∧ (30 ≤ d → physOf s k ∉ s.silicon.wear → (s'.cluster k).avfs.wear = true ∧ physOf s k ∈ s'.silicon.wear
          ∧ (s'.sys.stores = s.sys.stores ++ [.ledger] ∨ s'.sys.ledgerFull = true))
      ∧ (d < 30 → s'.silicon = s.silicon ∧ s'.sys = s.sys) := by
  have hmeasured := s.cluster_modCluster_same k (fun c => { c with avfs := { c.avfs with agingD := d } })
  by_cases hworn : 30 ≤ d ∧ physOf s k ∉ s.silicon.wear
  · obtain ⟨hcluster, hwear, hstore⟩ := raiseWear_records (s := s.modCluster k (fun c => { c with avfs := { c.avfs with agingD := d } }))
      (k := k) hworn.2
    rw [hmeasured] at hcluster
    refine ⟨_, (if_pos (by simp [hruns, husable, hawake])).trans (congrArg _ (if_pos ?_)), ?_, fun _ _ => ⟨?_, hwear, hstore⟩,
      fun hlow => absurd hworn.1 (Nat.not_le.mpr hlow)⟩
    · exact ⟨hworn.1, fun hin => hworn.2 (List.contains_iff_mem.mp hin)⟩
    · rw [hcluster]
    · rw [hcluster]
  · refine ⟨_, (if_pos (by simp [hruns, husable, hawake])).trans (congrArg _ (if_neg ?_)), ?_, fun hd hnew => absurd ⟨hd, hnew⟩ hworn,
      fun _ => ⟨rfl, rfl⟩⟩
    · exact fun h => hworn ⟨h.1, fun hin => h.2 (List.contains_iff_mem.mpr hin)⟩
    · rw [hmeasured]

/-- Settles O55: voltages, steps, the trim, the reference, wear and the snapshot. -/
theorem voltagesStepsAndReference : Obligations.VoltagesStepsAndReference :=
  ⟨avfsAdjust_moves, stepChange_moves, fllWindow_moves, referenceLoss_holdsOver, clusterReparent_takes, agingMeasure_records,
    fun _ hruns => ⟨_, if_pos hruns, rfl, rfl, rfl⟩⟩

end Sys2Proof.Machine

/-!
Register writes of a host (08, 11): a page register does what its write says, the global page is written from tenant 0's port only
(R346, R371, R396, R502, R505), and each whole dword that a write covers is one register write (R502, R540).
-/

namespace Sys2Proof.Machine

/-! ## One register -/

theorem hostRegWrite_of_reached {s : State} {p : Nat} (off v : Nat) (h : portReached s p = true) :
    hostRegWrite s p off v false = .next (writeReg s p off v) :=
  (if_neg (by simp [h])).trans (if_neg Bool.false_ne_true)

theorem hostRegWrite_of_poisoned {s : State} {p : Nat} (off v : Nat) (h : portReached s p = true) :
    hostRegWrite s p off v true = .next (s.setPort p { s.port p with aerPoisoned := true }) :=
  (if_neg (by simp [h])).trans (if_pos rfl)

theorem writeReg_of_page {s : State} {p t : Nat} {r : Nat} (v : Nat) (hr : r < 0x10000) (ht : t < 16) (h : pageLive s p t = true) :
    writeReg s p (t * 0x10000 + r) v = writeTenantReg s t r v := by
  have hlow : t * 0x10000 + r < 0x100000 := by omega
  have hpage : (t * 0x10000 + r) / 0x10000 = t := by omega
  have hreg : (t * 0x10000 + r) % 0x10000 = r := by omega
  rw [writeReg, if_pos hlow, hpage, hreg, if_pos h]

theorem writeReg_of_global (s : State) (p r v : Nat) : writeReg s p (0x100000 + r) v = writeGlobalReg s p r v := by
  rw [writeReg, if_neg (by omega), Nat.add_sub_cancel_left]

theorem bit_twoPow_same (i : Nat) : bit (2 ^ i) i = true := by simp [bit]

theorem writeReqStatus_overrun (x : Tenant) :
    writeReqStatus x (2 ^ 16) = { x with overrun := false, malformed := false, dropCount := 0 } :=
  if_pos (bit_twoPow_same 16)

theorem writeReqStatus_malformed (x : Tenant) : writeReqStatus x (2 ^ 17) = { x with malformed := false } :=
  (if_neg (by decide)).trans (if_pos (bit_twoPow_same 17))

/-- A new HEAD, when nothing is held for the ring, is all that its write changes. -/
theorem flushTenant_of_none_held {s : State} {t : Nat} (hheld : (s.tenant t).heldNotices = []) (hlost : (s.tenant t).lostOwed = false)
    (hresults : (s.tenant t).heldResults = []) : flushTenant s t = s := by
  unfold flushTenant
  rw [flushResults_of_none_held hresults, flushHeld_of_none_held 66 hheld hlost, ite_self]

theorem noticeHead_written {s : State} {t : Nat} (v : Nat) (hheld : (s.tenant t).heldNotices = []) (hlost : (s.tenant t).lostOwed = false)
    (hresults : (s.tenant t).heldResults = []) :
    writeTenantReg s t 0x1004 v
      = s.setTenant t { s.tenant t with noticeHead := v % 4096, ringUsed := ringUsedAfter (s.tenant t) (v % 4096) } := by
  have hsame := s.tenant_setTenant_same t (writeNoticeHead (s.tenant t) v)
  have hreg : writeTenantReg s t 0x1004 v = flushTenant (s.setTenant t (writeNoticeHead (s.tenant t) v)) t :=
    (if_neg (by decide)).trans (if_pos rfl)
  rw [hreg, flushTenant_of_none_held (by rw [hsame]; exact hheld) (by rw [hsame]; exact hlost) (by rw [hsame]; exact hresults)]
  rfl

/-- The clause of O22 on the registers of a page. -/
theorem pageRegisters_written (p : Fin 4) (t : Fin 16) (s : State) (h : PageReached s p t) :
    exec (.overrunClear p t false) s
        = .next (s.setTenant t { s.tenant t with overrun := false, malformed := false, dropCount := 0 })
    ∧ exec (.malformedClear p t false) s = .next (s.setTenant t { s.tenant t with malformed := false })
    ∧ exec (.noticeLostClear p t false) s = .next (s.setTenant t { s.tenant t with noticeLost := false, lostCount := 0 })
    ∧ (∀ v : Word, (s.tenant t).heldNotices = [] → (s.tenant t).lostOwed = false → (s.tenant t).heldResults = [] →
        exec (.noticeHeadWrite p t v false) s = .next (s.setTenant t { s.tenant t with
          noticeHead := v.toNat % 4096, ringUsed := ringUsedAfter (s.tenant t) (v.toNat % 4096) }))
    ∧ (∀ c : Instr, (c = .overrunClear p t true ∨ c = .malformedClear p t true ∨ c = .noticeLostClear p t true
          ∨ (∃ v, c = .noticeHeadWrite p t v true) ∨ (∃ v, c = .alertStatusClear p v true) ∨ (∃ v, c = .forceFailover p v true)) →
        exec c s = .next (s.setPort p { s.port p with aerPoisoned := true })) := by
  obtain ⟨hreached, hlive⟩ := h
  have hwrite : ∀ r v, r < 0x10000 → hostRegWrite s p (t * 0x10000 + r) v false = .next (writeTenantReg s t r v) :=
    fun r v hr => (hostRegWrite_of_reached _ v hreached).trans (congrArg _ (writeReg_of_page v hr t.isLt hlive))
  refine ⟨(hwrite 0x1000 _ (by decide)).trans (congrArg _ ?_), (hwrite 0x1000 _ (by decide)).trans (congrArg _ ?_),
    (hwrite 0x1008 _ (by decide)).trans (congrArg _ ?_),
    fun v hheld hlost hresults => (hwrite 0x1004 _ (by decide)).trans (congrArg _ (noticeHead_written v.toNat hheld hlost hresults)),
    fun c hc => ?_⟩
  · exact (if_pos rfl).trans (congrArg (s.setTenant t) (writeReqStatus_overrun _))
  · exact (if_pos rfl).trans (congrArg (s.setTenant t) (writeReqStatus_malformed _))
  · exact ((if_neg (by decide)).trans ((if_neg (by decide)).trans (if_pos rfl))).trans
      (congrArg (s.setTenant t) (if_pos (bit_twoPow_same 20)))
  · rcases hc with rfl | rfl | rfl | ⟨v, rfl⟩ | ⟨v, rfl⟩ | ⟨v, rfl⟩ <;> exact hostRegWrite_of_poisoned _ _ hreached

/-! ## Writes of whole dwords (R502) -/

theorem leNat_leBytes (n v : Nat) : leNat (leBytes n v) = v % 256 ^ n := by
  induction n generalizing v with
  | zero => rw [pow_zero, Nat.mod_one]; rfl
  | succ n ih =>
    have hstep : leNat (leBytes (n + 1) v) = v % 256 + 256 * leNat (leBytes n (v / 256)) := rfl
    rw [hstep, ih, pow_succ', Nat.mod_mul]

theorem leNat_leBytes_of_lt {v : Nat} (hv : v < 2 ^ 32) : leNat (leBytes 4 v) = v :=
  (leNat_leBytes 4 v).trans (Nat.mod_eq_of_lt hv)

theorem eachDword_one (f : State → Nat → Nat → State) (s : State) (off : Nat) {v : Nat} (hv : v < 2 ^ 32) :
    eachDword f s off [true, true, true, true] (leBytes 4 v) = f s off v := by
  have hword := leNat_leBytes_of_lt hv
  unfold eachDword
  rw [leBytes_length]
  simpa [List.range_succ, leBytes] using congrArg (f s off) hword

theorem eachDword_two (f : State → Nat → Nat → State) (s : State) (off : Nat) {v w : Nat} (hv : v < 2 ^ 32) (hw : w < 2 ^ 32) :
    eachDword f s off (List.replicate 8 true) (leBytes 4 v ++ leBytes 4 w) = f (f s off v) (off + 4) w := by
  have hword := leNat_leBytes_of_lt hv
  have hword' := leNat_leBytes_of_lt hw
  have htake : ((leBytes 4 v ++ leBytes 4 w).take 4) = leBytes 4 v := rfl
  have hdrop : ((leBytes 4 v ++ leBytes 4 w).drop 4).take 4 = leBytes 4 w := rfl
  have hfirst : ((List.replicate 8 true).take 4).all id = true := rfl
  have hsecond : (((List.replicate 8 true).drop 4).take 4).all id = true := rfl
  have hlength : (leBytes 4 v ++ leBytes 4 w).length / 4 = 2 := by simp [leBytes_length]
  unfold eachDword
  rw [hlength]
  simp only [List.range_succ, List.range_zero, List.nil_append, List.foldl_cons, List.foldl_nil, List.cons_append, Nat.mul_zero,
    Nat.mul_one, hfirst, hsecond, if_true, List.drop_zero, htake, hdrop, hword, hword', Nat.add_zero]

/-- A dword with a byte not enabled writes no register. -/
theorem eachDword_disabled (f : State → Nat → Nat → State) (s : State) (off v : Nat) {es : List Bool} (hlength : es.length = 4)
    (hnone : false ∈ es) : eachDword f s off es (leBytes 4 v) = s := by
  unfold eachDword
  rw [leBytes_length]
  simp [List.range_succ, List.take_of_length_le (Nat.le_of_eq hlength), hnone]

section
variable {s : State} {p : Nat}

theorem writeBar0_of_register {off : Nat} (es : List Bool) (data : List Byte) (h : ¬ (off < 0x100000 ∧ off % 0x10000 < 0x1000)) :
    writeBar0 s p off es data = eachDword (fun s o v => writeReg s p o v) s off es data := if_neg h

theorem execRegisterWrite_bar0 (off : Nat) (es : List Bool) (data : List Byte) (h : portReached s p = true) :
    execRegisterWrite p .bar0 off false es data s = .next (writeBar0 s p off es data) :=
  (if_neg (by simp [h])).trans (if_neg Bool.false_ne_true)

theorem execRegisterWrite_word {off v : Nat} (hv : v < 2 ^ 32) (hreg : ¬ (off < 0x100000 ∧ off % 0x10000 < 0x1000))
    (h : portReached s p = true) :
    execRegisterWrite p .bar0 off false [true, true, true, true] (leBytes 4 v) s = .next (writeReg s p off v) := by
  rw [execRegisterWrite_bar0 _ _ _ h, writeBar0_of_register _ _ hreg, eachDword_one _ _ _ hv]

end

/-! ## The global page (R396, R505) -/

theorem adminPort_iff (s : State) (p : Nat) : adminPort s p = true ↔ (s.tenant 0).bound = true ∧ (s.tenant 0).hostPort = p := by
  simp [adminPort]

theorem writeGlobalReg_of_other {s : State} {p : Nat} (r v : Nat) (h : adminPort s p = false) : writeGlobalReg s p r v = s :=
  if_pos (by simp [h])

theorem writeGlobalReg_of_admin {s : State} {p : Nat} (v : Nat) (h : adminPort s p = true) :
    writeGlobalReg s p 0x20 v = { s with sys := { s.sys with alertStatus := s.sys.alertStatus &&& ~~~ (BitVec.ofNat 5 v) } }
      ∧ writeGlobalReg s p 0x24 v = { s with sys := { s.sys with alertEnable := BitVec.ofNat 5 v } }
      ∧ writeGlobalReg s p 0x28 v = if bit v 0 then ringStandby { s with sys := { s.sys with forceFailover := true } } else s := by
  have hadmin : ¬ ((!adminPort s p) = true) := by simp [h]
  exact ⟨(if_neg hadmin).trans (if_pos rfl), (if_neg hadmin).trans ((if_neg (by decide)).trans (if_pos rfl)),
    (if_neg hadmin).trans ((if_neg (by decide)).trans ((if_neg (by decide)).trans (if_pos rfl)))⟩

theorem ringStandby_frame (s : State) : ∃ b, ringStandby s = { s with sys := { s.sys with standbyRung := b } } := by
  unfold ringStandby
  split
  · exact ⟨s.sys.standbyRung, rfl⟩
  · exact ⟨true, rfl⟩

theorem ringStandby_rings {s : State} (h : s.sys.noStandby = false) : (ringStandby s).sys.standbyRung = true := by
  unfold ringStandby
  rw [h]
  rfl

section
variable (p : Fin 4) (v : Word) (s : State) (hreached : portReached s p = true)
include hreached

theorem execGlobal_eq :
    exec (.alertStatusClear p v false) s = .next (writeGlobalReg s p 0x20 v.toNat)
      ∧ exec (.registerWrite p .bar0 0x100024 false [true, true, true, true] (leBytes 4 v.toNat)) s = .next (writeGlobalReg s p 0x24 v.toNat)
      ∧ exec (.forceFailover p v false) s = .next (writeGlobalReg s p 0x28 v.toNat) :=
  ⟨(hostRegWrite_of_reached _ _ hreached).trans (congrArg _ (writeReg_of_global s p 0x20 _)),
    (execRegisterWrite_word v.isLt (by decide) hreached).trans (congrArg _ (writeReg_of_global s p 0x24 _)),
    (hostRegWrite_of_reached _ _ hreached).trans (congrArg _ (writeReg_of_global s p 0x28 _))⟩

/-- The clause of O22 on the global page. -/
theorem globalRegisters_written :
    ((s.tenant 0).bound = true → (s.tenant 0).hostPort = p →
      (∃ s', exec (.alertStatusClear p v false) s = .next s'
        ∧ s' = { s with sys := { s.sys with alertStatus := s.sys.alertStatus &&& ~~~ (BitVec.ofNat 5 v.toNat) } })
      ∧ (∃ s', exec (.registerWrite p .bar0 0x100024 false [true, true, true, true] (leBytes 4 v.toNat)) s = .next s'
        ∧ s' = { s with sys := { s.sys with alertEnable := BitVec.ofNat 5 v.toNat } })
      ∧ (∃ s', exec (.forceFailover p v false) s = .next s' ∧ (bit v.toNat 0 = true → s'.sys.forceFailover = true)
        ∧ (bit v.toNat 0 = true → s.sys.noStandby = false → s'.sys.standbyRung = true) ∧ (bit v.toNat 0 = false → s' = s)
        ∧ s'.tenants = s.tenants ∧ s'.mem = s.mem ∧ s'.work = s.work))
    ∧ (((s.tenant 0).bound = false ∨ (s.tenant 0).hostPort ≠ p) →
      exec (.alertStatusClear p v false) s = .next s ∧ exec (.forceFailover p v false) s = .next s
      ∧ exec (.registerWrite p .bar0 0x100024 false [true, true, true, true] (leBytes 4 v.toNat)) s = .next s) := by
  obtain ⟨hclear, henable, hforce⟩ := execGlobal_eq p v s hreached
  refine ⟨fun hbound hport => ?_, fun hnot => ?_⟩
  · obtain ⟨hstatus, henabled, hforced⟩ := writeGlobalReg_of_admin v.toNat ((adminPort_iff s p).mpr ⟨hbound, hport⟩)
    refine ⟨⟨_, hclear, hstatus⟩, ⟨_, henable, henabled⟩, ⟨_, hforce.trans (congrArg _ hforced), ?_⟩⟩
    cases hbit : bit v.toNat 0 with
    | true =>
      rw [if_pos rfl]
      obtain ⟨b, hring⟩ := ringStandby_frame { s with sys := { s.sys with forceFailover := true } }
      refine ⟨fun _ => by rw [hring], fun _ hstandby => ringStandby_rings hstandby, fun h => Bool.noConfusion h, ?_⟩
      rw [hring]
      exact ⟨rfl, rfl, rfl⟩
    | false => exact ⟨fun h => Bool.noConfusion h, fun h => Bool.noConfusion h, fun _ => rfl, rfl, rfl, rfl⟩
  · have hother : adminPort s p = false := by
      rw [Bool.eq_false_iff, ne_eq, adminPort_iff]
      rintro ⟨hbound, hport⟩
      exact hnot.elim (fun h => Bool.noConfusion (h.symm.trans hbound)) (fun h => h hport)
    exact ⟨hclear.trans (congrArg _ (writeGlobalReg_of_other _ _ hother)), hforce.trans (congrArg _ (writeGlobalReg_of_other _ _ hother)),
      henable.trans (congrArg _ (writeGlobalReg_of_other _ _ hother))⟩

end

/-- Settles O22: the registers of a page (ringUsedAfter is log 10) and of the global page. -/
theorem pageAndGlobalRegistersWritten : Obligations.PageAndGlobalRegistersWritten :=
  ⟨pageRegisters_written, globalRegisters_written⟩

/-! ## The MSI-X table and the configuration registers (R540, R517, R512) -/

/-- A port with a dword of its MSI-X table written. -/
def writeMsixWord (x : Port) (off w : Nat) : Port :=
  ((leBytes 4 w).zipIdx).foldl (fun (x : Port) e => writeMsixByte x (off + e.2) e.1) x

theorem msixByte_writeMsixWord_inside (x : Port) (off w : Nat) :
    (List.range 4).map (fun j => msixByte (writeMsixWord x off w) (off + j)) = leBytes 4 w := by
  simp [List.range_succ, writeMsixWord, leBytes, msixByte_writeMsixByte]

theorem msixByte_writeMsixWord_outside (x : Port) {off o : Nat} (w : Nat) (h : o < off ∨ off + 4 ≤ o) :
    msixByte (writeMsixWord x off w) o = msixByte x o := by
  simp only [writeMsixWord, leBytes, List.zipIdx_cons, List.zipIdx_nil, List.foldl_cons, List.foldl_nil, msixByte_writeMsixByte]
  grind

theorem writeMsixWord_pending (x : Port) (off w : Nat) : (writeMsixWord x off w).msixPending = x.msixPending := rfl

theorem writeBar4_of_none_pending {s : State} {p : Nat} {i : Nat} (v : Nat) (hi : i < 68) (hcontrol : i % 4 ≠ 3)
    (hpending : (s.port p).msixPending = []) : writeBar4 s p (4 * i) v = s.setPort p (writeMsixWord (s.port p) (4 * i) v) := by
  have hoff : 4 * i < 17 * 16 := by omega
  have hword : ¬ (4 * i) % 16 = 12 := by omega
  rw [writeBar4, if_pos hoff, if_neg hword]
  refine flushVector_of_not_pending ?_
  rw [State.port_setPort_same]
  exact fun hin => List.not_mem_nil (hpending ▸ writeMsixWord_pending (s.port p) (4 * i) v ▸ hin)

theorem flushVectors_of_none_pending {s : State} {p : Nat} (hpending : (s.port p).msixPending = []) : flushVectors s p = s :=
  foldl_keeps (fun a => a = s) (fun s v => flushVector s p v)
    (fun a v ha => by rw [ha]; exact flushVector_of_not_pending (by rw [hpending]; exact List.not_mem_nil)) _ s rfl

theorem bit_leNat_leBytes4 (v : Nat) : bit (leNat (leBytes 4 v)) 0 = bit v 0 := by
  simp [bit, leNat, leBytes]
  omega

theorem execRegisterWrite_post {p t : Nat} {off : Nat} (es : List Bool) (bs : List Byte) {s : State} (ht : t < 16) (hoff : off < 0x1000)
    (hreached : portReached s p = true) (hlive : pageLive s p t = true) :
    execRegisterWrite p .bar0 (t * 0x10000 + off) false es bs s
      = .next (s.setTenant t { s.tenant t with dropCount := min 0xFFFF ((s.tenant t).dropCount + 1), malformed := true }) := by
  have hpost : t * 0x10000 + off < 0x100000 ∧ (t * 0x10000 + off) % 0x10000 < 0x1000 := by omega
  have hpage : (t * 0x10000 + off) / 0x10000 = t := by omega
  rw [execRegisterWrite_bar0 _ _ _ hreached, writeBar0, if_pos hpost, hpage, if_pos hlive, State.modTenant, dropPost]
  simp only [Bool.or_false, Bool.not_false, Bool.or_true]
  rfl

/-- Settles O23: one register for each whole dword, the MSI-X table, and the configuration bits. -/
theorem registerWriteForms : Obligations.RegisterWriteForms := by
  intro p s hreached
  refine ⟨fun off v hv hreg => ⟨execRegisterWrite_word hv hreg hreached, fun es hlength hnone => ?_⟩, fun off v w hv hw hreg => ?_,
    fun t es bs off hoff hlive => execRegisterWrite_post es bs t.isLt hoff hreached hlive, fun i v hv hcontrol hpending => ?_,
    fun v hpending => ?_, fun v => ?_⟩
  · exact (execRegisterWrite_bar0 _ _ _ hreached).trans
      (congrArg _ ((writeBar0_of_register _ _ hreg).trans (eachDword_disabled _ _ _ _ hlength hnone)))
  · exact (execRegisterWrite_bar0 _ _ _ hreached).trans
      (congrArg _ ((writeBar0_of_register _ _ hreg).trans (eachDword_two _ _ _ hv hw)))
  · refine ⟨_, ((if_neg (by simp [hreached])).trans (if_neg Bool.false_ne_true)).trans (congrArg _ ((eachDword_one _ _ _ hv).trans
      (writeBar4_of_none_pending v i.isLt hcontrol hpending))), ?_, fun o ho => ?_⟩
    · rw [State.port_setPort_same]
      exact msixByte_writeMsixWord_inside _ _ _
    · rw [State.port_setPort_same]
      exact msixByte_writeMsixWord_outside _ _ ho
  · have hport := s.port_setPort_same p { s.port p with msixEnable := bit (leNat (leBytes 4 v)) 0 }
    refine ⟨_, (if_neg (by simp [hreached])).trans (congrArg _ (flushVectors_of_none_pending (by rw [hport]; exact hpending))), ?_, rfl⟩
    rw [hport]
    exact bit_leNat_leBytes4 v
  · refine (if_neg (by simp [hreached])).trans ?_
    rw [bit_leNat_leBytes4]

end Sys2Proof.Machine

/-!
The state of a host port (11, 14): its link comes up and binds the tenants (R503), a loss stops its writes and a resume undoes it (R508), and
a reset puts its registers at their defaults (R509, R649; the defaults are log 4).
-/

namespace Sys2Proof.Machine

theorem MailFrame.linkUp {s s' : State} (h : MailFrame s s') (q : Nat) : (s'.port q).linkUp = (s.port q).linkUp := by
  obtain ⟨_, heq⟩ := h.ports q
  rw [heq]

theorem MailFrame.busMaster {s s' : State} (h : MailFrame s s') (q : Nat) : (s'.port q).busMaster = (s.port q).busMaster := by
  obtain ⟨_, heq⟩ := h.ports q
  rw [heq]

theorem MailFrame.d3hot {s s' : State} (h : MailFrame s s') (q : Nat) : (s'.port q).d3hot = (s.port q).d3hot := by
  obtain ⟨_, heq⟩ := h.ports q
  rw [heq]

theorem MailFrame.msixEnable {s s' : State} (h : MailFrame s s') (q : Nat) : (s'.port q).msixEnable = (s.port q).msixEnable := by
  obtain ⟨_, heq⟩ := h.ports q
  rw [heq]

theorem MailFrame.hostPort {s s' : State} (h : MailFrame s s') (t : Nat) : (s'.tenant t).hostPort = (s.tenant t).hostPort := by
  obtain ⟨_, _, _, _, _, _, _, _, _, _, _, _, heq⟩ := h.tenants t
  rw [heq]

theorem MailFrame.bound {s s' : State} (h : MailFrame s s') (t : Nat) : (s'.tenant t).bound = (s.tenant t).bound := by
  obtain ⟨_, _, _, _, _, _, _, _, _, _, _, _, heq⟩ := h.tenants t
  rw [heq]

/-! ## The link comes up (R503) -/

theorem bindAll_ports (s : State) (p : Nat) : (bindAll s p).ports = s.ports :=
  foldl_keeps (fun a => a.ports = s.ports) (fun s t => s.modTenant t (fun x => { x with bound := true, hostPort := p })) (fun _ _ h => h) _ s rfl

theorem bindAll_binds (s : State) (p : Nat) (t : Fin 16) : ((bindAll s p).tenant t).bound = true ∧ ((bindAll s p).tenant t).hostPort = p := by
  have hsame : ∀ (a : State) (u : Nat), ((a.modTenant u (fun x => { x with bound := true, hostPort := p })).tenant u).bound = true
      ∧ ((a.modTenant u (fun x => { x with bound := true, hostPort := p })).tenant u).hostPort = p := fun a u => by
    rw [State.tenant_modTenant_same]
    exact ⟨rfl, rfl⟩
  refine foldl_establishes (fun s t => s.modTenant t (fun x => { x with bound := true, hostPort := p }))
    (fun a u => (a.tenant u).bound = true ∧ (a.tenant u).hostPort = p) hsame (fun a u v h => ?_) s (List.mem_range.mpr t.isLt)
  by_cases hv : v = u
  · rw [hv]; exact hsame a u
  · rw [State.modTenant, a.tenant_setTenant_other _ _ _ hv]; exact h

/-- The state with a link up and its tenants bound, before what is held goes out. -/
def linkRaised (s : State) (p : Nat) : State :=
  let s1 := s.setPort p { resetPort (s.port p) with linkUp := true }
  if decide (s.sys.state = 1) && !(s.tenant 0).bound then bindAll s1 p else s1

theorem linkComesUp_eq {s : State} {p : Nat} (hdown : (s.port p).linkUp = false) : linkComesUp s p = resumePort (linkRaised s p) p := by
  unfold linkComesUp
  rw [hdown]
  rfl

theorem linkRaised_port (s : State) (p : Nat) : (linkRaised s p).port p = { resetPort (s.port p) with linkUp := true } := by
  have hport := s.port_setPort_same p { resetPort (s.port p) with linkUp := true }
  unfold linkRaised
  dsimp only
  split
  · exact (congrArg (fun ps => tget ({} : Port) ps p) (bindAll_ports _ p)).trans hport
  · exact hport

theorem linkRaised_binds {s : State} {p : Nat} (hready : s.sys.state = 1) (hfree : (s.tenant 0).bound = false) (t : Fin 16) :
    ((linkRaised s p).tenant t).bound = true ∧ ((linkRaised s p).tenant t).hostPort = p := by
  have hcond : (decide (s.sys.state = 1) && !(s.tenant 0).bound) = true := by simp [hready, hfree]
  unfold linkRaised
  rw [hcond]
  exact bindAll_binds _ p t

theorem linkRaised_tenant {s : State} {p : Nat} (hbusy : s.sys.state ≠ 1) (t : Nat) : (linkRaised s p).tenant t = s.tenant t := by
  have hcond : (decide (s.sys.state = 1) && !(s.tenant 0).bound) = false := by
    rw [decide_eq_false hbusy, Bool.false_and]
  unfold linkRaised
  rw [hcond]
  rfl

theorem linkUp_comes (p : Fin 4) (s : State) (hon : rimOn s p = true) (hdown : (s.port p).linkUp = false) :
    (∃ s', exec (.portLinkUp p true) s = .next s' ∧ (s'.port p).linkUp = true ∧ (s'.port p).busMaster = false
      ∧ (s'.port p).msixEnable = false
      ∧ (s.sys.state = 1 → (s.tenant 0).bound = false → ∀ t : Fin 16, (s'.tenant t).bound = true ∧ (s'.tenant t).hostPort = p)
      ∧ (s.sys.state ≠ 1 → ∀ t : Fin 16, (s'.tenant t).hostPort = (s.tenant t).hostPort ∧ (s'.tenant t).bound = (s.tenant t).bound))
    ∧ exec (.portLinkUp p false) s = .next s
    ∧ ∃ s', exec (.portResume p .link) s = .next s' ∧ (s'.port p).linkUp = true := by
  have hframe := resumePort_mailFrame (linkRaised s p) p
  have hport := linkRaised_port s p
  have hup : ((resumePort (linkRaised s p) p).port p).linkUp = true := (hframe.linkUp p).trans (congrArg Port.linkUp hport)
  refine ⟨⟨_, (if_pos (by simp [hon])).trans (congrArg _ (linkComesUp_eq hdown)), hup,
      (hframe.busMaster p).trans (congrArg Port.busMaster hport), (hframe.msixEnable p).trans (congrArg Port.msixEnable hport),
      fun hready hfree t => ?_, fun hbusy t => ?_⟩, if_neg (by simp),
    ⟨_, (if_neg (by simp [hon])).trans (congrArg _ (linkComesUp_eq hdown)), hup⟩⟩
  · obtain ⟨hbound, hhost⟩ := linkRaised_binds (p := p) hready hfree t
    exact ⟨(hframe.bound t).trans hbound, (hframe.hostPort t).trans hhost⟩
  · rw [hframe.hostPort, hframe.bound, linkRaised_tenant hbusy]
    exact ⟨rfl, rfl⟩

/-! ## Losses, resumes and resets (R508, R509, R649) -/

section
variable (p : Fin 4) (s : State)

theorem portLinkDown_stops :
    (∃ s', exec (.portLinkDown p .link) s = .next s' ∧ (s'.port p).linkUp = false ∧ portWritable (s'.port p) = false ∧ s'.tenants = s.tenants)
    ∧ (∃ s', exec (.portLinkDown p .busMaster) s = .next s' ∧ portWritable (s'.port p) = false ∧ (s'.port p).linkUp = (s.port p).linkUp)
    ∧ (∃ s', exec (.portLinkDown p .d3hot) s = .next s' ∧ portWritable (s'.port p) = false ∧ (s'.port p).linkUp = (s.port p).linkUp) := by
  refine ⟨⟨_, rfl, ?_, ?_, rfl⟩, ⟨_, rfl, ?_, ?_⟩, ⟨_, rfl, ?_, ?_⟩⟩ <;> rw [State.port_setPort_same] <;> simp [portWritable]

theorem portResume_undoes (hon : rimOn s p = true) :
    (∃ s', exec (.portResume p .busMaster) s = .next s' ∧ (s'.port p).busMaster = (s.port p).linkUp)
    ∧ ∃ s', exec (.portResume p .d3hot) s = .next s' ∧ (s'.port p).d3hot = false := by
  refine ⟨⟨_, if_neg (by simp [hon]), ?_⟩, ⟨_, if_neg (by simp [hon]), ?_⟩⟩
  · rw [(resumePort_mailFrame _ _).busMaster, State.port_setPort_same]
  · rw [(resumePort_mailFrame _ _).d3hot, State.port_setPort_same]

theorem setPort_resetPort :
    let s' := s.setPort p (resetPort (s.port p))
    (s'.port p).linkUp = (s.port p).linkUp ∧ (s'.port p).busMaster = false ∧ (s'.port p).d3hot = false
      ∧ (s'.port p).msixEnable = false ∧ (s'.port p).relaxed = false ∧ (s'.port p).msixTable = []
      ∧ (∀ q, q ≠ p.val → s'.port q = s.port q) ∧ s'.tenants = s.tenants ∧ s'.work = s.work ∧ s'.mem = s.mem := by
  dsimp only
  rw [State.port_setPort_same]
  exact ⟨rfl, rfl, rfl, rfl, rfl, rfl, fun q hq => s.port_setPort_other _ _ _ hq, rfl, rfl, rfl⟩

end

/-- Settles O26: a port's link, its losses and resumes, and its resets. -/
theorem portStateChanges : Obligations.PortStateChanges := by
  intro p s
  obtain ⟨hlink, hmaster, hsleep⟩ := portLinkDown_stops p s
  refine ⟨linkUp_comes p s, hlink, hmaster, hsleep, portResume_undoes p s, fun c hc => ?_, fun r hr => if_neg (by omega)⟩
  rcases hc with rfl | ⟨r, hr, rfl⟩
  · exact ⟨_, rfl, setPort_resetPort p s⟩
  · have hp : r.val / 2 = p.val := by omega
    refine ⟨_, (if_pos (by omega)).trans (congrArg _ ?_), setPort_resetPort p s⟩
    rw [hp]

end Sys2Proof.Machine

/-!
The aperture of BAR2 (11): what an offset maps to (R511, R539), accesses that meet no other (R513), and the poison marks that a write clears or
sets and a read reports (R514, R530).
-/

namespace Sys2Proof.Machine

theorem map_tget_range (d : Byte) (m : List Host.Cell) (a n : Nat) :
    (List.range n).map (fun i => tget d m (a + i)) = readBytes d m a n := by
  induction n generalizing a with
  | zero => rfl
  | succ n ih =>
    rw [List.range_succ_eq_map, List.map_cons, List.map_map, readBytes, ← ih (a + 1)]
    exact congrArg (_ :: ·) (List.map_congr_left (fun i _ => by simp only [Function.comp_apply]; congr 1; omega))

/-! ## What an offset maps to (R539) -/

section
variable {s : State} {p t : Nat}

theorem apertureByte_mapped {b : Nat} (hlive : pageLive s p t = true) (hidle : (s.tenant t).configuring = none) (ht : t < 16)
    (hb : b < min (s.tenant t).granuleCount 4 * 2 ^ 30) :
    apertureByte s p (t * 2 ^ 32 + b) = some ((s.tenant t).granuleFirst * 2 ^ 30 + b) := by
  have hlt : b < 2 ^ 32 := by omega
  have htenant : (t * 2 ^ 32 + b) / 2 ^ 32 = t := by omega
  have hoff : (t * 2 ^ 32 + b) % 2 ^ 32 = b := by omega
  unfold apertureByte
  rw [htenant, hoff]
  exact if_pos (by simp only [hlive, hidle, ht, hb, Option.isNone_none, decide_true, Bool.and_self])

theorem apertureByte_unmapped {b : Nat} (hlt : b < 2 ^ 32) (hb : min (s.tenant t).granuleCount 4 * 2 ^ 30 ≤ b) :
    apertureByte s p (t * 2 ^ 32 + b) = none := by
  have htenant : (t * 2 ^ 32 + b) / 2 ^ 32 = t := by omega
  have hoff : (t * 2 ^ 32 + b) % 2 ^ 32 = b := by omega
  unfold apertureByte
  rw [htenant, hoff]
  exact if_neg (by rw [decide_eq_false (Nat.not_lt.mpr hb), Bool.and_false]; exact Bool.false_ne_true)

theorem mappedBytes_mapped {a n : Nat} (hlive : pageLive s p t = true) (hidle : (s.tenant t).configuring = none) (ht : t < 16)
    (hn : a + n ≤ min (s.tenant t).granuleCount 4 * 2 ^ 30) :
    mappedBytes s p (t * 2 ^ 32 + a) n = (List.range n).map (fun i => (s.tenant t).granuleFirst * 2 ^ 30 + a + i) := by
  unfold mappedBytes
  rw [← List.filterMap_eq_map]
  refine List.filterMap_congr (fun i hi => ?_)
  rw [Nat.add_assoc, apertureByte_mapped hlive hidle ht (by have := List.mem_range.mp hi; omega), ← Nat.add_assoc]
  rfl

theorem mappedBytes_unmapped {a n : Nat} (hn : a + n ≤ 2 ^ 32) (ha : min (s.tenant t).granuleCount 4 * 2 ^ 30 ≤ a) :
    mappedBytes s p (t * 2 ^ 32 + a) n = [] := by
  refine List.filterMap_eq_nil_iff.mpr (fun i hi => ?_)
  rw [Nat.add_assoc]
  exact apertureByte_unmapped (by have := List.mem_range.mp hi; omega) (by omega)

/-- A write of mapped bytes is a write of DDR. -/
theorem writeMapped_mapped {data : List Byte} {a o : Nat} (s : State) (hlive : pageLive s p t = true)
    (hidle : (s.tenant t).configuring = none) (ht : t < 16) (hn : a + data.length ≤ min (s.tenant t).granuleCount 4 * 2 ^ 30)
    (ho : o = (s.tenant t).granuleFirst * 2 ^ 30 + a) :
    writeMapped s p (t * 2 ^ 32 + a) data = { s with mem := { s.mem with ddr := writeBytes 0 s.mem.ddr o data } } := by
  induction data generalizing s a o with
  | nil => rfl
  | cons b rest ih =>
    rw [List.length_cons] at hn
    unfold writeMapped
    rw [apertureByte_mapped hlive hidle ht (by omega), Nat.add_assoc, ← ho]
    have hnext : o + 1 = (s.tenant t).granuleFirst * 2 ^ 30 + (a + 1) := by omega
    exact ih { s with mem := { s.mem with ddr := tset 0 s.mem.ddr o b } } hlive hidle
      (show a + 1 + rest.length ≤ min (s.tenant t).granuleCount 4 * 2 ^ 30 by omega) hnext

theorem writeMapped_unmapped {data : List Byte} {a : Nat} (hn : a + data.length ≤ 2 ^ 32)
    (ha : min (s.tenant t).granuleCount 4 * 2 ^ 30 ≤ a) : writeMapped s p (t * 2 ^ 32 + a) data = s := by
  induction data generalizing a with
  | nil => rfl
  | cons b rest ih =>
    rw [List.length_cons] at hn
    unfold writeMapped
    rw [apertureByte_unmapped (by omega) ha, Nat.add_assoc]
    exact ih (by omega) (by omega)

theorem map_apertureRead_mapped {a n : Nat} (hlive : pageLive s p t = true) (hidle : (s.tenant t).configuring = none) (ht : t < 16)
    (hn : a + n ≤ min (s.tenant t).granuleCount 4 * 2 ^ 30) :
    (List.range n).map (fun i => apertureRead s p (t * 2 ^ 32 + a + i))
      = readBytes 0 s.mem.ddr ((s.tenant t).granuleFirst * 2 ^ 30 + a) n := by
  rw [← map_tget_range]
  refine List.map_congr_left (fun i hi => ?_)
  unfold apertureRead
  rw [Nat.add_assoc, apertureByte_mapped hlive hidle ht (by have := List.mem_range.mp hi; omega), Nat.add_assoc]

theorem map_apertureRead_unmapped {a n : Nat} (hn : a + n ≤ 2 ^ 32) (ha : min (s.tenant t).granuleCount 4 * 2 ^ 30 ≤ a) :
    (List.range n).map (fun i => apertureRead s p (t * 2 ^ 32 + a + i)) = zeros n := by
  refine List.eq_replicate_iff.mpr ⟨by simp, fun b hb => ?_⟩
  obtain ⟨i, hi, rfl⟩ := List.mem_map.mp hb
  unfold apertureRead
  rw [Nat.add_assoc, apertureByte_unmapped (by have := List.mem_range.mp hi; omega) (by omega)]

end

/-! ## Accesses that meet no other (R513) -/

theorem racedBytes_of_untouched {s : State} (by' : Toucher) (write : Bool) (rs : List (Nat × Nat)) (h : s.work.touches = []) :
    racedBytes s by' write rs = [] := by
  unfold racedBytes
  rw [h]
  rfl

theorem racedBytes_of_no_ranges (s : State) (by' : Toucher) (write : Bool) : racedBytes s by' write [] = [] := by
  unfold racedBytes
  dsimp only
  split <;> rfl

/-- With no access on record a host access puts its own there and does nothing else. -/
theorem raceHost_of_untouched {s : State} (p t : Nat) (relaxed write : Bool) (rs : List (Nat × Nat)) (h : s.work.touches = []) :
    ∃ ts, raceHost s p t relaxed write rs = { s with work := { s.work with touches := ts } } := by
  unfold raceHost
  dsimp only
  rw [racedBytes_of_untouched _ _ _ h]
  split <;> split <;> exact ⟨_, rfl⟩

/-- An access to no byte is none. -/
theorem raceHost_write_of_no_ranges (s : State) (p t : Nat) (relaxed : Bool) : raceHost s p t relaxed true [] = s := by
  unfold raceHost
  dsimp only
  rw [racedBytes_of_no_ranges]
  exact if_pos (by simp)

theorem raceHost_read_of_no_ranges {s : State} (p t : Nat) (h : s.work.touches = []) : raceHost s p t false false [] = s := by
  unfold raceHost
  dsimp only
  rw [racedBytes_of_no_ranges]
  have hflushed : flushTouches p s.work.touches = s.work.touches := by rw [h]; rfl
  exact (if_pos (by simp)).trans (congrArg (fun ts => ({ s with work := { s.work with touches := ts } } : State)) hflushed)

/-! ## The poison marks (R514, R530) -/

theorem mergeFinding_clean (s : State) (ls : List Nat) : mergeFinding s .clean ls = s := by
  cases ls <;> rfl

theorem mem_linesIn_range {o n l : Nat} : l ∈ linesIn ((List.range n).map (fun i => o + i)) ↔ ∃ i, i < n ∧ (o + i) / 64 = l := by
  simp [linesIn]

theorem coversLine_range {o n l : Nat} : coversLine ((List.range n).map (fun i => o + i)) l = true ↔ o ≤ l * 64 ∧ l * 64 + 64 ≤ o + n := by
  simp only [coversLine, List.all_eq_true, List.mem_range, List.contains_iff_mem, List.mem_map]
  constructor
  · intro h
    obtain ⟨i, hi, hfirst⟩ := h 0 (by decide)
    obtain ⟨j, hj, hlast⟩ := h 63 (by decide)
    omega
  · exact fun h i hi => ⟨l * 64 + i - o, by omega, by omega⟩

/-- The marks that stay are those of lines that the write does not cover whole. -/
theorem mem_clearMarks_range {s : State} {o n l : Nat} :
    l ∈ (clearMarks s ((linesIn ((List.range n).map (fun i => o + i))).filter
        (coversLine ((List.range n).map (fun i => o + i))))).mem.poisoned
      ↔ l ∈ s.mem.poisoned ∧ ¬ (o ≤ l * 64 ∧ l * 64 + 64 ≤ o + n) := by
  have hcovered : l ∈ (linesIn ((List.range n).map (fun i => o + i))).filter (coversLine ((List.range n).map (fun i => o + i)))
      ↔ o ≤ l * 64 ∧ l * 64 + 64 ≤ o + n := by
    rw [List.mem_filter, coversLine_range, mem_linesIn_range]
    exact ⟨fun h => h.2, fun h => ⟨⟨l * 64 - o, by omega, by omega⟩, h⟩⟩
  rw [clearMarks, List.mem_filter, decide_eq_true_eq, List.contains_iff_mem, hcovered]

theorem foldl_poisonLine_marks {ls : List Nat} {l : Nat} (s : State) (h : l ∈ ls) : l ∈ (ls.foldl poisonLine s).mem.poisoned :=
  foldl_establishes poisonLine (fun a l => l ∈ a.mem.poisoned) (fun a b => (mem_poisonLine a b b).mpr (.inl rfl))
    (fun a b c hc => (mem_poisonLine a b c).mpr (.inr hc)) s h

theorem foldl_poisonLine_ddr (ls : List Nat) (s : State) : (ls.foldl poisonLine s).mem.ddr = s.mem.ddr :=
  foldl_keeps (fun a => a.mem.ddr = s.mem.ddr) poisonLine (fun a b h => (poisonLine_ddr a b).trans h) ls s rfl

theorem foldl_poisonLine_ports (ls : List Nat) (s : State) : (ls.foldl poisonLine s).ports = s.ports :=
  foldl_keeps (fun a => a.ports = s.ports) poisonLine (fun a b h => by unfold poisonLine; split <;> exact h) ls s rfl

/-! ## The clauses of O24 -/

theorem logPoison_touches (s : State) (p : Nat) (ep : Bool) : (logPoison s p ep).work.touches = s.work.touches := by
  unfold logPoison
  split <;> rfl

theorem logPoison_tenant (s : State) (p t : Nat) (ep : Bool) : (logPoison s p ep).tenant t = s.tenant t :=
  congrArg (fun ts => tget (tenantDef t) ts t) (logPoison_tenants s p ep)

/-- The state after a mapped write, before EP marks its lines. -/
def apertureWritten (s : State) (o : Nat) (data : List Byte) (ts : List Touch) : State :=
  clearMarks { s with mem := { s.mem with ddr := writeBytes 0 s.mem.ddr o data }, work := { s.work with touches := ts } }
    ((linesIn ((List.range data.length).map (fun i => o + i))).filter (coversLine ((List.range data.length).map (fun i => o + i))))

section
variable {p : Fin 4} {t : Fin 16} {a : Nat} {s : State}

theorem execBar2Write_mapped (ro ep : Bool) {data : List Byte} {o : Nat} (hpage : PageReached s p t)
    (hidle : (s.tenant t).configuring = none) (htouch : s.work.touches = [])
    (hn : a + data.length ≤ min (s.tenant t).granuleCount 4 * 2 ^ 30) (ho : o = (s.tenant t).granuleFirst * 2 ^ 30 + a) :
    ∃ ts, exec (.bar2Write p (t * 2 ^ 32 + a) ro ep .clean data) s
      = .next (if ep then (linesIn ((List.range data.length).map (fun i => o + i))).foldl poisonLine
            (apertureWritten (logPoison s p ep) o data ts)
          else apertureWritten (logPoison s p ep) o data ts) := by
  obtain ⟨hreached, hlive⟩ := hpage
  have hbytes := mappedBytes_mapped hlive hidle t.isLt hn
  rw [← ho] at hbytes
  have hwritten := writeMapped_mapped (o := o) (logPoison s p ep) ((pageLive_logPoison s p ep p t).trans hlive)
    (by rw [logPoison_tenant]; exact hidle) t.isLt (by rw [logPoison_tenant]; exact hn) (by rw [logPoison_tenant]; exact ho)
  obtain ⟨ts, hraced⟩ := raceHost_of_untouched
    (s := { logPoison s p ep with mem := { (logPoison s p ep).mem with ddr := writeBytes 0 (logPoison s p ep).mem.ddr o data } })
    p ((t * 2 ^ 32 + a) / 2 ^ 32) ro true (hostRanges (logPoison s p ep) ((List.range data.length).map (fun i => o + i)))
    ((logPoison_touches s p ep).trans htouch)
  refine ⟨ts, (if_neg (by simp [hreached])).trans ?_⟩
  rw [hbytes, hwritten, hraced, mergeFinding_clean]
  rfl

theorem bar2Write_stores (ro : Bool) (data : List Byte) (hpage : PageReached s p t) (hidle : (s.tenant t).configuring = none)
    (htouch : s.work.touches = []) (hn : a + data.length ≤ min (s.tenant t).granuleCount 4 * 2 ^ 30) :
    let o := (s.tenant t).granuleFirst * 2 ^ 30 + a
    (∃ s', exec (.bar2Write p (t * 2 ^ 32 + a) ro false .clean data) s = .next s'
      ∧ readBytes 0 s'.mem.ddr o data.length = data ∧ (∀ x, x < o ∨ o + data.length ≤ x → tget 0 s'.mem.ddr x = tget 0 s.mem.ddr x)
      ∧ (∀ l, l ∈ s'.mem.poisoned ↔ (l ∈ s.mem.poisoned ∧ ¬ (o ≤ l * 64 ∧ l * 64 + 64 ≤ o + data.length)))
      ∧ s'.tenants = s.tenants ∧ s'.ports = s.ports ∧ s'.rims = s.rims ∧ s'.mem.host = s.mem.host)
    ∧ (∃ s', exec (.bar2Write p (t * 2 ^ 32 + a) ro true .clean data) s = .next s'
      ∧ readBytes 0 s'.mem.ddr o data.length = data ∧ (s'.port p).aerPoisoned = true
      ∧ (∀ i, i < data.length → (o + i) / 64 ∈ s'.mem.poisoned)) := by
  intro o
  refine ⟨?_, ?_⟩
  · obtain ⟨ts, hexec⟩ := execBar2Write_mapped (o := o) ro false hpage hidle htouch hn rfl
    exact ⟨_, hexec, readBytes_writeBytes _ _ _ _, fun x hx => tget_writeBytes_other _ _ _ _ _ hx, fun l => mem_clearMarks_range,
      rfl, rfl, rfl, rfl⟩
  · obtain ⟨ts, hexec⟩ := execBar2Write_mapped (o := o) ro true hpage hidle htouch hn rfl
    refine ⟨_, hexec, ?_, ?_, fun i hi => foldl_poisonLine_marks _ (mem_linesIn_range.mpr ⟨i, hi, rfl⟩)⟩
    · rw [if_pos rfl, foldl_poisonLine_ddr]
      exact readBytes_writeBytes _ _ _ _
    · rw [if_pos rfl, State.port, foldl_poisonLine_ports]
      exact congrArg Port.aerPoisoned (s.port_setPort_same p { s.port p with aerPoisoned := true })

theorem bar2Write_outside (ro : Bool) (data : List Byte) (hpage : PageReached s p t)
    (ha : min (s.tenant t).granuleCount 4 * 2 ^ 30 ≤ a) (hn : a + data.length ≤ 2 ^ 32) :
    ∃ s', exec (.bar2Write p (t * 2 ^ 32 + a) ro false .clean data) s = .next s' ∧ s'.mem = s.mem := by
  obtain ⟨hreached, -⟩ := hpage
  refine ⟨s, (if_neg (by simp [hreached])).trans ?_, rfl⟩
  have hclean : logPoison s p false = s := if_neg Bool.false_ne_true
  have hraced : raceHost s p ((t * 2 ^ 32 + a) / 2 ^ 32) ro true (hostRanges s []) = s := raceHost_write_of_no_ranges _ _ _ _
  rw [mappedBytes_unmapped hn ha, hclean, writeMapped_unmapped hn ha, hraced, mergeFinding_clean]
  simp [clearMarks, linesIn]

/-- The record of a read's access, and its bytes. -/
theorem aperture_reads {n : Nat} {o : Nat} (hlive : pageLive s p t = true) (hidle : (s.tenant t).configuring = none)
    (htouch : s.work.touches = []) (hn : a + n ≤ min (s.tenant t).granuleCount 4 * 2 ^ 30)
    (ho : o = (s.tenant t).granuleFirst * 2 ^ 30 + a) :
    ∃ ts, raceHost s p ((t * 2 ^ 32 + a) / 2 ^ 32) false false (hostRanges s (mappedBytes s p (t * 2 ^ 32 + a) n))
        = { s with work := { s.work with touches := ts } }
      ∧ (List.range n).map (fun i => apertureRead { s with work := { s.work with touches := ts } } p (t * 2 ^ 32 + a + i))
        = readBytes 0 s.mem.ddr o n := by
  obtain ⟨ts, hraced⟩ := raceHost_of_untouched p ((t * 2 ^ 32 + a) / 2 ^ 32) false false
    (hostRanges s (mappedBytes s p (t * 2 ^ 32 + a) n)) htouch
  refine ⟨ts, hraced, ?_⟩
  rw [ho]
  exact map_apertureRead_mapped (s := { s with work := { s.work with touches := ts } }) hlive hidle t.isLt hn

theorem execBar2Read_clean {n : Nat} {o : Nat} (hpage : PageReached s p t) (hidle : (s.tenant t).configuring = none)
    (htouch : s.work.touches = []) (hn : a + n ≤ min (s.tenant t).granuleCount 4 * 2 ^ 30)
    (ho : o = (s.tenant t).granuleFirst * 2 ^ 30 + a) :
    ∃ ts, exec (.bar2Read p (t * 2 ^ 32 + a) n .clean) s
      = .next (State.emit { s with work := { s.work with touches := ts } } (.bar2Completion p
          ((linesIn ((List.range n).map (fun i => o + i))).any (fun l => s.mem.poisoned.contains l)) (readBytes 0 s.mem.ddr o n))) := by
  obtain ⟨ts, hraced, hdata⟩ := aperture_reads hpage.2 hidle htouch hn ho
  have hbytes := mappedBytes_mapped hpage.2 hidle t.isLt hn
  refine ⟨ts, (if_neg (by simp [hpage.1])).trans ?_⟩
  rw [hraced, hdata, hbytes, ← ho]
  rfl

theorem execBar2Read_ddrLine {n : Nat} {o : Nat} (l : Nat) (hpage : PageReached s p t) (hidle : (s.tenant t).configuring = none)
    (htouch : s.work.touches = []) (hn : a + n ≤ min (s.tenant t).granuleCount 4 * 2 ^ 30)
    (ho : o = (s.tenant t).granuleFirst * 2 ^ 30 + a) (hl : ∃ i, i < n ∧ (o + i) / 64 = l) :
    ∃ (fresh : List Nat) (ts : List Touch), l ∈ fresh ∧ exec (.bar2Read p (t * 2 ^ 32 + a) n (.ddrLine l)) s
      = .next (State.emit (fresh.foldl poisonLine { s with work := { s.work with touches := ts } })
          (.bar2Completion p true (readBytes 0 s.mem.ddr o n))) := by
  obtain ⟨ts, hraced, hdata⟩ := aperture_reads hpage.2 hidle htouch hn ho
  have hbytes := mappedBytes_mapped hpage.2 hidle t.isLt hn
  have hfresh : l ∈ (linesIn ((List.range n).map (fun i => o + i))).filter (fun x => x = l) :=
    List.mem_filter.mpr ⟨mem_linesIn_range.mpr hl, decide_eq_true rfl⟩
  have hsome : ((linesIn ((List.range n).map (fun i => o + i))).filter (fun x => x = l)).isEmpty = false := by
    rw [List.isEmpty_eq_false_iff]
    exact List.ne_nil_of_mem hfresh
  refine ⟨_, ts, hfresh, (if_neg (by simp [hpage.1])).trans ?_⟩
  rw [hraced, hdata, hbytes, ← ho]
  simp only [hsome, Bool.not_false, Bool.true_or]

theorem foldl_poisonLine_out (ls : List Nat) (s : State) : (ls.foldl poisonLine s).out = s.out :=
  foldl_keeps (fun a => a.out = s.out) poisonLine (fun a b h => by unfold poisonLine; split <;> exact h) ls s rfl

theorem any_poisoned_iff {o n : Nat} :
    (linesIn ((List.range n).map (fun i => o + i))).any (fun l => s.mem.poisoned.contains l) = true
      ↔ ∃ i, i < n ∧ (o + i) / 64 ∈ s.mem.poisoned := by
  simp only [List.any_eq_true, List.contains_iff_mem]
  constructor
  · rintro ⟨l, hl, hmark⟩
    obtain ⟨i, hi, rfl⟩ := mem_linesIn_range.mp hl
    exact ⟨i, hi, hmark⟩
  · rintro ⟨i, hi, hmark⟩
    exact ⟨_, mem_linesIn_range.mpr ⟨i, hi, rfl⟩, hmark⟩

theorem bar2Read_returns (n : Nat) (hpage : PageReached s p t) (hidle : (s.tenant t).configuring = none) (htouch : s.work.touches = [])
    (hn : a + n ≤ min (s.tenant t).granuleCount 4 * 2 ^ 30) :
    let o := (s.tenant t).granuleFirst * 2 ^ 30 + a
    ((∀ i, i < n → (o + i) / 64 ∉ s.mem.poisoned) →
      ∃ ts, exec (.bar2Read p (t * 2 ^ 32 + a) n .clean) s
        = .next (State.emit { s with work := { s.work with touches := ts } } (.bar2Completion p false (readBytes 0 s.mem.ddr o n))))
    ∧ ((∃ i, i < n ∧ (o + i) / 64 ∈ s.mem.poisoned) →
      ∃ ts, exec (.bar2Read p (t * 2 ^ 32 + a) n .clean) s
        = .next (State.emit { s with work := { s.work with touches := ts } } (.bar2Completion p true (readBytes 0 s.mem.ddr o n))))
    ∧ (∀ l, (∃ i, i < n ∧ (o + i) / 64 = l) →
      ∃ s', exec (.bar2Read p (t * 2 ^ 32 + a) n (.ddrLine l)) s = .next s' ∧ l ∈ s'.mem.poisoned ∧ s'.mem.ddr = s.mem.ddr
        ∧ s'.out = .bar2Completion p true (readBytes 0 s.mem.ddr o n) :: s.out) := by
  intro o
  obtain ⟨ts, hclean⟩ := execBar2Read_clean (o := o) hpage hidle htouch hn rfl
  refine ⟨fun hnone => ⟨ts, ?_⟩, fun hsome => ⟨ts, ?_⟩, fun l hl => ?_⟩
  · have hep := Bool.eq_false_iff.mpr (fun h => (any_poisoned_iff (s := s) (o := o) (n := n)).mp h |>.elim (fun i hi => hnone i hi.1 hi.2))
    rw [hclean, hep]
  · rw [hclean, any_poisoned_iff.mpr hsome]
  · obtain ⟨fresh, ts', hfresh, hexec⟩ := execBar2Read_ddrLine (o := o) l hpage hidle htouch hn rfl hl
    exact ⟨_, hexec, foldl_poisonLine_marks _ hfresh, foldl_poisonLine_ddr _ _, congrArg _ (foldl_poisonLine_out _ _)⟩

theorem bar2Read_outside (n : Nat) (hpage : PageReached s p t) (htouch : s.work.touches = [])
    (ha : min (s.tenant t).granuleCount 4 * 2 ^ 30 ≤ a) (hn : a + n ≤ 2 ^ 32) :
    exec (.bar2Read p (t * 2 ^ 32 + a) n .clean) s = .next (s.emit (.bar2Completion p false (zeros n))) := by
  refine (if_neg (by simp [hpage.1])).trans ?_
  have hraced : raceHost s p ((t * 2 ^ 32 + a) / 2 ^ 32) false false (hostRanges s []) = s := raceHost_read_of_no_ranges _ _ htouch
  rw [mappedBytes_unmapped hn ha, hraced, map_apertureRead_unmapped hn ha]
  rfl

end

/-- Settles O24: what the aperture writes, marks and reads. -/
theorem apertureAccessed : Obligations.ApertureAccessed :=
  ⟨fun _ _ _ ro data _ hpage hidle htouch hn => bar2Write_stores ro data hpage hidle htouch hn,
    fun _ _ _ ro data _ hpage ha hn => bar2Write_outside ro data hpage ha hn,
    fun _ _ _ n _ hpage hidle htouch => ⟨fun hn => bar2Read_returns n hpage hidle htouch hn,
      fun ha hn => bar2Read_outside n hpage htouch ha hn⟩⟩

end Sys2Proof.Machine

/-!
The management agent (14): sessions (R655 to R659), reads and the settings of network and trust (R650, R656, R659, R660).
-/

namespace Sys2Proof.Machine

/-! ## Sessions -/

theorem State.agentSession_setAgentSession_same (s : State) (i : Nat) (x : AgentSession) :
    (s.setAgentSession i x).agentSession i = x := tget_tset_same _ _ _ _

theorem State.agentSession_setAgentSession_other (s : State) (i j : Nat) (x : AgentSession) (h : j ≠ i) :
    (s.setAgentSession i x).agentSession j = s.agentSession j := tget_tset_other _ _ _ _ _ h

/-- The lowest session that is not open. -/
theorem find_closed_session {s : State} {i : Fin 4} (hclosed : (s.agentSession i).openFlag = false)
    (hlow : ∀ j : Fin 4, j < i → (s.agentSession j).openFlag = true) :
    (List.range 4).find? (fun i => !(s.agentSession i).openFlag) = some i.val := by
  rw [List.find?_range_eq_some]
  exact ⟨by simp [hclosed], by simp, fun j hj => by simp [hlow ⟨j, by omega⟩ hj]⟩

theorem execAgentConnect_of_closed {cert : List Byte} {s : State} {i : Fin 4} (hstandby : s.casing.standby = true)
    (hok : clientOk s cert = true) (hclosed : (s.agentSession i).openFlag = false)
    (hlow : ∀ j : Fin 4, j < i → (s.agentSession j).openFlag = true) :
    exec (.agentConnect cert) s
      = .next ((s.setAgentSession i { openFlag := true, openedAt := s.nowUs }).emit (.agentAccepted i)) := by
  refine (if_neg (by simp [hstandby])).trans ((if_neg (by simp [hok])).trans ?_)
  rw [find_closed_session hclosed hlow]

theorem execAgentConnect_refuses {cert : List Byte} {s : State} (hstandby : s.casing.standby = true)
    (hnot : clientOk s cert = false ∨ ∀ j : Fin 4, (s.agentSession j).openFlag = true) :
    exec (.agentConnect cert) s = .next (s.emit .agentRefused) := by
  refine (if_neg (by simp [hstandby])).trans ?_
  cases hok : clientOk s cert with
  | false => rfl
  | true =>
    have hall := hnot.resolve_left (by simp [hok])
    have hnone : (List.range 4).find? (fun i => !(s.agentSession i).openFlag) = none := by
      rw [List.find?_eq_none]
      exact fun j hj => by simp [hall ⟨j, List.mem_range.mp hj⟩]
    rw [hnone]
    rfl

theorem agentDisconnect_closes (i : Fin 4) (s : State) :
    ∃ s', exec (.agentDisconnect i) s = .next s' ∧ (s'.agentSession i).openFlag = false ∧ s'.casing.lockHolder ≠ some i.val
      ∧ (∀ h, h ≠ i.val → s.casing.lockHolder = some h → s'.casing.lockHolder = some h) ∧ (∀ j, j ≠ i.val → s'.agentSession j = s.agentSession j)
      ∧ s' = { s with casing := s'.casing } := by
  refine ⟨_, rfl, congrArg AgentSession.openFlag (s.agentSession_setAgentSession_same i {}), ?_, fun h hne hholder => ?_,
    fun j hj => s.agentSession_setAgentSession_other i j {} hj, rfl⟩
  · change (if s.casing.lockHolder = some i.val then none else s.casing.lockHolder) ≠ some i.val
    split
    · exact (Option.some_ne_none _).symm
    · next hother => exact hother
  · change (if s.casing.lockHolder = some i.val then none else s.casing.lockHolder) = some h
    rw [hholder, if_neg (fun heq => hne (Option.some.inj heq))]

/-! ## Requests of an open session -/

section
variable {i : Nat} {s : State}

theorem onSession_of_open (f : State → State) (h : Open s i) : onSession s i f = .next (f s) := by
  obtain ⟨hstandby, hopen, -⟩ := h
  exact if_pos (by rw [hstandby, hopen]; rfl)

/-- With no answer waiting a response goes out at once (R658). -/
theorem agentReply_of_open (cmd : Nat) (tag : Word) (status : Nat) (payload : List Byte) (h : Open s i) :
    agentReply s i cmd tag status payload = s.emit (.agent i cmd tag status payload) := by
  obtain ⟨-, -, hnone⟩ := h
  exact if_pos (by rw [hnone]; rfl)

theorem onSession_matched {fits : Bool} (cmd : Nat) (tag : Word) (f : State → State) (h : Open s i) (hfits : fits = true) :
    onSession s i (matched fits i cmd tag f) = .next (f s) :=
  (onSession_of_open _ h).trans (congrArg _ (if_pos hfits))

theorem onSession_badLength {fits : Bool} (cmd : Nat) (tag : Word) (f : State → State) (h : Open s i) (hfits : fits = false) :
    onSession s i (matched fits i cmd tag f) = .next (s.emit (.agent i cmd tag 2 [])) :=
  (onSession_of_open _ h).trans (congrArg _ ((if_neg (by rw [hfits]; exact Bool.false_ne_true)).trans (agentReply_of_open _ _ _ _ h)))

theorem relayEngine_of_answer (cmd : Nat) (tag : Word) {t : State} {code : Nat} {isRead : Bool} {data : List Byte}
    (htarget : engineTransaction { s with out := [] } code isRead data = .next t) (ht : Open { t with out := s.out } i) :
    relayEngine s i cmd tag code isRead data
      = ({ t with out := s.out } : State).emit (.agent i cmd tag (relayed t.out).1 (relayed t.out).2) := by
  unfold relayEngine
  rw [htarget]
  exact agentReply_of_open _ _ _ _ ht

theorem agentReads_badLength {c : Instr} {i : Fin 4} (cmd : Nat) (tag : Word) {pl : List Byte} (h : Open s i) (hpl : pl ≠ [])
    (hc : (c = .telemetry i tag pl ∧ cmd = 2) ∨ (c = .eepromRead i tag pl ∧ cmd = 3) ∨ (c = .statusRead i tag pl ∧ cmd = 4)) :
    exec c s = .next (s.emit (.agent i cmd tag 2 [])) := by
  have hlength : pl.isEmpty = false := List.isEmpty_eq_false_iff.mpr hpl
  rcases hc with ⟨rfl, rfl⟩ | ⟨rfl, rfl⟩ | ⟨rfl, rfl⟩
  · exact onSession_badLength _ _ _ h hlength
  · exact onSession_badLength _ _ _ h hlength
  · exact onSession_badLength _ _ _ h hlength

end

section
variable (i : Fin 4) (tag : Word) (s : State) (h : Open s i)
include h

theorem agentReads_answer :
    exec (.telemetry i tag []) s = .next (s.emit (.agent i 2 tag 0 (telemetryNow s)))
      ∧ exec (.eepromRead i tag []) s = .next (s.emit (.agent i 3 tag 0 (eepromRead s 0 256)))
      ∧ exec (.statusRead i tag []) s = .next (s.emit (.agent i 4 tag 0
          (if s.casing.hold = true ∨ poweredUp s = false then zeros 56 else globalPage s))) := by
  refine ⟨(onSession_matched 2 tag _ h rfl).trans (congrArg _ (agentReply_of_open _ _ _ _ h)),
    (onSession_matched 3 tag _ h rfl).trans (congrArg _ (agentReply_of_open _ _ _ _ h)),
    (onSession_matched 4 tag _ h rfl).trans (congrArg _ ((agentReply_of_open _ _ _ _ h).trans ?_))⟩
  simp only [Bool.or_eq_true, Bool.not_eq_true', agOk]

/-! ## PMBUS (R650, R651) -/

theorem pmbus_readVin (hon : poweredUp s = true) :
    exec (.pmbus i tag [0x40, 0x88, 1, 0]) s = .next (s.emit (.agent i 1 tag 0 (leBytes 2 s.casing.vinMv))) := by
  have htarget : engineTransaction { s with out := [] } 0x88 true [] = .next { s with out := [.pmbusData s.casing.vinMv] } := if_pos hon
  exact (onSession_matched 1 tag _ h rfl).trans (congrArg _ (relayEngine_of_answer 1 tag htarget h))

theorem pmbus_readVin_off (hoff : poweredUp s = false) :
    exec (.pmbus i tag [0x40, 0x88, 1, 0]) s = .next (s.emit (.agent i 1 tag 5 [])) := by
  have htarget : engineTransaction { s with out := [] } 0x88 true [] = .next { s with out := [.pmbusNack] } :=
    if_neg (by rw [show poweredUp { s with out := [] } = _ from hoff]; exact Bool.false_ne_true)
  exact (onSession_matched 1 tag _ h rfl).trans (congrArg _ (relayEngine_of_answer 1 tag htarget h))

theorem pmbus_setLimit {v : Nat} (hon : poweredUp s = true) (hlow : 100 ≤ v) (hhigh : v ≤ 450) :
    exec (.pmbus i tag ([0x40, 0x5D, 0, 2] ++ leBytes 2 v)) s
      = .next (({ s with casing := { s.casing with iLimit := v } } : State).emit (.agent i 1 tag 0 [])) := by
  have hv : leNat (leBytes 2 v) = v := (leNat_leBytes 2 v).trans (Nat.mod_eq_of_lt (by omega))
  have htarget : engineTransaction { s with out := [] } 0x5D false (leBytes 2 v)
      = .next { s with out := [], casing := { s.casing with iLimit := v } } := by
    refine (if_pos hon).trans (congrArg _ ?_)
    dsimp only
    rw [hv, if_pos ⟨hlow, hhigh⟩]
  exact (onSession_matched 1 tag _ h rfl).trans (congrArg _ (relayEngine_of_answer 1 tag (code := 0x5D) htarget h))

/-! ## Network and trust (R655, R656) -/

theorem netConfig_sets (pl : List Byte) :
    exec (.netConfig i tag (1 :: pl)) s
        = .next (({ s with casing := { s.casing with netStatic := some pl } } : State).emit (.agent i 11 tag 0 []))
      ∧ exec (.netConfig i tag (0 :: pl)) s
        = .next (({ s with casing := { s.casing with netStatic := none } } : State).emit (.agent i 11 tag 0 [])) :=
  ⟨(onSession_matched 11 tag _ h rfl).trans (congrArg _ (agentReply_of_open (s := { s with casing := _ }) _ _ _ _ h)),
    (onSession_matched 11 tag _ h rfl).trans (congrArg _ (agentReply_of_open (s := { s with casing := _ }) _ _ _ _ h))⟩

theorem trustSet_sets {b : Byte} {pl : List Byte} (hslot : b.toNat ≤ 3) (hpl : pl ≠ []) :
    (mayTrust s i = true → exec (.trustSet i tag (b :: pl)) s
        = .next (({ s with casing := { s.casing with anchors := tset [] s.casing.anchors b.toNat pl } } : State).emit (.agent i 12 tag 0 [])))
      ∧ (mayTrust s i = false → exec (.trustSet i tag (b :: pl)) s = .next (s.emit (.agent i 12 tag 3 []))) := by
  have hlength : 0 < pl.length := List.length_pos_of_ne_nil hpl
  have hfits : (decide (2 ≤ (b :: pl).length) && decide (((b :: pl).headD 4).toNat ≤ 3)) = true := by
    simp [hslot]
    omega
  refine ⟨fun hmay => ?_, fun hnot => ?_⟩
  · exact (onSession_matched 12 tag _ h hfits).trans
      (congrArg _ ((if_pos hmay).trans (agentReply_of_open (s := { s with casing := _ }) _ _ _ _ h)))
  · exact (onSession_matched 12 tag _ h hfits).trans
      (congrArg _ ((if_neg (by rw [hnot]; exact Bool.false_ne_true)).trans (agentReply_of_open _ _ _ _ h)))

theorem badCmd_answers {code : BitVec 16} (hcode : code = 0 ∨ 0x0C < code.toNat) :
    exec (.badCmd i tag code) s = .next (s.emit (.agent i code.toNat tag 1 [])) := by
  have hunknown : ¬ (1 ≤ code.toNat ∧ code.toNat ≤ 0x0C) := by
    rcases hcode with rfl | hhigh
    · decide
    · omega
  exact (if_neg hunknown).trans ((onSession_of_open _ h).trans (congrArg _ (agentReply_of_open _ _ _ _ h)))

end

theorem windowOpen_of_window {s : State} {w : Nat} (h : s.casing.windowAt = some w) : windowOpen s = decide (s.nowUs < w + 600000000) := by
  unfold windowOpen
  rw [h]

theorem trustWindow_expires (w : Nat) (s : State) (h : s.casing.windowAt = some w) :
    (w + 600000000 ≤ s.nowUs → exec .trustWindowExpiry s = .next { s with casing := { s.casing with windowAt := none } })
      ∧ (s.nowUs < w + 600000000 → exec .trustWindowExpiry s = .next s) := by
  have hopen := windowOpen_of_window h
  refine ⟨fun hover => if_neg ?_, fun hlater => if_pos ?_⟩
  · rw [hopen, decide_eq_false (Nat.not_lt.mpr hover)]
    exact Bool.false_ne_true
  · rw [hopen, decide_eq_true hlater]

/-- Settles O58: sessions, reads, the engine's target, network and trust, and the window of SERVICE. -/
theorem agentSessionsAndReads : Obligations.AgentSessionsAndReads := by
  refine ⟨fun cert s hstandby => ⟨fun i hok hclosed hlow => ?_, fun hnot => execAgentConnect_refuses hstandby hnot⟩, agentDisconnect_closes,
    fun i tag pl s h => ?_, fun s hstandby => ⟨if_pos hstandby, if_pos hstandby⟩, trustWindow_expires⟩
  · exact ⟨_, execAgentConnect_of_closed hstandby hok hclosed hlow, s.agentSession_setAgentSession_same i _, rfl,
      fun j hj => s.agentSession_setAgentSession_other i j _ hj⟩
  · obtain ⟨htelemetry, heeprom, hstatus⟩ := agentReads_answer i tag s h
    obtain ⟨hstatic, hdynamic⟩ := netConfig_sets i tag s h pl
    exact ⟨htelemetry, heeprom, hstatus, fun hpl c cmd hc => agentReads_badLength cmd tag h hpl hc, pmbus_readVin i tag s h,
      pmbus_readVin_off i tag s h, fun v hon hlow hhigh => pmbus_setLimit i tag s h hon hlow hhigh, hstatic, hdynamic,
      fun b hslot hpl => trustSet_sets i tag s h hslot hpl, fun code hcode => badCmd_answers i tag s h hcode⟩

end Sys2Proof.Machine

/-!
The store of the fabric record meets a waiting FW_ACTIVATE (13, 14): what R365 lets wait behind a store acts when the store ends, and its
restart takes STORE_FAILED with the rest of the engine's state (R624).
-/

namespace Sys2Proof.Machine

/-- A wafer whose fabric record waits for its store, with an FW_ACTIVATE of the running copy waiting behind it. -/
def activationWaiting : State :=
  { State.reset with
    casing := { powered := true, sessions := [(0, { openFlag := true, answers := [{ cmd := 5, tag := 0 }] })] }
    sys := { state := 1, stepEnded := 2, stores := [.fabricConfig 0 0 (zeros 32)], activations := [[0]] } }

theorem firmwareRuns_activationWaiting : firmwareRuns activationWaiting = true := by decide

/-- The store is abandoned, the FW_ACTIVATE acts, and its restart leaves STORE_FAILED clear. -/
theorem fabricConfigStore_restarts :
    ∃ s', exec (.fabricConfigStore false) activationWaiting = .next s' ∧ s'.sys.storeFailed = false := ⟨_, rfl, rfl⟩

/-- Refutes O59: after a device error in the store of the fabric record STORE_FAILED is clear, when an FW_ACTIVATE of the running copy has
waited behind that store. -/
theorem not_agentControlsPowerAndStores : ¬ Obligations.AgentControlsPowerAndStores := by
  unfold Obligations.AgentControlsPowerAndStores
  rintro ⟨-, -, -, -, hstore⟩
  obtain ⟨-, s₁, hexec₁, -, hfailed, -⟩ := hstore 0 0 (zeros 32) [] activationWaiting rfl firmwareRuns_activationWaiting rfl rfl
  obtain ⟨s₂, hexec₂, hclear⟩ := fabricConfigStore_restarts
  obtain rfl : s₁ = s₂ := Host.Outcome.next.inj (hexec₁.symm.trans hexec₂)
  exact Bool.noConfusion (hclear.symm.trans hfailed)

end Sys2Proof.Machine

/-!
The numeric rules (02): saturation to 56 bits (R79), the range of integer outputs (R90, R94), and the three roundings (R91).
-/

namespace Sys2Proof.Machine

/-! ## Saturation (R79) -/

theorem satAcc_rules (x : Int) :
    accMin ≤ satAcc x ∧ satAcc x ≤ accMax ∧ (satHit x = false ↔ satAcc x = x)
      ∧ (accMax < x → satAcc x = accMax) ∧ (x < accMin → satAcc x = accMin) := by
  have hrange : accMin < accMax := by decide
  have hhit : satHit x = false ↔ ¬ (x > accMax ∨ x < accMin) := decide_eq_false_iff_not
  rw [hhit]
  unfold satAcc
  split
  · omega
  · split <;> omega

/-! ## Integer outputs (R90, R94) -/

/-- A format's bounds, with the power of two that its codes count by. -/
theorem fmtBounds_cases {kind n : Nat} (hkind : kind = 0 ∨ kind = 1) (hn : 1 ≤ n) :
    ∃ half : Nat, 0 < half ∧ 2 ^ n = 2 * half ∧ 2 ^ (n - 1) = half
      ∧ ((kind = 0 ∧ fmtBounds kind n = ((0 : Int), 2 * (half : Int) - 1)) ∨ (kind = 1 ∧ fmtBounds kind n = (-(half : Int), (half : Int) - 1))) := by
  obtain ⟨k, rfl⟩ := Nat.exists_eq_succ_of_ne_zero (Nat.one_le_iff_ne_zero.mp hn)
  refine ⟨2 ^ k, Nat.two_pow_pos k, by rw [Nat.succ_eq_add_one, pow_succ, Nat.mul_comm], rfl, ?_⟩
  rcases hkind with rfl | rfl
  · refine .inl ⟨rfl, ?_⟩
    rw [fmtBounds, if_pos rfl, Nat.succ_eq_add_one, pow_succ, mul_comm]
    push_cast
    rfl
  · refine .inr ⟨rfl, ?_⟩
    rw [fmtBounds, if_neg (by decide), Nat.succ_eq_add_one, Nat.add_sub_cancel]
    push_cast
    rfl

theorem quantize_fin {kind : Nat} (n : Nat) (hkind : kind = 0 ∨ kind = 1) (mode r : Nat) (m e : Int) : quantize kind n mode r (.fin m e) = saturateInt kind n (roundInt mode r m e) :=
  if_neg (by omega)

theorem quantize_inf {kind : Nat} (n : Nat) (hkind : kind = 0 ∨ kind = 1) (mode r : Nat) (neg : Bool) :
    (quantize kind n mode r (.inf neg)).code = unsignedOf n (if neg then (fmtBounds kind n).1 else (fmtBounds kind n).2) := by
  rw [quantize, if_neg (by omega)]
  cases neg <;> rfl

section
variable {kind n : Nat} (hkind : kind = 0 ∨ kind = 1) (hn : 1 ≤ n)
include hkind hn

theorem fmtBounds_le : (fmtBounds kind n).1 ≤ (fmtBounds kind n).2 := by
  obtain ⟨half, hpos, -, -, ⟨-, hbounds⟩ | ⟨-, hbounds⟩⟩ := fmtBounds_cases hkind hn <;> rw [hbounds] <;> dsimp only <;> omega

/-- A value in the format's range is what its own code stands for. -/
theorem codeValue_unsignedOf {v : Int} (hlow : (fmtBounds kind n).1 ≤ v) (hhigh : v ≤ (fmtBounds kind n).2) :
    codeValue kind n (unsignedOf n v) = v := by
  obtain ⟨half, hpos, htwo, hhalf, hcases⟩ := fmtBounds_cases hkind hn
  have hpositive : (0 : Int) < (2 ^ n : Nat) := by positivity
  have hmod_low := Int.emod_nonneg v hpositive.ne'
  have hmod_high := Int.emod_lt_of_pos v hpositive
  have hcode : unsignedOf n v % 2 ^ n = unsignedOf n v := Nat.mod_eq_of_lt (by unfold unsignedOf; omega)
  have hvalue : (unsignedOf n v : Int) = if 0 ≤ v then v else v + (2 ^ n : Nat) := by
    rw [unsignedOf, Int.toNat_of_nonneg hmod_low]
    rcases hcases with ⟨-, hbounds⟩ | ⟨-, hbounds⟩ <;> rw [hbounds] at hlow hhigh <;> dsimp only at hlow hhigh <;> split
    · exact Int.emod_eq_of_lt (by omega) (by omega)
    · omega
    · exact Int.emod_eq_of_lt (by omega) (by omega)
    · rw [← Int.add_emod_right]
      exact Int.emod_eq_of_lt (by omega) (by omega)
  rcases hcases with ⟨rfl, hbounds⟩ | ⟨rfl, hbounds⟩ <;> rw [hbounds] at hlow hhigh <;> dsimp only at hlow hhigh
  · change ((unsignedOf n v % 2 ^ n : Nat) : Int) = v
    rw [hcode, hvalue, if_pos hlow]
  · change signed n (unsignedOf n v) = v
    rw [signed, hcode, hhalf]
    split <;> split at hvalue <;> omega

theorem codeValue_saturateInt (q : Int) :
    codeValue kind n (saturateInt kind n q).code = max (fmtBounds kind n).1 (min (fmtBounds kind n).2 q) := by
  have hle := fmtBounds_le hkind hn
  unfold saturateInt
  dsimp only
  split
  · next hhigh =>
    rw [codeValue_unsignedOf hkind hn hle le_rfl, min_eq_left (Int.le_of_lt hhigh), max_eq_right hle]
  · next hhigh =>
    rw [min_eq_right (Int.not_lt.mp hhigh)]
    split
    · next hlow => rw [codeValue_unsignedOf hkind hn le_rfl hle, max_eq_left (Int.le_of_lt hlow)]
    · next hlow => rw [codeValue_unsignedOf hkind hn (Int.not_lt.mp hlow) (Int.not_lt.mp hhigh), max_eq_right (Int.not_lt.mp hlow)]

theorem quantize_in_range (mode r : Nat) {t : Fp} (ht : t ≠ .nan) :
    (fmtBounds kind n).1 ≤ codeValue kind n (quantize kind n mode r t).code
      ∧ codeValue kind n (quantize kind n mode r t).code ≤ (fmtBounds kind n).2 := by
  have hle := fmtBounds_le hkind hn
  cases t with
  | nan => exact absurd rfl ht
  | inf neg =>
    rw [quantize_inf _ hkind]
    split
    · rw [codeValue_unsignedOf hkind hn le_rfl hle]; exact ⟨le_rfl, hle⟩
    · rw [codeValue_unsignedOf hkind hn hle le_rfl]; exact ⟨hle, le_rfl⟩
  | fin m e =>
    rw [quantize_fin _ hkind, codeValue_saturateInt hkind hn]
    exact ⟨le_max_left _ _, max_le hle (min_le_left _ _)⟩

end

/-! ## Rounding (R91) -/

section
variable (m : Int) (r : Nat) {k : Nat} (hk : 1 ≤ k)
include hk

theorem roundInt_eq (mode : Nat) :
    roundInt mode r m (-(k : Int))
      = if mode = 1 then Int.tdiv m (2 ^ k)
        else if mode = 2 then (if fracGreater m (-(k : Int)) r then m / 2 ^ k + 1 else m / 2 ^ k)
        else if 2 * (m % 2 ^ k) > 2 ^ k ∨ (2 * (m % 2 ^ k) = 2 ^ k ∧ m / 2 ^ k % 2 = 1) then m / 2 ^ k + 1 else m / 2 ^ k := by
  have hd : (0 : Int) ≤ 2 ^ k := by positivity
  rw [roundInt, if_neg (by omega), Int.neg_neg, Int.toNat_natCast]
  simp only [Int.fdiv_eq_ediv_of_nonneg m hd, Int.fmod_eq_emod_of_nonneg m hd]

theorem roundInt_nearest :
    2 * roundInt 0 r m (-(k : Int)) * 2 ^ k - 2 * m ≤ 2 ^ k ∧ 2 * m - 2 * roundInt 0 r m (-(k : Int)) * 2 ^ k ≤ 2 ^ k := by
  have hd : (0 : Int) < 2 ^ k := by positivity
  have hdiv := Int.mul_ediv_add_emod m (2 ^ k)
  have hlow := Int.emod_nonneg m hd.ne'
  have hhigh := Int.emod_lt_of_pos m hd
  rw [roundInt_eq m r hk, if_neg (by decide), if_neg (by decide)]
  generalize (2 : Int) ^ k = d at *
  have hup : 2 * (m / d + 1) * d = 2 * (d * (m / d)) + 2 * d := by ring
  have hdown : 2 * (m / d) * d = 2 * (d * (m / d)) := by ring
  split
  · rw [hup]; omega
  · rw [hdown]; omega

theorem roundInt_truncates :
    (roundInt 1 r m (-(k : Int))).natAbs * 2 ^ k ≤ m.natAbs ∧ m.natAbs < ((roundInt 1 r m (-(k : Int))).natAbs + 1) * 2 ^ k := by
  rw [roundInt_eq m r hk, if_pos rfl, Int.natAbs_tdiv, Int.natAbs_pow]
  have hpos : 0 < 2 ^ k := Nat.two_pow_pos k
  exact ⟨Nat.div_mul_le_self _ _, Nat.lt_mul_of_div_lt (Nat.lt_succ_self _) hpos⟩

theorem roundInt_stochastic : roundInt 2 r m (-(k : Int)) = m / 2 ^ k ∨ roundInt 2 r m (-(k : Int)) = m / 2 ^ k + 1 := by
  rw [roundInt_eq m r hk, if_neg (by decide), if_pos rfl]
  split
  · exact .inr rfl
  · exact .inl rfl

end

/-- Settles O45: the bounds of an accumulator, the range and the nearest value of an output, and the roundings. -/
theorem numericRules : Obligations.NumericRules :=
  ⟨satAcc_rules, fun _ _ mode r _ hkind hn _ ht => quantize_in_range hkind hn mode r ht,
    fun kind n mode r m e hkind hn _ => by rw [quantize_fin _ hkind, codeValue_saturateInt hkind hn],
    fun m _ r hk => ⟨roundInt_nearest m r hk, roundInt_truncates m r hk, roundInt_stochastic m r hk⟩⟩

end Sys2Proof.Machine

/-!
A clause that completes with its notice (06, 08): it leaves flight, its notice fills the slot at TAIL, and nothing else of the tenant and of
memory changes (R291, R292); one of a halting status sets HALTED (R408). SIGNAL, WAIT and FENCE (R284 to R286).
-/

namespace Sys2Proof.Machine

/-! ## Its notice (R291, R369) -/

@[simp] theorem clauseNotice_length (f : Flight) (v : Verdict) : (clauseNotice f v).length = 32 := by
  simp [clauseNotice, zeros]

theorem canNotify_setTenant {s : State} {t : Nat} {x : Tenant} (h : CanNotify s t) (hx : noticeState x = noticeState (s.tenant t)) :
    CanNotify (s.setTenant t x) t := by
  obtain ⟨hroom, hheld, hlost, hrim⟩ := h
  obtain ⟨hplace, -, -, -, hheldx, hlostx⟩ := by simpa only [noticeState, Prod.mk.injEq] using hx
  obtain ⟨hport, -, -, -⟩ := by simpa only [ringPlace, Prod.mk.injEq] using hplace
  refine ⟨(noticeRoom_setTenant hx).trans hroom, ?_, ?_, ?_⟩
  · rw [State.tenant_setTenant_same, hheldx, hheld]
  · rw [State.tenant_setTenant_same, hlostx, hlost]
  · rw [State.tenant_setTenant_same, rimTaken_setTenant, hport, hrim]

theorem postNotice_writes {s : State} {t : Nat} (body : List Byte) (h : CanNotify s t) :
    postNotice s t body = (writeSlot s t body).setTenant t (tailMoved (s.tenant t)) := by
  obtain ⟨hroom, hheld, hlost, -⟩ := h
  have hwrite : postNotice s t body = writeNotice s t body := by
    unfold postNotice
    exact if_pos (by rw [hroom, hheld, hlost]; rfl)
  rw [hwrite, writeNotice_eq]

/-- What is read of a slot is the same after a change of the tenant that leaves its place in the ring. -/
theorem notified_of_setTenant {s s' : State} {t : Nat} {x : Tenant} {body : List Byte} (hx : ringPlace x = ringPlace (s.tenant t))
    (h : Notified (s.setTenant t x) s' t body) : Notified s s' t body := by
  obtain ⟨hport, hbase, htail, hphase⟩ := by simpa only [ringPlace, Prod.mk.injEq] using hx
  unfold Notified tailKey slotBytes at h ⊢
  rw [State.tenant_setTenant_same, hport, hbase, htail, hphase] at h
  exact h

theorem hostOnlySlot_of_setTenant {s s' : State} {t : Nat} {x : Tenant} (hx : ringPlace x = ringPlace (s.tenant t))
    (h : HostOnlySlot (s.setTenant t x) s' t) : HostOnlySlot s s' t := by
  obtain ⟨hport, hbase, htail, -⟩ := by simpa only [ringPlace, Prod.mk.injEq] using hx
  unfold HostOnlySlot tailKey at h ⊢
  rw [State.tenant_setTenant_same, hport, hbase, htail] at h
  exact h

/-! ## The end of a clause (R292) -/

/-- Memory, tenants and ports are those of s. -/
def WorkOnly (s s' : State) : Prop := ∃ cs w, s' = { s with clusters := cs, work := w }

/-- The state in which a clause has left flight and released its clusters. -/
def clauseGone (s : State) (f : Flight) : State := forgetClause (removeFlight s f.uid) f.tenant (mSeq f.words)

theorem clauseGone_workOnly (s : State) (f : Flight) : WorkOnly s (clauseGone s f) := by
  obtain ⟨cs, heq⟩ := releaseClusters_only s f.uid
  unfold clauseGone removeFlight
  rw [heq]
  exact ⟨cs, _, rfl⟩

theorem clauseGone_flights (s : State) (f : Flight) : (clauseGone s f).work.flights = s.work.flights.filter (fun g => g.uid ≠ f.uid) := by
  obtain ⟨cs, heq⟩ := releaseClusters_only s f.uid
  unfold clauseGone removeFlight
  rw [heq]
  rfl

theorem not_mem_clauseGone (s : State) (f : Flight) : f ∉ (clauseGone s f).work.flights := by
  rw [clauseGone_flights]
  exact fun h => of_decide_eq_true (List.mem_filter.mp h).2 rfl

theorem WorkOnly.canNotify {s s' : State} {t : Nat} (h : WorkOnly s s') (hcan : CanNotify s t) : CanNotify s' t := by
  obtain ⟨cs, w, rfl⟩ := h
  exact hcan

theorem WorkOnly.tenant {s s' : State} (h : WorkOnly s s') (t : Nat) : s'.tenant t = s.tenant t := by
  obtain ⟨cs, w, rfl⟩ := h
  rfl

theorem finishClears_of_none {s : State} {t : Nat} (h : (s.tenant t).clears = []) : finishClears s t = s := by
  unfold finishClears
  rw [h]
  rfl

/-- With a notice to write and no QUEUE_CLEAR to answer, the end of a clause writes its slot. -/
theorem endClause_of_canNotify {s : State} {f : Flight} {v : Verdict} (hcan : CanNotify s f.tenant) (hclears : (s.tenant f.tenant).clears = [])
    (hnotice : (decide (v.status = 0) && cQuiet f.words) = false) :
    endClause s f v
      = (writeSlot (clauseGone s f) f.tenant (clauseNotice f v)).setTenant f.tenant (tailMoved (s.tenant f.tenant)) := by
  have hgone := clauseGone_workOnly s f
  have hpost := postNotice_writes (clauseNotice f v) (hgone.canNotify hcan)
  rw [hgone.tenant] at hpost
  have hend : endClause s f v = finishClears (postNotice (clauseGone s f) f.tenant (clauseNotice f v)) f.tenant := by
    unfold endClause
    rw [show (decide (v.status = 0) && cQuiet f.words) = false from hnotice]
    rfl
  rw [hend, hpost]
  refine finishClears_of_none ?_
  rw [State.tenant_setTenant_same]
  exact hclears

/-- What the end of a clause comes to, for whoever reads memory, flights and the tenant. -/
structure ClauseEnded (s s' : State) (f : Flight) (v : Verdict) : Prop where
  notified : Notified s s' f.tenant (clauseNotice f v)
  slot : HostOnlySlot s s' f.tenant
  own : SameOwnMemory s s'
  gone : f ∉ s'.work.flights
  counters : (s'.tenant f.tenant).counters = (s.tenant f.tenant).counters

theorem ClauseEnded.of_workOnly {s u s' : State} {f : Flight} {v : Verdict} (h : WorkOnly s u) (hn : Notified u s' f.tenant (clauseNotice f v))
    (hs : HostOnlySlot u s' f.tenant) (ho : SameOwnMemory u s') (hg : f ∉ s'.work.flights)
    (hc : (s'.tenant f.tenant).counters = (u.tenant f.tenant).counters) : ClauseEnded s s' f v := by
  obtain ⟨cs, w, rfl⟩ := h
  exact ⟨hn, hs, ho, hg, hc⟩

theorem writeSlot_work (s : State) (t : Nat) (body : List Byte) : (writeSlot s t body).work = s.work := by
  obtain ⟨h, heq⟩ := writeSlot_hostOnly s t body
  rw [heq]

theorem endClause_ends {s : State} {f : Flight} {v : Verdict} (hcan : CanNotify s f.tenant) (hclears : (s.tenant f.tenant).clears = [])
    (hnotice : (decide (v.status = 0) && cQuiet f.words) = false) :
    ClauseEnded s (endClause s f v) f v ∧ (endClause s f v).tenant f.tenant = tailMoved (s.tenant f.tenant)
      ∧ (endClause s f v).work = (clauseGone s f).work := by
  have hgone := clauseGone_workOnly s f
  obtain ⟨-, -, -, hrim⟩ := hgone.canNotify hcan
  rw [endClause_of_canNotify hcan hclears hnotice, ← hgone.tenant]
  refine ⟨.of_workOnly hgone (notified_writeSlot hrim (by simp) rfl rfl) (hostOnlySlot_writeSlot hrim (by simp)) sameOwnMemory_writeSlot
    ?_ ?_, State.tenant_setTenant_same _ _ _, writeSlot_work _ _ _⟩
  · have hwork : (writeSlot (clauseGone s f) f.tenant (clauseNotice f v)).work = (clauseGone s f).work := writeSlot_work _ _ _
    exact fun h => not_mem_clauseGone s f (hwork ▸ h)
  · rw [State.tenant_setTenant_same]
    rfl

/-- A clause that completes OK halts nothing. -/
theorem completeClause_of_ok (s : State) (f : Flight) : completeClause s f {} = endClause s f {} := rfl

/-! ## HALTED (R408, R415) -/

/-- Memory, work and the notice ring are as they were; so are a tenant's counters. -/
theorem haltAlert_keeps (s : State) (t : Nat) :
    (haltAlert s t).mem = s.mem ∧ (haltAlert s t).work = s.work
      ∧ ∃ owed, (haltAlert s t).tenant t = { s.tenant t with owedAlerts := owed } := by
  unfold haltAlert
  dsimp only
  split
  · exact ⟨rfl, rfl, (s.tenant t).owedAlerts, rfl⟩
  · split
    · obtain ⟨ps, os, heq⟩ := sendMsix_sentOnly s (s.tenant t).hostPort (1 + t)
      rw [heq]
      exact ⟨rfl, rfl, (s.tenant t).owedAlerts, rfl⟩
    · exact ⟨rfl, rfl, _, s.tenant_setTenant_same _ _⟩

/-- With no clause of the ring left to cancel, halting sets HALTED and may owe an alert. -/
theorem haltRing_of_none_left {s : State} {t prio : Nat} (hnone : s.work.flights.filter (fun g => g.tenant = t) = []) :
    (haltRing s t prio).mem = s.mem ∧ (haltRing s t prio).work = s.work
      ∧ ∃ owed, (haltRing s t prio).tenant t
          = { s.tenant t with halted := (s.tenant t).halted ||| (1#4 <<< prio), owedAlerts := owed } := by
  have hcancelled : s.work.flights.filter (fun f => f.tenant = t ∧ f.prio = prio ∧ ¬ f.started ∧ ¬ f.done) = [] := by
    rw [List.filter_eq_nil_iff] at hnone ⊢
    exact fun g hg h => hnone g hg (decide_eq_true (of_decide_eq_true h).1)
  have hset := s.tenant_setTenant_same t { s.tenant t with halted := (s.tenant t).halted ||| (1#4 <<< prio) }
  have hring : haltRing s t prio
      = if bit (s.tenant t).halted.toNat prio then setHalted s t prio else haltAlert (setHalted s t prio) t := by
    unfold haltRing
    dsimp only
    rw [show (setHalted s t prio).work.flights = s.work.flights from rfl, hcancelled]
    rfl
  rw [hring]
  split
  · exact ⟨rfl, rfl, (s.tenant t).owedAlerts, hset⟩
  · obtain ⟨hmem, hwork, owed, htenant⟩ := haltAlert_keeps (setHalted s t prio) t
    refine ⟨hmem, hwork, owed, ?_⟩
    rw [htenant, show (setHalted s t prio).tenant t = _ from hset]

theorem bit_or_shift (b : BitVec 4) {i : Nat} (hi : i < 4) : bit (b ||| (1#4 <<< i)).toNat i = true := by
  revert b
  interval_cases i <;> decide

theorem ClauseEnded.of_halted {s u s' : State} {f : Flight} {v : Verdict} (h : ClauseEnded s u f v) (hmem : s'.mem = u.mem)
    (hwork : s'.work = u.work) {hal : BitVec 4} {owed : List Nat}
    (htenant : s'.tenant f.tenant = { u.tenant f.tenant with halted := hal, owedAlerts := owed }) : ClauseEnded s s' f v := by
  obtain ⟨⟨hread, htail, hphase⟩, hslot, hown, hgone, hcounters⟩ := h
  refine ⟨⟨?_, ?_, ?_⟩, ?_, ?_, ?_, ?_⟩
  · rw [hmem]; exact hread
  · rw [htenant]; exact htail
  · rw [htenant]; exact hphase
  · unfold HostOnlySlot; rw [hmem]; exact hslot
  · unfold SameOwnMemory; rw [hmem]; exact hown
  · rw [hwork]; exact hgone
  · rw [htenant]; exact hcounters

/-! ## SIGNAL, WAIT and FENCE (R284 to R286) -/

theorem flightTag_mem {s : State} {t tag : Nat} {f : Flight} (h : flightTag s t tag = some f) : f.tenant = t ∧ f ∈ s.work.flights := by
  have hfound := List.find?_some (p := fun f : Flight => decide (f.tenant = t ∧ f.tag = tag)) h
  exact ⟨(of_decide_eq_true hfound).1, List.mem_of_find?_eq_some h⟩

theorem orderingFlight_of_tag {s : State} {t : Nat} {tag : BitVec 16} {f : Flight} (h : flightTag s t tag.toNat = some f) {verb : Nat}
    (hverb : cVerb f.words = verb) : orderingFlight s t tag verb = some f := by
  unfold orderingFlight
  rw [h]
  exact if_pos hverb

section
variable {t : Fin 16} {tag : BitVec 16} {f : Flight} {s : State}

theorem completes_ok (htag : flightTag s t tag.toNat = some f) (hclears : (s.tenant t).clears = []) (hcan : CanNotify s t)
    (hquiet : cQuiet f.words = false) :
    ClauseEnded s (completeClause s f {}) f {} ∧ (completeClause s f {}).tenant t = tailMoved (s.tenant t) := by
  obtain ⟨htenant, -⟩ := flightTag_mem htag
  rw [← htenant] at hclears hcan
  obtain ⟨hended, hafter, -⟩ := endClause_ends (v := {}) hcan hclears (by rw [hquiet]; rfl)
  rw [completeClause_of_ok, ← htenant]
  exact ⟨hended, hafter⟩

/-- FENCE and a WAIT at its target complete, and change nothing of the tenant but its ring. -/
theorem completes_unchanged {c : Instr} (hexec : exec c s = .next (completeClause s f {})) (htag : flightTag s t tag.toNat = some f)
    (hclears : (s.tenant t).clears = []) (hcan : CanNotify s t) (hquiet : cQuiet f.words = false) :
    ∃ s', exec c s = .next s' ∧ Notified s s' t (clauseNotice f {}) ∧ HostOnlySlot s s' t ∧ f ∉ s'.work.flights
      ∧ (s'.tenant t).counters = (s.tenant t).counters ∧ (s'.tenant t).halted = (s.tenant t).halted ∧ SameOwnMemory s s' := by
  obtain ⟨hended, hafter⟩ := completes_ok htag hclears hcan hquiet
  obtain ⟨htenant, -⟩ := flightTag_mem htag
  exact ⟨_, hexec, htenant ▸ hended.notified, htenant ▸ hended.slot, hended.gone, by rw [hafter]; rfl, by rw [hafter]; rfl, hended.own⟩

theorem execFence_completes (hready : ready s = true) (htag : flightTag s t tag.toNat = some f) (hverb : cVerb f.words = 0x0E)
    (hfenced : fenced s f = true) : exec (.fence t tag) s = .next (completeClause s f {}) := by
  simp only [exec, execFence]
  rw [orderingFlight_of_tag htag hverb]
  exact if_pos (by rw [hready, hfenced]; rfl)

theorem execWait_completes (hready : ready s = true) (htag : flightTag s t tag.toNat = some f) (hverb : cVerb f.words = 0x0D)
    (hstart : mayStart s f = true)
    (hreached : 0 ≤ (tget 0 (s.tenant t).counters (word f.words 8) - BitVec.ofNat 32 (word f.words 9)).toInt) :
    exec (.wait t tag) s = .next (completeClause s f {}) := by
  have htarget : reachedTarget s f = true := decide_eq_true (by rw [(flightTag_mem htag).1]; exact hreached)
  simp only [exec, execWait]
  rw [orderingFlight_of_tag htag hverb]
  exact if_pos (by rw [hready, hstart, htarget]; rfl)

theorem execWaitTimeout_completes (hready : ready s = true) (htag : flightTag s t tag.toNat = some f) (hverb : cVerb f.words = 0x0D)
    (hstart : mayStart s f = true)
    (hbelow : (tget 0 (s.tenant t).counters (word f.words 8) - BitVec.ofNat 32 (word f.words 9)).toInt < 0) (hlimit : word f.words 10 ≠ 0)
    (hover : f.admittedAt + word f.words 10 ≤ s.nowUs) :
    exec (.waitTimeout t tag) s = .next (completeClause s f { status := 2, reason := 0x0307 }) := by
  have htarget : reachedTarget s f = false := decide_eq_false (by rw [(flightTag_mem htag).1]; exact Int.not_le.mpr hbelow)
  simp only [exec, execWaitTimeout]
  rw [orderingFlight_of_tag htag hverb]
  exact if_pos (by simp [hready, hstart, htarget, hlimit, hover])

/-- The state in which SIGNAL has added to its counter. -/
def signalled (s : State) (t : Nat) (f : Flight) : State :=
  s.modTenant t (fun x => { x with
    counters := tset 0 x.counters (word f.words 8) (tget 0 x.counters (word f.words 8) + BitVec.ofNat 32 (word f.words 9)) })

theorem execSignal_completes (hready : ready s = true) (htag : flightTag s t tag.toNat = some f) (hverb : cVerb f.words = 0x0C)
    (hfenced : fenced s f = true) : exec (.signal t tag) s = .next (completeClause (signalled s t f) f {}) := by
  simp only [exec, execSignal]
  rw [orderingFlight_of_tag htag hverb]
  exact if_pos (by rw [hready, hfenced]; rfl)

theorem signal_completes (hready : ready s = true) (htag : flightTag s t tag.toNat = some f) (hclears : (s.tenant t).clears = [])
    (hcan : CanNotify s t) (hquiet : cQuiet f.words = false) (hverb : cVerb f.words = 0x0C) (hfenced : fenced s f = true) :
    ∃ s', exec (.signal t tag) s = .next s' ∧ Notified s s' t (clauseNotice f {}) ∧ HostOnlySlot s s' t ∧ f ∉ s'.work.flights
      ∧ tget 0 (s'.tenant t).counters (word f.words 8) = tget 0 (s.tenant t).counters (word f.words 8) + BitVec.ofNat 32 (word f.words 9)
      ∧ (∀ i, i ≠ word f.words 8 → tget 0 (s'.tenant t).counters i = tget 0 (s.tenant t).counters i)
      ∧ (s'.tenant t).halted = (s.tenant t).halted ∧ SameOwnMemory s s' := by
  have hsame : (signalled s t f).tenant t = _ := s.tenant_modTenant_same t _
  have hcan' : CanNotify (signalled s t f) t := canNotify_setTenant hcan rfl
  obtain ⟨hended, hafter⟩ := completes_ok (s := signalled s t f) (t := t) (tag := tag) htag (by rw [hsame]; exact hclears) hcan' hquiet
  obtain ⟨htenant, -⟩ := flightTag_mem htag
  rw [hsame] at hafter
  have hnotified := hended.notified
  have hslot := hended.slot
  rw [htenant] at hnotified hslot
  refine ⟨_, execSignal_completes hready htag hverb hfenced, notified_of_setTenant (by rfl) hnotified,
    hostOnlySlot_of_setTenant (by rfl) hslot, hended.gone, ?_, fun i hi => ?_, ?_, hended.own⟩
  · rw [hafter]; exact tget_tset_same _ _ _ _
  · rw [hafter]; exact tget_tset_other _ _ _ _ _ hi
  · rw [hafter]; rfl

theorem waitTimeout_completes (hready : ready s = true) (htag : flightTag s t tag.toNat = some f) (hclears : (s.tenant t).clears = [])
    (hcan : CanNotify s t) (hverb : cVerb f.words = 0x0D) (hstart : mayStart s f = true)
    (hbelow : (tget 0 (s.tenant t).counters (word f.words 8) - BitVec.ofNat 32 (word f.words 9)).toInt < 0) (hlimit : word f.words 10 ≠ 0)
    (hover : f.admittedAt + word f.words 10 ≤ s.nowUs) (halone : tenantFlights s t = [f]) (hprio : f.prio < 4) :
    ∃ s', exec (.waitTimeout t tag) s = .next s' ∧ Notified s s' t (clauseNotice f { status := 2, reason := 0x0307 })
      ∧ HostOnlySlot s s' t ∧ SameOwnMemory s s'
      ∧ f ∉ s'.work.flights ∧ (s'.tenant t).counters = (s.tenant t).counters ∧ bit (s'.tenant t).halted.toNat f.prio = true := by
  have hexec := execWaitTimeout_completes hready htag hverb hstart hbelow hlimit hover
  obtain ⟨htenant, -⟩ := flightTag_mem htag
  rw [← htenant] at hclears hcan
  obtain ⟨hended, hafter, hwork⟩ := endClause_ends (v := { status := 2, reason := 0x0307 }) hcan hclears rfl
  have hnone : (endClause s f { status := 2, reason := 0x0307 }).work.flights.filter (fun g => g.tenant = f.tenant) = [] := by
    rw [hwork, clauseGone_flights, List.filter_filter, List.filter_eq_nil_iff]
    intro g hg h
    obtain ⟨hgt, huid⟩ := by simpa using h
    have halone' : g ∈ tenantFlights s t := List.mem_filter.mpr ⟨hg, decide_eq_true (hgt.trans htenant)⟩
    rw [halone] at halone'
    exact huid (by rw [List.mem_singleton.mp halone'])
  obtain ⟨hmem, hkept, owed, hhalted⟩ := haltRing_of_none_left (prio := f.prio) hnone
  have hdone := hended.of_halted hmem hkept hhalted
  refine ⟨_, hexec, htenant ▸ hdone.notified, htenant ▸ hdone.slot, hdone.own, hdone.gone, htenant ▸ hdone.counters, ?_⟩
  rw [← htenant, show (completeClause s f { status := 2, reason := 0x0307 }).tenant f.tenant = _ from hhalted]
  exact bit_or_shift _ hprio

end

/-- Settles O44: what SIGNAL, WAIT, its timeout and FENCE do. -/
theorem orderingClauses : Obligations.OrderingClauses := by
  intro t tag f s hready htag hclears hcan hquiet _
  refine ⟨fun hverb hfenced => signal_completes hready htag hclears hcan hquiet hverb hfenced, fun hverb hstart => ⟨fun hreached => ?_,
    fun hbelow hlimit hover halone hprio => ?_⟩, fun hverb hfenced => ?_⟩
  · exact completes_unchanged (execWait_completes hready htag hverb hstart hreached) htag hclears hcan hquiet
  · exact waitTimeout_completes hready htag hclears hcan hverb hstart hbelow hlimit hover halone hprio
  · exact completes_unchanged (execFence_completes hready htag hverb hfenced) htag hclears hcan hquiet

end Sys2Proof.Machine

/-!
Steps 2 to 4 of cold boot (13): the ROM's list of copies (R605, R624), the lock to the reference (R557, R589) and the flood of coordinates
(R590, R591).
-/

namespace Sys2Proof.Machine

/-! ## Ends of steps -/

theorem bit_setBit_same (b : BitVec 9) {n : Nat} (hn : n < 9) : bit (b ||| (1#9 <<< n)).toNat n = true := by
  have hset : (b ||| (1#9 <<< n)).getLsbD n = true := by simp [hn]
  rw [BitVec.getLsbD, Nat.testBit] at hset
  simpa [bit, Nat.shiftRight_eq_div_pow, Nat.and_comm, Nat.and_one_is_mod] using hset

theorem stepDone_endStep (s : State) {n : Nat} (hlow : 1 ≤ n) (hn : n ≤ 9) : stepDone (endStep s n) n = true :=
  bit_setBit_same s.sys.stepEnded (by omega)

theorem stepDone_congr {s s' : State} (h : s'.sys.stepEnded = s.sys.stepEnded) (n : Nat) : stepDone s' n = stepDone s n := by
  rw [stepDone, h, stepDone]

/-! ## Step 2: the copies of the ROM's list (R605, R624) -/

/-- The steps that have ended, the running copy, the state and memory stay when an alert is raised or the stores are read. -/
def BootKept (s s' : State) : Prop :=
  s'.sys.stepEnded = s.sys.stepEnded ∧ s'.sys.runningCopy = s.sys.runningCopy ∧ s'.sys.fwSequence = s.sys.fwSequence
    ∧ s'.sys.state = s.sys.state ∧ s'.mem = s.mem

theorem BootKept.refl (s : State) : BootKept s s := ⟨rfl, rfl, rfl, rfl, rfl⟩

theorem BootKept.trans {a b c : State} (hab : BootKept a b) (hbc : BootKept b c) : BootKept a c := by
  obtain ⟨h1, h2, h3, h4, h5⟩ := hab
  obtain ⟨k1, k2, k3, k4, k5⟩ := hbc
  exact ⟨k1.trans h1, k2.trans h2, k3.trans h3, k4.trans h4, k5.trans h5⟩

theorem raiseAlert_bootKept (s : State) (bs : BitVec 5) : BootKept s (raiseAlert s bs) := by
  obtain ⟨ps, os, heq⟩ := raiseAlert_frame s bs
  rw [heq]
  exact ⟨rfl, rfl, rfl, rfl, rfl⟩

theorem loadRecord_bootKept (s : State) : BootKept s (loadRecord s) := by
  unfold loadRecord
  dsimp only
  split
  · exact ⟨rfl, rfl, rfl, rfl, rfl⟩
  · exact BootKept.trans ⟨rfl, rfl, rfl, rfl, rfl⟩ (raiseAlert_bootKept _ alFabric)

theorem ite_raiseAlert_bootKept (c : Prop) [Decidable c] (s : State) (bs : BitVec 5) : BootKept s (if c then raiseAlert s bs else s) := by
  split
  · exact raiseAlert_bootKept s bs
  · exact .refl s

theorem readStores_bootKept (s : State) : BootKept s (readStores s) := by
  unfold readStores
  dsimp only
  refine BootKept.trans ?_ (loadRecord_bootKept _)
  generalize hread : (State.mk _ _ _ _ _ _ _ _ _ _ _ _ _ _ _ _ _ _) = a
  have hkept : BootKept s a := by
    rw [← hread]
    exact ⟨rfl, rfl, rfl, rfl, rfl⟩
  refine hkept.trans ?_
  split
  · exact .refl a
  · exact raiseAlert_bootKept a alFabric

theorem startCopy_starts (s : State) (i : Nat) :
    stepDone (startCopy s i) 2 = true ∧ (startCopy s i).sys.runningCopy = i ∧ (startCopy s i).sys.fwSequence = firmwareSeq s i
      ∧ (startCopy s i).sys.state = s.sys.state ∧ (startCopy s i).mem = s.mem := by
  unfold startCopy
  dsimp only
  generalize hnoted : (State.mk _ _ _ _ _ _ _ _ _ _ _ _ _ _ _ _ _ _) = a
  have hstart : a.sys.runningCopy = i ∧ a.sys.fwSequence = firmwareSeq s i ∧ a.sys.state = s.sys.state ∧ a.mem = s.mem := by
    rw [← hnoted]
    exact ⟨rfl, rfl, rfl, rfl⟩
  generalize (decide ((s.rim 0).power ≠ .good) || decide ((s.rim 1).power ≠ .good)) = c
  obtain ⟨-, hcopy, hseq, hstate, hmem⟩ := ite_raiseAlert_bootKept c a alNoStandby
  generalize (if c then raiseAlert a alNoStandby else a) = b at hcopy hseq hstate hmem
  obtain ⟨hended, hcopy', hseq', hstate', hmem'⟩ := readStores_bootKept (endStep b 2)
  obtain ⟨h1, h2, h3, h4⟩ := hstart
  exact ⟨(stepDone_congr hended 2).trans (stepDone_endStep b (by decide) (by decide)), hcopy'.trans (hcopy.trans h1),
    hseq'.trans (hseq.trans h2), hstate'.trans (hstate.trans h3), hmem'.trans (hmem.trans h4)⟩

theorem enterStopped_stops (s : State) : (enterStopped s).sys.state = 2 ∧ (enterStopped s).sys.alertStatus.getLsbD 4 = true := by
  obtain ⟨xs, os, st, ps, heq⟩ := enterStopped_frame s
  have hbit : alStopped.getLsbD 4 = true := by decide
  rw [heq]
  exact ⟨rfl, by simp [hbit]⟩

theorem state_of_step2Runs {s : State} (h : step2Runs s = true) : s.sys.state = 0 := by
  unfold step2Runs at h
  exact of_decide_eq_true (Bool.and_eq_true_iff.mp h).2

theorem step2_boots (s : State) (hruns : step2Runs s = true) :
    (∀ i rest, s.sys.romTries = i :: rest →
      ∃ s', exec .pumphouseBoot s = .next s' ∧ stepDone s' 2 = true ∧ s'.sys.runningCopy = i ∧ s'.sys.fwSequence = firmwareSeq s i
        ∧ s'.sys.state = 0 ∧ s'.mem = s.mem)
    ∧ (s.sys.romTries = [] → ∃ s', exec .pumphouseBoot s = .next s' ∧ s'.sys.state = 2 ∧ s'.sys.alertStatus.getLsbD 4 = true)
    ∧ (∀ t0 i, s.sys.romStartedAt = some t0 → t0 + 50000 ≤ s.nowUs →
      (s.sys.romTries = [i] → ∃ s', exec .firmwareStartTimeout s = .next s' ∧ s'.sys.state = 2)
      ∧ (∀ j rest, s.sys.romTries = i :: j :: rest →
        ∃ s', exec .firmwareStartTimeout s = .next s' ∧ s'.sys.romTries = j :: rest ∧ s'.sys.romStartedAt = some s.nowUs ∧ s'.sys.state = 0)) := by
  have hstate := state_of_step2Runs hruns
  have hboot : exec .pumphouseBoot s
      = match s.sys.romTries with
        | [] => .next (enterStopped s)
        | i :: _ => .next (startCopy s i) := if_pos hruns
  refine ⟨fun i rest htries => ?_, fun hnone => ?_, fun t0 i hstarted hover => ?_⟩
  · obtain ⟨hdone, hcopy, hseq, hkept, hmem⟩ := startCopy_starts s i
    exact ⟨_, by rw [hboot, htries], hdone, hcopy, hseq, hkept.trans hstate, hmem⟩
  · obtain ⟨hstopped, halert⟩ := enterStopped_stops s
    exact ⟨_, by rw [hboot, hnone], hstopped, halert⟩
  · have htimeout : exec .firmwareStartTimeout s
        = if (s.sys.romTries.drop 1).isEmpty then
            .next (enterStopped { s with sys := { s.sys with romTries := s.sys.romTries.drop 1, romStartedAt := some s.nowUs } })
          else .next { s with sys := { s.sys with romTries := s.sys.romTries.drop 1, romStartedAt := some s.nowUs } } := by
      simp only [exec, execFirmwareStartTimeout]
      rw [hstarted]
      exact if_pos (by rw [hruns, decide_eq_true hover]; rfl)
    refine ⟨fun hlast => ⟨_, htimeout.trans (if_pos (by rw [hlast]; rfl)), (enterStopped_stops _).1⟩, fun j rest hmore => ?_⟩
    exact ⟨_, htimeout.trans (if_neg (by rw [hmore]; exact Bool.false_ne_true)), by rw [hmore]; rfl, rfl, hstate⟩

/-! ## Step 3: the reference (R589) -/

theorem beginFlood_frame (s : State) : ∃ os, beginFlood s = endStep { s with out := os } 3 := by
  unfold beginFlood
  dsimp only
  split
  · exact ⟨_, rfl⟩
  · exact ⟨s.out, rfl⟩

theorem beginFlood_phys (s : State) (q : Nat) : (beginFlood s).phys q = s.phys q := by
  obtain ⟨os, heq⟩ := beginFlood_frame s
  rw [heq]
  rfl

theorem referenceLock_locks (q : Fin 2100) (src : RefSource) (d : Nat) (s : State) (hsource : sourceDepth s q src = some d)
    (hruns : stepRuns s 3 = true) (hpower : physPowered s q = true) (hfree : (s.phys q).locked = false) :
    (d < 40 → ∃ s', exec (.referenceLock q src) s = .next s' ∧ (s'.phys q).locked = true ∧ (s'.phys q).depth = d + 1
      ∧ (s'.phys q).parent = some src ∧ ∀ r, r ≠ q.val → s'.phys r = s.phys r)
    ∧ (40 ≤ d → exec (.referenceLock q src) s = .next s) := by
  have hexec : exec (.referenceLock q src) s
      = if stepRuns s 3 && physPowered s q && !(s.phys q).locked && decide (d < 40) then
          .next (if allLocked (s.setPhys q { s.phys q with locked := true, parent := some src, depth := d + 1 }) then
              beginFlood (s.setPhys q { s.phys q with locked := true, parent := some src, depth := d + 1 })
            else s.setPhys q { s.phys q with locked := true, parent := some src, depth := d + 1 })
        else .next s := by
    simp only [exec, execReferenceLock]
    rw [hsource]
  refine ⟨fun hd => ?_, fun hd => hexec.trans (if_neg ?_)⟩
  · have hphys : ∀ (c : Bool) (a : State) (r : Nat), (if c then beginFlood a else a).phys r = a.phys r := fun c a r => by
      cases c
      · rfl
      · exact beginFlood_phys a r
    have hsame := s.phys_setPhys_same q { s.phys q with locked := true, parent := some src, depth := d + 1 }
    refine ⟨_, hexec.trans (if_pos ?_), ?_, ?_, ?_, fun r hr => ?_⟩
    · rw [hruns, hpower, hfree, decide_eq_true hd]; rfl
    · rw [hphys, hsame]
    · rw [hphys, hsame]
    · rw [hphys, hsame]
    · rw [hphys, State.phys_setPhys_other _ _ _ _ hr]
  · rw [decide_eq_false (Nat.not_lt.mpr hd), Bool.and_false]
    exact Bool.false_ne_true

theorem referenceLockTimeout_ends (s : State) (hruns : stepRuns s 3 = true) (hover : s.sys.stepAt + 5000 ≤ s.nowUs) :
    ∃ s', exec .referenceLockTimeout s = .next s' ∧ stepDone s' 3 = true ∧ s'.silicon = s.silicon := by
  obtain ⟨os, heq⟩ := beginFlood_frame s
  refine ⟨_, if_pos (by rw [hruns, decide_eq_true hover]; rfl), ?_, ?_⟩
  · rw [heq]; exact stepDone_endStep _ (by decide) (by decide)
  · rw [heq]; rfl

/-! ## Step 4: the flood (R590, R591) -/

theorem takeClaim_of_none {x : Phys} (c : Int × Int) (h : x.coord = none) : takeClaim x c = { x with coord := some c } := by
  unfold takeClaim
  rw [h]

theorem takeClaim_of_other {x : Phys} {c d : Int × Int} (h : x.coord = some d) (hne : d ≠ c) :
    takeClaim x c = { x with conflict := true } := by
  unfold takeClaim
  rw [h]
  exact if_neg hne

/-- The claim that a claimed cluster sends in a direction. -/
theorem claim_mem_sendClaims (s : State) {q d n : Nat} {x y x' y' : Int} (hfacing : facing q d = some n)
    (hclaim : (d, x', y') ∈ [(0, x, y - 1), (1, x + 1, y), (2, x, y + 1), (3, x - 1, y)]) :
    Output.claim n x' y' ∈ (sendClaims s (claimsFrom q x y)).out := by
  have hmem : (n, x', y') ∈ claimsFrom q x y := by
    refine List.mem_filterMap.mpr ⟨(d, x', y'), hclaim, ?_⟩
    rw [hfacing]
    rfl
  exact List.mem_append_left _ (List.mem_map.mpr ⟨_, hmem, rfl⟩)

theorem coordinateClaim_takes (q : Fin 2100) (x y : Int) (s : State) (hruns : stepRuns s 4 = true) (hlocked : (s.phys q).locked = true) :
    ∃ s', exec (.coordinateClaim q x y) s = .next s' ∧ (∀ r, r ≠ q.val → s'.phys r = s.phys r)
      ∧ ((s.phys q).coord = none → (s'.phys q).coord = some (x, y)
        ∧ (∀ n, facing q 0 = some n → Output.claim n x (y - 1) ∈ s'.out) ∧ (∀ n, facing q 1 = some n → Output.claim n (x + 1) y ∈ s'.out)
        ∧ (∀ n, facing q 2 = some n → Output.claim n x (y + 1) ∈ s'.out) ∧ (∀ n, facing q 3 = some n → Output.claim n (x - 1) y ∈ s'.out))
      ∧ (∀ c, (s.phys q).coord = some c → c ≠ (x, y) → (s'.phys q).conflict = true ∧ (s'.phys q).coord = some c) := by
  have hruns' : (stepRuns s 4 && (s.phys q).locked) = true := by rw [hruns, hlocked]; rfl
  cases hcoord : (s.phys q).coord with
  | none =>
    have hexec : exec (.coordinateClaim q x y) s
        = .next ((sendClaims s (claimsFrom q x y)).setPhys q (takeClaim (s.phys q) (x, y))) :=
      (if_pos hruns').trans (by rw [if_pos (by rw [hcoord]; rfl)]; rfl)
    refine ⟨_, hexec, fun r hr => State.phys_setPhys_other _ _ _ _ hr, fun _ => ⟨?_, fun n hn => ?_, fun n hn => ?_, fun n hn => ?_,
      fun n hn => ?_⟩, fun c hc => by simp at hc⟩
    · rw [State.phys_setPhys_same, takeClaim_of_none _ hcoord]
    · exact claim_mem_sendClaims s hn (by simp)
    · exact claim_mem_sendClaims s hn (by simp)
    · exact claim_mem_sendClaims s hn (by simp)
    · exact claim_mem_sendClaims s hn (by simp)
  | some d =>
    have hexec : exec (.coordinateClaim q x y) s = .next (s.setPhys q (takeClaim (s.phys q) (x, y))) :=
      (if_pos hruns').trans (by rw [if_neg (by rw [hcoord]; exact Bool.false_ne_true)])
    refine ⟨_, hexec, fun r hr => State.phys_setPhys_other _ _ _ _ hr, fun h => by simp at h, fun c hc hne => ?_⟩
    obtain rfl := Option.some.inj hc
    rw [State.phys_setPhys_same, takeClaim_of_other hcoord hne]
    exact ⟨rfl, hcoord⟩

theorem endFlood_transient (s : State) : (endFlood s).silicon.live.transient = (List.range 2100).filter (fun q => isTransient (s.phys q)) := by
  unfold endFlood endStep
  dsimp only

theorem floodTimeout_ends (s : State) (hruns : stepRuns s 4 = true) (hover : s.sys.stepAt + 2000 ≤ s.nowUs) :
    ∃ s', exec .floodTimeout s = .next s' ∧ stepDone s' 4 = true
      ∧ ∀ q : Fin 2100, q.val ∈ s'.silicon.live.transient ↔
          ((s.phys q).locked = false ∨ (s.phys q).coord = none ∨ (s.phys q).conflict = true) := by
  have hexec : exec .floodTimeout s = .next (endFlood s) := if_pos (by rw [hruns, decide_eq_true hover, Bool.or_true, Bool.and_self])
  have hdone : stepDone (endFlood s) 4 = true := by
    unfold endFlood
    exact stepDone_endStep _ (by decide) (by decide)
  refine ⟨_, hexec, hdone, fun q => ?_⟩
  rw [endFlood_transient]
  simp [List.mem_filter, isTransient, q.isLt, or_assoc]

/-- Settles O20: the ROM's copies, the lock to the reference, and the flood of coordinates. -/
theorem bootStepsEnd : Obligations.BootStepsEnd :=
  ⟨step2_boots, referenceLock_locks, referenceLockTimeout_ends, coordinateClaim_takes, floodTimeout_ends⟩

end Sys2Proof.Machine

/-!
Messages of a tenant at its head (08): what its start changes, what its effect has to keep for it to count as consumed (R356 to R360), and a
REPLY that can be written (R361, R374).
-/

namespace Sys2Proof.Machine

/-! ## The start of a message (R356, R357) -/

/-- The state in which a tenant's first message has been accepted and started. -/
def headStarted (s : State) (t : Nat) (m : List Word) : State := s.setTenant t (startedTenant (s.tenant t) m)

theorem headStarted_tenant_same (s : State) (t : Nat) (m : List Word) : (headStarted s t m).tenant t = startedTenant (s.tenant t) m :=
  s.tenant_setTenant_same t _

theorem headStarted_tenant_other (s : State) (t : Nat) (m : List Word) {u : Nat} (h : u ≠ t) : (headStarted s t m).tenant u = s.tenant u :=
  s.tenant_setTenant_other t u _ h

/-- What a message's acceptance sets of its tenant. -/
def inbox (x : Tenant) : List (List Word) × BitVec 16 × Bool := (x.copied, x.expected, x.gap)

theorem consumed_of_inbox {s r : State} {t : Nat} {m : List Word} (hcopied : (s.tenant t).copied = [m])
    (h : inbox (r.tenant t) = inbox ((headStarted s t m).tenant t)) : Consumed r t m := by
  rw [headStarted_tenant_same] at h
  obtain ⟨hc, he, hg⟩ := by simpa only [inbox, Prod.mk.injEq] using h
  exact ⟨hc.trans (copied_startedTenant hcopied), he, hg⟩

/-- The one copied message at a tenant's head is started, and its effect is all that happens. -/
theorem onMessage_of_effect {s : State} {t : Nat} {m : List Word} {type : Nat} {f : State → List Word → State} (h : AtHead s t m type)
    (hinbox : inbox ((f (headStarted s t m) m).tenant t) = inbox ((headStarted s t m).tenant t)) :
    onMessage s t type f = .next (f (headStarted s t m) m) ∧ Consumed (f (headStarted s t m) m) t m := by
  have hconsumed := consumed_of_inbox h.copied hinbox
  have hstart : noteStarted (acceptHead s t m) t m = headStarted s t m := by
    rw [noteStarted, acceptHead_eq, State.modTenant_setTenant]; rfl
  refine ⟨?_, hconsumed⟩
  unfold onMessage
  rw [headOf_of_atHead h]
  dsimp only
  rw [hstart, settleAll_of_none_copied hconsumed.1]

/-- A message with a clean payload goes on to its effect. -/
theorem cleanOnly_of_clean {m : List Word} {masks : List Nat} (t : Nat) (f : State → List Word → State) (s : State)
    (h : payloadClean m masks = true) : cleanOnly t masks f s m = f s m := if_pos h

/-! ## Replies that can be written (R361, R374) -/

/-- A notice fits in the ring of a tenant in u as it does in s. -/
theorem canNotify_congr {s u : State} {t : Nat} (htenant : noticeState (u.tenant t) = noticeState (s.tenant t))
    (hports : u.ports = s.ports) (htaps : u.taps = s.taps) (h : CanNotify s t) : CanNotify u t := by
  obtain ⟨hroom, hheld, hlost, hrim⟩ := h
  obtain ⟨hplace, hset, hbound, hused, hheldx, hlostx⟩ := by simpa only [noticeState, Prod.mk.injEq] using htenant
  obtain ⟨hport, -, -, -⟩ := by simpa only [ringPlace, Prod.mk.injEq] using hplace
  refine ⟨?_, hheldx.trans hheld, hlostx.trans hlost, ?_⟩
  · unfold noticeRoom State.port at hroom ⊢
    dsimp only at hroom ⊢
    rw [hset, hbound, hused, hport, hports]
    exact hroom
  · unfold rimTaken State.tap at hrim ⊢
    rw [hport, htaps]
    exact hrim

theorem notified_congr {s u r : State} {t : Nat} {body : List Byte} (hplace : ringPlace (u.tenant t) = ringPlace (s.tenant t))
    (h : Notified u r t body) : Notified s r t body := by
  obtain ⟨hport, hbase, htail, hphase⟩ := by simpa only [ringPlace, Prod.mk.injEq] using hplace
  unfold Notified tailKey slotBytes at h ⊢
  rw [hport, hbase, htail, hphase] at h
  exact h

theorem hostOnlySlot_congr {s u r : State} {t : Nat} (hplace : ringPlace (u.tenant t) = ringPlace (s.tenant t))
    (hhost : u.mem.host = s.mem.host) (h : HostOnlySlot u r t) : HostOnlySlot s r t := by
  obtain ⟨hport, hbase, htail, -⟩ := by simpa only [ringPlace, Prod.mk.injEq] using hplace
  unfold HostOnlySlot tailKey at h ⊢
  rw [hport, hbase, htail, hhost] at h
  exact h

theorem ringPlace_of_noticeState {x y : Tenant} (h : noticeState x = noticeState y) : ringPlace x = ringPlace y :=
  congrArg Prod.fst h

theorem noticeState_headStarted (s : State) (t : Nat) (m : List Word) :
    noticeState ((headStarted s t m).tenant t) = noticeState (s.tenant t) := by
  rw [headStarted_tenant_same]
  rfl

/-- A REPLY that can be written fills the slot at TAIL. -/
theorem reply_of_canNotify {s : State} {t : Nat} (seq type status reason index result cookie : Nat) (h : CanNotify s t) :
    reply s t seq type status reason index result cookie
      = (writeSlot s t (replyNotice seq status type reason index result cookie)).setTenant t
          (answeredTenant (tailMoved (s.tenant t)) seq type) := by
  rw [reply, postNotice_writes _ h, answered_setTenant]

/-- What a written REPLY comes to. -/
theorem reply_writes {s : State} {t : Nat} (seq type status reason index result cookie : Nat) (h : CanNotify s t) :
    let r := reply s t seq type status reason index result cookie
    Notified s r t (replyNotice seq status type reason index result cookie) ∧ HostOnlySlot s r t
      ∧ OtherTenants s r t ∧ SameBeyondTenants s r ∧ SameOwnMemory s r
      ∧ r.tenant t = answeredTenant (tailMoved (s.tenant t)) seq type := by
  obtain ⟨-, -, -, hrim⟩ := id h
  have hlen := (replyNotice_length seq status type reason index result cookie).le
  dsimp only
  rw [reply_of_canNotify _ _ _ _ _ _ _ h]
  exact ⟨notified_writeSlot hrim hlen rfl rfl, hostOnlySlot_writeSlot hrim hlen, otherTenants_writeSlot, sameBeyondTenants_writeSlot,
    sameOwnMemory_writeSlot, State.tenant_setTenant_same _ _ _⟩

/-- A REPLY written after its tenant's record has changed in what the ring does not show. -/
theorem reply_writes_setTenant {s : State} {t : Nat} {x : Tenant} (hx : noticeState x = noticeState (s.tenant t))
    (seq type status reason index result cookie : Nat) (h : CanNotify s t) :
    let r := reply (s.setTenant t x) t seq type status reason index result cookie
    Notified s r t (replyNotice seq status type reason index result cookie) ∧ HostOnlySlot s r t
      ∧ OtherTenants s r t ∧ SameBeyondTenants s r ∧ SameOwnMemory s r
      ∧ r.tenant t = answeredTenant (tailMoved x) seq type := by
  have hsame := s.tenant_setTenant_same t x
  have hother := fun u (hu : u ≠ t) => s.tenant_setTenant_other t u x hu
  have hstate : noticeState ((s.setTenant t x).tenant t) = noticeState (s.tenant t) := by rw [hsame]; exact hx
  have hplace := ringPlace_of_noticeState hstate
  obtain ⟨hnotified, hslot, hothers, hbeyond, hown, htenant⟩ := reply_writes seq type status reason index result cookie
    (canNotify_congr hstate rfl rfl h)
  dsimp only at hnotified hslot hothers hbeyond hown htenant ⊢
  exact ⟨notified_congr hplace hnotified, hostOnlySlot_congr hplace rfl hslot, fun u hu => (hothers u hu).trans (hother u hu), hbeyond, hown,
    by rw [htenant, hsame]⟩

/-- What a message comes to that is answered with one REPLY and nothing else. -/
structure Replied (s s' : State) (t : Nat) (m : List Word) (body : List Byte) : Prop where
  consumed : Consumed s' t m
  notified : Notified s s' t body
  slot : HostOnlySlot s s' t
  others : OtherTenants s s' t
  beyond : SameBeyondTenants s s'
  own : SameOwnMemory s s'
  frame : MailFrame (headStarted s t m) s'

theorem onMessage_replied {s : State} {t : Nat} {m : List Word} {type status reason index result cookie : Nat} {f : State → List Word → State}
    (h : AtHead s t m type) (hcan : CanNotify s t)
    (heffect : f (headStarted s t m) m = reply (headStarted s t m) t (mSeq m) type status reason index result cookie) :
    ∃ s', onMessage s t type f = .next s' ∧ Replied s s' t m (replyNotice (mSeq m) status type reason index result cookie) := by
  obtain ⟨hnotified, hslot, hothers, hbeyond, hown, hafter⟩ := reply_writes_setTenant (x := startedTenant (s.tenant t) m) rfl
    (mSeq m) type status reason index result cookie hcan
  obtain ⟨hexec, hconsumed⟩ := onMessage_of_effect (f := f) h ((congrArg (fun a : State => inbox (a.tenant t)) heffect).trans
    ((congrArg inbox hafter).trans (congrArg inbox (headStarted_tenant_same s t m)).symm))
  rw [heffect] at hexec hconsumed
  exact ⟨_, hexec, hconsumed, hnotified, hslot, hothers, hbeyond, hown, reply_mailFrame _ _ _ _ _ _ _ _ _⟩

/-! ## Resets keep what stands (R433, R435) -/

/-- A plan but for the reset epochs of its regions. -/
def planForm (x : Tenant) : Option Plan :=
  x.plan.map (fun p => { p with regions := p.regions.map (fun g => { g with resetEpoch := 0 }) })

/-- What cancelled clauses and a reset's other effects leave of a tenant. -/
def standing (x : Tenant) :
    (List (List Word) × BitVec 16 × Bool) × Byte × Option Nat × List Deferred × Option (Nat × Settings) × Nat × Option Plan × Nat :=
  (inbox x, x.epoch, x.lastIncrement, x.deferred, x.configuring, x.timeout, planForm x, x.granuleFirst)

theorem standing_of_mail {x y : Tenant} (h : TenantMail x y) : standing y = standing x := by
  obtain ⟨_, _, _, _, _, _, _, _, _, _, _, _, rfl⟩ := h
  rfl

theorem inbox_of_standing {x y : Tenant} (h : standing y = standing x) : inbox y = inbox x := congrArg Prod.fst h

/-- From s to s' clauses have been cancelled, clusters reset and regions stamped; what stands of each tenant has stayed. -/
structure ResetFrame (s s' : State) : Prop where
  rest : ∃ h ts mr ps os w cs,
    s' = { s with mem := { s.mem with host := h }, tenants := ts, mirror := mr, ports := ps, out := os, work := w, clusters := cs }
  tenants : ∀ u, standing (s'.tenant u) = standing (s.tenant u)
  flights : s'.work.flights.Sublist s.work.flights

theorem ClauseFrame.resetFrame {s s' : State} (h : ClauseFrame s s') : ResetFrame s s' := by
  obtain ⟨fs, os, ld, ts, heq, hsub⟩ := h.work
  exact ⟨h.rest, fun u => standing_of_mail (h.tenants u), by rw [heq]; exact hsub⟩

theorem ResetFrame.refl (s : State) : ResetFrame s s := (ClauseFrame.refl s).resetFrame

theorem ResetFrame.trans {a b c : State} (hab : ResetFrame a b) (hbc : ResetFrame b c) : ResetFrame a c := by
  refine ⟨?_, fun u => (hbc.tenants u).trans (hab.tenants u), hbc.flights.trans hab.flights⟩
  obtain ⟨h, ts, mr, ps, os, w, cs, hb⟩ := hab.rest
  obtain ⟨h', ts', mr', ps', os', w', cs', hc⟩ := hbc.rest
  rw [hc, hb]
  exact ⟨h', ts', mr', ps', os', w', cs', rfl⟩

theorem foldl_resetFrame {β : Type} (g : State → β → State) (hg : ∀ s b, ResetFrame s (g s b)) (l : List β) (s : State) :
    ResetFrame s (l.foldl g s) := foldl_keeps (ResetFrame s) g (fun a b h => h.trans (hg a b)) l s (.refl s)

theorem setTenant_resetFrame (s : State) (t : Nat) (x : Tenant) (h : standing x = standing (s.tenant t)) : ResetFrame s (s.setTenant t x) := by
  refine ⟨⟨s.mem.host, _, _, s.ports, s.out, s.work, s.clusters, rfl⟩, fun u => ?_, List.Sublist.refl _⟩
  by_cases hu : u = t
  · rw [hu, s.tenant_setTenant_same]; exact h
  · rw [s.tenant_setTenant_other t u x hu]

theorem modCluster_resetFrame (s : State) (k : Nat) (g : Cluster → Cluster) : ResetFrame s (s.modCluster k g) :=
  ⟨⟨s.mem.host, s.tenants, s.mirror, s.ports, s.out, s.work, _, rfl⟩, fun _ => rfl, List.Sublist.refl _⟩

theorem setSessions_resetFrame (s : State) (xs : Tab Session) : ResetFrame s (s.setSessions xs) :=
  ⟨⟨s.mem.host, s.tenants, _, s.ports, s.out, _, s.clusters, rfl⟩, fun _ => rfl, List.Sublist.refl _⟩

/-- A region's stamp changes its plan in nothing but that. -/
theorem map_modAt {α β : Type} (g : α → β) (f : α → α) (h : ∀ x, g (f x) = g x) (l : List α) (i : Nat) : (modAt l i f).map g = l.map g := by
  unfold modAt
  refine List.ext_getElem (by simp) (fun j h1 h2 => ?_)
  simp only [List.getElem_map, List.getElem_mapIdx]
  split
  · exact h _
  · rfl

theorem stampRegion_frame (s : State) (t r : Nat) : ResetFrame s (stampRegion s t r) := by
  refine setTenant_resetFrame s t _ ?_
  have hform : planForm { s.tenant t with plan := (s.tenant t).plan.map (fun p => { p with
      regions := modAt p.regions r (fun g => { g with resetEpoch := (s.tenant t).epoch }) }) } = planForm (s.tenant t) := by
    unfold planForm
    cases (s.tenant t).plan with
    | none => rfl
    | some p =>
      exact congrArg (fun rs => some { p with regions := rs }) (map_modAt (fun g : Region => { g with resetEpoch := 0 })
        (fun g => { g with resetEpoch := (s.tenant t).epoch }) (fun _ => rfl) p.regions r)
  unfold standing
  rw [hform]
  rfl

theorem resetRegionEffects_frame (s : State) (t r : Nat) : ResetFrame s (resetRegionEffects s t r) :=
  ((cancelAll_clauseFrame s _).resetFrame.trans (foldl_resetFrame _ (fun s k => modCluster_resetFrame s k _) _ _)).trans
    (stampRegion_frame _ t r)

theorem cancelWaiting_frame (s : State) (t prio : Nat) : ResetFrame s (cancelWaiting s t prio) :=
  (setTenant_resetFrame s t ((s.tenant t).modRing prio (fun r => { r with waiting := [] })) rfl).trans (cancelAll_clauseFrame _ _).resetFrame

theorem cancelTenant_frame (s : State) (t : Nat) : ResetFrame s (cancelTenant s t) :=
  (cancelAll_clauseFrame s _).resetFrame.trans (foldl_resetFrame _ (fun s p => cancelWaiting_frame s t p) _ _)

theorem foldl_resetRegionEffects_frame (l : List Nat) (s : State) (t : Nat) :
    ResetFrame s (l.foldl (fun s r => resetRegionEffects s t r) s) :=
  foldl_resetFrame _ (fun s r => resetRegionEffects_frame s t r) l s

theorem resetTenantEffects_frame (s : State) (t : Nat) : ResetFrame s (resetTenantEffects s t) := by
  have hcancelled := cancelTenant_frame s t
  unfold resetTenantEffects
  dsimp only
  generalize cancelTenant s t = a at hcancelled ⊢
  have hregions := hcancelled.trans (foldl_resetRegionEffects_frame (List.range (planRegions a t).length) a t)
  generalize (List.range (planRegions a t).length).foldl (fun s r => resetRegionEffects s t r) a = b at hregions ⊢
  exact (hregions.trans (setSessions_resetFrame b _)).trans (setTenant_resetFrame _ t _ rfl)

theorem ResetFrame.field {s s' : State} (h : ResetFrame s s') (f : Nat) : s'.field f = s.field f := by
  obtain ⟨_, _, _, _, _, _, _, heq⟩ := h.rest
  rw [heq]
  rfl

theorem ResetFrame.cistern {s s' : State} (h : ResetFrame s s') : s'.mem.cistern = s.mem.cistern := by
  obtain ⟨_, _, _, _, _, _, _, heq⟩ := h.rest
  rw [heq]

theorem ResetFrame.ddr {s s' : State} (h : ResetFrame s s') : s'.mem.ddr = s.mem.ddr := by
  obtain ⟨_, _, _, _, _, _, _, heq⟩ := h.rest
  rw [heq]

theorem ResetFrame.nowUs {s s' : State} (h : ResetFrame s s') : s'.nowUs = s.nowUs := by
  obtain ⟨_, _, _, _, _, _, _, heq⟩ := h.rest
  rw [heq]

end Sys2Proof.Machine

/-!
RESET FIELD and its outcome (09): the field is fenced, its VPM is ramped and its clusters are power-cycled when no increment for it is deferred
(R433, R439), and 50 ms later it runs again or stays fenced (R434, R438, R569).
-/

namespace Sys2Proof.Machine

/-! ## The power cycle of a field (R433) -/

/-- A cluster after its power cycle: awake no more, its cistern zero. -/
def powerCycleCluster (s : State) (k : Nat) : State :=
  (clearCistern s k).modCluster k (fun c =>
    { bells := c.bells.map (fun b => { b with slots := 0 }), idleSince := s.nowUs, ecc := c.ecc,
      avfs := { c.avfs with thermalCeiling := 64, hot := 0, awaitsSample := true } })

/-- A field with its ramp begun. -/
def rampField (now : Nat) (x : Field) : Field :=
  { x with
    rampAt := now, liftAt := none, incrementAt := now
    power := if x.state = .vpmFault ∨ x.state = .unpowered then x.power else .ramping }

/-- An increment of some tenant for the field is deferred. -/
def fieldDeferred (s : State) (f : Nat) : Bool := (List.range 16).any (fun t => (s.tenant t).deferred.contains (.fieldReset f))

theorem fieldDeferred_of_none {s : State} {f : Nat} (h : ∀ u : Fin 16, Deferred.fieldReset f ∉ (s.tenant u).deferred) :
    fieldDeferred s f = false := by
  rw [fieldDeferred, List.any_eq_false]
  exact fun u hu hin => h ⟨u, List.mem_range.mp hu⟩ (List.contains_iff_mem.mp hin)

theorem foldl_powerCycle_frame (l : List Nat) (s : State) :
    ∃ cs cist, l.foldl powerCycleCluster s = { s with clusters := cs, mem := { s.mem with cistern := cist } } := by
  refine foldl_keeps (fun a => ∃ cs cist, a = { s with clusters := cs, mem := { s.mem with cistern := cist } }) _ (fun a k h => ?_) l s
    ⟨s.clusters, s.mem.cistern, rfl⟩
  obtain ⟨cs, cist, rfl⟩ := h
  exact ⟨_, _, rfl⟩

theorem tget_clearRun (d : Byte) (m : List Host.Cell) (a n x : Nat) :
    tget d (clearRun m a n) x = if a ≤ x ∧ x < a + n then d else tget d m x := by
  refine (tget_filter d (fun k => decide (¬ (a ≤ k ∧ k < a + n))) m x).trans ?_
  by_cases h : a ≤ x ∧ x < a + n <;> simp [h]

theorem cistern_powerCycle (s : State) (k a : Nat) (ha : a < 2 ^ 21) : tget 0 (powerCycleCluster s k).mem.cistern (cisKey k a) = 0 := by
  refine (tget_clearRun 0 s.mem.cistern (cisKey k 0) (2 ^ 21) (cisKey k a)).trans (if_pos ?_)
  unfold cisKey
  omega

theorem cistern_powerCycle_keeps (s : State) (k x : Nat) (h : tget 0 s.mem.cistern x = 0) :
    tget 0 (powerCycleCluster s k).mem.cistern x = 0 := by
  refine (tget_clearRun 0 s.mem.cistern (cisKey k 0) (2 ^ 21) x).trans ?_
  split
  · rfl
  · exact h

theorem awake_powerCycle (s : State) (k : Nat) : ((powerCycleCluster s k).cluster k).awake = false :=
  congrArg Cluster.awake ((clearCistern s k).cluster_modCluster_same k _)

theorem awake_powerCycle_keeps (s : State) (k i : Nat) (h : (s.cluster i).awake = false) : ((powerCycleCluster s k).cluster i).awake = false := by
  by_cases hi : i = k
  · rw [hi]; exact awake_powerCycle s k
  · exact (congrArg Cluster.awake ((clearCistern s k).cluster_modCluster_other k i _ hi)).trans h

theorem foldl_powerCycle_cycles {l : List Nat} {k : Nat} (s : State) (hk : k ∈ l) :
    ((l.foldl powerCycleCluster s).cluster k).awake = false
      ∧ ∀ a, a < 2 ^ 21 → tget 0 (l.foldl powerCycleCluster s).mem.cistern (cisKey k a) = 0 :=
  ⟨foldl_establishes powerCycleCluster (fun a k => (a.cluster k).awake = false) awake_powerCycle
      (fun a b c h => awake_powerCycle_keeps a b c h) s hk,
    fun a ha => foldl_establishes powerCycleCluster (fun s k => tget 0 s.mem.cistern (cisKey k a) = 0)
      (fun s k => cistern_powerCycle s k a ha) (fun s b c h => cistern_powerCycle_keeps s b (cisKey c a) h) s hk⟩

theorem fieldCycle_deferred {s : State} {f : Nat} (h : fieldDeferred s f = true) : fieldCycle s f = s := if_pos h

theorem fieldCycle_now {s : State} {f : Nat} (h : fieldDeferred s f = false) :
    fieldCycle s f = ((fieldClusters f).foldl powerCycleCluster s).modField f (rampField s.nowUs) := by
  obtain ⟨cs, cist, hframe⟩ := foldl_powerCycle_frame (fieldClusters f) s
  have hnow : ((fieldClusters f).foldl powerCycleCluster s).nowUs = s.nowUs := by rw [hframe]
  refine (if_neg (by rw [show ((List.range 16).any _) = false from h]; exact Bool.false_ne_true)).trans ?_
  rw [← hnow]
  rfl

/-! ## What a reset of a field keeps (R433, R439) -/

/-- From s to s' the tenants' messages, the fence of field f with the answers it owes, and every other field stay. -/
structure FieldKept (f : Nat) (s s' : State) : Prop where
  inbox : ∀ u, inbox (s'.tenant u) = inbox (s.tenant u)
  fenced : (s'.field f).fenced = (s.field f).fenced
  owed : (s'.field f).resetSeqs = (s.field f).resetSeqs
  others : ∀ g, g ≠ f → s'.field g = s.field g

theorem FieldKept.refl (f : Nat) (s : State) : FieldKept f s s := ⟨fun _ => rfl, rfl, rfl, fun _ _ => rfl⟩

theorem FieldKept.trans {f : Nat} {a b c : State} (hab : FieldKept f a b) (hbc : FieldKept f b c) : FieldKept f a c :=
  ⟨fun u => (hbc.inbox u).trans (hab.inbox u), hbc.fenced.trans hab.fenced, hbc.owed.trans hab.owed,
    fun g hg => (hbc.others g hg).trans (hab.others g hg)⟩

theorem ResetFrame.fieldKept {s s' : State} (h : ResetFrame s s') (f : Nat) : FieldKept f s s' :=
  ⟨fun u => inbox_of_standing (h.tenants u), by rw [h.field], by rw [h.field], fun g _ => h.field g⟩

theorem setTenant_fieldKept (f : Nat) (s : State) (t : Nat) (x : Tenant) (h : Machine.inbox x = Machine.inbox (s.tenant t)) :
    FieldKept f s (s.setTenant t x) := by
  refine ⟨fun u => ?_, rfl, rfl, fun _ _ => rfl⟩
  by_cases hu : u = t
  · rw [hu, s.tenant_setTenant_same]; exact h
  · rw [s.tenant_setTenant_other t u x hu]

theorem fieldCycle_fieldKept (s : State) (f : Nat) : FieldKept f s (fieldCycle s f) := by
  cases h : fieldDeferred s f with
  | true => rw [fieldCycle_deferred h]; exact .refl f s
  | false =>
    rw [fieldCycle_now h]
    obtain ⟨cs, cist, hframe⟩ := foldl_powerCycle_frame (fieldClusters f) s
    rw [hframe]
    generalize hcycled : ({ s with clusters := cs, mem := { s.mem with cistern := cist } } : State) = a
    have hfields : ∀ g, a.field g = s.field g := fun g => by rw [← hcycled]; rfl
    have htenants : ∀ u, a.tenant u = s.tenant u := fun u => by rw [← hcycled]; rfl
    refine ⟨fun u => congrArg Machine.inbox (htenants u), ?_, ?_, fun g hg => ?_⟩
    · rw [State.field_modField_same, hfields]; rfl
    · rw [State.field_modField_same, hfields]; rfl
    · rw [State.field_modField_other _ _ _ _ hg, hfields]

theorem requestReset_fieldKept (f : Nat) (s : State) (u : Nat) : FieldKept f s (requestReset s u (.fieldReset f)) := by
  unfold requestReset
  split
  · have hbumped : FieldKept f s (bumpEpoch s u) := setTenant_fieldKept f s u _ rfl
    have happly : applyDeferred s u (.fieldReset f)
        = fieldCycle ((regionsInField (bumpEpoch s u) u f).foldl (fun s r => resetRegionEffects s u r) (bumpEpoch s u)) f := rfl
    rw [happly]
    generalize bumpEpoch s u = a at hbumped ⊢
    have hregions := hbumped.trans ((foldl_resetRegionEffects_frame (regionsInField a u f) a u).fieldKept f)
    generalize (regionsInField a u f).foldl (fun s r => resetRegionEffects s u r) a = b at hregions ⊢
    exact hregions.trans (fieldCycle_fieldKept b f)
  · exact setTenant_fieldKept f s u _ rfl

/-! ## RESET FIELD (R433) -/

/-- The state in which a field has been fenced for a RESET. -/
def fieldFenced (s : State) (f : Nat) (m : List Word) : State :=
  writeRoutes (s.modField f (fun x => { x with fenced := true, resetSeqs := x.resetSeqs ++ [mSeq m] }))

/-- Tenants with a region in a field. -/
def tenantsIn (s : State) (f : Nat) : List Nat := (List.range 16).filter (fun u => !(regionsInField s u f).isEmpty)

theorem resetField_eq {s : State} {m : List Word} {f : Nat} (hf : f < 70) (hfield : bits (word m 1) 7 0 = f) :
    resetField 0 s m = fieldCycle ((tenantsIn (fieldFenced s f m) f).foldl (fun s u => requestReset s u (.fieldReset f)) (fieldFenced s f m)) f := by
  unfold resetField
  dsimp only
  rw [hfield, if_neg (by decide), if_neg (Nat.not_le.mpr hf)]
  rfl

theorem fieldFenced_frame (s : State) (f : Nat) (m : List Word) :
    ∃ x, fieldFenced s f m = { s.modField f (fun x => { x with fenced := true, resetSeqs := x.resetSeqs ++ [mSeq m] }) with silicon := x } :=
  writeRoutes_only _

theorem fieldFenced_facts (s : State) (f : Nat) (m : List Word) :
    (∀ u, (fieldFenced s f m).tenant u = s.tenant u) ∧ (fieldFenced s f m).nowUs = s.nowUs
      ∧ (fieldFenced s f m).field f = { s.field f with fenced := true, resetSeqs := (s.field f).resetSeqs ++ [mSeq m] }
      ∧ ∀ g, g ≠ f → (fieldFenced s f m).field g = s.field g := by
  obtain ⟨x, hframe⟩ := fieldFenced_frame s f m
  rw [hframe]
  exact ⟨fun _ => rfl, rfl, s.field_modField_same f (fun x => { x with fenced := true, resetSeqs := x.resetSeqs ++ [mSeq m] }),
    fun g hg => s.field_modField_other f g (fun x => { x with fenced := true, resetSeqs := x.resetSeqs ++ [mSeq m] }) hg⟩

theorem resetField_keeps {s : State} {m : List Word} {f : Nat} (hf : f < 70) (hfield : bits (word m 1) 7 0 = f) :
    FieldKept f (fieldFenced s f m) (resetField 0 s m) := by
  rw [resetField_eq hf hfield]
  exact (foldl_keeps (FieldKept f (fieldFenced s f m)) (fun s u => requestReset s u (.fieldReset f))
    (fun a u h => h.trans (requestReset_fieldKept f a u)) _ _ (.refl f _)).trans (fieldCycle_fieldKept _ f)

theorem resetField_cycles {s : State} {m : List Word} {f : Nat} (hf : f < 70) (hfield : bits (word m 1) 7 0 = f)
    (hempty : ∀ u : Fin 16, regionsInField s u f = []) (hnone : ∀ u : Fin 16, Deferred.fieldReset f ∉ (s.tenant u).deferred) :
    ((resetField 0 s m).field f).rampAt = s.nowUs ∧ ∀ k ∈ fieldClusters f, ((resetField 0 s m).cluster k).awake = false
      ∧ ∀ a, a < 2 ^ 21 → tget 0 (resetField 0 s m).mem.cistern (cisKey k a) = 0 := by
  obtain ⟨htenants, hnow, -, -⟩ := fieldFenced_facts s f m
  have hnobody : tenantsIn (fieldFenced s f m) f = [] := by
    refine List.filter_eq_nil_iff.mpr (fun u hu => ?_)
    have hregions : regionsInField (fieldFenced s f m) u f = regionsInField s u f := by
      unfold regionsInField planRegions
      rw [htenants u]
    rw [hregions, hempty ⟨u, List.mem_range.mp hu⟩]
    exact Bool.false_ne_true
  have hdeferred : fieldDeferred (fieldFenced s f m) f = false := fieldDeferred_of_none (fun u => by rw [htenants u]; exact hnone u)
  rw [resetField_eq hf hfield, hnobody, List.foldl_nil, fieldCycle_now hdeferred, hnow]
  generalize fieldFenced s f m = a
  refine ⟨?_, fun k hk => ?_⟩
  · rw [State.field_modField_same]
    rfl
  · obtain ⟨hoff, hzero⟩ := foldl_powerCycle_cycles a hk
    rw [State.cluster_modField]
    exact ⟨hoff, hzero⟩

theorem onReset_of_atHead {s : State} {t : Nat} {m : List Word} {kinds : List Nat} (f : State → List Word → State) (h : AtHead s t m 0x06)
    (hkind : kinds.contains (resetKind m) = true) : onReset s t kinds f = onMessage s t 0x06 (cleanOnly t [0xF03, 0xFF] f) := by
  unfold onReset
  rw [headOf_of_atHead h]
  exact if_pos hkind

theorem regionsInField_headStarted (s : State) (t : Nat) (m : List Word) (u f : Nat) :
    regionsInField (headStarted s t m) u f = regionsInField s u f := by
  unfold regionsInField planRegions
  by_cases hu : u = t
  · rw [hu, headStarted_tenant_same]; rfl
  · rw [headStarted_tenant_other s t m hu]

theorem deferred_headStarted (s : State) (t : Nat) (m : List Word) (u : Nat) : ((headStarted s t m).tenant u).deferred = (s.tenant u).deferred := by
  by_cases hu : u = t
  · rw [hu, headStarted_tenant_same]; rfl
  · rw [headStarted_tenant_other s t m hu]

theorem resetField_fences (f : Fin 70) (m : List Word) (s : State) (h : AtHead s 0 m 0x06) (hclean : payloadClean m [0xF03, 0xFF] = true)
    (hkind : bits (word m 0) 1 0 = 2) (hfield : bits (word m 1) 7 0 = f) :
    ∃ s', exec (.resetField 0) s = .next s' ∧ Consumed s' 0 m ∧ (s'.field f).fenced = true
      ∧ (s'.field f).resetSeqs = (s.field f).resetSeqs ++ [mSeq m] ∧ (∀ g : Fin 70, g ≠ f → s'.field g = s.field g)
      ∧ ((∀ u : Fin 16, regionsInField s u f = []) → (∀ u : Fin 16, Deferred.fieldReset f.val ∉ (s.tenant u).deferred) →
          (s'.field f).rampAt = s.nowUs ∧ (∀ k ∈ fieldClusters f, (s'.cluster k).awake = false
            ∧ ∀ a, a < 2 ^ 21 → tget 0 s'.mem.cistern (cisKey k a) = 0)) := by
  obtain ⟨htenants, -, hown, hothers⟩ := fieldFenced_facts (headStarted s 0 m) f m
  have hkept := resetField_keeps (s := headStarted s 0 m) f.isLt hfield
  have heffect : cleanOnly 0 [0xF03, 0xFF] (resetField 0) (headStarted s 0 m) m = resetField 0 (headStarted s 0 m) m :=
    cleanOnly_of_clean 0 _ _ hclean
  obtain ⟨hexec, hconsumed⟩ := onMessage_of_effect (f := cleanOnly 0 [0xF03, 0xFF] (resetField 0)) h
    (by rw [heffect, hkept.inbox, htenants])
  rw [heffect] at hexec hconsumed
  refine ⟨_, (onReset_of_atHead _ h (by rw [resetKind, hkind]; rfl)).trans hexec, hconsumed, ?_, ?_, fun g hg => ?_,
    fun hempty hnone => ?_⟩
  · rw [hkept.fenced, hown]
  · rw [hkept.owed, hown]; rfl
  · have hne : g.val ≠ f.val := fun heq => hg (Fin.ext heq)
    rw [hkept.others g hne, hothers g hne]
    rfl
  · exact resetField_cycles (s := headStarted s 0 m) f.isLt hfield (fun u => by rw [regionsInField_headStarted]; exact hempty u)
      (fun u => by rw [deferred_headStarted]; exact hnone u)

/-! ## Its outcome (R434, R438, R569) -/

theorem answerField_answers {f : Fin 70} {q : Nat} {s : State} (howed : (s.field f).resetSeqs = [q]) (status reason : Nat) (hcan : CanNotify s 0) :
    ((answerField s f status reason).field f).resetSeqs = [] ∧ ((answerField s f status reason).field f).fenced = (s.field f).fenced
      ∧ Notified s (answerField s f status reason) 0 (replyNotice q status 0x06 reason 0 0 0) := by
  have hanswer : answerField s f status reason
      = reply (s.modField f (fun x => { x with resetSeqs := [], liftAt := none })) 0 q 0x06 status reason 0 0 0 := by
    unfold answerField
    rw [howed]
    rfl
  have hfield := s.field_modField_same f (fun x => { x with resetSeqs := [], liftAt := none })
  obtain ⟨hnotified, -, -, hsame, -, -⟩ := reply_writes (s := s.modField f (fun x => { x with resetSeqs := [], liftAt := none }))
    (t := 0) q 0x06 status reason 0 0 0 hcan
  obtain ⟨-, -, -, -, -, -, hfields, -⟩ := hsame
  rw [hanswer]
  refine ⟨?_, ?_, hnotified⟩
  · rw [field_congr hfields, hfield]
  · rw [field_congr hfields, hfield]

section
variable {f : Fin 70} {q : Nat} {s : State} (howed : (s.field f).resetSeqs = [q])
  (hnone : ∀ u : Fin 16, Deferred.fieldReset f.val ∉ (s.tenant u).deferred)
include howed hnone

theorem outcome_pending : ((s.field f).resetSeqs.isEmpty || fieldDeferred s f) = false := by
  rw [howed, fieldDeferred_of_none hnone]
  rfl

theorem execFieldResetOutcome_ramped (hramp : (s.field f).liftAt = none) :
    exec (.fieldResetOutcome f) s
      = if s.nowUs ≤ (s.field f).rampAt + 50000 && canLift s f then
          .next (writeRoutes (s.modField f (fun x => { x with fenced := false, state := .running, liftAt := some s.nowUs })))
        else if (s.field f).rampAt + 50000 < s.nowUs && fieldReplyAt s f ≤ s.nowUs then .next (answerField s f 1 rBusy)
        else .next s := by
  have hpending := outcome_pending howed hnone
  refine (if_neg (Bool.eq_false_iff.mp hpending)).trans ?_
  rw [hramp]

theorem execFieldResetOutcome_lifted {l : Nat} (hlift : (s.field f).liftAt = some l) (hopen : (s.field f).fenced = false)
    (hdue : l + 50000 ≤ s.nowUs) (hreply : fieldReplyAt s f ≤ s.nowUs) :
    exec (.fieldResetOutcome f) s = .next (answerField s f 0 0) := by
  have hpending := outcome_pending howed hnone
  refine (if_neg (Bool.eq_false_iff.mp hpending)).trans ?_
  rw [hlift]
  dsimp only
  rw [hopen, if_neg Bool.false_ne_true, decide_eq_true hdue, decide_eq_true hreply]
  rfl

end

theorem fieldResetOutcome_answers (f : Fin 70) (q : Nat) (s : State) (howed : (s.field f).resetSeqs = [q])
    (hnone : ∀ u : Fin 16, Deferred.fieldReset f.val ∉ (s.tenant u).deferred) :
    ((s.field f).liftAt = none → s.nowUs ≤ (s.field f).rampAt + 50000 → canLift s f = true →
      ∃ s', exec (.fieldResetOutcome f) s = .next s' ∧ (s'.field f).fenced = false ∧ (s'.field f).state = .running
        ∧ (s'.field f).liftAt = some s.nowUs ∧ s'.mem = s.mem ∧ s'.tenants = s.tenants)
    ∧ (∀ l, (s.field f).liftAt = some l → (s.field f).fenced = false → l + 50000 ≤ s.nowUs → fieldReplyAt s f ≤ s.nowUs → CanNotify s 0 →
      ∃ s', exec (.fieldResetOutcome f) s = .next s' ∧ (s'.field f).resetSeqs = [] ∧ (s'.field f).fenced = false
        ∧ Notified s s' 0 (replyNotice q 0 0x06 0 0 0 0))
    ∧ ((s.field f).liftAt = none → (s.field f).rampAt + 50000 < s.nowUs → fieldReplyAt s f ≤ s.nowUs → CanNotify s 0 →
      ∃ s', exec (.fieldResetOutcome f) s = .next s' ∧ (s'.field f).resetSeqs = [] ∧ (s'.field f).fenced = (s.field f).fenced
        ∧ Notified s s' 0 (replyNotice q 1 0x06 0x0201 0 0 0)) := by
  refine ⟨fun hramp hsoon hlift => ?_, fun l hlift hopen hdue hreply hcan => ?_, fun hramp hover hreply hcan => ?_⟩
  · have hexec := (execFieldResetOutcome_ramped howed hnone hramp).trans (if_pos (by rw [decide_eq_true hsoon, hlift]; rfl))
    obtain ⟨x, hroutes⟩ := writeRoutes_only (s.modField f (fun x => { x with fenced := false, state := .running, liftAt := some s.nowUs }))
    have hfield := s.field_modField_same f (fun x => { x with fenced := false, state := .running, liftAt := some s.nowUs })
    rw [hroutes] at hexec
    exact ⟨_, hexec, congrArg Field.fenced hfield, congrArg Field.state hfield, congrArg Field.liftAt hfield, rfl, rfl⟩
  · obtain ⟨howed', hfenced, hnotified⟩ := answerField_answers howed 0 0 hcan
    exact ⟨_, execFieldResetOutcome_lifted howed hnone hlift hopen hdue hreply, howed', hfenced.trans hopen, hnotified⟩
  · obtain ⟨howed', hfenced, hnotified⟩ := answerField_answers howed 1 rBusy hcan
    have hlate : (decide (s.nowUs ≤ (s.field f).rampAt + 50000) && canLift s f) = false := by
      rw [decide_eq_false (Nat.not_le.mpr hover), Bool.false_and]
    refine ⟨_, (execFieldResetOutcome_ramped howed hnone hramp).trans ((if_neg (by rw [hlate]; exact Bool.false_ne_true)).trans
      (if_pos (by rw [decide_eq_true hover, decide_eq_true hreply]; rfl))), howed', hfenced, hnotified⟩

/-- Settles O15: RESET FIELD fences and cycles its field, and its outcome lifts the fence or answers. -/
theorem fieldReset : Obligations.FieldReset := ⟨resetField_fences, fieldResetOutcome_answers⟩

end Sys2Proof.Machine

/-!
RESET of a tenant and of a region (09): the epoch rises, the target's clauses are cancelled, its clusters lose what they held, its regions
record the epoch, and the answer is owed (R433, R435, R438, R439).
-/

namespace Sys2Proof.Machine

/-! ## Cancelled clauses (R408) -/

theorem MailFrame.work {s s' : State} (h : MailFrame s s') : s'.work = s.work := by
  obtain ⟨_, _, _, _, _, heq⟩ := h.rest
  rw [heq]

theorem endClause_flights (s : State) (f : Flight) (v : Verdict) :
    (endClause s f v).work.flights = s.work.flights.filter (fun g => g.uid ≠ f.uid) := by
  have hgone := clauseGone_flights s f
  have hmail : MailFrame (clauseGone s f) (endClause s f v) := by
    unfold endClause
    refine MailFrame.trans ?_ (finishClears_mailFrame _ _)
    split
    · exact .refl _
    · exact postNotice_mailFrame _ _ _
  rw [hmail.work, hgone]

/-- After the cancellation of a list of clauses none of them is in flight. -/
theorem cancelAll_gone {s : State} {fs : List Flight} {f : Flight} (hf : f ∈ fs) : f ∉ (cancelAll s fs).work.flights := by
  have hgone := foldl_establishes (fun s f => endClause s f { status := stCancelled }) (fun s f => ∀ g ∈ s.work.flights, g.uid ≠ f.uid)
    (fun a b g hg => by
      rw [endClause_flights] at hg
      exact of_decide_eq_true (List.mem_filter.mp hg).2)
    (fun a b c hc g hg => hc g (by rw [endClause_flights] at hg; exact (List.mem_filter.mp hg).1)) s hf
  exact fun hin => hgone f hin rfl

theorem ResetFrame.mem_flights {s s' : State} (h : ResetFrame s s') {f : Flight} (hf : f ∈ s'.work.flights) : f ∈ s.work.flights :=
  h.flights.subset hf

/-! ## Regions and their stamps (R435) -/

theorem planRegions_of_plan {s : State} {t : Nat} {p : Plan} (h : (s.tenant t).plan = some p) : planRegions s t = p.regions := by
  unfold planRegions
  rw [h]

theorem planRegions_congr {s s' : State} {t : Nat} (h : (s'.tenant t).plan = (s.tenant t).plan) : planRegions s' t = planRegions s t := by
  unfold planRegions
  rw [h]

theorem TenantMail.plan {x y : Tenant} (h : TenantMail x y) : y.plan = x.plan := by
  obtain ⟨_, _, _, _, _, _, _, _, _, _, _, _, rfl⟩ := h
  rfl

theorem cancelAll_plan (s : State) (fs : List Flight) (t : Nat) : ((cancelAll s fs).tenant t).plan = (s.tenant t).plan :=
  ((cancelAll_clauseFrame s fs).tenants t).plan

/-- Region r of a tenant records the tenant's epoch. -/
def Stamped (s : State) (t r : Nat) : Prop := ∀ g, (planRegions s t)[r]? = some g → g.resetEpoch = (s.tenant t).epoch

theorem getElem?_modAt {α : Type} (l : List α) (i j : Nat) (f : α → α) : (modAt l i f)[j]? = l[j]?.map (fun x => if j = i then f x else x) := by
  simp [modAt]

theorem stampRegion_tenant (s : State) (t r : Nat) :
    (stampRegion s t r).tenant t = { s.tenant t with
      plan := (s.tenant t).plan.map (fun p => { p with
        regions := modAt p.regions r (fun g => { g with resetEpoch := (s.tenant t).epoch }) }) } := s.tenant_setTenant_same t _

theorem planRegions_stampRegion (s : State) (t r : Nat) :
    planRegions (stampRegion s t r) t = modAt (planRegions s t) r (fun g => { g with resetEpoch := (s.tenant t).epoch }) := by
  unfold planRegions
  rw [stampRegion_tenant]
  cases (s.tenant t).plan with
  | none => rfl
  | some p => rfl

theorem stampRegion_epoch (s : State) (t r : Nat) : ((stampRegion s t r).tenant t).epoch = (s.tenant t).epoch := by
  rw [stampRegion_tenant]

theorem stamped_stampRegion (s : State) (t r : Nat) : Stamped (stampRegion s t r) t r := by
  intro g hg
  rw [planRegions_stampRegion, getElem?_modAt] at hg
  obtain ⟨g', -, rfl⟩ := Option.map_eq_some_iff.mp hg
  rw [stampRegion_epoch, if_pos rfl]

theorem stamped_stampRegion_keeps (s : State) (t r c : Nat) (h : Stamped s t c) : Stamped (stampRegion s t r) t c := by
  intro g hg
  rw [planRegions_stampRegion, getElem?_modAt] at hg
  obtain ⟨g', hg', rfl⟩ := Option.map_eq_some_iff.mp hg
  rw [stampRegion_epoch]
  split
  · rfl
  · exact h g' hg'

theorem Stamped.congr {s s' : State} {t r : Nat} (hplan : (s'.tenant t).plan = (s.tenant t).plan)
    (hepoch : (s'.tenant t).epoch = (s.tenant t).epoch) (h : Stamped s t r) : Stamped s' t r := by
  intro g hg
  rw [planRegions_congr hplan] at hg
  rw [hepoch]
  exact h g hg

/-- The state of a region's reset before its stamp: its clauses cancelled, its members reset. -/
def regionCleared (s : State) (t r : Nat) : State :=
  ((planRegions s t).getD r {}).members.foldl (fun s k => s.modCluster k (clusterReset s.nowUs)) (cancelAll s (regionFlights s t r))

theorem resetRegionEffects_eq (s : State) (t r : Nat) : resetRegionEffects s t r = stampRegion (regionCleared s t r) t r := by
  unfold resetRegionEffects regionCleared
  dsimp only
  rw [planRegions_congr (cancelAll_plan s _ t)]

theorem foldl_modCluster_only (g : State → Cluster → Cluster) (l : List Nat) (s : State) :
    ∃ cs, l.foldl (fun s k => s.modCluster k (g s)) s = { s with clusters := cs } := by
  refine foldl_keeps (fun a => ∃ cs, a = { s with clusters := cs }) (fun s k => s.modCluster k (g s)) (fun a k h => ?_) l s ⟨s.clusters, rfl⟩
  obtain ⟨cs, rfl⟩ := h
  exact ⟨_, rfl⟩

theorem regionCleared_frame (s : State) (t r : Nat) : ∃ cs, regionCleared s t r = { cancelAll s (regionFlights s t r) with clusters := cs } :=
  foldl_modCluster_only (fun s => clusterReset s.nowUs) _ _

theorem regionCleared_tenant (s : State) (t r u : Nat) : (regionCleared s t r).tenant u = (cancelAll s (regionFlights s t r)).tenant u := by
  obtain ⟨cs, heq⟩ := regionCleared_frame s t r
  rw [heq]
  rfl

theorem regionCleared_epoch (s : State) (t r : Nat) : ((regionCleared s t r).tenant t).epoch = (s.tenant t).epoch := by
  rw [regionCleared_tenant]
  obtain ⟨_, _, _, _, _, _, _, _, _, _, _, _, heq⟩ := (cancelAll_clauseFrame s (regionFlights s t r)).tenants t
  rw [heq]

theorem regionCleared_plan (s : State) (t r : Nat) : ((regionCleared s t r).tenant t).plan = (s.tenant t).plan := by
  rw [regionCleared_tenant, cancelAll_plan]

theorem planRegions_resetRegionEffects (s : State) (t r : Nat) :
    planRegions (resetRegionEffects s t r) t = modAt (planRegions s t) r (fun g => { g with resetEpoch := (s.tenant t).epoch }) := by
  rw [resetRegionEffects_eq, planRegions_stampRegion, planRegions_congr (regionCleared_plan s t r), regionCleared_epoch]

/-- After a pass over all regions each records the epoch. -/
theorem foldl_resetRegionEffects_stamped (s : State) (t : Nat) :
    ∀ g ∈ planRegions ((List.range (planRegions s t).length).foldl (fun s r => resetRegionEffects s t r) s) t,
      g.resetEpoch = (((List.range (planRegions s t).length).foldl (fun s r => resetRegionEffects s t r) s).tenant t).epoch := by
  have hlength := foldl_keeps (fun a => (planRegions a t).length = (planRegions s t).length) (fun s r => resetRegionEffects s t r)
    (fun a r h => by rw [planRegions_resetRegionEffects, ← h]; simp [modAt]) (List.range (planRegions s t).length) s rfl
  intro g hg
  obtain ⟨i, hi, hget⟩ := List.getElem_of_mem hg
  rw [hlength] at hi
  refine foldl_establishes (fun s r => resetRegionEffects s t r) (fun a r => Stamped a t r) (fun a r => ?_) (fun a r c h => ?_) s
    (List.mem_range.mpr hi) g (List.getElem?_eq_some_iff.mpr ⟨_, hget⟩)
  · rw [resetRegionEffects_eq]
    exact stamped_stampRegion _ t r
  · rw [resetRegionEffects_eq]
    exact stamped_stampRegion_keeps _ t r c (h.congr (regionCleared_plan a t r) (regionCleared_epoch a t r))

/-- What a reset cluster holds no more. -/
def ClusterEmptied (c : Cluster) : Prop :=
  c.slots = [] ∧ c.owner = none ∧ c.held = none ∧ c.saved = [] ∧ c.unit = {} ∧ c.run = none

theorem regionCleared_emptied {s : State} {t r k : Nat} (hk : k ∈ ((planRegions s t).getD r {}).members) :
    ClusterEmptied ((regionCleared s t r).cluster k) := by
  have hsame : ∀ (a : State) (k : Nat), ClusterEmptied ((a.modCluster k (clusterReset a.nowUs)).cluster k) := fun a k => by
    rw [State.cluster_modCluster_same]
    exact ⟨rfl, rfl, rfl, rfl, rfl, rfl⟩
  refine foldl_establishes (fun (s : State) k => s.modCluster k (clusterReset s.nowUs)) (fun (a : State) k => ClusterEmptied (a.cluster k)) hsame
    (fun a b c h => ?_) _ hk
  by_cases hcb : c = b
  · rw [hcb]; exact hsame a b
  · rw [State.cluster_modCluster_other _ _ _ _ hcb]; exact h

/-! ## The increment and what follows it (R435, R439) -/

/-- The states of a reset: the increment, then the effects. -/
theorem requestReset_now {s : State} {u : Nat} (d : Deferred) (hdue : incrementDue s u = true) (hnone : (s.tenant u).deferred = []) :
    requestReset s u d = applyDeferred s u d := if_pos (by rw [hdue, hnone]; rfl)

theorem bumpEpoch_tenant (s : State) (u : Nat) :
    (bumpEpoch s u).tenant u = { s.tenant u with epoch := (s.tenant u).epoch + 1, lastIncrement := some s.nowUs } := s.tenant_setTenant_same u _

theorem inbox_bumpEpoch (s : State) (u t : Nat) : inbox ((bumpEpoch s u).tenant t) = inbox (s.tenant t) := by
  by_cases ht : t = u
  · rw [ht, bumpEpoch_tenant]; rfl
  · exact congrArg inbox (s.tenant_setTenant_other u t _ ht)

theorem oweReply_tenant_same (s : State) (q seq t : Nat) :
    (oweReply s q seq t).tenant q
      = { s.tenant q with resets := (s.tenant q).resets ++ [{ seq := seq, incrementAt := s.nowUs, timeout := requestTimeout (s.tenant t) }] } :=
  s.tenant_setTenant_same q _

theorem oweReply_frame (s : State) (q seq t : Nat) : ResetFrame s (oweReply s q seq t) := setTenant_resetFrame s q _ rfl

theorem oweReply_other (s : State) (q seq t : Nat) (u : Nat) : ∃ rs, (oweReply s q seq t).tenant u = { s.tenant u with resets := rs } := by
  by_cases hu : u = q
  · rw [hu, oweReply_tenant_same]; exact ⟨_, rfl⟩
  · exact ⟨(s.tenant u).resets, s.tenant_setTenant_other q u _ hu⟩

theorem standing_parts {x y : Tenant} (h : standing y = standing x) :
    inbox y = inbox x ∧ y.epoch = x.epoch ∧ y.lastIncrement = x.lastIncrement ∧ y.deferred = x.deferred ∧ y.configuring = x.configuring
      ∧ y.timeout = x.timeout ∧ planForm y = planForm x ∧ y.granuleFirst = x.granuleFirst := by
  simpa only [standing, Prod.mk.injEq] using h

theorem requestTimeout_congr {x y : Tenant} (h : y.timeout = x.timeout) : requestTimeout y = requestTimeout x := by
  unfold requestTimeout
  rw [h]

/-- The wait that a reset of u for q comes to owe. -/
theorem oweReply_owes {s a : State} {q seq u : Nat} (hnow : a.nowUs = s.nowUs) (htimeout : (a.tenant u).timeout = (s.tenant u).timeout) :
    (⟨seq, s.nowUs, requestTimeout (s.tenant u)⟩ : ResetWait) ∈ ((oweReply a q seq u).tenant q).resets := by
  rw [oweReply_tenant_same, requestTimeout_congr htimeout, hnow]
  exact List.mem_append_right _ (List.mem_singleton.mpr rfl)

/-! ## RESET TENANT (R433) -/

theorem modTenant_work (s : State) (t : Nat) (g : Tenant → Tenant) : (s.modTenant t g).work = s.work := rfl

theorem foldl_cancelWaiting_frame (s : State) (u : Nat) (l : List Nat) : ResetFrame s (l.foldl (fun s p => cancelWaiting s u p) s) :=
  foldl_resetFrame _ (fun s p => cancelWaiting_frame s u p) l s

theorem cancelTenant_eq (s : State) (u : Nat) :
    cancelTenant s u = (List.range 4).foldl (fun s p => cancelWaiting s u p) (cancelAll s (tenantFlights s u)) := rfl

theorem mem_tenantFlights {s : State} {u : Nat} {f : Flight} : f ∈ tenantFlights s u ↔ f ∈ s.work.flights ∧ f.tenant = u := by
  rw [tenantFlights, List.mem_filter, decide_eq_true_iff]

/-- No clause of a tenant is in flight after the cancellation of its work. -/
theorem cancelTenant_gone {s : State} {u : Nat} {f : Flight} (hf : f ∈ (cancelTenant s u).work.flights) : f.tenant ≠ u := by
  intro hu
  have hgone : f ∈ tenantFlights s u → f ∉ (cancelAll s (tenantFlights s u)).work.flights := cancelAll_gone
  have hsub := (cancelAll_clauseFrame s (tenantFlights s u)).resetFrame
  rw [cancelTenant_eq] at hf
  generalize cancelAll s (tenantFlights s u) = a at hf hgone hsub
  have hin : f ∈ a.work.flights := (foldl_cancelWaiting_frame a u (List.range 4)).mem_flights hf
  exact hgone (mem_tenantFlights.mpr ⟨hsub.mem_flights hin, hu⟩) hin

/-- What a reset leaves of its tenant and its work, on the state of its increment. -/
theorem resetTenantEffects_clears (s : State) (u : Nat) :
    tenantFlights (resetTenantEffects s u) u = []
      ∧ (∀ p : Fin 4, (((resetTenantEffects s u).tenant u).ring p).waiting = []) ∧ ((resetTenantEffects s u).tenant u).halted = 0
      ∧ ((resetTenantEffects s u).tenant u).counters = []
      ∧ (∀ e ∈ (resetTenantEffects s u).work.sessions, e.2.openFlag = true → e.2.tenant ≠ u)
      ∧ ∀ g ∈ planRegions (resetTenantEffects s u) u, g.resetEpoch = ((resetTenantEffects s u).tenant u).epoch := by
  have hcancelled := fun f => cancelTenant_gone (s := s) (u := u) (f := f)
  unfold resetTenantEffects
  dsimp only
  generalize cancelTenant s u = a at hcancelled ⊢
  have hregions := foldl_resetRegionEffects_frame (List.range (planRegions a u).length) a u
  have hstamped := foldl_resetRegionEffects_stamped a u
  generalize (List.range (planRegions a u).length).foldl (fun s r => resetRegionEffects s u r) a = b at hregions hstamped ⊢
  generalize hclosed : b.setSessions _ = c
  have hwork : c.work.flights = b.work.flights := by rw [← hclosed]; rfl
  have htenant : ∀ t, c.tenant t = b.tenant t := fun t => by rw [← hclosed]; rfl
  have hsessions : ∀ e ∈ c.work.sessions, e.2.openFlag = true → e.2.tenant ≠ u := by
    rw [← hclosed]
    intro e he hopen htenant
    exact of_decide_eq_true (List.mem_filter.mp he).2 ⟨hopen, htenant⟩
  have hsame := c.tenant_modTenant_same u (fun x => { x with halted := 0, rings := [{}, {}, {}, {}], counters := [], discarded := 0 })
  have hkept := modTenant_work c u (fun x => { x with halted := 0, rings := [{}, {}, {}, {}], counters := [], discarded := 0 })
  generalize c.modTenant u _ = d at hsame hkept ⊢
  rw [hkept]
  refine ⟨?_, fun p => ?_, ?_, ?_, hsessions, fun g hg => ?_⟩
  · refine List.filter_eq_nil_iff.mpr (fun f hf hu => ?_)
    rw [hkept, hwork] at hf
    exact hcancelled f (hregions.mem_flights hf) (of_decide_eq_true hu)
  · rw [hsame]; fin_cases p <;> rfl
  · rw [hsame]
  · rw [hsame]
  · have hplan : planRegions d u = planRegions b u := planRegions_congr (by rw [hsame, htenant])
    rw [hplan] at hg
    rw [hsame, htenant]
    exact hstamped g hg


/-- The target of a reset once its epoch has risen (R435). -/
theorem bumpEpoch_facts {s : State} {t u : Nat} {m : List Word} :
    ((bumpEpoch (headStarted s t m) u).tenant u).epoch = (s.tenant u).epoch + 1
      ∧ ((bumpEpoch (headStarted s t m) u).tenant u).lastIncrement = some s.nowUs
      ∧ ((bumpEpoch (headStarted s t m) u).tenant u).timeout = (s.tenant u).timeout
      ∧ ((bumpEpoch (headStarted s t m) u).tenant u).plan = (s.tenant u).plan
      ∧ ((bumpEpoch (headStarted s t m) u).tenant u).deferred = (s.tenant u).deferred := by
  rw [bumpEpoch_tenant]
  by_cases hu : u = t
  · rw [hu, headStarted_tenant_same]; exact ⟨rfl, rfl, rfl, rfl, rfl⟩
  · rw [headStarted_tenant_other s t m hu]; exact ⟨rfl, rfl, rfl, rfl, rfl⟩

theorem incrementDue_headStarted (s : State) (t : Nat) (m : List Word) (u : Nat) : incrementDue (headStarted s t m) u = incrementDue s u := by
  unfold incrementDue
  by_cases hu : u = t
  · rw [hu, headStarted_tenant_same]; rfl
  · rw [headStarted_tenant_other s t m hu]; rfl

theorem planRegions_headStarted (s : State) (t : Nat) (m : List Word) (u : Nat) : planRegions (headStarted s t m) u = planRegions s u := by
  unfold planRegions
  by_cases hu : u = t
  · rw [hu, headStarted_tenant_same]; rfl
  · rw [headStarted_tenant_other s t m hu]

/-- What stands of each tenant after effects that keep what stands and the owed answer. -/
theorem oweReply_standing {a b : State} (h : ResetFrame a b) (q seq u v : Nat) :
    standing ((oweReply b q seq u).tenant v) = standing (a.tenant v) := (h.trans (oweReply_frame b q seq u)).tenants v

/-- A reset's effect counts its message as consumed. -/
theorem inbox_oweReply {s b : State} {t u : Nat} {m : List Word} {seq : Nat} (h : ResetFrame (bumpEpoch (headStarted s t m) u) b) :
    inbox ((oweReply b t seq u).tenant t) = inbox ((headStarted s t m).tenant t) :=
  (inbox_of_standing (oweReply_standing h t seq u t)).trans (inbox_bumpEpoch _ u t)

theorem plan_isSome_of_planForm {x y : Tenant} (h : planForm x = planForm y) : x.plan.isSome = y.plan.isSome := by
  have hform := congrArg Option.isSome h
  unfold planForm at hform
  rwa [Option.isSome_map, Option.isSome_map] at hform

theorem mayReset_of {t u : Fin 16} {m : List Word} (htarget : bits (word m 0) 11 8 = u) (hmay : t = 0 ∨ u = t) : mayReset t m = true := by
  unfold mayReset
  rw [htarget]
  rcases hmay with rfl | rfl
  · rfl
  · simp

/-- An allowed message to reset a tenant is carried out at once. -/
theorem resetTenant_now {s : State} {t u : Fin 16} {m : List Word} (htarget : bits (word m 0) 11 8 = u) (hmay : t = 0 ∨ u = t)
    (hkind : bits (word m 0) 1 0 = 0) (hdue : incrementDue s u = true) (hnone : (s.tenant u).deferred = []) :
    resetTenant t (headStarted s t m) m = oweReply (resetTenantEffects (bumpEpoch (headStarted s t m) u) u) t (mSeq m) u := by
  unfold resetTenant
  dsimp only
  rw [htarget, mayReset_of htarget hmay, resetKind, hkind, if_neg (by decide)]
  exact requestReset_now (.tenantReset t (mSeq m)) (by rw [incrementDue_headStarted]; exact hdue) (by rw [deferred_headStarted]; exact hnone)

/-- An allowed message to reset a region of the plan is carried out at once. -/
theorem resetRegion_now {s : State} {t u : Fin 16} {m : List Word} {r : Nat} (htarget : bits (word m 0) 11 8 = u) (hmay : t = 0 ∨ u = t)
    (hregion : bits (word m 1) 7 0 = r) (hr : r < (planRegions s u).length) (hdue : incrementDue s u = true)
    (hnone : (s.tenant u).deferred = []) :
    resetRegion t (headStarted s t m) m = oweReply (resetRegionEffects (bumpEpoch (headStarted s t m) u) u r) t (mSeq m) u := by
  unfold resetRegion
  dsimp only
  rw [htarget, mayReset_of htarget hmay, hregion, planRegions_headStarted, decide_eq_false (Nat.not_le.mpr hr), if_neg (by decide)]
  exact requestReset_now (.regionReset t (mSeq m) r) (by rw [incrementDue_headStarted]; exact hdue) (by rw [deferred_headStarted]; exact hnone)

theorem oweReply_only (s : State) (q seq u : Nat) : ∃ ts mr, oweReply s q seq u = { s with tenants := ts, mirror := mr } := ⟨_, _, rfl⟩

/-- What any reset comes to that is carried out at once: its message is consumed, the epoch has risen, and the answer is owed. -/
theorem onReset_owes {s b : State} {t u : Nat} {m : List Word} {kinds : List Nat} {f : State → List Word → State} (h : AtHead s t m 0x06)
    (hclean : payloadClean m [0xF03, 0xFF] = true) (hkind : kinds.contains (resetKind m) = true)
    (hframe : ResetFrame (bumpEpoch (headStarted s t m) u) b) (heffect : f (headStarted s t m) m = oweReply b t (mSeq m) u) :
    onReset s t kinds f = .next (oweReply b t (mSeq m) u) ∧ Consumed (oweReply b t (mSeq m) u) t m
      ∧ (b.tenant u).epoch = (s.tenant u).epoch + 1 ∧ (b.tenant u).lastIncrement = some s.nowUs
      ∧ (b.tenant u).plan.isSome = (s.tenant u).plan.isSome ∧ (u ≠ t → (b.tenant u).expected = (s.tenant u).expected)
      ∧ (⟨mSeq m, s.nowUs, requestTimeout (s.tenant u)⟩ : ResetWait) ∈ ((oweReply b t (mSeq m) u).tenant t).resets := by
  have hclean' := (cleanOnly_of_clean t f (headStarted s t m) hclean).trans heffect
  obtain ⟨hexec, hconsumed⟩ := onMessage_of_effect (f := cleanOnly t [0xF03, 0xFF] f) h (by rw [hclean']; exact inbox_oweReply hframe)
  rw [hclean'] at hexec hconsumed
  obtain ⟨hepoch, hlast, htimeout, hplan, -⟩ := bumpEpoch_facts (s := s) (t := t) (u := u) (m := m)
  obtain ⟨hbox, hepochB, hlastB, -, -, htimeoutB, hformB, -⟩ := standing_parts (hframe.tenants u)
  refine ⟨(onReset_of_atHead _ h hkind).trans hexec, hconsumed, hepochB.trans hepoch, hlastB.trans hlast,
    (plan_isSome_of_planForm hformB).trans (by rw [hplan]), fun hu => ?_, oweReply_owes hframe.nowUs (htimeoutB.trans htimeout)⟩
  have hinbox := hbox.trans ((inbox_bumpEpoch _ u u).trans (congrArg inbox (headStarted_tenant_other s t m hu)))
  exact congrArg (fun x => x.2.1) hinbox

theorem tenantReset_clears (t u : Fin 16) (m : List Word) (s : State) (h : AtHead s t m 0x06) (hclean : payloadClean m [0xF03, 0xFF] = true)
    (htarget : bits (word m 0) 11 8 = u) (hmay : t = 0 ∨ u = t) (hdue : incrementDue s u = true) (hnone : (s.tenant u).deferred = [])
    (hkind : bits (word m 0) 1 0 = 0) :
    ∃ s', exec (.resetTenant t) s = .next s' ∧ Consumed s' t m
        ∧ (s'.tenant u).epoch = (s.tenant u).epoch + 1 ∧ (s'.tenant u).lastIncrement = some s.nowUs
        ∧ tenantFlights s' u = [] ∧ (∀ p : Fin 4, ((s'.tenant u).ring p).waiting = []) ∧ (s'.tenant u).halted = 0
        ∧ (s'.tenant u).counters = [] ∧ (∀ e ∈ s'.work.sessions, e.2.openFlag = true → e.2.tenant ≠ u)
        ∧ (s'.tenant u).plan.isSome = (s.tenant u).plan.isSome ∧ (u ≠ t → (s'.tenant u).expected = (s.tenant u).expected)
        ∧ (∀ g ∈ planRegions s' u, g.resetEpoch = (s.tenant u).epoch + 1)
        ∧ (⟨mSeq m, s.nowUs, requestTimeout (s.tenant u)⟩ : ResetWait) ∈ (s'.tenant t).resets := by
  obtain ⟨hexec, hconsumed, hepoch, hlast, hplan, hexpected, howes⟩ := onReset_owes (kinds := [0, 3]) h hclean (by rw [resetKind, hkind]; rfl)
    (resetTenantEffects_frame (bumpEpoch (headStarted s t m) u) u) (resetTenant_now htarget hmay hkind hdue hnone)
  obtain ⟨hflights, hwaiting, hhalted, hcounters, hsessions, hstamps⟩ := resetTenantEffects_clears (bumpEpoch (headStarted s t m) u) u
  generalize resetTenantEffects (bumpEpoch (headStarted s t m) u) u = b at *
  obtain ⟨ts, mr, honly⟩ := oweReply_only b t (mSeq m) u
  obtain ⟨rs, htenant⟩ := oweReply_other b t (mSeq m) u u
  refine ⟨_, hexec, hconsumed, ?_, ?_, ?_, ?_, ?_, ?_, ?_, ?_, fun hu => ?_, ?_, howes⟩
  · rw [htenant]; exact hepoch
  · rw [htenant]; exact hlast
  · rw [honly]; exact hflights
  · rw [htenant]; exact hwaiting
  · rw [htenant]; exact hhalted
  · rw [htenant]; exact hcounters
  · rw [honly]; exact hsessions
  · rw [htenant]; exact hplan
  · rw [htenant]; exact hexpected (fun heq => hu (Fin.ext heq))
  · rw [planRegions_congr (s := b) (by rw [htenant])]
    exact fun g hg => (hstamps g hg).trans hepoch

/-! ## RESET REGION (R433, R435) -/

theorem mem_regionFlights {s : State} {t r : Nat} {f : Flight} :
    f ∈ regionFlights s t r ↔ f ∈ s.work.flights ∧ f.tenant = t ∧ cRegion f.words = r ∧ (cVerb f.words < 0x0C ∨ 0x0E < cVerb f.words) := by
  rw [regionFlights, List.mem_filter, decide_eq_true_iff]

/-- What a region's reset leaves of its members, its clauses and its stamp. -/
theorem resetRegionEffects_clears (s : State) (t r : Nat) (hr : r < (planRegions s t).length) :
    ((planRegions (resetRegionEffects s t r) t).getD r {}).resetEpoch = ((resetRegionEffects s t r).tenant t).epoch
      ∧ (∀ k ∈ ((planRegions s t).getD r {}).members, ClusterEmptied ((resetRegionEffects s t r).cluster k))
      ∧ regionFlights (resetRegionEffects s t r) t r = [] := by
  have hlength : r < (planRegions (resetRegionEffects s t r) t).length := by
    rw [planRegions_resetRegionEffects]
    simpa [modAt] using hr
  rw [resetRegionEffects_eq] at hlength ⊢
  refine ⟨?_, fun k hk => regionCleared_emptied hk, ?_⟩
  · rw [List.getD_eq_getElem _ _ hlength]
    exact stamped_stampRegion _ t r _ (List.getElem?_eq_getElem hlength)
  · refine List.eq_nil_iff_forall_not_mem.mpr (fun f hf => ?_)
    obtain ⟨hin, hmine⟩ := mem_regionFlights.mp hf
    have hcleared : (stampRegion (regionCleared s t r) t r).work = (cancelAll s (regionFlights s t r)).work := by
      obtain ⟨cs, hframe⟩ := regionCleared_frame s t r
      rw [hframe]
      rfl
    rw [hcleared] at hin
    have hgone : f ∈ regionFlights s t r → f ∉ (cancelAll s (regionFlights s t r)).work.flights := cancelAll_gone
    exact hgone (mem_regionFlights.mpr ⟨(cancelAll_clauseFrame s _).resetFrame.mem_flights hin, hmine⟩) hin

theorem regionReset_clears (t u : Fin 16) (m : List Word) (s : State) (h : AtHead s t m 0x06) (hclean : payloadClean m [0xF03, 0xFF] = true)
    (htarget : bits (word m 0) 11 8 = u) (hmay : t = 0 ∨ u = t) (hdue : incrementDue s u = true) (hnone : (s.tenant u).deferred = []) (r : Nat)
    (hkind : bits (word m 0) 1 0 = 1) (hregion : bits (word m 1) 7 0 = r) (hr : r < (planRegions s u).length) :
    ∃ s', exec (.resetRegion t) s = .next s' ∧ Consumed s' t m
        ∧ (s'.tenant u).epoch = (s.tenant u).epoch + 1 ∧ ((planRegions s' u).getD r {}).resetEpoch = (s.tenant u).epoch + 1
        ∧ regionFlights s' u r = []
        ∧ (∀ k ∈ ((planRegions s u).getD r {}).members, (s'.cluster k).slots = [] ∧ (s'.cluster k).owner = none
            ∧ (s'.cluster k).held = none ∧ (s'.cluster k).saved = [] ∧ (s'.cluster k).unit = {} ∧ (s'.cluster k).run = none)
        ∧ s'.mem.cistern = s.mem.cistern
        ∧ (⟨mSeq m, s.nowUs, requestTimeout (s.tenant u)⟩ : ResetWait) ∈ (s'.tenant t).resets := by
  have hframe := resetRegionEffects_frame (bumpEpoch (headStarted s t m) u) u r
  obtain ⟨hexec, hconsumed, hepoch, -, -, -, howes⟩ := onReset_owes (kinds := [1]) h hclean (by rw [resetKind, hkind]; rfl)
    hframe (resetRegion_now htarget hmay hregion hr hdue hnone)
  have hcistern : (bumpEpoch (headStarted s t m) u).mem.cistern = s.mem.cistern := rfl
  have hplanned : planRegions (bumpEpoch (headStarted s t m) u) u = planRegions s u := by
    obtain ⟨-, -, -, hplan, -⟩ := bumpEpoch_facts (s := s) (t := t) (u := u) (m := m)
    exact planRegions_congr hplan
  generalize bumpEpoch (headStarted s t m) u = a at *
  obtain ⟨hstamped, hmembers, hflights⟩ := resetRegionEffects_clears a u r (by rw [hplanned]; exact hr)
  rw [hplanned] at hmembers
  generalize resetRegionEffects a u r = b at *
  obtain ⟨ts, mr, honly⟩ := oweReply_only b t (mSeq m) u
  obtain ⟨rs, htenant⟩ := oweReply_other b t (mSeq m) u u
  refine ⟨_, hexec, hconsumed, ?_, ?_, ?_, ?_, ?_, howes⟩
  · rw [htenant]; exact hepoch
  · rw [planRegions_congr (s := b) (by rw [htenant])]; exact hstamped.trans hepoch
  · rw [honly]; exact hflights
  · rw [honly]; exact hmembers
  · rw [honly]; exact hframe.cistern.trans hcistern

/-! ## Deferred increments (R439) -/

theorem fieldCycle_tenant (s : State) (f u : Nat) : (fieldCycle s f).tenant u = s.tenant u := by
  cases h : fieldDeferred s f with
  | true => rw [fieldCycle_deferred h]
  | false =>
    rw [fieldCycle_now h]
    obtain ⟨cs, cist, hframe⟩ := foldl_powerCycle_frame (fieldClusters f) s
    rw [hframe]
    rfl

/-- What an increment shows of its tenant. -/
def counted (x : Tenant) : Byte × Option Nat × List Deferred := (x.epoch, x.lastIncrement, x.deferred)

theorem counted_of_standing {x y : Tenant} (h : standing y = standing x) : counted y = counted x := by
  obtain ⟨-, hepoch, hlast, hdeferred, -, -, -⟩ := standing_parts h
  unfold counted
  rw [hepoch, hlast, hdeferred]

theorem counted_settleConfig (x : Tenant) : counted (settleConfig x) = counted x := by
  unfold settleConfig
  split <;> rfl

/-- Whatever reset is carried out, the epoch's count is that of the increment. -/
theorem counted_applyDeferred (s : State) (t : Nat) (d : Deferred) : counted ((applyDeferred s t d).tenant t) = counted ((bumpEpoch s t).tenant t) := by
  cases d with
  | tenantReset q seq => exact counted_of_standing (oweReply_standing (resetTenantEffects_frame (bumpEpoch s t) t) q seq t t)
  | regionReset q seq r => exact counted_of_standing (oweReply_standing (resetRegionEffects_frame (bumpEpoch s t) t r) q seq t t)
  | fieldReset f =>
    refine (congrArg counted (fieldCycle_tenant _ f t)).trans ?_
    exact counted_of_standing ((foldl_resetRegionEffects_frame (regionsInField (bumpEpoch s t) t f) (bumpEpoch s t) t).tenants t)
  | configReset =>
    refine (congrArg counted ((resetTenantEffects (bumpEpoch s t) t).tenant_modTenant_same t settleConfig)).trans ?_
    exact (counted_settleConfig _).trans (counted_of_standing ((resetTenantEffects_frame (bumpEpoch s t) t).tenants t))

theorem epochIncrement_increments (t : Fin 16) (d : Deferred) (rest : List Deferred) (s : State) (hdeferred : (s.tenant t).deferred = d :: rest) :
    (incrementDue s t = true →
        ∃ s', exec (.epochIncrement t) s = .next s' ∧ (s'.tenant t).epoch = (s.tenant t).epoch + 1
          ∧ (s'.tenant t).lastIncrement = some s.nowUs ∧ (s'.tenant t).deferred = rest)
      ∧ (∀ l, (s.tenant t).lastIncrement = some l → s.nowUs < l + 10 → exec (.epochIncrement t) s = .next s) := by
  have hexec : exec (.epochIncrement t) s
      = if incrementDue s t then .next (applyDeferred (s.modTenant t (fun x => { x with deferred := rest })) t d) else .next s := by
    refine Eq.trans (b := execEpochIncrement t s) rfl ?_
    unfold execEpochIncrement
    rw [hdeferred]
  refine ⟨fun hdue => ⟨_, hexec.trans (if_pos hdue), ?_⟩, fun l hlast hsoon => hexec.trans (if_neg ?_)⟩
  · have hcounted := counted_applyDeferred (s.modTenant t (fun x => { x with deferred := rest })) t d
    rw [bumpEpoch_tenant, s.tenant_modTenant_same t (fun x => { x with deferred := rest })] at hcounted
    have hnow : (s.modTenant t (fun x => { x with deferred := rest })).nowUs = s.nowUs := rfl
    rw [hnow] at hcounted
    generalize applyDeferred _ t d = a at hcounted ⊢
    simpa only [counted, Prod.mk.injEq] using hcounted
  · unfold incrementDue
    rw [hlast]
    simpa using hsoon

/-! ## The answer to a reset (R438) -/

theorem resetReply_answers (t : Fin 16) (r : ResetWait) (s : State) (hresets : (s.tenant t).resets = [r]) (hcan : CanNotify s t) :
    (r.incrementAt + r.timeout ≤ s.nowUs →
        ∃ s', exec (.resetReply t) s = .next s' ∧ (s'.tenant t).resets = [] ∧ Notified s s' t (replyNotice r.seq 0 0x06 0 0 0 0)
          ∧ HostOnlySlot s s' t ∧ OtherTenants s s' t ∧ SameBeyondTenants s s' ∧ SameOwnMemory s s')
      ∧ (s.nowUs < r.incrementAt + r.timeout → exec (.resetReply t) s = .next s) := by
  refine ⟨fun hdue => ?_, fun hsoon => ?_⟩
  · have hexec : exec (.resetReply t) s = .next (replyOk (s.modTenant t (fun x => { x with resets := x.resets.erase r })) t r.seq 0x06) := by
      refine Eq.trans (b := execResetReply t s) rfl ?_
      unfold execResetReply
      rw [hresets, List.find?_cons_of_pos (by simpa using hdue)]
    obtain ⟨hnotified, hslot, hothers, hbeyond, hown, htenant⟩ := reply_writes_setTenant (s := s) (t := t)
      (x := { s.tenant t with resets := (s.tenant t).resets.erase r }) rfl r.seq 0x06 0 0 0 0 0 hcan
    refine ⟨_, hexec, ?_, hnotified, hslot, hothers, hbeyond, hown⟩
    refine (congrArg Tenant.resets htenant).trans ?_
    change (s.tenant t).resets.erase r = []
    rw [hresets]
    simp
  · refine Eq.trans (b := execResetReply t s) rfl ?_
    unfold execResetReply
    rw [hresets, List.find?_cons_of_neg (by simpa using hsoon)]
    rfl

/-- Settles O14: resets raise the epoch, cancel what their target had, and are answered when its requests have run out. -/
theorem resetsAndReplies : Obligations.ResetsAndReplies :=
  ⟨fun t u m s h hclean htarget hmay hdue hnone => ⟨fun hkind => tenantReset_clears t u m s h hclean htarget hmay hdue hnone hkind,
      fun r hkind hregion hr => regionReset_clears t u m s h hclean htarget hmay hdue hnone r hkind hregion hr⟩,
    epochIncrement_increments, resetReply_answers⟩

end Sys2Proof.Machine

/-!
QUEUE_CLEAR (R413, R414): with no clause of the tenant in flight, the rings that it names are emptied and opened, and its REPLY is written.
Sessions (R410, R411).
-/

namespace Sys2Proof.Machine

/-! ## What notices leave of a tenant -/

/-- A tenant but for its notices and its messages not yet answered. -/
def besideMail (x : Tenant) : Tenant :=
  { x with tail := 0, tailPhase := true, ringUsed := 0, heldNotices := [], noticeLost := false, lostCount := 0, lostOwed := false, unanswered := [] }

/-- What besideMail does not blank is the same where besideMail is. -/
theorem of_besideMail {α : Type} (g : Tenant → α) (hg : ∀ x, g (besideMail x) = g x) {x y : Tenant} (h : besideMail x = besideMail y) :
    g x = g y := (hg x).symm.trans ((congrArg g h).trans (hg y))

theorem besideMail_setTenant {s : State} {t : Nat} {x : Tenant} (h : besideMail x = besideMail (s.tenant t)) (u : Nat) :
    besideMail ((s.setTenant t x).tenant u) = besideMail (s.tenant u) := by
  by_cases hu : u = t
  · rw [hu, s.tenant_setTenant_same]; exact h
  · rw [s.tenant_setTenant_other t u x hu]

theorem writeSlot_tenant (s : State) (t : Nat) (body : List Byte) (u : Nat) : (writeSlot s t body).tenant u = s.tenant u := by
  obtain ⟨h, heq⟩ := writeSlot_hostOnly s t body
  rw [heq]
  rfl

theorem besideMail_postNotice (s : State) (t : Nat) (body : List Byte) (u : Nat) :
    besideMail ((postNotice s t body).tenant u) = besideMail (s.tenant u) := by
  unfold postNotice
  dsimp only
  split
  · rw [writeNotice_eq]
    refine (besideMail_setTenant ?_ u).trans (congrArg besideMail (writeSlot_tenant s t body u))
    rw [writeSlot_tenant]
    rfl
  · split
    · exact besideMail_setTenant (by rfl) u
    · exact besideMail_setTenant (by rfl) u

theorem besideMail_reply (s : State) (t seq type status reason index result cookie u : Nat) :
    besideMail ((reply s t seq type status reason index result cookie).tenant u) = besideMail (s.tenant u) :=
  (besideMail_setTenant (by rfl) u).trans (besideMail_postNotice s t _ u)

/-- With no QUEUE_CLEAR to answer, a clause's end leaves its tenant but for its notice. -/
theorem besideMail_endClause {s : State} {f : Flight} {v : Verdict} (hclears : (s.tenant f.tenant).clears = []) :
    besideMail ((endClause s f v).tenant f.tenant) = besideMail (s.tenant f.tenant) := by
  have hgone := (clauseGone_workOnly s f).tenant f.tenant
  unfold endClause
  dsimp only
  rw [show forgetClause (removeFlight s f.uid) f.tenant (mSeq f.words) = clauseGone s f from rfl]
  generalize hposted : (if decide (v.status = 0) && cQuiet f.words then clauseGone s f
    else postNotice (clauseGone s f) f.tenant (clauseNotice f v)) = a
  have hkept : besideMail (a.tenant f.tenant) = besideMail (s.tenant f.tenant) := by
    rw [← hposted, ← hgone]
    split
    · rfl
    · exact besideMail_postNotice _ _ _ _
  have hnone : (a.tenant f.tenant).clears = [] := (of_besideMail Tenant.clears (fun _ => rfl) hkept).trans hclears
  rw [finishClears_of_none hnone]
  exact hkept

theorem besideMail_cancelAll {t : Nat} (fs : List Flight) (hfs : ∀ f ∈ fs, f.tenant = t) (s : State) (hclears : (s.tenant t).clears = []) :
    besideMail ((cancelAll s fs).tenant t) = besideMail (s.tenant t) := by
  induction fs generalizing s with
  | nil => rfl
  | cons f fs ih =>
    have hf : f.tenant = t := hfs f List.mem_cons_self
    have hend : besideMail ((endClause s f { status := stCancelled }).tenant t) = besideMail (s.tenant t) := by
      have hown : (s.tenant f.tenant).clears = [] := by rw [hf]; exact hclears
      have h := besideMail_endClause (v := { status := stCancelled }) hown
      rwa [hf] at h
    exact (ih (fun g hg => hfs g (List.mem_cons_of_mem _ hg)) _ ((of_besideMail Tenant.clears (fun _ => rfl) hend).trans hclears)).trans hend

/-! ## A ring cleared (R413) -/

/-- A tenant with a ring emptied, at the start of a new sentence. -/
def ringCleared (x : Tenant) (prio : Nat) : Tenant := x.modRing prio (fun r => newSentence { r with waiting := [] })

theorem mem_map_waitingFlight {s : State} {t prio : Nat} {cs : List Clause} {f : Flight} (h : f ∈ cs.map (waitingFlight s t prio)) :
    f.tenant = t := by
  obtain ⟨c, -, rfl⟩ := List.mem_map.mp h
  rfl

/-- From s to s' a ring has been emptied, with no clause of its tenant in flight before and after. -/
structure RingGone (t : Nat) (x : Tenant) (s s' : State) : Prop where
  beside : besideMail (s'.tenant t) = besideMail x
  flights : s'.work.flights.Sublist s.work.flights
  sessions : s'.work.sessions = s.work.sessions

theorem ClauseFrame.sessions {s s' : State} (h : ClauseFrame s s') : s'.work.sessions = s.work.sessions := by
  obtain ⟨_, _, _, _, heq, -⟩ := h.work
  rw [heq]

theorem besideMail_modRing {x y : Tenant} (h : besideMail x = besideMail y) (p : Nat) (g : SubRing → SubRing) :
    besideMail (x.modRing p g) = besideMail (y.modRing p g) := congrArg (fun z : Tenant => z.modRing p g) h

theorem cancelWaiting_ringGone {s : State} {t : Nat} (prio : Nat) (hclears : (s.tenant t).clears = []) :
    RingGone t ((s.tenant t).modRing prio (fun r => { r with waiting := [] })) s (cancelWaiting s t prio) := by
  have hset := s.tenant_setTenant_same t ((s.tenant t).modRing prio (fun r => { r with waiting := [] }))
  unfold cancelWaiting State.modTenant
  dsimp only
  have hwork : (s.setTenant t ((s.tenant t).modRing prio (fun r => { r with waiting := [] }))).work = s.work := rfl
  generalize s.setTenant t ((s.tenant t).modRing prio (fun r => { r with waiting := [] })) = a at hset hwork ⊢
  have hframe := cancelAll_clauseFrame a (((s.tenant t).ring prio).waiting.map (waitingFlight a t prio))
  refine ⟨?_, by rw [← hwork]; exact hframe.resetFrame.flights, hframe.sessions.trans (by rw [hwork])⟩
  rw [besideMail_cancelAll _ (fun f hf => mem_map_waitingFlight hf) a (by rw [hset]; exact hclears), hset]

theorem Sublist_filter_nil {α : Type} {l l' : List α} {p : α → Bool} (h : l'.Sublist l) (hnil : l.filter p = []) : l'.filter p = [] :=
  List.sublist_nil.mp (hnil ▸ h.filter p)

/-- With no clause of the tenant in flight, clearing a ring is emptying it and beginning a new sentence. -/
theorem clearRing_eq {s : State} {t prio : Nat} (hnone : tenantFlights (cancelWaiting s t prio) t = []) :
    clearRing s t prio = ((cancelWaiting s t prio).modTenant t (fun x => x.modRing prio newSentence), []) := by
  unfold clearRing
  dsimp only
  generalize cancelWaiting s t prio = a at hnone ⊢
  have hmine : (a.modTenant t (fun x => x.modRing prio newSentence)).work.flights.filter (fun f => f.tenant = t ∧ f.prio = prio) = [] := by
    rw [modTenant_work]
    unfold tenantFlights at hnone
    rw [List.filter_eq_nil_iff] at hnone ⊢
    exact fun f hf h => hnone f hf (decide_eq_true (of_decide_eq_true h).1)
  rw [hmine]
  rfl

theorem modRing_modRing (x : Tenant) (p : Nat) (f g : SubRing → SubRing) : (x.modRing p f).modRing p g = x.modRing p (fun r => g (f r)) := by
  have hrings : modAt (modAt x.rings p f) p g = modAt x.rings p (fun r => g (f r)) := by
    unfold modAt
    rw [List.mapIdx_mapIdx]
    refine congrArg (fun h => x.rings.mapIdx h) (funext fun j => funext fun r => ?_)
    by_cases hj : j = p <;> simp [hj]
  exact congrArg (fun rs => { x with rings := rs }) hrings

theorem clearRing_ringGone {s : State} {t : Nat} (prio : Nat) (hclears : (s.tenant t).clears = []) (hnone : tenantFlights s t = []) :
    RingGone t (ringCleared (s.tenant t) prio) s (clearRing s t prio).1 ∧ (clearRing s t prio).2 = [] := by
  have hgone := cancelWaiting_ringGone prio hclears
  rw [clearRing_eq (Sublist_filter_nil hgone.flights hnone)]
  refine ⟨⟨?_, hgone.flights, hgone.sessions⟩, rfl⟩
  rw [(cancelWaiting s t prio).tenant_modTenant_same t (fun x => x.modRing prio newSentence)]
  refine (besideMail_modRing hgone.beside prio newSentence).trans (congrArg besideMail ?_)
  exact modRing_modRing _ _ _ _

/-- Nothing of the notice ring and of the host's memory has changed. -/
def RingUntouched (t : Nat) (s s' : State) : Prop :=
  noticeState (s'.tenant t) = noticeState (s.tenant t) ∧ s'.mem = s.mem ∧ s'.ports = s.ports ∧ s'.taps = s.taps

/-- A ring with nothing waiting is cleared without a notice. -/
theorem clearRing_untouched {s : State} {t prio : Nat} (hwaiting : ((s.tenant t).ring prio).waiting = []) (hnone : tenantFlights s t = []) :
    RingUntouched t s (clearRing s t prio).1 := by
  have hcancel : cancelWaiting s t prio = s.modTenant t (fun x => x.modRing prio (fun r => { r with waiting := [] })) := by
    unfold cancelWaiting
    rw [hwaiting]
    rfl
  rw [clearRing_eq (by rw [hcancel]; exact hnone), hcancel, State.modTenant, State.modTenant, s.tenant_setTenant_same, State.setTenant_setTenant]
  exact ⟨by rw [s.tenant_setTenant_same]; rfl, rfl, rfl, rfl⟩

/-- A pass over the rings that a QUEUE_CLEAR names: the states in turn and the clauses still running. -/
def clearPass (s : State) (t : Nat) (l : List Nat) (us : List Nat) : State × List Nat :=
  l.foldl (fun (a : State × List Nat) i => let b := clearRing a.1 t i; (b.1, a.2 ++ b.2)) (s, us)

theorem clearPass_cons (s : State) (t i : Nat) (l us : List Nat) :
    clearPass s t (i :: l) us = clearPass (clearRing s t i).1 t l (us ++ (clearRing s t i).2) := rfl

theorem RingGone.trans {t : Nat} {x y : Tenant} {a b c : State} (hab : RingGone t x a b) (hbc : RingGone t y b c) : RingGone t y a c :=
  ⟨hbc.beside, hbc.flights.trans hab.flights, hbc.sessions.trans hab.sessions⟩

theorem besideMail_foldl_ringCleared (l : List Nat) {x y : Tenant} (h : besideMail x = besideMail y) :
    besideMail (l.foldl ringCleared x) = besideMail (l.foldl ringCleared y) := by
  induction l generalizing x y with
  | nil => exact h
  | cons i l ih => exact ih (besideMail_modRing h i _)

theorem clearPass_ringGone (l : List Nat) (s : State) (t : Nat) (us : List Nat) (hclears : (s.tenant t).clears = [])
    (hnone : tenantFlights s t = []) : RingGone t (l.foldl ringCleared (s.tenant t)) s (clearPass s t l us).1 ∧ (clearPass s t l us).2 = us := by
  induction l generalizing s us with
  | nil => exact ⟨⟨rfl, List.Sublist.refl _, rfl⟩, rfl⟩
  | cons i l ih =>
    obtain ⟨hgone, hno⟩ := clearRing_ringGone i hclears hnone
    rw [clearPass_cons, hno, List.append_nil]
    generalize (clearRing s t i).1 = a at hgone ⊢
    obtain ⟨hrest, hsame⟩ := ih a us ((of_besideMail Tenant.clears (fun _ => rfl) hgone.beside).trans hclears) (Sublist_filter_nil hgone.flights hnone)
    exact ⟨⟨hrest.beside.trans (besideMail_foldl_ringCleared l hgone.beside), (hgone.trans hrest).flights, (hgone.trans hrest).sessions⟩, hsame⟩

/-- A ring after a pass over distinct rings. -/
theorem ring_foldl_ringCleared {l : List Nat} (hl : l.Nodup) (x : Tenant) (p : Nat) (hp : p < x.rings.length) :
    (l.foldl ringCleared x).ring p = if p ∈ l then newSentence { x.ring p with waiting := [] } else x.ring p := by
  induction l generalizing x with
  | nil => simp
  | cons i l ih =>
    obtain ⟨hi, hl⟩ := List.nodup_cons.mp hl
    have hlength : p < (ringCleared x i).rings.length := by
      unfold ringCleared Tenant.modRing modAt
      simpa using hp
    rw [List.foldl_cons, ih hl _ hlength]
    by_cases hpi : p = i
    · rw [hpi, if_neg hi, if_pos List.mem_cons_self]
      exact Tenant.ring_modRing_same x i _ (hpi ▸ hp)
    · have hkept : (ringCleared x i).ring p = x.ring p := Tenant.ring_modRing_other x i p _ hpi
      rw [hkept]
      simp [hpi]

theorem RingUntouched.trans {t : Nat} {a b c : State} (hab : RingUntouched t a b) (hbc : RingUntouched t b c) : RingUntouched t a c := by
  obtain ⟨hn, hm, hp, ht⟩ := hab
  obtain ⟨hn', hm', hp', ht'⟩ := hbc
  exact ⟨hn'.trans hn, hm'.trans hm, hp'.trans hp, ht'.trans ht⟩

theorem ring_of_besideMail {x y : Tenant} (h : besideMail x = besideMail y) (p : Nat) : x.ring p = y.ring p :=
  of_besideMail (fun z : Tenant => z.ring p) (fun _ => rfl) h

theorem foldl_ringCleared_only (l : List Nat) (x : Tenant) : ∃ rs, l.foldl ringCleared x = { x with rings := rs } := by
  refine foldl_keeps (fun y => ∃ rs, y = { x with rings := rs }) ringCleared (fun y i h => ?_) l x ⟨x.rings, rfl⟩
  obtain ⟨rs, rfl⟩ := h
  exact ⟨_, rfl⟩

theorem clearPass_untouched (l : List Nat) (hl : l.Nodup) (s : State) (t : Nat) (us : List Nat) (hclears : (s.tenant t).clears = [])
    (hnone : tenantFlights s t = []) (hwaiting : ∀ p ∈ l, ((s.tenant t).ring p).waiting = []) :
    RingUntouched t s (clearPass s t l us).1 := by
  induction l generalizing s us with
  | nil => exact ⟨rfl, rfl, rfl, rfl⟩
  | cons i l ih =>
    obtain ⟨hi, hl⟩ := List.nodup_cons.mp hl
    obtain ⟨hgone, -⟩ := clearRing_ringGone i hclears hnone
    have huntouched := clearRing_untouched (hwaiting i List.mem_cons_self) hnone
    rw [clearPass_cons]
    generalize (clearRing s t i).1 = a at hgone huntouched ⊢
    refine huntouched.trans (ih hl a _ ((of_besideMail Tenant.clears (fun _ => rfl) hgone.beside).trans hclears) (Sublist_filter_nil hgone.flights hnone)
      (fun p hp => ?_))
    have hring : (a.tenant t).ring p = (ringCleared (s.tenant t) i).ring p := ring_of_besideMail hgone.beside p
    rw [hring, ringCleared, Tenant.ring_modRing_other _ _ _ _ (fun h : p = i => hi (h ▸ hp))]
    exact hwaiting p (List.mem_cons_of_mem _ hp)

/-! ## QUEUE_CLEAR (R413, R414) -/

/-- The rings that a QUEUE_CLEAR names. -/
def clearedRings (m : List Word) : List Nat := (List.range 4).filter (fun i => bit (word m 0) i)

theorem mem_clearedRings {m : List Word} {p : Nat} : p ∈ clearedRings m ↔ p < 4 ∧ bit (word m 0) p = true := by
  rw [clearedRings, List.mem_filter, List.mem_range]

theorem clearedRings_nodup (m : List Word) : (clearedRings m).Nodup := List.nodup_range.filter _

/-- A tenant whose QUEUE_CLEAR is done but for its REPLY. -/
def clearedTenant (x : Tenant) (classes : Nat) : Tenant := { x with clears := [], halted := x.halted &&& ~~~(BitVec.ofNat 4 classes) }

/-- A QUEUE_CLEAR that waits for no clause is done. -/
theorem finishClears_of_single {s : State} {t : Nat} {seq classes : Nat} (h : (s.tenant t).clears = [(seq, classes, [])]) :
    finishClears s t = replyOk (s.setTenant t (clearedTenant (s.tenant t) classes)) t seq 0x05 := by
  have hdone : (s.tenant t).clears.erase (seq, classes, []) = [] := by rw [h]; simp
  unfold finishClears
  rw [h]
  refine Eq.trans (b := clearDone s t (seq, classes, [])) rfl ?_
  unfold clearDone State.modTenant clearedTenant
  dsimp only
  rw [hdone]

/-- With nothing in flight QUEUE_CLEAR answers at once. -/
theorem queueClear_eq {s : State} {t : Nat} {m : List Word} (hclears : (s.tenant t).clears = []) (hnone : tenantFlights s t = []) :
    queueClear t s m = replyOk ((clearPass s t (clearedRings m) []).1.setTenant t
      (clearedTenant ((clearPass s t (clearedRings m) []).1.tenant t) (bits (word m 0) 3 0))) t (mSeq m) 0x05 := by
  obtain ⟨hgone, hno⟩ := clearPass_ringGone (clearedRings m) s t [] hclears hnone
  have hunfold : queueClear t s m = finishClears ((clearPass s t (clearedRings m) []).1.modTenant t
      (fun x => { x with clears := x.clears ++ [(mSeq m, bits (word m 0) 3 0, (clearPass s t (clearedRings m) []).2)] })) t := rfl
  rw [hunfold, hno]
  generalize (clearPass s t (clearedRings m) []).1 = a at hgone ⊢
  have hnoclear : (a.tenant t).clears = [] := by
    obtain ⟨rs, heq⟩ := foldl_ringCleared_only (clearedRings m) (s.tenant t)
    exact (of_besideMail Tenant.clears (fun _ => rfl) hgone.beside).trans ((congrArg Tenant.clears heq).trans hclears)
  have hset := a.tenant_modTenant_same t (fun x => { x with clears := x.clears ++ [(mSeq m, bits (word m 0) 3 0, [])] })
  rw [finishClears_of_single (by rw [hset, hnoclear]; rfl), hset, State.modTenant, State.setTenant_setTenant]
  rfl

/-- What QUEUE_CLEAR comes to when nothing of the tenant is in flight. -/
theorem queueClear_effect {s : State} {t : Nat} {m : List Word} (hclears : (s.tenant t).clears = []) (hnone : tenantFlights s t = []) :
    besideMail ((queueClear t s m).tenant t)
        = besideMail (clearedTenant ((clearedRings m).foldl ringCleared (s.tenant t)) (bits (word m 0) 3 0))
      ∧ (queueClear t s m).work.flights.Sublist s.work.flights ∧ (queueClear t s m).work.sessions = s.work.sessions
      ∧ ((∀ p ∈ clearedRings m, ((s.tenant t).ring p).waiting = []) → CanNotify s t →
          Notified s (queueClear t s m) t (replyNotice (mSeq m) 0 0x05 0 0 0 0)) := by
  obtain ⟨hgone, -⟩ := clearPass_ringGone (clearedRings m) s t [] hclears hnone
  have huntouched := clearPass_untouched (clearedRings m) (clearedRings_nodup m) s t [] hclears hnone
  rw [queueClear_eq hclears hnone]
  generalize (clearPass s t (clearedRings m) []).1 = a at hgone huntouched ⊢
  have hwork := (reply_mailFrame (a.setTenant t (clearedTenant (a.tenant t) (bits (word m 0) 3 0))) t (mSeq m) 0x05 0 0 0 0 0).work
  refine ⟨?_, ?_, ?_, fun hwaiting hcan => ?_⟩
  · refine (besideMail_reply _ _ _ _ _ _ _ _ _ _).trans ?_
    rw [a.tenant_setTenant_same]
    exact congrArg (fun x => clearedTenant x (bits (word m 0) 3 0)) hgone.beside
  · rw [replyOk, hwork]; exact hgone.flights
  · rw [replyOk, hwork]; exact hgone.sessions
  · obtain ⟨hstate, -, hports, htaps⟩ := huntouched hwaiting
    obtain ⟨hnotified, -⟩ := reply_writes_setTenant (x := clearedTenant (a.tenant t) (bits (word m 0) 3 0)) rfl
      (mSeq m) 0x05 0 0 0 0 0 (canNotify_congr hstate hports htaps hcan)
    exact notified_congr (ringPlace_of_noticeState hstate) hnotified

/-- The HALTED bits that stand after a QUEUE_CLEAR. -/
theorem bit_halted_clear (h : BitVec 4) (w : Nat) (p : Fin 4) :
    bit (h &&& ~~~(BitVec.ofNat 4 (bits w 3 0))).toNat p = (bit h.toNat p && !bit w p) := by
  have hlow : bit w p = bit (w % 16) p := by
    unfold bit
    fin_cases p <;> simp <;> omega
  have hbits : bits w 3 0 = w % 16 := by unfold bits; simp
  rw [hlow, hbits]
  clear hlow hbits
  have hw : w % 16 < 16 := Nat.mod_lt _ (by decide)
  generalize w % 16 = v at hw ⊢
  revert h p
  interval_cases v <;> decide

/-- A tenant whose message QUEUE_CLEAR has been carried out. -/
theorem besideMail_clearedTenant_fields {x y : Tenant} {l : List Nat} {classes : Nat}
    (h : besideMail y = besideMail (clearedTenant (l.foldl ringCleared x) classes)) :
    inbox y = inbox x ∧ y.counters = x.counters ∧ y.halted = x.halted &&& ~~~(BitVec.ofNat 4 classes)
      ∧ ∀ p, y.ring p = (l.foldl ringCleared x).ring p := by
  have hrings := ring_of_besideMail (y := clearedTenant (l.foldl ringCleared x) classes) h
  obtain ⟨rs, heq⟩ := foldl_ringCleared_only l x
  rw [heq] at h hrings ⊢
  have hof := fun {α : Type} (g : Tenant → α) hg => of_besideMail g hg h
  exact ⟨hof inbox (fun _ => rfl), hof Tenant.counters (fun _ => rfl), hof Tenant.halted (fun _ => rfl), hrings⟩

theorem queueClear_clears (t : Fin 16) (m : List Word) (s : State) (h : AtHead s t m 0x05) (hclean : payloadClean m [0xF] = true)
    (hnone : tenantFlights s t = []) (hlength : (s.tenant t).rings.length = 4) (hclears : (s.tenant t).clears = []) :
    ∃ s', exec (.queueClear t) s = .next s' ∧ Consumed s' t m
      ∧ (∀ p : Fin 4, bit (word m 0) p = true → ((s'.tenant t).ring p).waiting = [] ∧ ((s'.tenant t).ring p).binds = []
          ∧ ((s'.tenant t).ring p).atStart = true ∧ ((s'.tenant t).ring p).sentence = ((s.tenant t).ring p).sentence + 1
          ∧ bit (s'.tenant t).halted.toNat p = false)
      ∧ (∀ p : Fin 4, bit (word m 0) p = false → (s'.tenant t).ring p = (s.tenant t).ring p
          ∧ bit (s'.tenant t).halted.toNat p = bit (s.tenant t).halted.toNat p)
      ∧ s'.work.flights.filter (fun f => f.tenant = t.val) = [] ∧ (s'.tenant t).counters = (s.tenant t).counters
      ∧ s'.work.sessions = s.work.sessions
      ∧ ((∀ p : Fin 4, ((s.tenant t).ring p).waiting = []) → CanNotify s t →
          Notified s s' t (replyNotice (mSeq m) 0 0x05 0 0 0 0)) := by
  have hstarted := headStarted_tenant_same s t m
  have hplace := ringPlace_of_noticeState (noticeState_headStarted s t m)
  obtain ⟨hbeside, hflights, hsessions, hnotified⟩ := queueClear_effect (s := headStarted s t m) (t := t) (m := m)
    (by rw [hstarted]; exact hclears) hnone
  have hclean' := cleanOnly_of_clean t (queueClear t) (headStarted s t m) hclean
  rw [hstarted] at hbeside hnotified
  obtain ⟨hinbox, hcounters, hhalted, hrings⟩ := besideMail_clearedTenant_fields hbeside
  obtain ⟨hexec, hconsumed⟩ := onMessage_of_effect (f := cleanOnly t [0xF] (queueClear t)) h (by rw [hclean', hinbox, hstarted])
  rw [hclean'] at hexec hconsumed
  have hhaltedBit := fun p : Fin 4 => bit_halted_clear (s.tenant t).halted (word m 0) p
  have hringsOf := fun p : Fin 4 => (hrings p).trans (ring_foldl_ringCleared (clearedRings_nodup m) (startedTenant (s.tenant t) m) p
    (by rw [show (startedTenant (s.tenant t) m).rings = (s.tenant t).rings from rfl, hlength]; exact p.isLt))
  refine ⟨_, hexec, hconsumed, fun p hp => ?_, fun p hp => ?_, Sublist_filter_nil hflights hnone, hcounters, hsessions, fun hwaiting hcan => ?_⟩
  · rw [hringsOf, if_pos (mem_clearedRings.mpr ⟨p.isLt, hp⟩), hhalted]
    exact ⟨rfl, rfl, rfl, rfl, (hhaltedBit p).trans (by rw [hp]; simp)⟩
  · have hout : p.val ∉ clearedRings m := fun hin => by
      rw [(mem_clearedRings.mp hin).2] at hp
      exact Bool.false_ne_true hp.symm
    rw [hringsOf, if_neg hout, hhalted]
    exact ⟨rfl, (hhaltedBit p).trans (by rw [hp]; simp)⟩
  · refine notified_congr hplace (hnotified (fun p hp => hwaiting ⟨p, (mem_clearedRings.mp hp).1⟩) ?_)
    exact canNotify_congr (noticeState_headStarted s t m) rfl rfl hcan

/-! ## Sessions (R410, R411) -/

theorem replyRejected_eq (s : State) (t seq type reason : Nat) : replyRejected s t seq type reason = reply s t seq type 1 reason 0 0 0 := rfl

/-- A message whose only effect is on sessions and its own REPLY. -/
theorem onMessage_sessions {s a : State} {t : Nat} {m : List Word} {type status reason index : Nat} {f : State → List Word → State}
    (h : AtHead s t m type) (hcan : CanNotify s t) (heffect : f (headStarted s t m) m = reply a t (mSeq m) type status reason index 0 0)
    (ha : ∃ w mr, a = { headStarted s t m with work := w, mirror := mr }) :
    ∃ s', onMessage s t type f = .next s' ∧ Consumed s' t m ∧ Notified s s' t (replyNotice (mSeq m) status type reason index 0 0)
      ∧ s'.work = a.work := by
  have htenant : ∀ u, a.tenant u = (headStarted s t m).tenant u := by obtain ⟨w, mr, rfl⟩ := ha; exact fun _ => rfl
  have hports : a.ports = s.ports := by obtain ⟨w, mr, rfl⟩ := ha; rfl
  have htaps : a.taps = s.taps := by obtain ⟨w, mr, rfl⟩ := ha; rfl
  have hstate : noticeState (a.tenant t) = noticeState (s.tenant t) := by rw [htenant]; exact noticeState_headStarted s t m
  obtain ⟨hnotified, -, -, -, -, hafter⟩ := reply_writes (mSeq m) type status reason index 0 0 (canNotify_congr hstate hports htaps hcan)
  have hwork := (reply_mailFrame a t (mSeq m) type status reason index 0 0).work
  obtain ⟨hexec, hconsumed⟩ := onMessage_of_effect (f := f) h (by rw [heffect, hafter, htenant]; rfl)
  rw [heffect] at hexec hconsumed
  exact ⟨_, hexec, hconsumed, notified_congr (ringPlace_of_noticeState hstate) hnotified, hwork⟩

theorem find_free_session {s : State} {i : Nat} (hi : i < 256) (hfree : (s.session i).openFlag = false)
    (hbelow : ∀ j, j < i → (s.session j).openFlag = true) : (List.range 256).find? (fun i => !(s.session i).openFlag) = some i := by
  rw [List.find?_range_eq_some]
  exact ⟨by rw [hfree]; rfl, List.mem_range.mpr hi, fun j hj => by rw [hbelow j hj]; rfl⟩

theorem find_no_session {s : State} (hfull : ∀ j, j < 256 → (s.session j).openFlag = true) :
    (List.range 256).find? (fun i => !(s.session i).openFlag) = none := by
  rw [List.find?_range_eq_none]
  exact fun j hj => by rw [hfull j hj]; rfl

theorem session_of_work {s a : State} (h : s.work = a.work) (j : Nat) : s.session j = a.session j :=
  congrArg (fun w : Work => tget ({} : Session) w.sessions j) h

theorem session_set_same (s : State) (i : Nat) (x : Session) : (s.setSessions (tset {} s.work.sessions i x)).session i = x :=
  tget_tset_same _ _ _ _

theorem session_set_other (s : State) (i : Nat) (x : Session) {j : Nat} (h : j ≠ i) :
    (s.setSessions (tset {} s.work.sessions i x)).session j = s.session j := tget_tset_other _ _ _ _ _ h

section
variable {t : Fin 16} {m : List Word} {s : State}

/-- A SESSION_OPEN that passes its checks takes the first free session, or finds none. -/
theorem sessionOpen_eq {off : Nat} (hdeadline : bits (word m 0) 7 0 < 8) (haddress : ownDdr s (dword m 1) = some off) (haligned : off % 256 = 0)
    (hin : inGranules (s.tenant t) off (word m 3) = true) :
    (∀ i, (List.range 256).find? (fun i => !(s.session i).openFlag) = some i →
      sessionOpen t s m = reply (s.setSessions (tset {} s.work.sessions i
          { openFlag := true, tenant := t, deadline := bits (word m 0) 7 0, stateBase := off, stateSize := word m 3 }))
        t (mSeq m) 0x07 0 0 i 0 0)
    ∧ ((List.range 256).find? (fun i => !(s.session i).openFlag) = none → sessionOpen t s m = reply s t (mSeq m) 0x07 1 rNoSession 0 0 0) := by
  have hchecks : (decide (off % 256 ≠ 0) || !inGranules (s.tenant t) off (word m 3)) = false := by rw [hin]; simpa using haligned
  refine ⟨fun i hfind => ?_, fun hfind => ?_⟩
  all_goals
    unfold sessionOpen
    dsimp only
    rw [if_neg (Nat.not_le.mpr hdeadline), haddress]
    dsimp only
    rw [hchecks, if_neg Bool.false_ne_true, hfind]
  rfl

theorem inGranules_headStarted (off n : Nat) : inGranules ((headStarted s t m).tenant t) off n = inGranules (s.tenant t) off n := by
  rw [headStarted_tenant_same]
  rfl

theorem sessionOpen_answers (hcan : CanNotify s t) {off : Nat} (h : AtHead s t m 0x07)
    (hclean : payloadClean m [0xFF, 0xFFFFFFFF, 0xFFFFFFFF, 0xFFFFFFFF] = true) (hdeadline : bits (word m 0) 7 0 < 8)
    (haddress : ownDdr s (dword m 1) = some off) (haligned : off % 256 = 0) (hin : inGranules (s.tenant t) off (word m 3) = true) :
    (∀ i, i < 256 → (s.session i).openFlag = false → (∀ j, j < i → (s.session j).openFlag = true) →
        ∃ s', exec (.sessionOpen t) s = .next s' ∧ Consumed s' t m ∧ Notified s s' t (replyNotice (mSeq m) 0 0x07 0 i 0 0)
          ∧ s'.session i = { openFlag := true, tenant := t, deadline := bits (word m 0) 7 0, stateBase := off, stateSize := word m 3 }
          ∧ ∀ j, j ≠ i → s'.session j = s.session j)
      ∧ ((∀ j, j < 256 → (s.session j).openFlag = true) →
        ∃ s', exec (.sessionOpen t) s = .next s' ∧ Consumed s' t m ∧ s'.work = s.work
          ∧ Notified s s' t (replyNotice (mSeq m) 1 0x07 0x0205 0 0 0)) := by
  obtain ⟨hopens, hrefuses⟩ := sessionOpen_eq (s := headStarted s t m) hdeadline haddress haligned ((inGranules_headStarted off _).trans hin)
  have hclean' := cleanOnly_of_clean t (sessionOpen t) (headStarted s t m) hclean
  refine ⟨fun i hi hfree hbelow => ?_, fun hfull => ?_⟩
  · obtain ⟨s', hexec, hconsumed, hnotified, hwork⟩ := onMessage_sessions h hcan
      (hclean'.trans (hopens i (find_free_session hi hfree hbelow))) ⟨_, _, rfl⟩
    have hsession := fun j => session_of_work hwork j
    exact ⟨s', hexec, hconsumed, hnotified, (hsession i).trans (session_set_same (headStarted s t m) i _),
      fun j hj => (hsession j).trans (session_set_other (headStarted s t m) i _ hj)⟩
  · obtain ⟨s', hexec, hconsumed, hnotified, hwork⟩ := onMessage_sessions h hcan (hclean'.trans (hrefuses (find_no_session hfull))) ⟨_, _, rfl⟩
    exact ⟨s', hexec, hconsumed, hwork, hnotified⟩

theorem sessionClose_answers (hcan : CanNotify s t) (h : AtHead s t m 0x08) (hclean : payloadClean m [0xFF] = true) {i : Nat}
    (hi : bits (word m 0) 7 0 = i) :
    ((s.session i).openFlag = true → (s.session i).tenant = t →
        (∀ f ∈ s.work.flights, cSessionEn f.words = true → cSession f.words ≠ i) →
        ∃ s', exec (.sessionClose t) s = .next s' ∧ Consumed s' t m ∧ Notified s s' t (replyNotice (mSeq m) 0 0x08 0 0 0 0)
          ∧ (s'.session i).openFlag = false ∧ ∀ j, j ≠ i → s'.session j = s.session j)
      ∧ (((s.session i).openFlag = false ∨ (s.session i).tenant ≠ t) →
        ∃ s', exec (.sessionClose t) s = .next s' ∧ Consumed s' t m ∧ s'.work = s.work
          ∧ Notified s s' t (replyNotice (mSeq m) 1 0x08 0x0205 0 0 0)) := by
  have hclean' := cleanOnly_of_clean t (sessionClose t) (headStarted s t m) hclean
  have hsession : ∀ j, (headStarted s t m).session j = s.session j := fun _ => rfl
  refine ⟨fun hopen hmine hunused => ?_, fun hother => ?_⟩
  · have heffect : sessionClose t (headStarted s t m) m = reply (closeSession (headStarted s t m) i) t (mSeq m) 0x08 0 0 0 0 0 := by
      have hnone : s.work.flights.any (fun f => cSessionEn f.words && decide (cSession f.words = i)) = false := by
        rw [List.any_eq_false]
        intro f hf hin
        obtain ⟨hen, hsession⟩ := Bool.and_eq_true_iff.mp hin
        exact hunused f hf hen (of_decide_eq_true hsession)
      unfold sessionClose
      dsimp only
      rw [hi, hsession, hopen, decide_eq_true hmine, if_neg (by decide)]
      refine (if_neg ?_).trans rfl
      exact Bool.eq_false_iff.mp hnone
    obtain ⟨s', hexec, hconsumed, hnotified, hwork⟩ := onMessage_sessions h hcan (hclean'.trans heffect) ⟨_, _, rfl⟩
    have hsession := fun j => session_of_work hwork j
    exact ⟨s', hexec, hconsumed, hnotified, congrArg Session.openFlag ((hsession i).trans (session_set_same (headStarted s t m) i _)),
      fun j hj => (hsession j).trans (session_set_other (headStarted s t m) i _ hj)⟩
  · have heffect : sessionClose t (headStarted s t m) m = reply (headStarted s t m) t (mSeq m) 0x08 1 rNoSession 0 0 0 := by
      have hnot : ((s.session i).openFlag && decide ((s.session i).tenant = t)) = false := by
        rcases hother with hclosed | hother
        · rw [hclosed]; rfl
        · rw [decide_eq_false hother, Bool.and_false]
      unfold sessionClose
      dsimp only
      rw [hi, hsession, hnot]
      rfl
    obtain ⟨s', hexec, hconsumed, hnotified, hwork⟩ := onMessage_sessions h hcan (hclean'.trans heffect) ⟨_, _, rfl⟩
    exact ⟨s', hexec, hconsumed, hwork, hnotified⟩

end

/-- Settles O13: QUEUE_CLEAR opens the rings it names, and sessions are opened and closed. -/
theorem queueClearAndSessions : Obligations.QueueClearAndSessions :=
  ⟨queueClear_clears, fun _ _ _ hcan => ⟨fun _ h hclean hdeadline haddress haligned hin =>
    sessionOpen_answers hcan h hclean hdeadline haddress haligned hin, fun h hclean => sessionClose_answers hcan h hclean rfl⟩⟩

end Sys2Proof.Machine

/-!
TENANT_CONFIG (R445, R533, R534): it is taken up with nothing of memory changed, and when it is done its settings hold and every granule that
it adds reads zero.
-/

namespace Sys2Proof.Machine

/-! ## It is taken up -/

theorem settleConfig_keeps (x : Tenant) :
    inbox (settleConfig x) = inbox x ∧ (settleConfig x).configuring = x.configuring ∧ (settleConfig x).granuleFirst = x.granuleFirst := by
  unfold settleConfig
  split <;> exact ⟨rfl, rfl, rfl⟩

/-- What a configuration's own reset leaves of the tenants and of DDR. -/
structure ConfigKept (s s' : State) : Prop where
  ddr : s'.mem.ddr = s.mem.ddr
  inbox : ∀ v, inbox (s'.tenant v) = inbox (s.tenant v)
  configuring : ∀ v, (s'.tenant v).configuring = (s.tenant v).configuring
  granuleFirst : ∀ v, (s'.tenant v).granuleFirst = (s.tenant v).granuleFirst

theorem ConfigKept.trans {a b c : State} (hab : ConfigKept a b) (hbc : ConfigKept b c) : ConfigKept a c :=
  ⟨hbc.ddr.trans hab.ddr, fun v => (hbc.inbox v).trans (hab.inbox v), fun v => (hbc.configuring v).trans (hab.configuring v),
    fun v => (hbc.granuleFirst v).trans (hab.granuleFirst v)⟩

theorem ResetFrame.configKept {s s' : State} (h : ResetFrame s s') : ConfigKept s s' :=
  ⟨h.ddr, fun v => inbox_of_standing (h.tenants v), fun v => (standing_parts (h.tenants v)).2.2.2.2.1,
    fun v => (standing_parts (h.tenants v)).2.2.2.2.2.2.2⟩

theorem setTenant_configKept {s : State} {t : Nat} {x : Tenant}
    (hx : Machine.inbox x = Machine.inbox (s.tenant t) ∧ x.configuring = (s.tenant t).configuring ∧ x.granuleFirst = (s.tenant t).granuleFirst) :
    ConfigKept s (s.setTenant t x) := by
  obtain ⟨hinbox, hconfiguring, hgranules⟩ := hx
  refine ⟨rfl, fun v => ?_, fun v => ?_, fun v => ?_⟩
  all_goals
    by_cases hv : v = t
    · rw [hv, s.tenant_setTenant_same]; assumption
    · rw [s.tenant_setTenant_other t v x hv]

theorem requestReset_config_kept (s : State) (t : Nat) : ConfigKept s (requestReset s t .configReset) := by
  unfold requestReset
  split
  · have hbumped : ConfigKept s (bumpEpoch s t) := setTenant_configKept ⟨rfl, rfl, rfl⟩
    have hreset := (resetTenantEffects_frame (bumpEpoch s t) t).configKept
    have happly : applyDeferred s t .configReset = (resetTenantEffects (bumpEpoch s t) t).setTenant t
        (settleConfig ((resetTenantEffects (bumpEpoch s t) t).tenant t)) := rfl
    rw [happly]
    exact (hbumped.trans hreset).trans (setTenant_configKept (settleConfig_keeps _))
  · exact setTenant_configKept ⟨rfl, rfl, rfl⟩

/-- A configuration that passes its checks, of a tenant without a plan. -/
theorem tenantConfig_taken {s : State} {u : Nat} {m : List Word} (hu : bits (word m 0) 3 0 = u)
    (htimeout : (settingsOf m).timeout = 0 ∨ (10 ≤ (settingsOf m).timeout ∧ (settingsOf m).timeout ≤ 800))
    (hgood : badGranules s u (settingsOf m) = false) (hplan : (s.tenant u).plan = none) :
    ConfigKept (s.setTenant u { s.tenant u with configuring := some (mSeq m, settingsOf m) }) (tenantConfig s m) := by
  unfold tenantConfig
  dsimp only
  rw [hu, if_neg (fun h => htimeout.elim h.1 h.2), hgood, if_neg Bool.false_ne_true, hplan, if_neg (by decide)]
  split
  · exact requestReset_config_kept _ u
  · exact (ResetFrame.refl _).configKept

theorem tenantConfig_busy {s : State} {u : Nat} {m : List Word} (hu : bits (word m 0) 3 0 = u)
    (htimeout : (settingsOf m).timeout = 0 ∨ (10 ≤ (settingsOf m).timeout ∧ (settingsOf m).timeout ≤ 800))
    (hgood : badGranules s u (settingsOf m) = false) (hplan : (s.tenant u).plan ≠ none) :
    tenantConfig s m = reply s 0 (mSeq m) 0x0B 1 rBusy 0 0 0 := by
  unfold tenantConfig
  dsimp only
  rw [hu, if_neg (fun h => htimeout.elim h.1 h.2), hgood, if_neg Bool.false_ne_true, if_pos (Option.isSome_iff_ne_none.mpr hplan)]
  rfl

/-- The message reaches tenantConfig when no other one is in progress. -/
theorem configMessage_eq {s : State} {u : Nat} {m : List Word} (hu : bits (word m 0) 3 0 = u)
    (hclean : payloadClean m [0x30F, 0xFFFF000F, 0x3FF, 0x0FFF0FFF, 0x3] = true) (hfree : (s.tenant u).configuring = none) :
    adminOnly 0 (cleanOnly 0 [0x30F, 0xFFFF000F, 0x3FF, 0x0FFF0FFF, 0x3] queueConfig) s m = tenantConfig s m := by
  refine (if_neg (by decide)).trans ((cleanOnly_of_clean 0 _ _ hclean).trans ?_)
  unfold queueConfig
  dsimp only
  rw [hu, hfree, if_neg (by decide)]

theorem configuring_headStarted (s : State) (t : Nat) (m : List Word) (u : Nat) :
    ((headStarted s t m).tenant u).configuring = (s.tenant u).configuring ∧ ((headStarted s t m).tenant u).plan = (s.tenant u).plan
      ∧ ((headStarted s t m).tenant u).granuleFirst = (s.tenant u).granuleFirst := by
  by_cases hu : u = t
  · rw [hu, headStarted_tenant_same]; exact ⟨rfl, rfl, rfl⟩
  · rw [headStarted_tenant_other s t m hu]; exact ⟨rfl, rfl, rfl⟩

theorem headStarted_eq (s : State) (t : Nat) (m : List Word) : noteStarted (acceptHead s t m) t m = headStarted s t m := by
  rw [noteStarted, acceptHead_eq, State.modTenant_setTenant]
  rfl

theorem TenantMail.configuring {x y : Tenant} (h : TenantMail x y) : y.configuring = x.configuring := by
  obtain ⟨_, _, _, _, _, _, _, _, _, _, _, _, rfl⟩ := h
  rfl

theorem tenantConfig_answers (u : Fin 16) (m : List Word) (s : State) (h : AtHead s 0 m 0x0B)
    (hclean : payloadClean m [0x30F, 0xFFFF000F, 0x3FF, 0x0FFF0FFF, 0x3] = true) (hu : bits (word m 0) 3 0 = u)
    (hfree : (s.tenant u).configuring = none)
    (htimeout : (settingsOf m).timeout = 0 ∨ (10 ≤ (settingsOf m).timeout ∧ (settingsOf m).timeout ≤ 800))
    (hgood : badGranules (noteStarted (acceptHead s 0 m) 0 m) u (settingsOf m) = false) :
    ((s.tenant u).plan = none →
        ∃ s', exec (.tenantConfig 0) s = .next s' ∧ Consumed s' 0 m ∧ (s'.tenant u).configuring = some (mSeq m, settingsOf m)
          ∧ (s'.tenant u).granuleFirst = (s.tenant u).granuleFirst ∧ s'.mem.ddr = s.mem.ddr)
      ∧ ((s.tenant u).plan ≠ none → CanNotify s 0 →
        ∃ s', exec (.tenantConfig 0) s = .next s' ∧ Consumed s' 0 m ∧ (s'.tenant u).configuring = none
          ∧ Notified s s' 0 (replyNotice (mSeq m) 1 0x0B 0x0201 0 0 0)) := by
  obtain ⟨hconfiguring, hplanned, hgranules⟩ := configuring_headStarted s 0 m u
  rw [headStarted_eq] at hgood
  have heffect := configMessage_eq hu hclean (hconfiguring.trans hfree)
  refine ⟨fun hplan => ?_, fun hplan hcan => ?_⟩
  · have hset := (headStarted s 0 m).tenant_setTenant_same u { (headStarted s 0 m).tenant u with configuring := some (mSeq m, settingsOf m) }
    have hkept := tenantConfig_taken hu htimeout hgood (hplanned.trans hplan)
    have hinbox : inbox (((headStarted s 0 m).setTenant u
        { (headStarted s 0 m).tenant u with configuring := some (mSeq m, settingsOf m) }).tenant 0) = inbox ((headStarted s 0 m).tenant 0) :=
      (setTenant_fieldKept 0 (headStarted s 0 m) u _ (by rfl)).inbox 0
    obtain ⟨hexec, hconsumed⟩ := onMessage_of_effect (t := 0) h ((congrArg (fun a : State => inbox (a.tenant 0)) heffect).trans
      ((hkept.inbox 0).trans hinbox))
    rw [heffect] at hexec hconsumed
    exact ⟨_, hexec, hconsumed, (hkept.configuring u).trans (congrArg Tenant.configuring hset),
      (hkept.granuleFirst u).trans ((congrArg Tenant.granuleFirst hset).trans hgranules), hkept.ddr⟩
  · have hbusy := heffect.trans (tenantConfig_busy hu htimeout hgood (by rw [hplanned]; exact hplan))
    obtain ⟨s', hexec, hanswered⟩ := onMessage_replied h hcan hbusy
    exact ⟨s', hexec, hanswered.consumed, (hanswered.frame.tenants u).configuring.trans (hconfiguring.trans hfree), hanswered.notified⟩

/-! ## It is done (R534, R530) -/

theorem foldl_zeroGranule_only (l : List Nat) (s : State) :
    ∃ d ps, l.foldl zeroGranule s = { s with mem := { s.mem with ddr := d, poisoned := ps } } := by
  refine foldl_keeps (fun a => ∃ d ps, a = { s with mem := { s.mem with ddr := d, poisoned := ps } }) zeroGranule (fun a g h => ?_) l s
    ⟨s.mem.ddr, s.mem.poisoned, rfl⟩
  obtain ⟨d, ps, rfl⟩ := h
  exact ⟨_, _, rfl⟩

/-- DDR after granules have been zeroed. -/
theorem tget_foldl_zeroGranule (l : List Nat) (s : State) (a : Nat) :
    tget 0 (l.foldl zeroGranule s).mem.ddr a = if a / 2 ^ 30 ∈ l then 0 else tget 0 s.mem.ddr a := by
  induction l generalizing s with
  | nil => simp
  | cons g l ih =>
    have hzero : tget 0 (zeroGranule s g).mem.ddr a = if a / 2 ^ 30 = g then 0 else tget 0 s.mem.ddr a := by
      refine (tget_clearRun 0 s.mem.ddr (g * 2 ^ 30) (2 ^ 30) a).trans (if_congr ?_ rfl rfl)
      omega
    rw [List.foldl_cons, ih, hzero]
    generalize a / 2 ^ 30 = q
    by_cases hq : q ∈ l
    · rw [if_pos hq, if_pos (List.mem_cons_of_mem g hq)]
    · rw [if_neg hq]
      exact if_congr (by simp [hq]) rfl rfl

theorem poisoned_foldl_zeroGranule (l : List Nat) (s : State) : ∀ x ∈ (l.foldl zeroGranule s).mem.poisoned, x / 2 ^ 24 ∉ l := by
  intro x hx hin
  refine foldl_establishes zeroGranule (fun s g => ∀ x ∈ s.mem.poisoned, x / 2 ^ 24 ≠ g) (fun s g x hx heq => ?_)
    (fun s g c hc x hx => ?_) s hin x hx rfl
  · have h := of_decide_eq_true (List.mem_filter.mp hx).2
    omega
  · exact hc x (List.mem_filter.mp hx).1

/-- A tenant with the settings of its configuration in force, but for its port. -/
def settledTenant (x : Tenant) (st : Settings) : Tenant :=
  { x with
    configuring := none, enabled := st.enable, bl := st.bl, wakeMask := st.wakeMask, idleDormant := st.idleDormant,
    timeout := st.timeout, granuleFirst := st.granuleFirst, granuleCount := st.granuleCount }

/-- The state of a configuration before its settings hold: the granules that it adds are zero, sessions outside are closed. -/
def configCleared (s : State) (u : Nat) (st : Settings) : State := closeOutside ((addedGranules (s.tenant u) st).foldl zeroGranule s) u st

theorem configCleared_only (s : State) (u : Nat) (st : Settings) :
    ∃ w mr, configCleared s u st = { (addedGranules (s.tenant u) st).foldl zeroGranule s with work := w, mirror := mr } := ⟨_, _, rfl⟩

theorem execTenantConfigDone_eq {u : Fin 16} {seq : Nat} {st : Settings} {s : State} (hconfig : (s.tenant u).configuring = some (seq, st))
    (hdeferred : (s.tenant u).deferred = []) {a : State}
    (ha : ((replyOk ((configCleared s u st).modTenant u (fun x => settledTenant x st)) 0 seq 0x0B).modTenant u
      (fun x => rebind x st.hostPort)) = a) (hcopied : (a.tenant u).copied = []) (hnone : (a.tenant u).configQueue = []) :
    exec (.tenantConfigDone u) s = .next a := by
  refine Eq.trans (b := execTenantConfigDone u s) rfl ?_
  unfold execTenantConfigDone
  dsimp only
  rw [hconfig]
  dsimp only
  rw [hdeferred, if_neg (by decide)]
  refine congrArg Host.Outcome.next ?_
  refine Eq.trans (b := nextConfigs (settleAll a u) u ((s.tenant u).configQueue.length + 1)) (by rw [← ha]; rfl) ?_
  rw [settleAll_of_none_copied hcopied]
  unfold nextConfigs
  dsimp only
  rw [hnone]

/-- Another port changes nothing of what a notice shows. -/
theorem notified_modTenant {s r : State} {t u : Nat} {g : Tenant → Tenant} {body : List Byte}
    (hg : ∀ x, (g x).tail = x.tail ∧ (g x).tailPhase = x.tailPhase) (h : Notified s r t body) : Notified s (r.modTenant u g) t body := by
  obtain ⟨hread, htail, hphase⟩ := h
  have htenant : ((r.modTenant u g).tenant t).tail = (r.tenant t).tail ∧ ((r.modTenant u g).tenant t).tailPhase = (r.tenant t).tailPhase := by
    by_cases ht : t = u
    · rw [ht, r.tenant_modTenant_same u g]; exact hg _
    · rw [State.modTenant, r.tenant_setTenant_other u t _ ht]; exact ⟨rfl, rfl⟩
  exact ⟨hread, htenant.1.trans htail, htenant.2.trans hphase⟩

theorem noticeState_modTenant {s : State} {u : Nat} {g : Tenant → Tenant} (hg : ∀ x, noticeState (g x) = noticeState x) (t : Nat) :
    noticeState ((s.modTenant u g).tenant t) = noticeState (s.tenant t) := by
  by_cases ht : t = u
  · rw [ht, s.tenant_modTenant_same u g]; exact hg _
  · rw [State.modTenant, s.tenant_setTenant_other u t _ ht]

theorem configCleared_facts (s : State) (u : Nat) (st : Settings) :
    (∀ t, (configCleared s u st).tenant t = s.tenant t) ∧ (configCleared s u st).ports = s.ports ∧ (configCleared s u st).taps = s.taps
      ∧ (∀ g ∈ addedGranules (s.tenant u) st, (∀ i, i < 2 ^ 30 → tget 0 (configCleared s u st).mem.ddr (g * 2 ^ 30 + i) = 0)
            ∧ ∀ l ∈ (configCleared s u st).mem.poisoned, l / 2 ^ 24 ≠ g)
      ∧ (∀ a, a / 2 ^ 30 ∉ addedGranules (s.tenant u) st → tget 0 (configCleared s u st).mem.ddr a = tget 0 s.mem.ddr a)
      ∧ (∀ e ∈ (configCleared s u st).work.sessions, e.2.openFlag = true → e.2.tenant = u →
            inRange st.granuleFirst st.granuleCount e.2.stateBase e.2.stateSize = true) := by
  have hread := tget_foldl_zeroGranule (addedGranules (s.tenant u) st) s
  have hpoisoned := poisoned_foldl_zeroGranule (addedGranules (s.tenant u) st) s
  obtain ⟨d, ps, honly⟩ := foldl_zeroGranule_only (addedGranules (s.tenant u) st) s
  have hmem : (configCleared s u st).mem = ((addedGranules (s.tenant u) st).foldl zeroGranule s).mem := rfl
  have htenant : ∀ t, (configCleared s u st).tenant t = s.tenant t := fun t => by
    refine Eq.trans (b := ((addedGranules (s.tenant u) st).foldl zeroGranule s).tenant t) rfl ?_
    rw [honly]
    rfl
  have hports : (configCleared s u st).ports = s.ports := by
    refine Eq.trans (b := ((addedGranules (s.tenant u) st).foldl zeroGranule s).ports) rfl ?_
    rw [honly]
  have htaps : (configCleared s u st).taps = s.taps := by
    refine Eq.trans (b := ((addedGranules (s.tenant u) st).foldl zeroGranule s).taps) rfl ?_
    rw [honly]
  refine ⟨htenant, hports, htaps, fun g hg => ⟨fun i hi => ?_, fun l hl heq => ?_⟩, fun a ha => ?_, fun e he hopen hmine => ?_⟩
  · have hgranule : (g * 2 ^ 30 + i) / 2 ^ 30 = g := by omega
    rw [hmem, hread, hgranule, if_pos hg]
  · rw [hmem] at hl
    exact hpoisoned l hl (heq ▸ hg)
  · rw [hmem, hread, if_neg ha]
  · have hkept := (List.mem_filter.mp he).2
    rw [Bool.or_eq_true] at hkept
    exact hkept.resolve_left (fun hnot => of_decide_eq_true hnot ⟨hopen, hmine⟩)

theorem tenantConfigDone_settles (u : Fin 16) (seq : Nat) (st : Settings) (s : State) (hconfig : (s.tenant u).configuring = some (seq, st))
    (hdeferred : (s.tenant u).deferred = []) (hqueue : (s.tenant u).configQueue = []) (hcopied : (s.tenant u).copied = [])
    (hcan : CanNotify s 0) :
    ∃ s', exec (.tenantConfigDone u) s = .next s' ∧ (s'.tenant u).configuring = none ∧ (s'.tenant u).enabled = st.enable
        ∧ (s'.tenant u).bl = st.bl ∧ (s'.tenant u).granuleFirst = st.granuleFirst ∧ (s'.tenant u).granuleCount = st.granuleCount
        ∧ (s'.tenant u).timeout = st.timeout ∧ (s'.tenant u).wakeMask = st.wakeMask ∧ (s'.tenant u).idleDormant = st.idleDormant
        ∧ (s'.tenant u).hostPort = st.hostPort ∧ (s'.tenant u).bound = true ∧ (s'.tenant u).expected = (s.tenant u).expected
        ∧ ((s'.tenant u).ringSet = true ↔ ((s.tenant u).ringSet = true ∧ (s.tenant u).hostPort = st.hostPort))
        ∧ Notified s s' 0 (replyNotice seq 0 0x0B 0 0 0 0)
        ∧ (∀ g ∈ addedGranules (s.tenant u) st, (∀ i, i < 2 ^ 30 → tget 0 s'.mem.ddr (g * 2 ^ 30 + i) = 0)
            ∧ ∀ l ∈ s'.mem.poisoned, l / 2 ^ 24 ≠ g)
        ∧ (∀ a, a / 2 ^ 30 ∉ addedGranules (s.tenant u) st → tget 0 s'.mem.ddr a = tget 0 s.mem.ddr a)
        ∧ (∀ e ∈ s'.work.sessions, e.2.openFlag = true → e.2.tenant = u →
            inRange st.granuleFirst st.granuleCount e.2.stateBase e.2.stateSize = true) := by
  obtain ⟨htenants, hports, htaps, hzero, hrest, hsessions⟩ := configCleared_facts s u st
  have hexec := fun a => execTenantConfigDone_eq (a := a) hconfig hdeferred
  generalize configCleared s u st = c at *
  have hown := c.tenant_modTenant_same u (fun x => settledTenant x st)
  rw [htenants u] at hown
  have hstate : noticeState ((c.modTenant u (fun x => settledTenant x st)).tenant 0) = noticeState (s.tenant 0) := by
    rw [noticeState_modTenant (g := fun x => settledTenant x st) (fun _ => rfl), htenants 0]
  have hmemB : (c.modTenant u (fun x => settledTenant x st)).mem = c.mem := rfl
  have hworkB : (c.modTenant u (fun x => settledTenant x st)).work = c.work := rfl
  have hcanB : CanNotify (c.modTenant u (fun x => settledTenant x st)) 0 := canNotify_congr hstate hports htaps hcan
  generalize c.modTenant u (fun x => settledTenant x st) = b at *
  obtain ⟨hnotified, -, -, -, hmemory, -⟩ := reply_writes seq 0x0B 0 0 0 0 0 hcanB
  have hframe := reply_mailFrame b 0 seq 0x0B 0 0 0 0 0
  have hmail := hframe.tenants u
  rw [hown] at hmail
  have hwork := hframe.work
  have hreply : replyOk b 0 seq 0x0B = reply b 0 seq 0x0B 0 0 0 0 0 := rfl
  rw [hreply] at hexec
  generalize reply b 0 seq 0x0B 0 0 0 0 0 = r at *
  have hafter := r.tenant_modTenant_same u (fun x => rebind x st.hostPort)
  obtain ⟨_, _, _, _, _, _, _, _, _, _, _, _, hrecord⟩ := hmail
  rw [hrecord] at hafter
  obtain ⟨hddr, -, -, -, hpoisoned⟩ := hmemory
  refine ⟨r.modTenant u (fun x => rebind x st.hostPort), hexec _ rfl (by rw [hafter]; exact hcopied) (by rw [hafter]; exact hqueue), ?_⟩
  have hnotifiedA := notified_modTenant (u := u) (g := fun x => rebind x st.hostPort) (fun _ => ⟨rfl, rfl⟩)
    (notified_congr (ringPlace_of_noticeState hstate) hnotified)
  have hmemA : (r.modTenant u (fun x => rebind x st.hostPort)).mem = r.mem := rfl
  have hworkA := modTenant_work r u (fun x => rebind x st.hostPort)
  generalize r.modTenant u (fun x => rebind x st.hostPort) = a at *
  rw [hafter, hmemA, hworkA, hddr, hpoisoned, hwork, hmemB, hworkB]
  refine ⟨rfl, rfl, rfl, rfl, rfl, rfl, rfl, rfl, rfl, rfl, rfl, ?_, hnotifiedA, hzero, hrest, hsessions⟩
  exact Bool.and_eq_true_iff.trans (and_congr_right fun _ => decide_eq_true_iff)

/-- Settles O16: a TENANT_CONFIG is taken up, and when it is done its settings hold and what it adds is zero. -/
theorem tenantConfigured : Obligations.TenantConfigured := ⟨tenantConfig_answers, tenantConfigDone_settles⟩

end Sys2Proof.Machine

/-!
QUERY and PING (R366, R378, R360): a QUERY's result stands at DEST and its REPLY at TAIL, or the REPLY tells the size needed; PING is answered
with its cookie.
-/

namespace Sys2Proof.Machine

/-! ## What a result reads is not what the start of its message changes -/

theorem topologyTable_headStarted (s : State) (t : Nat) (m : List Word) : topologyTable (headStarted s t m) = topologyTable s := rfl

theorem ledgerBlock_headStarted (s : State) (t : Nat) (m : List Word) : ledgerBlock (headStarted s t m) = ledgerBlock s := rfl

theorem telemetryNow_headStarted (s : State) (t : Nat) (m : List Word) : telemetryNow (headStarted s t m) = telemetryNow s := rfl

theorem tenantStatus_headStarted (s : State) (t : Nat) (m : List Word) : tenantStatus (headStarted s t m) t = tenantStatus s t := by
  unfold tenantStatus
  rw [planRegions_headStarted, headStarted_tenant_same]
  rfl

theorem tagBlock_headStarted (s : State) (t : Nat) (m : List Word) : tagBlock (headStarted s t m) t = tagBlock s t := by
  unfold tagBlock
  rw [headStarted_tenant_same]
  rfl

/-! ## QUERY (R366) -/

theorem onQuery_of_atHead {s : State} {t : Nat} {m : List Word} {whats : List Nat} (f : State → List Word → State) (h : AtHead s t m 0x09)
    (hwhat : whats.contains (queryWhat m) = true) :
    onQuery t whats f s = onMessage s t 0x09 (cleanOnly t [0xFF, 0xFFFFFFFF, 0xFFFFFFFF, 0xFFFFFFFF] f) := by
  unfold onQuery
  rw [headOf_of_atHead h]
  exact if_pos hwhat

/-- The state in which a result stands at DEST. -/
def resultWritten (s : State) (t a : Nat) (bs : List Byte) : State :=
  { s with mem := { s.mem with host := writeBytes 0 s.mem.host (hostKey (s.tenant t).hostPort a) bs } }

theorem writeResult_eq {s : State} {t : Nat} (a : Nat) (bs : List Byte) (h : CanNotify s t) : writeResult s t a bs = resultWritten s t a bs := by
  obtain ⟨hroom, -, -, hrim⟩ := h
  unfold noticeRoom at hroom
  simp only [Bool.and_eq_true] at hroom
  obtain ⟨⟨⟨-, hbound⟩, hport⟩, -⟩ := hroom
  refine (if_pos (by rw [hbound, hport]; rfl)).trans ?_
  exact if_neg (by rw [hrim]; exact Bool.false_ne_true)

section
variable {t : Nat} {m : List Word} {s : State} {whats : List Nat} {f : State → List Word → State} {bs : List Byte}

/-- A QUERY whose result fits: it stands at DEST, and its REPLY at TAIL. -/
theorem onQuery_writes (h : AtHead s t m 0x09) (hcan : CanNotify s t) (haligned : dword m 1 % 64 = 0)
    (hclean : payloadClean m [0xFF, 0xFFFFFFFF, 0xFFFFFFFF, 0xFFFFFFFF] = true) (hwhat : whats.contains (queryWhat m) = true)
    (hf : f (headStarted s t m) m = answerQuery t bs (headStarted s t m) m) (hfits : bs.length ≤ word m 3)
    (hapart : hostKey (s.tenant t).hostPort (dword m 1) + bs.length ≤ tailKey s t
      ∨ tailKey s t + 32 ≤ hostKey (s.tenant t).hostPort (dword m 1)) :
    ∃ s', onQuery t whats f s = .next s' ∧ Consumed s' t m
      ∧ readBytes 0 s'.mem.host (hostKey (s.tenant t).hostPort (dword m 1)) bs.length = bs
      ∧ Notified s s' t (replyNotice (mSeq m) 0 0x09 0 0 bs.length 0)
      ∧ (∀ a, (a < tailKey s t ∨ tailKey s t + 32 ≤ a) → (a < hostKey (s.tenant t).hostPort (dword m 1)
          ∨ hostKey (s.tenant t).hostPort (dword m 1) + bs.length ≤ a) → tget 0 s'.mem.host a = tget 0 s.mem.host a) := by
  have hport : ((headStarted s t m).tenant t).hostPort = (s.tenant t).hostPort := by rw [headStarted_tenant_same]; rfl
  have hcanA : CanNotify (headStarted s t m) t := canNotify_congr (noticeState_headStarted s t m) rfl rfl hcan
  have heffect : cleanOnly t [0xFF, 0xFFFFFFFF, 0xFFFFFFFF, 0xFFFFFFFF] f (headStarted s t m) m
      = reply (resultWritten (headStarted s t m) t (dword m 1) bs) t (mSeq m) 0x09 0 0 0 bs.length 0 := by
    rw [cleanOnly_of_clean t f _ hclean, hf, answerQuery, if_neg (fun hne => hne haligned), if_neg (Nat.not_lt.mpr hfits),
      writeResult_eq _ _ hcanA]
  have htenant : (resultWritten (headStarted s t m) t (dword m 1) bs).tenant t = (headStarted s t m).tenant t := rfl
  have hhost : (resultWritten (headStarted s t m) t (dword m 1) bs).mem.host
      = writeBytes 0 s.mem.host (hostKey (s.tenant t).hostPort (dword m 1)) bs := by rw [← hport]; rfl
  have hstate : noticeState ((resultWritten (headStarted s t m) t (dword m 1) bs).tenant t) = noticeState (s.tenant t) := by
    rw [htenant]; exact noticeState_headStarted s t m
  have hcanB : CanNotify (resultWritten (headStarted s t m) t (dword m 1) bs) t := canNotify_congr hstate rfl rfl hcan
  generalize resultWritten (headStarted s t m) t (dword m 1) bs = b at heffect htenant hhost hstate hcanB
  obtain ⟨hnotified, hslot, -, -, -, hafter⟩ := reply_writes (mSeq m) 0x09 0 0 0 bs.length 0 hcanB
  obtain ⟨hexec, hconsumed⟩ := onMessage_of_effect (f := cleanOnly t [0xFF, 0xFFFFFFFF, 0xFFFFFFFF, 0xFFFFFFFF] f) h
    (by rw [heffect, hafter, htenant]; rfl)
  rw [heffect] at hexec hconsumed
  have htail : tailKey b t = tailKey s t := by
    obtain ⟨hp, hb, ht, -⟩ := by simpa only [ringPlace, Prod.mk.injEq] using ringPlace_of_noticeState hstate
    unfold tailKey
    rw [hp, hb, ht]
  unfold HostOnlySlot at hslot
  rw [htail, hhost] at hslot
  refine ⟨_, (onQuery_of_atHead f h hwhat).trans hexec, hconsumed, ?_, notified_congr (ringPlace_of_noticeState hstate) hnotified,
    fun a hout hbeside => ?_⟩
  · refine readBytes_eq_of_tget bs _ (fun i hi => ?_)
    rw [hslot _ (by omega)]
    exact tget_writeBytes_inside 0 bs s.mem.host _ i hi
  · rw [hslot a hout]
    exact tget_writeBytes_other 0 bs s.mem.host _ a hbeside

/-- A QUERY whose result does not fit is answered with the size needed. -/
theorem onQuery_short (h : AtHead s t m 0x09) (hcan : CanNotify s t) (haligned : dword m 1 % 64 = 0)
    (hclean : payloadClean m [0xFF, 0xFFFFFFFF, 0xFFFFFFFF, 0xFFFFFFFF] = true) (hwhat : whats.contains (queryWhat m) = true)
    (hf : f (headStarted s t m) m = answerQuery t bs (headStarted s t m) m) (hshort : word m 3 < bs.length) :
    ∃ s', onQuery t whats f s = .next s' ∧ Consumed s' t m ∧ HostOnlySlot s s' t
      ∧ Notified s s' t (replyNotice (mSeq m) 1 0x09 0x0204 0 bs.length 0) := by
  obtain ⟨s', hexec, hanswered⟩ := onMessage_replied (f := cleanOnly t [0xFF, 0xFFFFFFFF, 0xFFFFFFFF, 0xFFFFFFFF] f) h hcan
    ((cleanOnly_of_clean t f _ hclean).trans (hf.trans (by
      rw [answerQuery, if_neg (fun hne => hne haligned), if_pos hshort])))
  exact ⟨s', (onQuery_of_atHead f h hwhat).trans hexec, hanswered.consumed, hanswered.slot, hanswered.notified⟩

end

theorem contains_of_eq {l : List Nat} {w v : Nat} (h : w = v) (hl : l.contains v = true) : l.contains w = true := by rw [h]; exact hl

/-- Each QUERY command is the start of its message with its result. -/
theorem query_command {t : Fin 16} {m : List Word} {s : State} {c : Instr} {result : State → List Byte}
    (hc : (c = .queryTopology t ∧ queryWhat m = 0 ∧ result = topologyTable)
        ∨ (c = .queryTenantStatus t ∧ queryWhat m = 1 ∧ result = fun s => tenantStatus s t)
        ∨ (c = .queryInFlightTags t ∧ queryWhat m = 2 ∧ result = fun s => tagBlock s t)
        ∨ (c = .queryLedger t ∧ queryWhat m = 3 ∧ result = ledgerBlock)
        ∨ (c = .queryTelemetry t ∧ queryWhat m = 4 ∧ result = telemetryNow)) :
    ∃ whats f, exec c s = onQuery t whats f s ∧ whats.contains (queryWhat m) = true
      ∧ f (headStarted s t m) m = answerQuery t (result s) (headStarted s t m) m := by
  rcases hc with ⟨rfl, hwhat, rfl⟩ | ⟨rfl, hwhat, rfl⟩ | ⟨rfl, hwhat, rfl⟩ | ⟨rfl, hwhat, rfl⟩ | ⟨rfl, hwhat, rfl⟩
  · exact ⟨_, _, rfl, contains_of_eq hwhat rfl, (if_pos hwhat).trans (by rw [topologyTable_headStarted])⟩
  · exact ⟨_, _, rfl, contains_of_eq hwhat rfl, congrArg (fun bs => answerQuery t bs _ m) (tenantStatus_headStarted s t m)⟩
  · exact ⟨_, _, rfl, contains_of_eq hwhat rfl, congrArg (fun bs => answerQuery t bs _ m) (tagBlock_headStarted s t m)⟩
  · exact ⟨_, _, rfl, contains_of_eq hwhat rfl, congrArg (fun bs => answerQuery t bs _ m) (ledgerBlock_headStarted s t m)⟩
  · exact ⟨_, _, rfl, contains_of_eq hwhat rfl, congrArg (fun bs => answerQuery t bs _ m) (telemetryNow_headStarted s t m)⟩

/-! ## PING (R360) -/

theorem ping_answers (t : Fin 16) (m : List Word) (s : State) (h : AtHead s t m 0x0A) (hcan : CanNotify s t) :
    ∃ s', exec (.ping t) s = .next s' ∧ Consumed s' t m
      ∧ (payloadClean m [0xFFFFFFFF, 0xFFFFFFFF] = true → Notified s s' t (replyNotice (mSeq m) 0 0x0A 0 0 0 (dword m 0)))
      ∧ (payloadClean m [0xFFFFFFFF, 0xFFFFFFFF] = false → Notified s s' t (replyNotice (mSeq m) 1 0x0A 0x0203 0 0 0))
      ∧ HostOnlySlot s s' t ∧ OtherTenants s s' t ∧ SameBeyondTenants s s' ∧ SameOwnMemory s s' := by
  cases hclean : payloadClean m [0xFFFFFFFF, 0xFFFFFFFF] with
  | true =>
    obtain ⟨s', hexec, ha⟩ := onMessage_replied h hcan (cleanOnly_of_clean t (fun s m => reply s t (mSeq m) 0x0A 0 0 0 0 (dword m 0)) _ hclean)
    exact ⟨s', hexec, ha.consumed, fun _ => ha.notified, fun hno => absurd hno (by decide), ha.slot, ha.others, ha.beyond, ha.own⟩
  | false =>
    obtain ⟨-, -, htype⟩ := id h
    obtain ⟨s', hexec, ha⟩ := onMessage_replied (f := cleanOnly t [0xFFFFFFFF, 0xFFFFFFFF] (fun s m => reply s t (mSeq m) 0x0A 0 0 0 0 (dword m 0)))
      (status := 1) (reason := 0x0203) (index := 0) (result := 0) (cookie := 0) h hcan (by
        rw [cleanOnly, hclean, if_neg Bool.false_ne_true, htype]; rfl)
    exact ⟨s', hexec, ha.consumed, fun hyes => absurd hyes (by decide), fun _ => ha.notified, ha.slot, ha.others, ha.beyond, ha.own⟩

/-- Settles O10: a QUERY writes its result and its REPLY, or tells the size needed; PING answers its cookie. -/
theorem queriesAndPingAnswered : Obligations.QueriesAndPingAnswered := by
  refine ⟨fun t m s h hcan haligned hclean c result hc => ?_, ping_answers⟩
  obtain ⟨whats, f, hexec, hwhat, hf⟩ := query_command (s := s) hc
  dsimp only
  rw [hexec]
  exact ⟨onQuery_writes h hcan haligned hclean hwhat hf, onQuery_short h hcan haligned hclean hwhat hf⟩

end Sys2Proof.Machine

/-!
Plans come and go (07): PLAN_LOAD queues an image or names its fault (R293, R342), its end takes the plan or answers LOAD_REJECT, and PLAN_UNLOAD
releases every region (R343).
-/

namespace Sys2Proof.Machine

/-! ## PLAN_LOAD (R293) -/

section
variable {t : Fin 16} {m : List Word} {s : State} {off : Nat}

theorem planLoad_queues (h : AtHead s t m 0x03) (hclean : payloadClean m [0xFFFFFFFF, 0xFFFFFFFF] = true)
    (haddress : ownDdr s (dword m 0) = some off) (haligned : off % 256 = 0) (hin : inGranules (s.tenant t) off 128 = true) :
    ∃ s', exec (.planLoad t) s = .next s' ∧ Consumed s' t m ∧ (s'.tenant t).loading = (s.tenant t).loading ++ [(mSeq m, off)]
      ∧ s'.mem = s.mem ∧ OtherTenants s s' t ∧ SameBeyondTenants s s' := by
  have heffect : cleanOnly t [0xFFFFFFFF, 0xFFFFFFFF] (planLoad t) (headStarted s t m) m
      = s.setTenant t { startedTenant (s.tenant t) m with loading := (s.tenant t).loading ++ [(mSeq m, off)] } := by
    have hchecks : (decide (off % 256 ≠ 0) || !inGranules ((headStarted s t m).tenant t) off 128) = false := by
      rw [inGranules_headStarted, hin]
      simpa using haligned
    have haddressA : ownDdr (headStarted s t m) (dword m 0) = some off := haddress
    rw [cleanOnly_of_clean t _ _ hclean, planLoad, haddressA]
    dsimp only
    rw [hchecks, if_neg Bool.false_ne_true, headStarted, State.modTenant_setTenant]
    rfl
  have hsame := s.tenant_setTenant_same t { startedTenant (s.tenant t) m with loading := (s.tenant t).loading ++ [(mSeq m, off)] }
  have hother := fun u (hu : u ≠ t.val) => s.tenant_setTenant_other t u
    { startedTenant (s.tenant t) m with loading := (s.tenant t).loading ++ [(mSeq m, off)] } hu
  obtain ⟨hexec, hconsumed⟩ := onMessage_of_effect (f := cleanOnly t [0xFFFFFFFF, 0xFFFFFFFF] (planLoad t)) h
    (by rw [heffect, hsame, headStarted_tenant_same]; rfl)
  rw [heffect] at hexec hconsumed
  exact ⟨_, hexec, hconsumed, congrArg Tenant.loading hsame, rfl, hother, by repeat constructor⟩

theorem planLoad_misaligned (h : AtHead s t m 0x03) (hcan : CanNotify s t) (hclean : payloadClean m [0xFFFFFFFF, 0xFFFFFFFF] = true)
    (haddress : ownDdr s (dword m 0) = some off) (hmisaligned : off % 256 ≠ 0) :
    ∃ s', exec (.planLoad t) s = .next s' ∧ Consumed s' t m ∧ (s'.tenant t).loading = (s.tenant t).loading
      ∧ Notified s s' t (replyNotice (mSeq m) 1 0x03 0x0206 0 0 0) := by
  have heffect : planLoad t (headStarted s t m) m = reply (headStarted s t m) t (mSeq m) 0x03 1 rBadAddress 0 0 0 := by
    have haddressA : ownDdr (headStarted s t m) (dword m 0) = some off := haddress
    rw [planLoad, haddressA]
    dsimp only
    rw [decide_eq_true hmisaligned, Bool.true_or, if_pos rfl]
    rfl
  obtain ⟨s', hexec, hr⟩ := onMessage_replied h hcan ((cleanOnly_of_clean t (planLoad t) _ hclean).trans heffect)
  have hmail := hr.frame.tenants t
  rw [headStarted_tenant_same] at hmail
  obtain ⟨_, _, _, _, _, _, _, _, _, _, _, _, hafter⟩ := hmail
  exact ⟨s', hexec, hr.consumed, by rw [hafter]; rfl, hr.notified⟩

/-! ## PLAN_UNLOAD (R343) -/

/-- A member of the plan after its release: empty, its cistern zero. -/
def memberReleased (s : State) (k : Nat) : State := (clearCistern s k).modCluster k clusterReleased

theorem foldl_memberReleased_only (l : List Nat) (s : State) :
    ∃ cs cist, l.foldl memberReleased s = { s with clusters := cs, mem := { s.mem with cistern := cist } } := by
  refine foldl_keeps (fun a => ∃ cs cist, a = { s with clusters := cs, mem := { s.mem with cistern := cist } }) memberReleased (fun a k h => ?_) l s
    ⟨s.clusters, s.mem.cistern, rfl⟩
  obtain ⟨cs, cist, rfl⟩ := h
  exact ⟨_, _, rfl⟩

/-- What a released cluster holds no more. -/
def Released (c : Cluster) : Prop :=
  c.owner = none ∧ c.slots = [] ∧ c.held = none ∧ c.saved = [] ∧ c.luts = [] ∧ c.unit = {}

theorem memberReleased_cluster (s : State) (k : Nat) : Released ((memberReleased s k).cluster k) := by
  have h := (clearCistern s k).cluster_modCluster_same k clusterReleased
  rw [memberReleased, h]
  exact ⟨rfl, rfl, rfl, rfl, rfl, rfl⟩

theorem memberReleased_cistern (s : State) (k x : Nat) :
    tget 0 (memberReleased s k).mem.cistern x = if cisKey k 0 ≤ x ∧ x < cisKey k 0 + 2 ^ 21 then 0 else tget 0 s.mem.cistern x :=
  tget_clearRun 0 s.mem.cistern (cisKey k 0) (2 ^ 21) x

theorem foldl_memberReleased_releases {l : List Nat} {k : Nat} (s : State) (hk : k ∈ l) :
    Released ((l.foldl memberReleased s).cluster k) ∧ ∀ a, a < 2 ^ 21 → tget 0 (l.foldl memberReleased s).mem.cistern (cisKey k a) = 0 := by
  refine ⟨foldl_establishes memberReleased (fun a k => Released (a.cluster k)) memberReleased_cluster (fun a b c h => ?_) s hk,
    fun a ha => foldl_establishes memberReleased (fun s k => tget 0 s.mem.cistern (cisKey k a) = 0) (fun s k => ?_) (fun s b c h => ?_) s hk⟩
  · by_cases hcb : c = b
    · rw [hcb]; exact memberReleased_cluster a b
    · rw [memberReleased, State.cluster_modCluster_other _ _ _ _ hcb]; exact h
  · rw [memberReleased_cistern, if_pos]
    unfold cisKey
    omega
  · rw [memberReleased_cistern]
    split
    · rfl
    · exact h

theorem cluster_congr {s s' : State} (h : s'.clusters = s.clusters) (k : Nat) : s'.cluster k = s.cluster k := by
  unfold State.cluster
  rw [h]

/-- The members of a tenant's regions. -/
def planMembers (s : State) (t : Nat) : List Nat := (planRegions s t).flatMap (fun r => r.members)

theorem releasePlan_eq (s : State) (t : Nat) :
    releasePlan s t = ((planMembers s t).foldl memberReleased s).modTenant t (fun x => { x with plan := none }) := rfl

theorem tenantFlights_headStarted (s : State) (t : Nat) (m : List Word) (u : Nat) : tenantFlights (headStarted s t m) u = tenantFlights s u := rfl

theorem planUnload_releases (h : AtHead s t m 0x04) (hcan : CanNotify s t) (hclean : payloadClean m [] = true) (hnone : tenantFlights s t = []) :
    ∃ s', exec (.planUnload t) s = .next s' ∧ Consumed s' t m ∧ (s'.tenant t).plan = none
        ∧ Notified s s' t (replyNotice (mSeq m) 0 0x04 0 0 0 0)
        ∧ ∀ r ∈ planRegions s t, ∀ k ∈ r.members,
            (s'.cluster k).owner = none ∧ (s'.cluster k).slots = [] ∧ (s'.cluster k).held = none ∧ (s'.cluster k).saved = []
            ∧ (s'.cluster k).luts = [] ∧ (s'.cluster k).unit = {} ∧ ∀ a, a < 2 ^ 21 → tget 0 s'.mem.cistern (cisKey k a) = 0 := by
  obtain ⟨cs, cist, honly⟩ := foldl_memberReleased_only (planMembers (headStarted s t m) t) (headStarted s t m)
  have hreleases := fun k => foldl_memberReleased_releases (l := planMembers (headStarted s t m) t) (k := k) (headStarted s t m)
  have hmembers : planMembers (headStarted s t m) t = planMembers s t := by rw [planMembers, planRegions_headStarted]; rfl
  have heffect : cleanOnly t [] (planUnload t) (headStarted s t m) m = reply (((planMembers (headStarted s t m) t).foldl memberReleased
      (headStarted s t m)).modTenant t (fun x => { x with plan := none })) t (mSeq m) 0x04 0 0 0 0 0 := by
    rw [cleanOnly_of_clean t _ _ hclean, planUnload, tenantFlights_headStarted, hnone, releasePlan_eq]
    rfl
  rw [hmembers] at honly hreleases heffect
  have htenant : ((planMembers s t).foldl memberReleased (headStarted s t m)).tenant t = startedTenant (s.tenant t) m := by
    rw [honly]; exact headStarted_tenant_same s t m
  have hports : ((planMembers s t).foldl memberReleased (headStarted s t m)).ports = s.ports := by rw [honly]; rfl
  have htaps : ((planMembers s t).foldl memberReleased (headStarted s t m)).taps = s.taps := by rw [honly]; rfl
  generalize (planMembers s t).foldl memberReleased (headStarted s t m) = a at *
  have hstate : noticeState (a.tenant t) = noticeState (s.tenant t) := by rw [htenant]; rfl
  obtain ⟨hnotified, -, -, hbeyond, hown, hafter⟩ := reply_writes_setTenant (x := { a.tenant t with plan := none }) rfl
    (mSeq m) 0x04 0 0 0 0 0 (canNotify_congr hstate hports htaps hcan)
  have hset : a.setTenant t { a.tenant t with plan := none } = a.modTenant t (fun x => { x with plan := none }) := rfl
  rw [hset] at hnotified hbeyond hown hafter
  rw [htenant] at hafter
  obtain ⟨hexec, hconsumed⟩ := onMessage_of_effect (f := cleanOnly t [] (planUnload t)) h
    (by rw [heffect, hafter, headStarted_tenant_same]; rfl)
  rw [heffect] at hexec hconsumed
  generalize reply (a.modTenant t (fun x => { x with plan := none })) t (mSeq m) 0x04 0 0 0 0 0 = b at *
  obtain ⟨-, hcistern, -, -, -⟩ := hown
  obtain ⟨-, -, -, -, -, -, -, -, -, -, -, hclusters, -, -⟩ := hbeyond
  refine ⟨b, hexec, hconsumed, congrArg Tenant.plan hafter, notified_congr (ringPlace_of_noticeState hstate) hnotified, fun r hr k hk => ?_⟩
  obtain ⟨⟨howner, hslots, hheld, hsaved, hluts, hunit⟩, hzero⟩ := hreleases k (List.mem_flatMap.mpr ⟨r, hr, hk⟩)
  have hcluster : b.cluster k = a.cluster k := cluster_congr hclusters k
  rw [hcluster, hcistern]
  exact ⟨howner, hslots, hheld, hsaved, hluts, hunit, hzero⟩

theorem planUnload_busy (h : AtHead s t m 0x04) (hcan : CanNotify s t) (hclean : payloadClean m [] = true) (hsome : tenantFlights s t ≠ []) :
    ∃ s', exec (.planUnload t) s = .next s' ∧ Consumed s' t m ∧ (s'.tenant t).plan = (s.tenant t).plan ∧ s'.clusters = s.clusters
        ∧ Notified s s' t (replyNotice (mSeq m) 1 0x04 0x0201 0 0 0) := by
  have heffect : planUnload t (headStarted s t m) m = reply (headStarted s t m) t (mSeq m) 0x04 1 rBusy 0 0 0 := by
    refine if_pos ?_
    rw [tenantFlights_headStarted]
    simpa using hsome
  obtain ⟨s', hexec, hr⟩ := onMessage_replied h hcan ((cleanOnly_of_clean t (planUnload t) _ hclean).trans heffect)
  obtain ⟨-, -, -, -, -, -, -, -, -, -, -, hclusters, -, -⟩ := hr.beyond
  have hplan := (hr.frame.tenants t).plan
  rw [headStarted_tenant_same] at hplan
  exact ⟨s', hexec, hr.consumed, hplan, hclusters, hr.notified⟩

end

/-! ## The end of a load (R342, R357) -/

/-- A member of the plan after its load: its region area cleared, its LUT slots empty, its error count zero. -/
def memberLoaded (wake : Nat) (s : State) (k : Nat) : State :=
  ({ s with mem := { s.mem with cistern := clearRun s.mem.cistern (cisKey k 0) planArea } } : State).modCluster k (clusterLoaded s.nowUs wake)

theorem foldl_memberLoaded_only (wake : Nat) (l : List Nat) (s : State) :
    ∃ cs cist, l.foldl (memberLoaded wake) s = { s with clusters := cs, mem := { s.mem with cistern := cist } } := by
  refine foldl_keeps (fun a => ∃ cs cist, a = { s with clusters := cs, mem := { s.mem with cistern := cist } }) (memberLoaded wake)
    (fun a k h => ?_) l s ⟨s.clusters, s.mem.cistern, rfl⟩
  obtain ⟨cs, cist, rfl⟩ := h
  exact ⟨_, _, rfl⟩

theorem foldl_memberLoaded_loads (wake : Nat) {l : List Nat} {k : Nat} (s : State) (hk : k ∈ l) :
    ((l.foldl (memberLoaded wake) s).cluster k).luts = [] ∧ ((l.foldl (memberLoaded wake) s).cluster k).ecc = 0 := by
  have hsame : ∀ (a : State) (k : Nat), ((memberLoaded wake a k).cluster k).luts = [] ∧ ((memberLoaded wake a k).cluster k).ecc = 0 := fun a k => by
    rw [memberLoaded, State.cluster_modCluster_same]
    exact ⟨rfl, rfl⟩
  refine foldl_establishes (memberLoaded wake) (fun a k => (a.cluster k).luts = [] ∧ (a.cluster k).ecc = 0) hsame (fun a b c h => ?_) s hk
  by_cases hcb : c = b
  · rw [hcb]; exact hsame a b
  · rw [memberLoaded, State.cluster_modCluster_other _ _ _ _ hcb]; exact h

/-- A plan whose regions record a tenant's epoch. -/
def epochPlan (p : Plan) (e : Byte) : Plan := { p with regions := p.regions.map (fun r => { r with resetEpoch := e }) }

theorem members_epochPlan (p : Plan) (e : Byte) : (epochPlan p e).regions.map (fun r => r.members) = p.regions.map (fun r => r.members) := by
  unfold epochPlan
  rw [List.map_map]
  rfl

/-- The headers of the spill areas of a plan, written at every member. -/
def spillsHeaded (p : Plan) (s : State) : State :=
  p.regions.foldl (fun s r => r.members.foldl (fun s k => spillHeader s r k 0 0 0) s) s

theorem spillsHeaded_memOnly (p : Plan) (s : State) : MemOnly s (spillsHeaded p s) :=
  foldl_memOnly _ (fun s r => foldl_memOnly _ (fun s k => spillHeader_memOnly s r k 0 0 0) _ s) _ s

theorem installPlan_eq (s : State) (t : Nat) (p : Plan) :
    installPlan s t p = (spillsHeaded (epochPlan p (s.tenant t).epoch) (((epochPlan p (s.tenant t).epoch).regions.flatMap
      (fun r => r.members)).foldl (memberLoaded (s.tenant t).wakeMask) s)).modTenant t
        (fun x => { x with plan := some (epochPlan p (s.tenant t).epoch) }) := rfl

section
variable {t : Fin 16} {seq off : Nat} {rest : List (Nat × Nat)} {s s1 : State} (hloading : (s.tenant t).loading = (seq, off) :: rest)
  (hs1 : s.modTenant t (fun x => { x with loading := rest }) = s1)
include hloading hs1

theorem execPlanLoadDone_fails {code i : Nat} (hfail : loadFailure s1 t off (imageAt s1 off) = some (code, i)) :
    exec (.planLoadDone t) s = .next (reply s1 t seq 0x03 2 code i 0 0) := by
  refine Eq.trans (b := execPlanLoadDone t s) rfl ?_
  unfold execPlanLoadDone
  rw [hloading]
  dsimp only
  rw [hs1, hfail]

theorem execPlanLoadDone_loads (hgood : loadFailure s1 t off (imageAt s1 off) = none) :
    exec (.planLoadDone t) s = .next (replyOk (installPlan s1 t (readPlan s1 (imageAt s1 off))) t seq 0x03) := by
  refine Eq.trans (b := execPlanLoadDone t s) rfl ?_
  unfold execPlanLoadDone
  rw [hloading]
  dsimp only
  rw [hs1, hgood]

theorem planLoadDone_rejects (hcan : CanNotify s t) {code i : Nat} (hfail : loadFailure s1 t off (imageAt s1 off) = some (code, i)) :
    ∃ s', exec (.planLoadDone t) s = .next s' ∧ (s'.tenant t).loading = rest ∧ (s'.tenant t).plan = (s.tenant t).plan
        ∧ Notified s s' t (replyNotice seq 2 0x03 code i 0 0) ∧ HostOnlySlot s s' t ∧ OtherTenants s s' t ∧ SameOwnMemory s s'
        ∧ SameBeyondTenants s s' := by
  have hexec := execPlanLoadDone_fails hloading hs1 hfail
  obtain ⟨hnotified, hslot, hothers, hbeyond, hown, hafter⟩ := reply_writes_setTenant (s := s) (t := t)
    (x := { s.tenant t with loading := rest }) rfl seq 0x03 2 code i 0 0 hcan
  rw [← hs1] at hexec
  exact ⟨_, hexec, congrArg Tenant.loading hafter, (congrArg Tenant.plan hafter).trans rfl, hnotified, hslot, hothers, hown, hbeyond⟩

theorem planLoadDone_loads (hcan : CanNotify s t) (hgood : loadFailure s1 t off (imageAt s1 off) = none) :
    ∃ s' p, exec (.planLoadDone t) s = .next s' ∧ (s'.tenant t).loading = rest ∧ (s'.tenant t).plan = some p
        ∧ p.nouns = (readPlan s1 (imageAt s1 off)).nouns ∧ p.maps = (readPlan s1 (imageAt s1 off)).maps
        ∧ p.tiles = (readPlan s1 (imageAt s1 off)).tiles ∧ p.mcasts = (readPlan s1 (imageAt s1 off)).mcasts
        ∧ p.regions.map (fun r => r.members) = (readPlan s1 (imageAt s1 off)).regions.map (fun r => r.members)
        ∧ Notified s s' t (replyNotice seq 0 0x03 0 0 0 0)
        ∧ ∀ r ∈ p.regions, ∀ k ∈ r.members, (s'.cluster k).luts = [] ∧ (s'.cluster k).ecc = 0 := by
  have hexec := execPlanLoadDone_loads hloading hs1 hgood
  generalize readPlan s1 (imageAt s1 off) = q at hexec ⊢
  have hown : s1.tenant t = { s.tenant t with loading := rest } := by rw [← hs1]; exact s.tenant_modTenant_same t _
  have hports : s1.ports = s.ports := by rw [← hs1]; rfl
  have htaps : s1.taps = s.taps := by rw [← hs1]; rfl
  rw [installPlan_eq] at hexec
  have hform : (epochPlan q (s1.tenant t).epoch).nouns = q.nouns ∧ (epochPlan q (s1.tenant t).epoch).maps = q.maps
      ∧ (epochPlan q (s1.tenant t).epoch).tiles = q.tiles ∧ (epochPlan q (s1.tenant t).epoch).mcasts = q.mcasts := ⟨rfl, rfl, rfl, rfl⟩
  have hmembers := members_epochPlan q (s1.tenant t).epoch
  generalize epochPlan q (s1.tenant t).epoch = p at hexec hform hmembers
  obtain ⟨hnouns, hmaps, htiles, hmcasts⟩ := hform
  obtain ⟨cs, cist, honly⟩ := foldl_memberLoaded_only (s1.tenant t).wakeMask (p.regions.flatMap (fun r => r.members)) s1
  have hloads := fun k => foldl_memberLoaded_loads (s1.tenant t).wakeMask (l := p.regions.flatMap (fun r => r.members)) (k := k) s1
  generalize (p.regions.flatMap (fun r => r.members)).foldl (memberLoaded (s1.tenant t).wakeMask) s1 = b at hexec honly hloads
  have hspilled := spillsHeaded_memOnly p b
  generalize spillsHeaded p b = c at hexec hspilled
  obtain ⟨mem, hc⟩ := hspilled
  have htenantC : c.tenant t = { s.tenant t with loading := rest } := by rw [hc, honly, ← hown]; rfl
  have hstate : noticeState (c.tenant t) = noticeState (s.tenant t) := by rw [htenantC]; rfl
  have hclusterC : ∀ k, c.cluster k = b.cluster k := fun k => by rw [hc]; rfl
  have hcanC : CanNotify c t := canNotify_congr hstate (by rw [hc, honly]; exact hports) (by rw [hc, honly]; exact htaps) hcan
  obtain ⟨hnotified, -, -, hbeyond, -, hafter⟩ := reply_writes_setTenant (x := { c.tenant t with plan := some p }) rfl
    seq 0x03 0 0 0 0 0 hcanC
  obtain ⟨-, -, -, -, -, -, -, -, -, -, -, hclusters, -, -⟩ := hbeyond
  refine ⟨_, p, hexec, (congrArg Tenant.loading hafter).trans (congrArg Tenant.loading htenantC), congrArg Tenant.plan hafter, hnouns, hmaps, htiles,
    hmcasts, hmembers, notified_congr (ringPlace_of_noticeState hstate) hnotified, fun r hr k hk => ?_⟩
  have hcluster := (cluster_congr hclusters k).trans (hclusterC k)
  refine (congrArg (fun x : Cluster => x.luts = [] ∧ x.ecc = 0) hcluster).mpr ?_
  exact hloads k (List.mem_flatMap.mpr ⟨r, hr, hk⟩)

end

/-- Settles O12: PLAN_LOAD begins a load that ends in a plan or in LOAD_REJECT, and PLAN_UNLOAD releases every region. -/
theorem plansComeAndGo : Obligations.PlansComeAndGo :=
  ⟨fun _ _ _ hcan => ⟨fun _ h hclean haddress => ⟨fun haligned hin => planLoad_queues h hclean haddress haligned hin,
      fun hmis => planLoad_misaligned h hcan hclean haddress hmis⟩,
      fun h hclean hnone => planUnload_releases h hcan hclean hnone, fun h hclean hsome => planUnload_busy h hcan hclean hsome⟩,
    fun _ _ _ _ _ hloading hcan => ⟨fun _ _ hfail => planLoadDone_rejects hloading rfl hcan hfail,
      fun hgood => planLoadDone_loads hloading rfl hcan hgood⟩⟩

end Sys2Proof.Machine

/-!
Flash (R604 to R608): what an erase and a programming leave of each byte, what a store of a copy leaves readable, and its COMMIT.
-/

namespace Sys2Proof.Machine

/-! ## Bytes -/

/-- A byte of flash. -/
def flashAt (s : State) (x : Nat) : Byte := tget erasedByte s.mem.flash x

theorem flashAt_congr {s s' : State} (h : s'.mem.flash = s.mem.flash) (x : Nat) : flashAt s' x = flashAt s x := by
  unfold flashAt
  rw [h]

theorem flashAt_flashErase (s : State) (a n x : Nat) :
    flashAt (flashErase s a n) x = if a ≤ x ∧ x < a + n then erasedByte else flashAt s x := tget_clearRun erasedByte s.mem.flash a n x

theorem flashRead_getElem (s : State) (a n i : Nat) (h : i < (flashRead s a n).length) : (flashRead s a n)[i] = flashAt s (a + i) := by
  unfold flashRead flashAt at *
  induction n generalizing a i with
  | zero => simp [readBytes] at h
  | succ n ih =>
    cases i with
    | zero => rfl
    | succ i =>
      have := ih (a + 1) i (by simpa [readBytes] using h)
      rw [show a + (i + 1) = a + 1 + i by omega, ← this]
      rfl

@[simp] theorem flashRead_length (s : State) (a n : Nat) : (flashRead s a n).length = n := readBytes_length _ _ _ _

theorem flashRead_eq {s : State} {a : Nat} {bs : List Byte} (h : ∀ i, (hi : i < bs.length) → flashAt s (a + i) = bs[i]) :
    flashRead s a bs.length = bs := readBytes_eq_of_tget bs a h

theorem flashRead_congr {s s' : State} {a n : Nat} (h : ∀ x, a ≤ x → x < a + n → flashAt s' x = flashAt s x) : flashRead s' a n = flashRead s a n := by
  refine List.ext_getElem (by simp) (fun i h1 h2 => ?_)
  rw [flashRead_length] at h1
  rw [flashRead_getElem, flashRead_getElem]
  exact h (a + i) (by omega) (by omega)

/-- Programming leaves every byte beside it. -/
theorem flashAt_flashProgram_other (s : State) (a : Nat) (bs : List Byte) {x : Nat} (h : x < a ∨ a + bs.length ≤ x) :
    flashAt (flashProgram s a bs) x = flashAt s x := by
  refine tget_writeBytes_other erasedByte _ s.mem.flash a x ?_
  rw [List.length_zipWith, flashRead_length]
  omega

/-- Programming clears bits. -/
theorem flashAt_flashProgram_inside (s : State) (a : Nat) (bs : List Byte) {i : Nat} (h : i < bs.length) :
    flashAt (flashProgram s a bs) (a + i) = flashAt s (a + i) &&& bs[i] := by
  have hlength : i < ((flashRead s a bs.length).zipWith (fun x y => x &&& y) bs).length := by
    rw [List.length_zipWith, flashRead_length]
    omega
  refine (tget_writeBytes_inside erasedByte _ s.mem.flash a i hlength).trans ?_
  rw [List.getElem_zipWith, flashRead_getElem]

theorem erasedByte_and (b : Byte) : erasedByte &&& b = b := by
  unfold erasedByte
  exact BitVec.allOnes_and

/-- What is programmed over erased bytes is read back. -/
theorem flashRead_flashProgram {s : State} {a : Nat} {bs : List Byte} (h : ∀ x, a ≤ x → x < a + bs.length → flashAt s x = erasedByte) :
    flashRead (flashProgram s a bs) a bs.length = bs := by
  refine flashRead_eq (fun i hi => ?_)
  rw [flashAt_flashProgram_inside s a bs hi, h (a + i) (by omega) (by omega), erasedByte_and]

/-! ## Copies (R605 to R607) -/

/-- The bytes of STORE_SEQUENCE and CRC. -/
def copyTail (a : Area) (bs : List Byte) (seq : Nat) : List Byte :=
  leBytes 4 seq ++ leBytes 4 (copyCrc (bs ++ List.replicate (a.size - 256 - bs.length) erasedByte) seq)

theorem copyTail_length (a : Area) (bs : List Byte) (seq : Nat) : (copyTail a bs seq).length = 8 := by
  simp [copyTail]

theorem writeCopy_eq (s : State) (a : Area) (bs : List Byte) (seq : Nat) :
    writeCopy s a bs seq = flashProgram (flashProgram (flashErase s a.base a.size) a.base bs) a.page (copyTail a bs seq) := rfl

/-- What a store does not write in its area is erased. -/
theorem flashAt_writeCopy_rest {s : State} {a : Area} {bs : List Byte} {seq x : Nat} (hlow : a.base + bs.length ≤ x)
    (hhigh : x < a.base + a.size) (hout : x < a.page ∨ a.page + 8 ≤ x) : flashAt (writeCopy s a bs seq) x = erasedByte := by
  have htail : x < a.page ∨ a.page + (copyTail a bs seq).length ≤ x := by rw [copyTail_length]; exact hout
  have hin : a.base ≤ x ∧ x < a.base + a.size := ⟨by omega, hhigh⟩
  rw [writeCopy_eq, flashAt_flashProgram_other _ _ _ htail, flashAt_flashProgram_other _ _ _ (.inr hlow), flashAt_flashErase, if_pos hin]

section
variable {s : State} {a : Area} {bs : List Byte} {seq : Nat} (hsize : 256 ≤ a.size) (hfits : bs.length ≤ a.size - 256)
include hsize hfits

/-- A store of a copy changes nothing beside its area. -/
theorem flashAt_writeCopy_other {x : Nat} (h : x < a.base ∨ a.base + a.size ≤ x) : flashAt (writeCopy s a bs seq) x = flashAt s x := by
  have hpage : a.page = a.base + a.size - 256 := rfl
  have htail : x < a.page ∨ a.page + (copyTail a bs seq).length ≤ x := by rw [copyTail_length]; omega
  have hbody : x < a.base ∨ a.base + bs.length ≤ x := by omega
  have hout : ¬ (a.base ≤ x ∧ x < a.base + a.size) := by omega
  rw [writeCopy_eq, flashAt_flashProgram_other _ _ _ htail, flashAt_flashProgram_other _ _ _ hbody, flashAt_flashErase, if_neg hout]

theorem flashRead_writeCopy : flashRead (writeCopy s a bs seq) a.base bs.length = bs := by
  rw [writeCopy_eq]
  refine (flashRead_congr (fun x hlow hhigh => ?_)).trans (flashRead_flashProgram (s := flashErase s a.base a.size) (fun x hlow hhigh => ?_))
  · have hpage : a.page = a.base + a.size - 256 := rfl
    have htail : x < a.page := by omega
    exact flashAt_flashProgram_other _ _ _ (.inl htail)
  · have hin : a.base ≤ x ∧ x < a.base + a.size := by omega
    rw [flashAt_flashErase, if_pos hin]

theorem areaSequence_writeCopy : areaSequence (writeCopy s a bs seq) a = seq % 2 ^ 32 := by
  have hread : flashRead (writeCopy s a bs seq) a.page (copyTail a bs seq).length = copyTail a bs seq := by
    rw [writeCopy_eq]
    refine flashRead_flashProgram (fun x hlow hhigh => ?_)
    rw [copyTail_length] at hhigh
    unfold Area.page at hlow hhigh
    have hbody : a.base + bs.length ≤ x := by omega
    have hin : a.base ≤ x ∧ x < a.base + a.size := by omega
    rw [flashAt_flashProgram_other _ _ _ (.inr hbody), flashAt_flashErase, if_pos hin]
  have hfirst : flashRead (writeCopy s a bs seq) a.page 4 = leBytes 4 seq := by
    refine List.ext_getElem (by simp) (fun i h1 h2 => ?_)
    rw [flashRead_length] at h1
    rw [flashRead_getElem]
    have hi : i < (flashRead (writeCopy s a bs seq) a.page (copyTail a bs seq).length).length := by
      rw [flashRead_length, copyTail_length]
      omega
    rw [← flashRead_getElem _ _ _ i hi]
    have hget : ∀ (l : List Byte), l = copyTail a bs seq → ∀ hl : i < l.length, l[i] = (leBytes 4 seq)[i] := by
      rintro l rfl hl
      exact List.getElem_append_left h2
    exact hget _ hread hi
  rw [areaSequence, hfirst, leNat_leBytes]
  rfl

theorem areaCommit_writeCopy : areaCommit (writeCopy s a bs seq) a = 0xFFFFFFFF := by
  have herased : flashRead (writeCopy s a bs seq) (a.page + 8) 4 = List.replicate 4 erasedByte := by
    refine List.ext_getElem (by simp) (fun i h1 h2 => ?_)
    rw [flashRead_length] at h1
    rw [flashRead_getElem, List.getElem_replicate]
    have hpage : a.page = a.base + a.size - 256 := rfl
    exact flashAt_writeCopy_rest (by omega) (by omega) (by omega)
  rw [areaCommit, herased]
  decide

end

/-! ## COMMIT (R606, R607 step 5) -/

theorem flashAt_commitCopy_other (s : State) (a : Area) {x : Nat} (h : x < a.page + 8 ∨ a.page + 12 ≤ x) :
    flashAt (commitCopy s a) x = flashAt s x := flashAt_flashProgram_other _ _ _ (by rw [leBytes_length]; omega)

theorem erased_of_areaCommit {s : State} {a : Area} (h : areaCommit s a = 0xFFFFFFFF) (x : Nat) (hlow : a.page + 8 ≤ x) (hhigh : x < a.page + 12) :
    flashAt s x = erasedByte := by
  have hbytes : ∀ b0 b1 b2 b3 : Byte, leNat [b0, b1, b2, b3] = 0xFFFFFFFF → b0 = 0xFF ∧ b1 = 0xFF ∧ b2 = 0xFF ∧ b3 = 0xFF := by
    intro b0 b1 b2 b3 hle
    simp only [leNat] at hle
    refine ⟨?_, ?_, ?_, ?_⟩ <;> bv_omega
  obtain ⟨h0, h1, h2, h3⟩ := hbytes _ _ _ _ (show leNat [flashAt s (a.page + 8), flashAt s (a.page + 8 + 1), flashAt s (a.page + 8 + 1 + 1),
    flashAt s (a.page + 8 + 1 + 1 + 1)] = 0xFFFFFFFF from h)
  obtain rfl | rfl | rfl | rfl : x = a.page + 8 ∨ x = a.page + 8 + 1 ∨ x = a.page + 8 + 1 + 1 ∨ x = a.page + 8 + 1 + 1 + 1 := by omega
  · exact h0
  · exact h1
  · exact h2
  · exact h3

/-- A copy whose COMMIT is erased is committed. -/
theorem areaCommit_commitCopy {s : State} {a : Area} (h : areaCommit s a = 0xFFFFFFFF) : areaCommit (commitCopy s a) a = commitWord := by
  have hread : flashRead (commitCopy s a) (a.page + 8) (leBytes 4 commitWord).length = leBytes 4 commitWord :=
    flashRead_flashProgram (fun x hlow hhigh => erased_of_areaCommit h x hlow (by rw [leBytes_length] at hhigh; omega))
  rw [leBytes_length] at hread
  rw [areaCommit, hread, leNat_leBytes]
  decide

/-- A revoked copy's COMMIT is zero. -/
theorem areaCommit_revoked (s : State) (a : Area) : areaCommit (flashProgram s (a.page + 8) (leBytes 4 0)) a = 0 := by
  have hread : flashRead (flashProgram s (a.page + 8) (leBytes 4 0)) (a.page + 8) 4 = List.replicate 4 0 := by
    refine List.ext_getElem (by simp) (fun i h1 h2 => ?_)
    rw [flashRead_length] at h1
    have hi : i < (leBytes 4 0).length := by rw [leBytes_length]; exact h1
    have hzero : (leBytes 4 0)[i] = 0 := by
      have hrep : leBytes 4 0 = List.replicate 4 0 := by decide
      simp only [hrep, List.getElem_replicate]
    rw [flashRead_getElem, flashAt_flashProgram_inside s _ _ hi, hzero, List.getElem_replicate]
    exact BitVec.and_zero
  rw [areaCommit, hread]
  decide

theorem areaCommit_congr {s s' : State} (h : s'.mem.flash = s.mem.flash) (a : Area) : areaCommit s' a = areaCommit s a := by
  unfold areaCommit flashRead
  rw [h]

end Sys2Proof.Machine

/-!
FW_STAGE (R515, R622): its source is asked for, arrives or fails, and its image is stored into the copy that does not run.
-/

namespace Sys2Proof.Machine

/-! ## What waits for a store (R609) -/

theorem afterStore_of_none {s : State} (h : s.sys.activations = []) : afterStore s = s := by
  unfold afterStore runActivations
  rw [h]

theorem afterStore_of_pending {s : State} (h : storesPending s = true) : afterStore s = s := by
  unfold afterStore runActivations
  split
  · rfl
  · exact if_pos h

theorem SameBeyondTenants.sysEq {s s' : State} (h : SameBeyondTenants s s') : s'.sys = s.sys := by
  obtain ⟨-, -, -, -, hsys, -⟩ := h
  exact hsys

/-- A message of tenant 0's whose effect changes neither a tenant nor a port. -/
theorem onMessage_admin {s : State} {m : List Word} {type : Nat} {masks : List Nat} {f : State → List Word → State} (h : AtHead s 0 m type)
    (hclean : payloadClean m masks = true) (htenant : (f (headStarted s 0 m) m).tenant 0 = (headStarted s 0 m).tenant 0) :
    onMessage s 0 type (adminOnly 0 (cleanOnly 0 masks f)) = .next (f (headStarted s 0 m) m) ∧ Consumed (f (headStarted s 0 m) m) 0 m := by
  have heffect : adminOnly 0 (cleanOnly 0 masks f) (headStarted s 0 m) m = f (headStarted s 0 m) m := cleanOnly_of_clean 0 f _ hclean
  have hresult := onMessage_of_effect (f := adminOnly 0 (cleanOnly 0 masks f)) h (by rw [heffect, htenant])
  rwa [heffect] at hresult

/-! ## FW_STAGE is taken up (R622) -/

theorem fwStage_asks (m : List Word) (s : State) (h : AtHead s 0 m 0x0C) (hclean : payloadClean m [0xFFFFFFFF, 0xFFFFFFFF, 0xFFFFFFFF] = true)
    (hsize : stageSizeOk (word m 2) = true) (hnone : s.sys.fwStaging = []) :
    ∃ s', exec (.fwStage 0) s = .next s' ∧ Consumed s' 0 m ∧ s'.sys.fwStaging = [(mSeq m, dword m 0, word m 2)]
      ∧ s'.out = .hostRead (s.tenant 0).hostPort (dword m 0) (word m 2) :: s.out ∧ s'.mem = s.mem := by
  have hport : ((headStarted s 0 m).tenant 0).hostPort = (s.tenant 0).hostPort := by rw [headStarted_tenant_same]; rfl
  have hsys : (headStarted s 0 m).sys.fwStaging = [] := hnone
  have heffect : fwStage (headStarted s 0 m) m = { headStarted s 0 m with
      sys := { s.sys with fwStaging := [(mSeq m, dword m 0, word m 2)], fwStageBytes := [] }
      out := .hostRead (s.tenant 0).hostPort (dword m 0) (word m 2) :: s.out } := by
    rw [fwStage, if_pos hsize]
    dsimp only
    rw [hsys, List.isEmpty_nil, if_pos rfl, ← hport]
    rfl
  obtain ⟨hexec, hconsumed⟩ := onMessage_admin (f := fwStage) h hclean (by rw [heffect]; rfl)
  rw [heffect] at hexec hconsumed
  exact ⟨_, hexec, hconsumed, rfl, rfl, rfl⟩

theorem fwStage_refuses (m : List Word) (s : State) (h : AtHead s 0 m 0x0C) (hclean : payloadClean m [0xFFFFFFFF, 0xFFFFFFFF, 0xFFFFFFFF] = true)
    (hsize : stageSizeOk (word m 2) = false) :
    ∃ s', exec (.fwStage 0) s = .next s' ∧ Consumed s' 0 m ∧ s'.sys.stores = s.sys.stores ++ [.firmware (mSeq m) []] := by
  have heffect : fwStage (headStarted s 0 m) m
      = { headStarted s 0 m with sys := { s.sys with stores := s.sys.stores ++ [.firmware (mSeq m) []] } } := by
    rw [fwStage, hsize]
    rfl
  obtain ⟨hexec, hconsumed⟩ := onMessage_admin (f := fwStage) h hclean (by rw [heffect]; rfl)
  rw [heffect] at hexec hconsumed
  exact ⟨_, hexec, hconsumed, rfl⟩

/-! ## Its source arrives or fails (R514, R515) -/

section
variable {seq src size : Nat} {s : State}

theorem readOutstanding_of_staging (hruns : firmwareRuns s = true) (hstaging : s.sys.fwStaging = [(seq, src, size)]) :
    readOutstanding s = true := by
  rw [readOutstanding, hruns, hstaging]
  rfl

theorem sourceData_whole {data : List Byte} (hstaging : s.sys.fwStaging = [(seq, src, size)]) (hbytes : s.sys.fwStageBytes = [])
    (hwhole : size ≤ data.length) :
    sourceData s data = { s with sys := { s.sys with
      stores := s.sys.stores ++ [.firmware seq (data.take size)], fwStaging := [], fwStageBytes := [] } } := by
  unfold sourceData
  rw [hstaging]
  dsimp only
  rw [hbytes, List.nil_append, if_neg (Nat.not_lt.mpr hwhole)]
  unfold nextSource askSource
  dsimp only
  rw [hstaging]
  rfl

/-- A failed read leaves no source to ask for. -/
theorem sourceFailed_eq (hstaging : s.sys.fwStaging = [(seq, src, size)]) (hcan : CanNotify s 0) :
    sourceFailed s = { reply s 0 seq 0x0C 1 rBadAddress 0 0 0 with sys := { s.sys with fwStaging := [], fwStageBytes := [] } } := by
  obtain ⟨-, -, -, hbeyond, -, -⟩ := reply_writes seq 0x0C 1 rBadAddress 0 0 0 hcan
  have hsys := hbeyond.sysEq
  unfold sourceFailed
  rw [hstaging]
  dsimp only
  rw [replyRejected_eq]
  generalize reply s 0 seq 0x0C 1 rBadAddress 0 0 0 = a at hsys ⊢
  unfold nextSource askSource
  dsimp only
  rw [hsys, hstaging]
  rfl

/-- A port with a changed error log can be written as before. -/
theorem canNotify_setPort {p : Nat} {x : Port} (hx : portWritable x = portWritable (s.port p)) (hcan : CanNotify s 0) :
    CanNotify (s.setPort p x) 0 := by
  obtain ⟨hroom, hheld, hlost, hrim⟩ := hcan
  have hport : portWritable ((s.setPort p x).port (s.tenant 0).hostPort) = portWritable (s.port (s.tenant 0).hostPort) := by
    by_cases hp : (s.tenant 0).hostPort = p
    · rw [hp, State.port_setPort_same]; exact hx
    · rw [State.port_setPort_other _ _ _ _ hp]
  refine ⟨?_, hheld, hlost, hrim⟩
  unfold noticeRoom at hroom ⊢
  dsimp only at hroom ⊢
  rw [show (s.setPort p x).tenant 0 = s.tenant 0 from rfl, hport]
  exact hroom

/-- Whatever is logged of a read that fails, its FW_STAGE is answered. -/
theorem source_fails {x : Port} (hstaging : s.sys.fwStaging = [(seq, src, size)])
    (hx : portWritable x = portWritable (s.port (s.tenant 0).hostPort)) (hcan : CanNotify s 0) (hnone : s.sys.activations = []) :
    let r := afterStore (sourceFailed (s.setPort (s.tenant 0).hostPort x))
    r.sys.fwStaging = [] ∧ r.sys.stores = s.sys.stores ∧ r.port (s.tenant 0).hostPort = x
      ∧ Notified s r 0 (replyNotice seq 1 0x0C 0x0206 0 0 0) := by
  have hcanA := canNotify_setPort hx hcan
  have hplace : ringPlace ((s.setPort (s.tenant 0).hostPort x).tenant 0) = ringPlace (s.tenant 0) := rfl
  have hport := s.port_setPort_same (s.tenant 0).hostPort x
  have hstagingA : (s.setPort (s.tenant 0).hostPort x).sys.fwStaging = [(seq, src, size)] := hstaging
  have hsysA : (s.setPort (s.tenant 0).hostPort x).sys = s.sys := rfl
  dsimp only
  rw [sourceFailed_eq hstagingA hcanA, afterStore_of_none (by rw [hsysA]; exact hnone), hsysA]
  obtain ⟨hnotified, -, -, hbeyond, -, -⟩ := reply_writes seq 0x0C 1 rBadAddress 0 0 0 hcanA
  obtain ⟨-, -, -, -, -, -, -, -, -, hports, -⟩ := hbeyond
  refine ⟨rfl, rfl, ?_, notified_congr hplace hnotified⟩
  exact (congrArg (fun ps : Tab Port => tget ({} : Port) ps (s.tenant 0).hostPort) hports).trans hport

theorem readCompletion_stores {data : List Byte} (hruns : firmwareRuns s = true) (hstaging : s.sys.fwStaging = [(seq, src, size)])
    (hbytes : s.sys.fwStageBytes = []) (hwhole : size ≤ data.length) :
    ∃ s', exec (.engineReadCompletion .success false data) s = .next s' ∧ s'.sys.fwStaging = []
      ∧ s'.sys.stores = s.sys.stores ++ [.firmware seq (data.take size)] := by
  have hexec : exec (.engineReadCompletion .success false data) s
      = .next (afterStore (sourceData (s.setPort (s.tenant 0).hostPort
          (logCompletion (s.port (s.tenant 0).hostPort) .success false)) data)) := if_pos (readOutstanding_of_staging hruns hstaging)
  rw [sourceData_whole (s := s.setPort (s.tenant 0).hostPort (logCompletion (s.port (s.tenant 0).hostPort) .success false))
    hstaging hbytes hwhole, afterStore_of_pending (by simp [storesPending])] at hexec
  exact ⟨_, hexec, rfl, rfl⟩

theorem readCompletion_fails {st : CplStatus} {ep : Bool} {data : List Byte} (hruns : firmwareRuns s = true)
    (hstaging : s.sys.fwStaging = [(seq, src, size)]) (hfail : st ≠ .success ∨ ep = true) (hcan : CanNotify s 0) (hnone : s.sys.activations = []) :
    ∃ s', exec (.engineReadCompletion st ep data) s = .next s' ∧ s'.sys.fwStaging = [] ∧ s'.sys.stores = s.sys.stores
      ∧ Notified s s' 0 (replyNotice seq 1 0x0C 0x0206 0 0 0)
      ∧ (ep = true → (s'.port (s.tenant 0).hostPort).aerPoisoned = true)
      ∧ (st ≠ .success → (s'.port (s.tenant 0).hostPort).aerUnsupported = true) := by
  have hbad : ¬ ((decide (st = .success) && !ep) = true) := by
    rcases hfail with hst | hep
    · rw [decide_eq_false hst]; exact Bool.false_ne_true
    · rw [hep, Bool.not_true, Bool.and_false]; exact Bool.false_ne_true
  have hexec : exec (.engineReadCompletion st ep data) s
      = .next (afterStore (sourceFailed (s.setPort (s.tenant 0).hostPort (logCompletion (s.port (s.tenant 0).hostPort) st ep)))) :=
    (if_pos (readOutstanding_of_staging hruns hstaging)).trans (congrArg (fun r => Host.Outcome.next (afterStore r)) (if_neg hbad))
  obtain ⟨hstaged, hstores, hport, hnotified⟩ := source_fails (x := logCompletion (s.port (s.tenant 0).hostPort) st ep) hstaging rfl hcan hnone
  refine ⟨_, hexec, hstaged, hstores, hnotified, fun hep => ?_, fun hst => ?_⟩
  · rw [hport, logCompletion, hep]; exact Bool.or_true _
  · rw [hport, logCompletion, decide_eq_true hst]; exact Bool.or_true _

theorem completionTimeout_fails (hruns : firmwareRuns s = true) (hstaging : s.sys.fwStaging = [(seq, src, size)]) (hcan : CanNotify s 0)
    (hnone : s.sys.activations = []) :
    ∃ s', exec .completionTimeout s = .next s' ∧ s'.sys.fwStaging = [] ∧ (s'.port (s.tenant 0).hostPort).aerTimeout = true
      ∧ Notified s s' 0 (replyNotice seq 1 0x0C 0x0206 0 0 0) := by
  have hexec : exec .completionTimeout s
      = .next (afterStore (sourceFailed (s.setPort (s.tenant 0).hostPort { s.port (s.tenant 0).hostPort with aerTimeout := true }))) :=
    if_pos (readOutstanding_of_staging hruns hstaging)
  obtain ⟨hstaged, -, hport, hnotified⟩ := source_fails (x := { s.port (s.tenant 0).hostPort with aerTimeout := true }) hstaging rfl hcan hnone
  exact ⟨_, hexec, hstaged, by rw [hport], hnotified⟩

end

/-! ## Its store (R607, R622) -/

section
variable {seq : Nat} {bs : List Byte} {rest : List Store} {s : State}

theorem execFwStageDone_eq {a : State} (hready : ready s = true) (hstores : s.sys.stores = .firmware seq bs :: rest)
    (ha : storeImage (popStore s) seq bs true = a) (hnone : a.sys.activations = []) : exec (.fwStageDone true) s = .next a := by
  refine Eq.trans (b := execFwStageDone true s) rfl ?_
  unfold execFwStageDone
  rw [hstores]
  dsimp only
  rw [if_pos hready, ha, afterStore_of_none hnone]

/-- The STORE_SEQUENCE of the next firmware store (R608). -/
def nextFirmwareSeq (s : State) : Nat := match newerFirmware s with | some j => firmwareSeq s j + 1 | none => 1

theorem storeImage_good (hok : firmwareImageOk bs = true) :
    storeImage s seq bs true = reply (writeCopy s (firmwareArea (1 - s.sys.runningCopy)) bs (nextFirmwareSeq s)) 0 seq 0x0C 0 0 0 0 0 := by
  obtain ⟨hhead, hsigned⟩ := Bool.and_eq_true_iff.mp hok
  unfold storeImage
  dsimp only
  rw [hhead, hsigned]
  rfl

theorem storeImage_bad (hbad : firmwareImageOk bs = false) :
    storeImage s seq bs true = reply (flashErase s (firmwareArea (1 - s.sys.runningCopy)).base (firmwareArea (1 - s.sys.runningCopy)).size)
      0 seq 0x0C 1 rBadMessage 0 0 0 := by
  unfold storeImage
  dsimp only
  cases hhead : firmwareHeadOk bs with
  | false => rfl
  | true =>
    have hsigned : firmwareSigned bs = false := by rwa [firmwareImageOk, hhead, Bool.true_and] at hbad
    rw [hsigned]
    rfl

theorem firmwareImage_fits (hok : firmwareImageOk bs = true) : bs.length ≤ 0x400000 - 256 := by
  obtain ⟨hhead, -⟩ := Bool.and_eq_true_iff.mp hok
  simp only [firmwareHeadOk, stageSizeOk, Bool.and_eq_true, decide_eq_true_eq] at hhead
  omega

theorem StoreOnly.kept {a : State} (h : StoreOnly s a) :
    a.tenants = s.tenants ∧ a.ports = s.ports ∧ a.taps = s.taps ∧ a.sys.stores = s.sys.stores ∧ a.sys.activations = s.sys.activations
      ∧ a.mem.host = s.mem.host ∧ a.fields = s.fields := by
  obtain ⟨fl, n, b, rfl⟩ := h
  exact ⟨rfl, rfl, rfl, rfl, rfl, rfl, rfl⟩

theorem tenant_congr {a : State} (h : a.tenants = s.tenants) (t : Nat) : a.tenant t = s.tenant t := by
  unfold State.tenant
  rw [h]

/-- A REPLY written after a store. -/
theorem reply_after_store {a : State} {status reason : Nat} (h : StoreOnly s a) (hcan : CanNotify s 0) :
    let r := reply a 0 seq 0x0C status reason 0 0 0
    r.sys.stores = s.sys.stores ∧ r.sys.activations = s.sys.activations ∧ Notified s r 0 (replyNotice seq status 0x0C reason 0 0 0)
      ∧ r.mem.flash = a.mem.flash := by
  obtain ⟨htenants, hports, htaps, hstores, hactivations, -, -⟩ := h.kept
  have hown := tenant_congr htenants 0
  obtain ⟨hnotified, -, -, hbeyond, ⟨-, -, hflash, -, -⟩, -⟩ := reply_writes (s := a) seq 0x0C status reason 0 0 0
    (canNotify_congr (by rw [hown]) hports htaps hcan)
  have hsys := hbeyond.sysEq
  exact ⟨(congrArg Sys.stores hsys).trans hstores, (congrArg Sys.activations hsys).trans hactivations,
    notified_congr (by rw [hown]) hnotified, hflash⟩

theorem fwStageDone_stores (hready : ready s = true) (hstores : s.sys.stores = .firmware seq bs :: rest) (hcan : CanNotify s 0)
    (hnone : s.sys.activations = []) (hok : firmwareImageOk bs = true) {a : Area} (ha : firmwareArea (1 - s.sys.runningCopy) = a) :
    ∃ s', exec (.fwStageDone true) s = .next s' ∧ s'.sys.stores = rest ∧ Notified s s' 0 (replyNotice seq 0 0x0C 0 0 0 0)
          ∧ flashRead s' a.base bs.length = bs ∧ areaCommit s' a = 0xFFFFFFFF
          ∧ areaSequence s' a = nextFirmwareSeq s % 2 ^ 32
          ∧ ∀ x, x < a.base ∨ a.base + a.size ≤ x → tget erasedByte s'.mem.flash x = tget erasedByte s.mem.flash x := by
  have hsize : a.size = 0x400000 := by rw [← ha]; rfl
  have hbig : 256 ≤ a.size := by rw [hsize]; decide
  have hfits : bs.length ≤ a.size - 256 := by rw [hsize]; exact firmwareImage_fits hok
  have hstore := storeImage_good (s := popStore s) (seq := seq) hok
  have hcopy := writeCopy_storeOnly (popStore s) a bs (nextFirmwareSeq (popStore s))
  have hread := flashRead_writeCopy (s := popStore s) (seq := nextFirmwareSeq (popStore s)) hbig hfits
  have hcommit := areaCommit_writeCopy (s := popStore s) (seq := nextFirmwareSeq (popStore s)) hbig hfits
  have hsequence := areaSequence_writeCopy (s := popStore s) (seq := nextFirmwareSeq (popStore s)) hbig hfits
  have hother := fun x => flashAt_writeCopy_other (s := popStore s) (seq := nextFirmwareSeq (popStore s)) hbig hfits (x := x)
  rw [show (popStore s).sys.runningCopy = s.sys.runningCopy from rfl, ha] at hstore
  have hpopped : (popStore s).sys.stores = rest := by rw [popStore, hstores]; rfl
  have hkept : (popStore s).sys.activations = [] := hnone
  have hcanP : CanNotify (popStore s) 0 := hcan
  obtain ⟨hrest, hleft, hnotified, hflash⟩ := reply_after_store (seq := seq) (status := 0) (reason := 0) hcopy hcanP
  refine ⟨_, execFwStageDone_eq hready hstores hstore (hleft.trans hkept), hrest.trans hpopped, hnotified, ?_, ?_, ?_, fun x hx => ?_⟩
  · exact (congrArg (fun fl => readBytes erasedByte fl a.base bs.length) hflash).trans hread
  · exact (areaCommit_congr hflash a).trans hcommit
  · exact (congrArg (fun fl => leNat (readBytes erasedByte fl a.page 4)) hflash).trans hsequence
  · exact (congrArg (fun fl => tget erasedByte fl x) hflash).trans (hother x hx)

theorem fwStageDone_erases (hready : ready s = true) (hstores : s.sys.stores = .firmware seq bs :: rest) (hcan : CanNotify s 0)
    (hnone : s.sys.activations = []) (hbad : firmwareImageOk bs = false) {a : Area} (ha : firmwareArea (1 - s.sys.runningCopy) = a) :
    ∃ s', exec (.fwStageDone true) s = .next s' ∧ s'.sys.stores = rest ∧ Notified s s' 0 (replyNotice seq 1 0x0C 0x0203 0 0 0)
          ∧ (∀ x, a.base ≤ x → x < a.base + a.size → tget erasedByte s'.mem.flash x = erasedByte)
          ∧ ∀ x, x < a.base ∨ a.base + a.size ≤ x → tget erasedByte s'.mem.flash x = tget erasedByte s.mem.flash x := by
  have hstore := storeImage_bad (s := popStore s) (seq := seq) hbad
  rw [show (popStore s).sys.runningCopy = s.sys.runningCopy from rfl, ha] at hstore
  have hread := flashAt_flashErase (popStore s) a.base a.size
  have hpopped : (popStore s).sys.stores = rest := by rw [popStore, hstores]; rfl
  have hkept : (popStore s).sys.activations = [] := hnone
  have hcanP : CanNotify (popStore s) 0 := hcan
  obtain ⟨hrest, hleft, hnotified, hflash⟩ := reply_after_store (seq := seq) (status := 1) (reason := rBadMessage)
    (flashErase_storeOnly (popStore s) a.base a.size) hcanP
  refine ⟨_, execFwStageDone_eq hready hstores hstore (hleft.trans hkept), hrest.trans hpopped, hnotified, fun x hlow hhigh => ?_, fun x hx => ?_⟩
  · exact (congrArg (fun fl => tget erasedByte fl x) hflash).trans ((hread x).trans (if_pos ⟨hlow, hhigh⟩))
  · exact (congrArg (fun fl => tget erasedByte fl x) hflash).trans ((hread x).trans (if_neg (by omega)))

end

/-- Settles O17: FW_STAGE reads its source and stores the image into the copy that does not run. -/
theorem firmwareImageStaged : Obligations.FirmwareImageStaged :=
  ⟨fun m s h hclean => ⟨fwStage_asks m s h hclean, fwStage_refuses m s h hclean⟩,
    fun _ _ _ _ _ hruns hstaging => ⟨readCompletion_stores hruns hstaging, fun _ _ hfail hcan hnone => readCompletion_fails hruns hstaging hfail hcan hnone,
      completionTimeout_fails hruns hstaging⟩,
    fun _ _ _ _ hready hstores hcan hnone => ⟨fun hok => fwStageDone_stores hready hstores hcan hnone hok rfl,
      fun hbad => fwStageDone_erases hready hstores hcan hnone hbad rfl⟩⟩

end Sys2Proof.Machine

/-!
FW_ACTIVATE (R365, R623, R624): it waits for a store, is BUSY while work stands, and else commits or revokes, answers and restarts from step 2.
-/

namespace Sys2Proof.Machine

/-! ## The restart (R624) -/

/-- What a restart leaves and what it clears. -/
theorem restart_facts (s : State) :
    (restart s).sys.state = 0 ∧ (restart s).sys.stepEnded = s.sys.stepEnded &&& 1 ∧ (restart s).work = {} ∧ (restart s).tenants = []
      ∧ (restart s).silicon = {} ∧ (restart s).mem = { s.mem with cistern := [] } ∧ (restart s).ports = s.ports := by
  unfold restart beginStep2
  dsimp only
  exact ⟨rfl, rfl, rfl, rfl, rfl, rfl, rfl⟩

section
variable {m : List Word} {s : State}

theorem drained_headStarted : drained (headStarted s 0 m) = drained s := by
  have hplan : ∀ t, ((headStarted s 0 m).tenant t).plan = (s.tenant t).plan := fun t => (configuring_headStarted s 0 m t).2.1
  unfold drained
  simp only [hplan]
  rfl

/-- FW_ACTIVATE whose turn has come. -/
theorem queueActivate_now (hstores : s.sys.stores = []) (hstaging : s.sys.fwStaging = []) (hrequalify : s.sys.requalify = none)
    (hnone : s.sys.activations = []) : queueActivate s m = fwActivate s m := by
  unfold queueActivate storesPending
  rw [hstores, hstaging, hrequalify, hnone]
  exact if_neg (by simp)

/-- A REPLY, then the restart. -/
def activated (s : State) (m : List Word) : State := restart (reply s 0 (mSeq m) 0x0D 0 0 0 0 0)

/-- The flash in which FW_ACTIVATE restarts. -/
def activatedFlash (s : State) (i : Nat) : State :=
  if i = s.sys.runningCopy then s
  else if firmwareState s i = 2 && firmwareSigned (firmwareContent s i) then commitStaged s i
  else revokeCopy s s.sys.runningCopy

theorem fwActivate_eq {i : Nat} (hi : bits (word m 0) 0 0 = i) (hdrained : drained s = true)
    (hcopy : i = s.sys.runningCopy ∨ (firmwareState s i = 2 ∧ firmwareSigned (firmwareContent s i) = true) ∨ firmwareState s i = 0) :
    fwActivate s m = activated (activatedFlash s i) m := by
  unfold fwActivate activatedFlash
  dsimp only
  rw [hi, hdrained, if_neg (by decide)]
  by_cases hrun : i = s.sys.runningCopy
  · rw [if_pos hrun, if_pos hrun]; rfl
  · rw [if_neg hrun, if_neg hrun]
    cases hstaged : (decide (firmwareState s i = 2) && firmwareSigned (firmwareContent s i)) with
    | true => rw [if_pos rfl, if_pos rfl]; rfl
    | false =>
      have hvalid : firmwareValid s i = true := by
        rcases hcopy with h | ⟨h2, hsigned⟩ | h0
        · exact absurd h hrun
        · rw [h2, hsigned] at hstaged; exact absurd hstaged (by decide)
        · exact decide_eq_true h0
      rw [if_neg Bool.false_ne_true, if_neg Bool.false_ne_true, if_pos hvalid]
      rfl

theorem activatedFlash_storeOnly (i : Nat) : StoreOnly s (activatedFlash s i) := by
  unfold activatedFlash
  split
  · exact .refl s
  · split
    · exact flashProgram_storeOnly s _ _
    · exact flashProgram_storeOnly s _ _

theorem activatedFlash_mem (i : Nat) : ∃ fl, (activatedFlash s i).mem = { s.mem with flash := fl } := by
  obtain ⟨fl, n, b, heq⟩ := activatedFlash_storeOnly (s := s) i
  exact ⟨fl, by rw [heq]⟩

/-- A STAGED copy's COMMIT is erased. -/
theorem areaCommit_of_staged {i : Nat} (h : firmwareState s i = 2) : areaCommit s (firmwareArea i) = 0xFFFFFFFF := by
  by_contra hne
  unfold firmwareState areaState at h
  rw [if_neg hne] at h
  split_ifs at h <;> omega

theorem activatedFlash_commits {i : Nat} (hrun : i ≠ s.sys.runningCopy) (hsigned : firmwareSigned (firmwareContent s i) = true)
    (h : firmwareState s i = 2) : areaCommit (activatedFlash s i) (firmwareArea i) = commitWord := by
  unfold activatedFlash
  rw [if_neg hrun, h, hsigned, if_pos (by rfl : (decide (2 = 2) && true) = true)]
  exact areaCommit_commitCopy (areaCommit_of_staged h)

theorem activatedFlash_revokes {i : Nat} (hrun : i ≠ s.sys.runningCopy) (h : firmwareState s i = 0) :
    areaCommit (activatedFlash s i) (firmwareArea s.sys.runningCopy) = 0 := by
  unfold activatedFlash
  rw [if_neg hrun, h, if_neg (by simp)]
  exact areaCommit_revoked s _

/-! ## FW_ACTIVATE (R365, R623) -/

theorem adminEffect_eq {masks : List Nat} {f : State → List Word → State} (hclean : payloadClean m masks = true) :
    adminOnly 0 (cleanOnly 0 masks f) (headStarted s 0 m) m = f (headStarted s 0 m) m := cleanOnly_of_clean 0 f _ hclean

theorem onMessage_of_atHead_result {type : Nat} {f : State → List Word → State} (h : AtHead s 0 m type)
    (hcopied : ((f (headStarted s 0 m) m).tenant 0).copied = []) : onMessage s 0 type f = .next (f (headStarted s 0 m) m) := by
  unfold onMessage
  rw [headOf_of_atHead h]
  dsimp only
  rw [headStarted_eq, settleAll_of_none_copied hcopied]

theorem fwActivate_restarts (h : AtHead s 0 m 0x0D) (hclean : payloadClean m [1] = true) (hnone : s.sys.activations = []) (hcan : CanNotify s 0)
    {i : Nat} (hi : bits (word m 0) 0 0 = i) (hdrained : drained s = true) (hstores : s.sys.stores = []) (hstaging : s.sys.fwStaging = [])
    (hrequalify : s.sys.requalify = none)
    (hcopy : i = s.sys.runningCopy ∨ (firmwareState s i = 2 ∧ firmwareSigned (firmwareContent s i) = true) ∨ firmwareState s i = 0) :
    ∃ s', exec (.fwActivate 0) s = .next s' ∧ s'.sys.state = 0 ∧ s'.sys.stepEnded = s.sys.stepEnded &&& 1
        ∧ s'.work = {} ∧ s'.tenants = [] ∧ s'.silicon = {} ∧ s'.mem.cistern = [] ∧ s'.mem.ddr = s.mem.ddr ∧ s'.ports = s.ports
        ∧ readBytes 0 s'.mem.host (tailKey s 0) 32 = slotBytes s 0 (replyNotice (mSeq m) 0 0x0D 0 0 0 0)
        ∧ (i ≠ s.sys.runningCopy → firmwareState s i = 2 → areaCommit s' (firmwareArea i) = commitWord)
        ∧ (i ≠ s.sys.runningCopy → firmwareState s i = 0 → areaCommit s' (firmwareArea s.sys.runningCopy) = 0)
        ∧ (i = s.sys.runningCopy → s'.mem.flash = s.mem.flash) := by
  have hsysA : (headStarted s 0 m).sys = s.sys := rfl
  have hmemA : (headStarted s 0 m).mem = s.mem := rfl
  have hportsA : (headStarted s 0 m).ports = s.ports := rfl
  have hstateA := noticeState_headStarted s 0 m
  have hcanA : CanNotify (headStarted s 0 m) 0 := canNotify_congr hstateA rfl rfl hcan
  have hdrainedA : drained (headStarted s 0 m) = true := drained_headStarted.trans hdrained
  have hcopyState : ∀ j, firmwareState (headStarted s 0 m) j = firmwareState s j := fun _ => rfl
  have hcontent : ∀ j, firmwareContent (headStarted s 0 m) j = firmwareContent s j := fun _ => rfl
  have heffect : adminOnly 0 (cleanOnly 0 [1] queueActivate) (headStarted s 0 m) m = activated (activatedFlash (headStarted s 0 m) i) m :=
    (adminEffect_eq hclean).trans ((queueActivate_now (s := headStarted s 0 m) hstores hstaging hrequalify hnone).trans (fwActivate_eq (s := headStarted s 0 m) hi hdrainedA hcopy))
  have hcopied := fun hc => onMessage_of_atHead_result (f := adminOnly 0 (cleanOnly 0 [1] queueActivate)) h hc
  rw [heffect] at hcopied
  have hcommits := activatedFlash_commits (s := headStarted s 0 m) (i := i)
  have hrevokes := activatedFlash_revokes (s := headStarted s 0 m) (i := i)
  have hsame : i = s.sys.runningCopy → activatedFlash (headStarted s 0 m) i = headStarted s 0 m := fun hrun => if_pos hrun
  obtain ⟨htenants, hports, htaps, -, -, hhost, -⟩ := (activatedFlash_storeOnly (s := headStarted s 0 m) i).kept
  obtain ⟨fl, hmem⟩ := activatedFlash_mem (s := headStarted s 0 m) i
  have hstep : (activatedFlash (headStarted s 0 m) i).sys.stepEnded = s.sys.stepEnded := by
    obtain ⟨_, _, _, heq⟩ := activatedFlash_storeOnly (s := headStarted s 0 m) i
    rw [heq]
    rfl
  generalize headStarted s 0 m = a at *
  generalize activatedFlash a i = b at *
  have hown := tenant_congr htenants 0
  have hstateB : noticeState (b.tenant 0) = noticeState (s.tenant 0) := by rw [hown]; exact hstateA
  obtain ⟨hnotified, -, -, hbeyond, ⟨hddr, -, hflash, -, -⟩, -⟩ := reply_writes (mSeq m) 0x0D 0 0 0 0 0
    (canNotify_congr (by rw [hown]) hports htaps hcanA)
  obtain ⟨-, -, -, -, hsys, -, -, -, -, hportsR, -⟩ := hbeyond
  obtain ⟨hstate, hended, hwork, hnotenant, hsilicon, hmemory, hsameports⟩ := restart_facts (reply b 0 (mSeq m) 0x0D 0 0 0 0 0)
  obtain ⟨hread, -, -⟩ := notified_congr (ringPlace_of_noticeState hstateB) hnotified
  refine ⟨activated b m, hcopied ?_, hstate, ?_, hwork, hnotenant, hsilicon, ?_, ?_, ?_, ?_, fun hrun h2 => ?_, fun hrun h0 => ?_, fun hrun => ?_⟩
  · exact (congrArg Tenant.copied (tenant_congr (s := { b with tenants := [] }) hnotenant 0)).trans rfl
  · rw [activated, hended, hsys, hstep]
  · rw [activated, hmemory]
  · rw [activated, hmemory]; exact hddr.trans (by rw [hmem, hmemA])
  · rw [activated, hsameports, hportsR, hports, hportsA]
  · rw [activated, hmemory]; exact hread
  · have hsigned : firmwareSigned (firmwareContent a i) = true := by
      rw [hcontent]
      rcases hcopy with h | ⟨-, hsigned⟩ | h0
      · exact absurd h hrun
      · exact hsigned
      · rw [h2] at h0; exact absurd h0 (by decide)
    refine (areaCommit_congr (s := b) ?_ _).trans (hcommits (by rw [hsysA]; exact hrun) hsigned (by rw [hcopyState]; exact h2))
    rw [activated, hmemory]; exact hflash
  · have hzero := hrevokes (by rw [hsysA]; exact hrun) (by rw [hcopyState]; exact h0)
    rw [hsysA] at hzero
    refine (areaCommit_congr (s := b) ?_ _).trans hzero
    rw [activated, hmemory]; exact hflash
  · rw [activated, hmemory]
    exact hflash.trans (by rw [hsame hrun, hmemA])

theorem fwActivate_waits (h : AtHead s 0 m 0x0D) (hclean : payloadClean m [1] = true) (hnone : s.sys.activations = [])
    (hdrained : drained s = true) (hstores : s.sys.stores ≠ []) :
    ∃ s', exec (.fwActivate 0) s = .next s' ∧ Consumed s' 0 m ∧ s'.sys = { s.sys with activations := [m] } ∧ s'.mem = s.mem := by
  have hpending : (drained (headStarted s 0 m) && (storesPending (headStarted s 0 m) || !(headStarted s 0 m).sys.activations.isEmpty)) = true := by
    have hstoresA : (headStarted s 0 m).sys.stores ≠ [] := hstores
    rw [drained_headStarted, hdrained, storesPending]
    simp [hstoresA]
  have heffect : queueActivate (headStarted s 0 m) m = { headStarted s 0 m with sys := { s.sys with activations := [m] } } := by
    rw [queueActivate, if_pos hpending, show (headStarted s 0 m).sys = s.sys from rfl, hnone]
    rfl
  obtain ⟨hexec, hconsumed⟩ := onMessage_admin (f := queueActivate) h hclean (by rw [heffect]; rfl)
  rw [heffect] at hexec hconsumed
  exact ⟨_, hexec, hconsumed, rfl, rfl⟩

theorem fwActivate_busy (h : AtHead s 0 m 0x0D) (hclean : payloadClean m [1] = true) (hcan : CanNotify s 0) (hbusy : drained s = false) :
    ∃ s', exec (.fwActivate 0) s = .next s' ∧ Consumed s' 0 m ∧ s'.sys = s.sys ∧ Notified s s' 0 (replyNotice (mSeq m) 1 0x0D 0x0201 0 0 0) := by
  have hbusyA : drained (headStarted s 0 m) = false := drained_headStarted.trans hbusy
  have heffect : queueActivate (headStarted s 0 m) m = reply (headStarted s 0 m) 0 (mSeq m) 0x0D 1 rBusy 0 0 0 := by
    rw [queueActivate, hbusyA, Bool.false_and, if_neg Bool.false_ne_true, fwActivate, hbusyA]
    rfl
  obtain ⟨s', hexec, hr⟩ := onMessage_replied h hcan ((adminEffect_eq hclean).trans heffect)
  exact ⟨s', hexec, hr.consumed, hr.beyond.sysEq, hr.notified⟩

end

/-- Settles O18: FW_ACTIVATE commits or revokes, answers and restarts; it waits for a store and is BUSY while work stands. -/
theorem firmwareActivated : Obligations.FirmwareActivated := fun _ _ h hclean hnone hcan =>
  ⟨fun hdrained hstores hstaging hrequalify hcopy => fwActivate_restarts h hclean hnone hcan rfl hdrained hstores hstaging hrequalify hcopy,
    fun hdrained hstores => fwActivate_waits h hclean hnone hdrained hstores, fun hbusy => fwActivate_busy h hclean hcan hbusy⟩

end Sys2Proof.Machine

/-!
The stores of the ledger (R607 to R611, R615): the recorded ledger is written into its target copy and committed, a sector of the generation
log is erased; and the end of a REQUALIFY whose store commits or is abandoned (R616, R617).
-/

namespace Sys2Proof.Machine

/-! ## The ledger's copy (R607, R608) -/

theorem ledgerArea_size (i : Nat) : (ledgerArea i).size = 0x8000 := rfl

theorem ledgerBytes_length (s : State) (es : List LedgerEntry) : (ledgerBytes s es).length = 64 + 8 * es.length := by
  have hentries : (es.flatMap (fun e => leBytes 4 e.word0 ++ leBytes 4 e.added)).length = 8 * es.length := by
    induction es with
    | nil => rfl
    | cons e es ih => simp only [List.flatMap_cons, List.length_append, leBytes_length, ih, List.length_cons]; omega
  simp only [ledgerBytes, List.length_append, leBytes_length, hentries, zeros, List.length_replicate]

/-- The state of a committed ledger store but for its flash. -/
def ledgerStamped (s : State) : State :=
  { s with silicon := { s.silicon with recorded := s.silicon.recorded.map (stampEntry (ledgerTarget s).2) } }

/-- The flash of a committed ledger store. -/
def ledgerWritten (s : State) : State :=
  commitCopy (writeCopy (ledgerStamped s) (ledgerArea (ledgerTarget s).1) (ledgerBytes s (ledgerStamped s).silicon.recorded) (ledgerTarget s).2)
    (ledgerArea (ledgerTarget s).1)

theorem storeLedger_commits {s : State} (h : s.silicon.recorded.length ≤ 4000) : storeLedger s true = (ledgerWritten s, true) := by
  unfold storeLedger
  dsimp only
  rw [if_neg (Nat.not_lt.mpr h)]
  rfl

theorem storeLedger_abandons {s : State} (h : s.silicon.recorded.length ≤ 4000) :
    storeLedger s false = (abandonStore s (ledgerArea (ledgerTarget s).1), false) := by
  unfold storeLedger
  dsimp only
  rw [if_neg (Nat.not_lt.mpr h)]
  rfl

theorem ledgerWritten_storeOnly (s : State) : StoreOnly (ledgerStamped s) (ledgerWritten s) :=
  (writeCopy_storeOnly _ _ _ _).trans (flashProgram_storeOnly _ _ _)

section
variable {s : State} (h : s.silicon.recorded.length ≤ 4000)
include h

theorem ledgerBytes_fits : (ledgerBytes s (ledgerStamped s).silicon.recorded).length ≤ (ledgerArea (ledgerTarget s).1).size - 256 := by
  have hlength : (ledgerStamped s).silicon.recorded.length = s.silicon.recorded.length := List.length_map ..
  rw [ledgerBytes_length, ledgerArea_size, hlength]
  omega

theorem areaCommit_ledgerWritten : areaCommit (ledgerWritten s) (ledgerArea (ledgerTarget s).1) = commitWord :=
  areaCommit_commitCopy (areaCommit_writeCopy (by rw [ledgerArea_size]; decide) (ledgerBytes_fits h))

theorem areaSequence_ledgerWritten : areaSequence (ledgerWritten s) (ledgerArea (ledgerTarget s).1) = (ledgerTarget s).2 % 2 ^ 32 := by
  refine Eq.trans ?_ (areaSequence_writeCopy (s := ledgerStamped s) (by rw [ledgerArea_size]; decide) (ledgerBytes_fits h))
  unfold areaSequence
  exact congrArg leNat (flashRead_congr (fun x hlow hhigh => flashAt_commitCopy_other _ _ (.inl (by omega))))

theorem flashRead_ledgerWritten : flashRead (ledgerWritten s) (ledgerArea (ledgerTarget s).1).base
      (ledgerBytes s (ledgerStamped s).silicon.recorded).length = ledgerBytes s (ledgerStamped s).silicon.recorded := by
  have hfits := ledgerBytes_fits h
  refine Eq.trans (flashRead_congr (fun x hlow hhigh => flashAt_commitCopy_other _ _ (.inl ?_)))
    (flashRead_writeCopy (s := ledgerStamped s) (seq := (ledgerTarget s).2) (by rw [ledgerArea_size]; decide) hfits)
  have hpage : (ledgerArea (ledgerTarget s).1).page = (ledgerArea (ledgerTarget s).1).base + (ledgerArea (ledgerTarget s).1).size - 256 := rfl
  rw [ledgerArea_size] at hfits hpage
  omega

theorem flashAt_ledgerWritten_other {x : Nat} (hx : x < (ledgerArea (ledgerTarget s).1).base
      ∨ (ledgerArea (ledgerTarget s).1).base + (ledgerArea (ledgerTarget s).1).size ≤ x) : flashAt (ledgerWritten s) x = flashAt s x := by
  have hpage : (ledgerArea (ledgerTarget s).1).page = (ledgerArea (ledgerTarget s).1).base + (ledgerArea (ledgerTarget s).1).size - 256 := rfl
  refine (flashAt_commitCopy_other _ _ ?_).trans (flashAt_writeCopy_other (by rw [ledgerArea_size]; decide) (ledgerBytes_fits h) hx)
  rw [ledgerArea_size] at hpage hx
  omega

end

/-! ## LEDGER_STORE and GENERATION_SECTOR_ERASE (R609, R611) -/

theorem ledgerStore_commits (rest : List Store) (s : State) (hruns : firmwareRuns s = true) (hstores : s.sys.stores = .ledger :: rest)
    (hfew : s.silicon.recorded.length ≤ 4000) (hnone : s.sys.activations = []) :
    ∃ s', exec (.ledgerStore true) s = .next s' ∧ s'.sys.stores = rest ∧ areaCommit s' (ledgerArea (ledgerTarget s).1) = commitWord
        ∧ areaSequence s' (ledgerArea (ledgerTarget s).1) = (ledgerTarget s).2 % 2 ^ 32
        ∧ s'.silicon.recorded = s.silicon.recorded.map (stampEntry (ledgerTarget s).2)
        ∧ flashRead s' (ledgerArea (ledgerTarget s).1).base (ledgerBytes s s'.silicon.recorded).length = ledgerBytes s s'.silicon.recorded
        ∧ ∀ x, x < (ledgerArea (ledgerTarget s).1).base ∨ (ledgerArea (ledgerTarget s).1).base + (ledgerArea (ledgerTarget s).1).size ≤ x →
            tget erasedByte s'.mem.flash x = tget erasedByte s.mem.flash x := by
  have hfewP : (popStore s).silicon.recorded.length ≤ 4000 := hfew
  obtain ⟨fl, n, b, heq⟩ := ledgerWritten_storeOnly (popStore s)
  have hactivations : (ledgerWritten (popStore s)).sys.activations = [] := by rw [heq]; exact hnone
  have hexec : exec (.ledgerStore true) s = .next (ledgerWritten (popStore s)) := by
    refine Eq.trans (b := execLedgerStore true s) rfl ?_
    unfold execLedgerStore
    rw [hstores]
    dsimp only
    rw [if_pos hruns, storeLedger_commits hfewP, afterStore_of_none hactivations]
  have hcommit := areaCommit_ledgerWritten hfewP
  have hsequence := areaSequence_ledgerWritten hfewP
  have hread := flashRead_ledgerWritten hfewP
  have hother := fun x => flashAt_ledgerWritten_other hfewP (x := x)
  have hrecorded : (ledgerWritten (popStore s)).silicon.recorded = (ledgerStamped (popStore s)).silicon.recorded := by rw [heq]
  have htarget : ledgerTarget (popStore s) = ledgerTarget s := rfl
  have hbytes : ∀ es, ledgerBytes (popStore s) es = ledgerBytes s es := fun _ => rfl
  have hstored : (ledgerWritten (popStore s)).sys.stores = rest := by
    rw [heq]
    exact (congrArg (fun l : List Store => l.drop 1) hstores).trans rfl
  rw [htarget] at hcommit hsequence hread hother
  rw [hbytes] at hread
  refine ⟨_, hexec, hstored, hcommit, hsequence, hrecorded.trans rfl, ?_, hother⟩
  rw [hrecorded]
  exact hread

theorem flashBlank_flashErase (s : State) (a n : Nat) : flashBlank (flashErase s a n) a n = true := by
  unfold flashBlank
  rw [List.all_eq_true]
  intro e he
  exact (List.mem_filter.mp he).2

theorem generationSectorErase_erases (k : Nat) (rest : List Store) (s : State) (hready : ready s = true)
    (hstores : s.sys.stores = .generationErase k :: rest) (hnone : s.sys.activations = []) :
    ∃ s', exec (.generationSectorErase true) s = .next s' ∧ s'.sys.stores = rest ∧ flashBlank s' (slotAt k 0) 0x1000 = true
        ∧ ∀ x, x < slotAt k 0 ∨ slotAt k 0 + 0x1000 ≤ x → tget erasedByte s'.mem.flash x = tget erasedByte s.mem.flash x := by
  have hnoneP : (flashErase (popStore s) (slotAt k 0) 0x1000).sys.activations = [] := hnone
  have hexec : exec (.generationSectorErase true) s = .next (flashErase (popStore s) (slotAt k 0) 0x1000) := by
    refine Eq.trans (b := execGenerationSectorErase true s) rfl ?_
    unfold execGenerationSectorErase
    rw [hstores]
    dsimp only
    rw [if_pos hready, if_pos rfl, afterStore_of_none hnoneP]
  refine ⟨_, hexec, (congrArg (fun l : List Store => l.drop 1) hstores).trans rfl, flashBlank_flashErase _ _ _, fun x hx => ?_⟩
  exact (flashAt_flashErase (popStore s) (slotAt k 0) 0x1000 x).trans (if_neg (by omega))

end Sys2Proof.Machine

/-!
REQUALIFY (R365, R616, R617): every field is fenced and steps 3 to 8 run again; it is answered when the rebuilt ledger's store has ended.
-/

namespace Sys2Proof.Machine

/-! ## It starts (R616, R617) -/

/-- A field with its fence. -/
def fenceField (s : State) (f : Nat) : State := s.modField f (fun x => { x with fenced := true })

/-- A cluster at the start of a retest. -/
def retestCluster (s : State) (k : Nat) : State := s.modCluster k (clusterRetest s.nowUs)

/-- Fields fenced and clusters emptied. -/
def fencedAndEmptied (fs ks : List Nat) (s : State) : State := ks.foldl retestCluster (fs.foldl fenceField s)

/-- All fields fenced and all clusters emptied. -/
def retestCleared (s : State) : State := fencedAndEmptied (List.range 70) (List.range 1680) s

theorem startRetest_eq (s : State) (seq : Nat) :
    startRetest s seq = { retestCleared s with
      mem := { (retestCleared s).mem with cistern := [] }
      silicon := { (retestCleared s).silicon with phys := [], round := 0, reports := [], routers := [], spares := [] }
      sys := { (retestCleared s).sys with
        requalify := some seq, requalTested := false, requalStored := false
        stepEnded := (retestCleared s).sys.stepEnded &&& 0x103, stepAt := (retestCleared s).nowUs } } := by
  unfold retestCleared
  generalize hfs : List.range 70 = fs
  generalize hks : List.range 1680 = ks
  unfold startRetest
  rw [hfs, hks]
  rfl

theorem foldl_fenceField_only (l : List Nat) (s : State) : ∃ fs, l.foldl fenceField s = { s with fields := fs } := by
  refine foldl_keeps (fun a => ∃ fs, a = { s with fields := fs }) fenceField (fun a f h => ?_) l s ⟨s.fields, rfl⟩
  obtain ⟨fs, rfl⟩ := h
  exact ⟨_, rfl⟩

theorem foldl_retestCluster_only (l : List Nat) (s : State) : ∃ cs, l.foldl retestCluster s = { s with clusters := cs } :=
  foldl_modCluster_only (fun s => clusterRetest s.nowUs) l s

theorem fencedAndEmptied_only (l ks : List Nat) (s : State) : ∃ fs cs, fencedAndEmptied l ks s = { s with fields := fs, clusters := cs } := by
  obtain ⟨fs, hfields⟩ := foldl_fenceField_only l s
  obtain ⟨cs, hclusters⟩ := foldl_retestCluster_only ks (l.foldl fenceField s)
  rw [fencedAndEmptied, hclusters, hfields]
  exact ⟨fs, cs, rfl⟩

theorem fencedAndEmptied_fenced {l ks : List Nat} {f : Nat} (s : State) (hf : f ∈ l) : ((fencedAndEmptied l ks s).field f).fenced = true := by
  have hsame : ∀ (a : State) (f : Nat), ((fenceField a f).field f).fenced = true := fun a f => by
    rw [fenceField, State.field_modField_same]
  have hfenced : ((l.foldl fenceField s).field f).fenced = true :=
    foldl_establishes fenceField (fun a f => (a.field f).fenced = true) hsame (fun a b c h => by
      by_cases hcb : c = b
      · rw [hcb]; exact hsame a b
      · rw [fenceField, State.field_modField_other _ _ _ _ hcb]; exact h) s hf
  rw [fencedAndEmptied]
  generalize l.foldl fenceField s = b at hfenced ⊢
  obtain ⟨cs, hclusters⟩ := foldl_retestCluster_only ks b
  rw [hclusters]
  exact hfenced

theorem fencedAndEmptied_cluster {l ks : List Nat} {k : Nat} (s : State) (hk : k ∈ ks) :
    ((fencedAndEmptied l ks s).cluster k).unit = {} ∧ ((fencedAndEmptied l ks s).cluster k).luts = [] := by
  have hsame : ∀ (a : State) (k : Nat), ((retestCluster a k).cluster k).unit = {} ∧ ((retestCluster a k).cluster k).luts = [] := fun a k => by
    rw [retestCluster, State.cluster_modCluster_same]
    exact ⟨rfl, rfl⟩
  refine foldl_establishes retestCluster (fun a k => (a.cluster k).unit = {} ∧ (a.cluster k).luts = []) hsame (fun a b c h => ?_) _ hk
  by_cases hcb : c = b
  · rw [hcb]; exact hsame a b
  · rw [retestCluster, State.cluster_modCluster_other _ _ _ _ hcb]; exact h

theorem retestCleared_fenced (s : State) (f : Fin 70) : ((retestCleared s).field f).fenced = true :=
  fencedAndEmptied_fenced s (List.mem_range.mpr f.isLt)

theorem retestCleared_cluster (s : State) (k : Fin 1680) : ((retestCleared s).cluster k).unit = {} ∧ ((retestCleared s).cluster k).luts = [] :=
  fencedAndEmptied_cluster s (List.mem_range.mpr k.isLt)

theorem bit_toNat {w : Nat} (x : BitVec w) (i : Nat) : bit x.toNat i = x.getLsbD i := by
  rw [BitVec.getLsbD, Nat.testBit, bit, Nat.shiftRight_eq_div_pow, Nat.and_comm, Nat.and_one_is_mod]
  rcases Nat.mod_two_eq_zero_or_one (x.toNat / 2 ^ i) with h | h <;> rw [h] <;> rfl

/-- Of the steps that have ended a retest keeps 1, 2 and 9. -/
theorem bit_retestSteps (x : BitVec 9) (i : Nat) : bit (x &&& 0x103#9).toNat i = (bit x.toNat i && (0x103#9).getLsbD i) := by
  rw [bit_toNat, bit_toNat, BitVec.getLsbD_and]

theorem retestCleared_kept (s : State) : (retestCleared s).tenants = s.tenants ∧ (retestCleared s).sys.stepEnded = s.sys.stepEnded := by
  unfold retestCleared
  generalize List.range 70 = fs
  generalize List.range 1680 = ks
  obtain ⟨_, _, honly⟩ := fencedAndEmptied_only fs ks s
  rw [honly]
  exact ⟨rfl, rfl⟩

/-- What the start of a retest sets and what it leaves. -/
theorem startRetest_facts (s : State) (seq : Nat) :
    (∀ t, (startRetest s seq).tenant t = s.tenant t) ∧ (startRetest s seq).sys.requalify = some seq ∧ (startRetest s seq).mem.cistern = []
      ∧ (∀ f : Fin 70, ((startRetest s seq).field f).fenced = true)
      ∧ (∀ k : Fin 1680, ((startRetest s seq).cluster k).unit = {} ∧ ((startRetest s seq).cluster k).luts = [])
      ∧ (startRetest s seq).sys.stepEnded = s.sys.stepEnded &&& 0x103#9 := by
  have hfields := retestCleared_fenced s
  have hclusters := retestCleared_cluster s
  have hkept := retestCleared_kept s
  have heq := startRetest_eq s seq
  generalize retestCleared s = a at hfields hclusters hkept heq
  generalize startRetest s seq = b at heq ⊢
  obtain ⟨htenants, hended⟩ := hkept
  have htenantsB : b.tenants = a.tenants := by rw [heq]
  have hfieldsB : b.fields = a.fields := by rw [heq]
  have hclustersB : b.clusters = a.clusters := by rw [heq]
  have hendedB : b.sys.stepEnded = a.sys.stepEnded &&& 0x103#9 := by rw [heq]; rfl
  refine ⟨fun t => tenant_congr (htenantsB.trans htenants) t, by rw [heq],
    by rw [heq], fun f => ?_, fun k => ?_, by rw [hendedB, hended]⟩
  · rw [field_congr hfieldsB]
    exact hfields f
  · rw [cluster_congr hclustersB]
    exact hclusters k

theorem requalify_starts (m : List Word) (s : State) (h : AtHead s 0 m 0x0E) (hclean : payloadClean m [] = true)
    (hnone : s.sys.requalify = none) (hdrained : drained s = true) :
    ∃ s', exec (.requalify 0) s = .next s' ∧ Consumed s' 0 m ∧ s'.sys.requalify = some (mSeq m) ∧ s'.mem.cistern = []
        ∧ (∀ f : Fin 70, (s'.field f).fenced = true) ∧ (∀ k : Fin 1680, (s'.cluster k).unit = {} ∧ (s'.cluster k).luts = [])
        ∧ stepDone s' 3 = false ∧ stepDone s' 8 = false ∧ stepDone s' 9 = stepDone s 9 := by
  obtain ⟨htenants, hrequalify, hcistern, hfields, hclusters, hended⟩ := startRetest_facts (headStarted s 0 m) (mSeq m)
  have hnoneA : (headStarted s 0 m).sys.requalify = none := hnone
  have heffect : requalify (headStarted s 0 m) m = startRetest (headStarted s 0 m) (mSeq m) := by
    rw [requalify, hnoneA, Option.isSome_none, Bool.false_and, if_neg Bool.false_ne_true, beginRequalify, drained_headStarted, hdrained, if_pos rfl]
  have hsteps : (headStarted s 0 m).sys.stepEnded = s.sys.stepEnded := rfl
  rw [hsteps] at hended
  generalize startRetest (headStarted s 0 m) (mSeq m) = a at *
  obtain ⟨hexec, hconsumed⟩ := onMessage_admin (f := requalify) h hclean (by rw [heffect]; exact htenants 0)
  rw [heffect] at hexec hconsumed
  refine ⟨a, hexec, hconsumed, hrequalify, hcistern, hfields, hclusters, ?_, ?_, ?_⟩
  all_goals rw [stepDone, hended, bit_retestSteps]
  · exact Bool.and_false _
  · exact Bool.and_false _
  · exact Bool.and_true _

/-! ## It ends (R616, R617) -/

/-- A field whose fence a REQUALIFY's end may lift. -/
def liftedField (x : Field) : Field := if x.state = .running ∧ x.resetSeqs.isEmpty then { x with fenced := false } else x

theorem foldl_liftedField_only (l : List Nat) (s : State) : ∃ fs, l.foldl (fun s f => s.modField f liftedField) s = { s with fields := fs } := by
  refine foldl_keeps (fun a => ∃ fs, a = { s with fields := fs }) _ (fun a f h => ?_) l s ⟨s.fields, rfl⟩
  obtain ⟨fs, rfl⟩ := h
  exact ⟨_, rfl⟩

theorem foldl_liftedField_field {l : List Nat} (hl : l.Nodup) (s : State) {f : Nat} (hf : f ∈ l) :
    (l.foldl (fun s f => s.modField f liftedField) s).field f = liftedField (s.field f) := by
  induction l generalizing s with
  | nil => exact absurd hf (by simp)
  | cons g l ih =>
    obtain ⟨hg, hl⟩ := List.nodup_cons.mp hl
    rw [List.foldl_cons]
    by_cases hfg : f = g
    · have hrest : ∀ (l : List Nat) (a : State), g ∉ l → (l.foldl (fun s f => s.modField f liftedField) a).field g = a.field g := by
        intro l
        induction l with
        | nil => exact fun _ _ => rfl
        | cons i l ihl =>
          intro a hout
          rw [List.foldl_cons, ihl _ (fun h => hout (List.mem_cons_of_mem _ h)),
            State.field_modField_other _ _ _ _ (fun h : g = i => hout (h ▸ List.mem_cons_self))]
      rw [hfg, hrest l _ hg, State.field_modField_same]
    · rw [ih hl _ ((List.mem_cons.mp hf).resolve_left hfg), State.field_modField_other _ _ _ _ hfg]

theorem liftFences_facts (s : State) :
    (liftFences s).tenants = s.tenants ∧ (liftFences s).ports = s.ports ∧ (liftFences s).taps = s.taps ∧ (liftFences s).sys = s.sys
      ∧ (liftFences s).mem = s.mem ∧ ∀ f : Fin 70, (liftFences s).field f = liftedField (s.field f) := by
  have hfields := fun f : Fin 70 => foldl_liftedField_field (List.nodup_range (n := 70)) s (List.mem_range.mpr f.isLt)
  obtain ⟨fs, honly⟩ := foldl_liftedField_only (List.range 70) s
  obtain ⟨x, hroutes⟩ := writeRoutes_only ((List.range 70).foldl (fun s f => s.modField f liftedField) s)
  have hlift : liftFences s = writeRoutes ((List.range 70).foldl (fun s f => s.modField f liftedField) s) := rfl
  rw [hlift, hroutes]
  generalize (List.range 70).foldl (fun s f => s.modField f liftedField) s = a at honly hfields ⊢
  refine ⟨by rw [honly], by rw [honly], by rw [honly], by rw [honly], by rw [honly], fun f => ?_⟩
  exact (field_congr (s := a) rfl f).trans (hfields f)

/-- A sector erase that comes due is only requested. -/
theorem requestSectorErase_only (s : State) : ∃ st, requestSectorErase s = { s with sys := { s.sys with stores := st } } := by
  unfold requestSectorErase
  dsimp only
  split
  · exact ⟨s.sys.stores, rfl⟩
  · exact ⟨_, rfl⟩

/-- REQUALIFY is over, on the state of its store. -/
def requalifyOver (s : State) : State := liftFences { s with sys := { s.sys with requalify := none, requalTested := false, requalStored := false } }

section
variable {s : State} {seq : Nat} {rest : List Store} (hrequalify : s.sys.requalify = some seq) (hready : ready s = true)
  (htested : s.sys.requalTested = true) (hstored : s.sys.requalStored = true) (hstores : s.sys.stores = .requalify :: rest)
include hrequalify hready htested hstored hstores

theorem execRequalifyDone_eq {ok : Bool} {r : State × Bool} (hr : storeLedger { s with sys := { s.sys with stores := rest } } ok = r)
    (hqueue : (endRequalify r.1 seq r.2).sys.requalifyQueue = []) (hnone : (endRequalify r.1 seq r.2).sys.activations = []) :
    exec (.requalifyDone ok) s = .next (endRequalify r.1 seq r.2) := by
  have hnext : nextRequalify (endRequalify r.1 seq r.2) = endRequalify r.1 seq r.2 := by
    unfold nextRequalify
    rw [hqueue]
  refine Eq.trans (b := execRequalifyDone ok s) rfl ?_
  unfold execRequalifyDone
  split
  · next hno => rw [hrequalify] at hno; exact nomatch hno
  · next q hq =>
    obtain rfl : seq = q := Option.some.inj (hrequalify.symm.trans hq)
    rw [if_neg (by rw [hready, htested]; decide), if_neg (by rw [hstored]; decide)]
    split
    · next st hst =>
      obtain rfl : rest = st := (List.cons.inj (hstores.symm.trans hst)).2
      refine (congrArg (fun r : State × Bool => Host.Outcome.next (afterStore (nextRequalify (endRequalify r.1 seq r.2)))) hr).trans ?_
      rw [hnext, afterStore_of_none hnone]
    · next hno => exact absurd hstores (hno rest)

/-- The store of the rebuilt ledger on the state without it in the queue. -/
def requalifyPopped (s : State) (rest : List Store) : State := { s with sys := { s.sys with stores := rest } }

end

/-- The end of a REQUALIFY after its store a, when its message still waits. -/
theorem endRequalify_eq {s : State} {seq : Nat} (ok : Bool) (hunanswered : (s.tenant 0).unanswered = [(seq, 0x0E)]) :
    endRequalify s seq ok = requestSectorErase (reply (requalifyOver s) 0 seq 0x0E (if ok then 0 else 1) (if ok then 0 else rBusy) 0 0 0) := by
  obtain ⟨htenants, -⟩ := liftFences_facts { s with sys := { s.sys with requalify := none, requalTested := false, requalStored := false } }
  have hown : ((requalifyOver s).tenant 0).unanswered = [(seq, 0x0E)] := by
    rw [requalifyOver, tenant_congr htenants]
    exact hunanswered
  unfold endRequalify
  dsimp only
  refine (if_pos ?_).trans ?_
  · refine (congrArg (fun l : List (Nat × Nat) => l.contains (seq, 0x0E)) hown).trans ?_
    simp
  · cases ok <;> rfl

/-- What is left of a state by the end of its REQUALIFY. -/
theorem endRequalify_facts {s a : State} {seq : Nat} (ok : Bool) (hcan : CanNotify s 0) (hunanswered : (s.tenant 0).unanswered = [(seq, 0x0E)])
    (htenants : a.tenants = s.tenants) (hports : a.ports = s.ports) (htaps : a.taps = s.taps) (hfields : a.fields = s.fields) :
    (endRequalify a seq ok).sys.requalify = none ∧ (endRequalify a seq ok).sys.requalifyQueue = a.sys.requalifyQueue
      ∧ (endRequalify a seq ok).sys.activations = a.sys.activations ∧ (endRequalify a seq ok).sys.storeFailed = a.sys.storeFailed
      ∧ (endRequalify a seq ok).mem.flash = a.mem.flash
      ∧ Notified s (endRequalify a seq ok) 0 (replyNotice seq (if ok then 0 else 1) 0x0E (if ok then 0 else rBusy) 0 0 0)
      ∧ ∀ f : Fin 70, (endRequalify a seq ok).field f = liftedField (s.field f) := by
  have hownA := tenant_congr htenants 0
  rw [endRequalify_eq ok (by rw [hownA]; exact hunanswered)]
  obtain ⟨htenantsL, hportsL, htapsL, hsysL, hmemL, hfieldsL⟩ :=
    liftFences_facts { a with sys := { a.sys with requalify := none, requalTested := false, requalStored := false } }
  have hover : requalifyOver a = liftFences { a with sys := { a.sys with requalify := none, requalTested := false, requalStored := false } } := rfl
  rw [← hover] at htenantsL hportsL htapsL hsysL hmemL hfieldsL
  generalize requalifyOver a = b at *
  have hown : b.tenant 0 = s.tenant 0 := (tenant_congr htenantsL 0).trans hownA
  obtain ⟨hnotified, -, -, hbeyond, ⟨-, -, hflash, -, -⟩, -⟩ := reply_writes (s := b) seq 0x0E (if ok then 0 else 1) (if ok then 0 else rBusy) 0 0 0
    (canNotify_congr (by rw [hown]) (hportsL.trans hports) (htapsL.trans htaps) hcan)
  obtain ⟨-, -, -, -, hsys, -, hfieldsR, -⟩ := hbeyond
  generalize reply b 0 seq 0x0E (if ok then 0 else 1) (if ok then 0 else rBusy) 0 0 0 = c at *
  obtain ⟨st, hsector⟩ := requestSectorErase_only c
  rw [hsector]
  have hsysC := hsys.trans hsysL
  refine ⟨by rw [hsysC], by rw [hsysC], by rw [hsysC], by rw [hsysC], hflash.trans (congrArg Mems.flash hmemL), notified_congr (by rw [hown]) hnotified,
    fun f => ?_⟩
  have hlifted := (field_congr hfieldsR f).trans (hfieldsL f)
  exact hlifted.trans (congrArg liftedField (field_congr hfields f))

theorem requalifyDone_answers (seq : Nat) (rest : List Store) (s : State) (hrequalify : s.sys.requalify = some seq) (hready : ready s = true)
    (htested : s.sys.requalTested = true) (hstored : s.sys.requalStored = true) (hstores : s.sys.stores = .requalify :: rest)
    (hfew : s.silicon.recorded.length ≤ 4000) (hunanswered : (s.tenant 0).unanswered = [(seq, 0x0E)]) (hcan : CanNotify s 0)
    (hqueue : s.sys.requalifyQueue = []) (hnone : s.sys.activations = []) :
    (∃ s', exec (.requalifyDone true) s = .next s' ∧ s'.sys.requalify = none ∧ Notified s s' 0 (replyNotice seq 0 0x0E 0 0 0 0)
        ∧ areaCommit s' (ledgerArea (ledgerTarget s).1) = commitWord
        ∧ ∀ f : Fin 70, (s'.field f).fenced =
            (if (s.field f).state = .running ∧ (s.field f).resetSeqs = [] then false else (s.field f).fenced))
      ∧ (∃ s', exec (.requalifyDone false) s = .next s' ∧ s'.sys.requalify = none ∧ s'.sys.storeFailed = true
        ∧ Notified s s' 0 (replyNotice seq 1 0x0E 0x0201 0 0 0)) := by
  have hfewP : (requalifyPopped s rest).silicon.recorded.length ≤ 4000 := hfew
  have hcommits := storeLedger_commits hfewP
  have habandons := storeLedger_abandons hfewP
  refine ⟨?_, ?_⟩
  · obtain ⟨fl, n, b, honly⟩ := ledgerWritten_storeOnly (requalifyPopped s rest)
    have hcommit := areaCommit_ledgerWritten hfewP
    have htarget : ledgerTarget (requalifyPopped s rest) = ledgerTarget s := rfl
    rw [htarget] at hcommit
    obtain ⟨hnomore, hqueueE, hnoneE, -, hflash, hnotified, hfields⟩ := endRequalify_facts (a := ledgerWritten (requalifyPopped s rest)) true hcan hunanswered
      (by rw [honly]; rfl) (by rw [honly]; rfl) (by rw [honly]; rfl) (by rw [honly]; rfl)
    have hexec := execRequalifyDone_eq hrequalify hready htested hstored hstores hcommits
      (hqueueE.trans (by rw [honly]; exact hqueue)) (hnoneE.trans (by rw [honly]; exact hnone))
    refine ⟨_, hexec, hnomore, hnotified, (areaCommit_congr hflash _).trans hcommit, fun f => ?_⟩
    have hempty : ((s.field f).state = .running ∧ (s.field f).resetSeqs.isEmpty = true) ↔ ((s.field f).state = .running ∧ (s.field f).resetSeqs = []) :=
      and_congr_right fun _ => List.isEmpty_iff
    rw [hfields f, liftedField]
    by_cases hrun : (s.field f).state = .running ∧ (s.field f).resetSeqs = []
    · rw [if_pos hrun, if_pos (hempty.mpr hrun)]
    · rw [if_neg hrun, if_neg (fun h => hrun (hempty.mp h))]
  · obtain ⟨fl, n, b, honly⟩ := abandonStore_storeOnly (requalifyPopped s rest) (ledgerArea (ledgerTarget (requalifyPopped s rest)).1)
    have hfailed : (abandonStore (requalifyPopped s rest) (ledgerArea (ledgerTarget (requalifyPopped s rest)).1)).sys.storeFailed = true := rfl
    obtain ⟨hnomore, hqueueE, hnoneE, hfailedE, -, hnotified, -⟩ := endRequalify_facts
      (a := abandonStore (requalifyPopped s rest) (ledgerArea (ledgerTarget (requalifyPopped s rest)).1)) false hcan hunanswered
      (by rw [honly]; rfl) (by rw [honly]; rfl) (by rw [honly]; rfl) (by rw [honly]; rfl)
    have hexec := execRequalifyDone_eq hrequalify hready htested hstored hstores habandons
      (hqueueE.trans (by rw [honly]; exact hqueue)) (hnoneE.trans (by rw [honly]; exact hnone))
    exact ⟨_, hexec, hnomore, hfailedE.trans hfailed, hnotified⟩

/-- Settles O19: REQUALIFY fences every field and runs steps 3 to 8 again, and is answered when its store has ended. -/
theorem requalifyRuns : Obligations.RequalifyRuns := ⟨requalify_starts, requalifyDone_answers⟩

end Sys2Proof.Machine

/-!
The neighbour test (R592 to R603): a round keeps the first reports that fit; the last of a cold boot takes the live ledger, the counts, the next
GENERATION and the ledger's store, and ends steps 5 to 8.
-/

namespace Sys2Proof.Machine

/-! ## What the parts of the last round change -/

theorem tearSlot_storeOnly (s : State) (sector i : Nat) : StoreOnly s (tearSlot s sector i) := by
  unfold tearSlot
  exact (flashProgram_storeOnly _ _ _).trans ⟨_, _, _, rfl⟩

theorem programSlots_storeOnly (s : State) (g sector : Nat) (l : List Nat) (n : Nat) : StoreOnly s (programSlots s g sector l n).1 := by
  induction l generalizing s n with
  | nil => exact .refl s
  | cons i l ih =>
    cases n with
    | zero => exact flashProgram_storeOnly s _ _
    | succ n => exact (tearSlot_storeOnly s sector i).trans (ih _ n)

/-- The next GENERATION is taken; else flash, the free values and STORE_FAILED change. -/
theorem recordGeneration_frame (s : State) (n : Nat) :
    ∃ fl c b, recordGeneration s n
      = { s with mem := { s.mem with flash := fl }, freeCtr := c, sys := { s.sys with generation := nextGeneration s, storeFailed := b } } := by
  have hslots : ∀ b : State × Bool, StoreOnly s b.1 → ∃ fl c y,
      ({ b.1 with sys := { b.1.sys with generation := nextGeneration s, storeFailed := b.1.sys.storeFailed || !b.2 } } : State)
        = { s with mem := { s.mem with flash := fl }, freeCtr := c, sys := { s.sys with generation := nextGeneration s, storeFailed := y } } := by
    rintro ⟨a, ok⟩ ⟨fl, c, y, heq⟩
    dsimp only at heq ⊢
    rw [heq]
    exact ⟨fl, c, _, rfl⟩
  unfold recordGeneration
  dsimp only
  refine hslots _ ?_
  have hfirst := programSlots_storeOnly s (nextGeneration s) (sectorInUse s) (freeSlots s (sectorInUse s)) n
  generalize programSlots s (nextGeneration s) (sectorInUse s) (freeSlots s (sectorInUse s)) n = a at hfirst ⊢
  have hsecond := programSlots_storeOnly (flashErase a.1 (slotAt (1 - sectorInUse s) 0) 0x1000) (nextGeneration s) (1 - sectorInUse s)
    (List.range 512) a.2.1
  generalize programSlots (flashErase a.1 (slotAt (1 - sectorInUse s) 0) 0x1000) (nextGeneration s) (1 - sectorInUse s) (List.range 512) a.2.1 = r
    at hsecond ⊢
  split
  · exact hfirst
  · exact (hfirst.trans (flashErase_storeOnly _ _ _)).trans hsecond

theorem freshClusters_only (s : State) (rs : List TestReport) : ∃ cs, freshClusters s rs = { s with clusters := cs } := by
  unfold freshClusters
  generalize List.range 1680 = l
  refine foldl_keeps (fun a => ∃ cs, a = { s with clusters := cs }) _ (fun a k h => ?_) l s ⟨s.clusters, rfl⟩
  obtain ⟨cs, rfl⟩ := h
  exact ⟨_, rfl⟩

/-- Identities change nothing of the silicon but the coordinates and the routes. -/
theorem writeIdentity_frame (s : State) :
    ∃ ph ro, writeIdentity s = { s with silicon := { s.silicon with phys := ph, routers := ro } } := by
  unfold writeIdentity writeRoutes
  dsimp only
  split
  · exact ⟨_, _, rfl⟩
  · exact ⟨_, s.silicon.routers, rfl⟩

theorem mirrorLive_only (s : State) : ∃ mr, mirrorLive s = { s with mirror := mr } := by
  unfold mirrorLive
  split
  · exact ⟨s.mirror, rfl⟩
  · exact ⟨_, rfl⟩

/-- From s to s' nothing has changed but the fabric, the alert status, the ports and the output. -/
def FabricOnly (s s' : State) : Prop :=
  ∃ fa al ps os, s' = { s with fabric := fa, ports := ps, out := os, sys := { s.sys with alertStatus := al } }

theorem FabricOnly.refl (s : State) : FabricOnly s s := ⟨s.fabric, s.sys.alertStatus, s.ports, s.out, rfl⟩

theorem FabricOnly.trans {a b c : State} (hab : FabricOnly a b) (hbc : FabricOnly b c) : FabricOnly a c := by
  obtain ⟨fa, al, ps, os, rfl⟩ := hab
  obtain ⟨fa', al', ps', os', rfl⟩ := hbc
  exact ⟨fa', al', ps', os', rfl⟩

theorem setFabric_fabricOnly (s : State) (f : Fabric → Fabric) : FabricOnly s (setFabric s f) :=
  ⟨f s.fabric, s.sys.alertStatus, s.ports, s.out, rfl⟩

theorem setLink_fabricOnly (s : State) (l : Nat) (x : Link) : FabricOnly s (s.setLink l x) := ⟨_, s.sys.alertStatus, s.ports, s.out, rfl⟩

theorem raiseAlert_fabricOnly (s : State) (b : BitVec 5) : FabricOnly s (raiseAlert s b) := by
  obtain ⟨ps, os, h⟩ := raiseAlert_frame s b
  rw [h]
  exact ⟨s.fabric, _, ps, os, rfl⟩

theorem startLink_fabricOnly (s : State) (l : Nat) : FabricOnly s (startLink s l) := by
  unfold startLink
  dsimp only
  split
  · exact setLink_fabricOnly s l _
  · split
    · exact (setLink_fabricOnly s l _).trans (raiseAlert_fabricOnly _ _)
    · split
      · exact setFabric_fabricOnly s _
      · exact (setFabric_fabricOnly s _).trans (setLink_fabricOnly _ l _)

theorem beginDiscovery_fabricOnly (s : State) : FabricOnly s (beginDiscovery s) := by
  unfold beginDiscovery
  exact foldl_keeps (FabricOnly s) startLink (fun a l h => h.trans (startLink_fabricOnly a l)) _ _ (setFabric_fabricOnly s _)

/-! ## The live ledger (R597 to R600) -/

theorem liveFrom_congr {s s' : State} (htransient : s'.silicon.live.transient = s.silicon.live.transient) (hphys : ∀ q, s'.phys q = s.phys q)
    (stored : List LedgerEntry) (rs : List TestReport) : liveFrom s' stored rs = liveFrom s stored rs := by
  unfold liveFrom
  simp only [htransient, hphys]

/-! ## The last round of a cold boot -/

/-- The reports of the running round have come. -/
def roundTaken (s : State) (rs : List TestReport) : State :=
  { s with silicon := { s.silicon with
      reports := s.silicon.reports ++ rs, round := s.silicon.round + 1, spares := rs.foldl assignSpares s.silicon.spares } }

theorem execNeighbourTestRound_eq {rs : List TestReport} {n : Nat} {s : State} (hruns : stepRuns s 5 = true) :
    exec (.neighbourTestRound rs n) s
      = if (roundTaken s (firstReports (rs.filter (reportFits s)))).silicon.round < roundCount (roundTaken s (firstReports (rs.filter (reportFits s)))) then
          .next (roundTaken s (firstReports (rs.filter (reportFits s))))
        else if s.sys.requalify.isSome then .next (finishRetest (roundTaken s (firstReports (rs.filter (reportFits s)))) n)
        else .next (finishBringup (roundTaken s (firstReports (rs.filter (reportFits s)))) n) :=
  if_pos hruns

/-- The state in which the live ledger has been taken from the reports that count. -/
def liveTaken (s : State) : State :=
  let live := liveFrom s s.silicon.live.stored (finalReports s)
  let wear := (wearEntries live.stored ++ wornFrom s (finalReports s) 30).dedup
  { s with silicon := { s.silicon with
    live := live, wear := wear, reports := [], round := 0, recorded := recordLedger live.stored live.defective wear } }

/-- Steps 5 to 8 have ended. -/
def testsEnded (s : State) : State := endStep (endStep (endStep (endStep s 5) 6) 7) 8

theorem finishBringup_eq (s : State) (n : Nat) :
    finishBringup s n = beginDiscovery (testsEnded (mirrorLive (writeCounts (writeIdentity
      (freshClusters (requestLedger (recordGeneration (liveTaken s) n) .ledger) (finalReports s)))))) := rfl

theorem testsEnded_steps (s : State) :
    stepDone (testsEnded s) 5 = true ∧ stepDone (testsEnded s) 6 = true ∧ stepDone (testsEnded s) 7 = true ∧ stepDone (testsEnded s) 8 = true := by
  unfold stepDone testsEnded endStep
  dsimp only
  simp only [bit_toNat]
  simp

theorem writeCounts_facts (s : State) :
    (writeCounts s).silicon = s.silicon ∧ (writeCounts s).sys.generation = s.sys.generation ∧ (writeCounts s).sys.stores = s.sys.stores
      ∧ (writeCounts s).sys.ledgerFull = s.sys.ledgerFull ∧ (writeCounts s).sys.usableCount = usableTotal s.silicon.live
      ∧ (writeCounts s).sys.holeCount = 1680 - usableTotal s.silicon.live := by
  unfold writeCounts
  generalize usableTotal s.silicon.live = n
  exact ⟨rfl, rfl, rfl, rfl, rfl, rfl⟩

theorem nextGeneration_congr {s s' : State} (h : s'.mem.flash = s.mem.flash) : nextGeneration s' = nextGeneration s := by
  unfold nextGeneration sectorInUse sectorTop slotValue flashRead
  rw [h]

/-- What the last round leaves to be read. -/
theorem finishBringup_facts (s : State) (n : Nat) :
    (finishBringup s n).sys.generation = nextGeneration s
      ∧ (stepDone (finishBringup s n) 5 = true ∧ stepDone (finishBringup s n) 6 = true ∧ stepDone (finishBringup s n) 7 = true
        ∧ stepDone (finishBringup s n) 8 = true)
      ∧ (finishBringup s n).silicon.live = liveFrom s s.silicon.live.stored (finalReports s)
      ∧ (finishBringup s n).sys.usableCount = usableTotal (finishBringup s n).silicon.live
      ∧ (finishBringup s n).sys.holeCount = 1680 - usableTotal (finishBringup s n).silicon.live
      ∧ ((finishBringup s n).sys.stores = s.sys.stores ++ [.ledger] ∨ (finishBringup s n).sys.ledgerFull = true) := by
  rw [finishBringup_eq]
  have hlive : (liveTaken s).silicon.live = liveFrom s s.silicon.live.stored (finalReports s) := rfl
  have hsys : (liveTaken s).sys = s.sys := rfl
  have hgeneration : nextGeneration (liveTaken s) = nextGeneration s := nextGeneration_congr (s := s) rfl
  generalize liveTaken s = a at *
  obtain ⟨fl, c, b, hrecord⟩ := recordGeneration_frame a n
  have hrecordGen : (recordGeneration a n).sys.generation = nextGeneration a := by rw [hrecord]
  have hrecordStores : (recordGeneration a n).sys.stores = a.sys.stores := by rw [hrecord]
  have hrecordLive : (recordGeneration a n).silicon = a.silicon := by rw [hrecord]
  generalize recordGeneration a n = d at *
  obtain ⟨x, hledger⟩ := (requestLedger_frame d .ledger).1
  have hledgerStores := (requestLedger_frame d .ledger).2
  have hledgerGen : (requestLedger d .ledger).sys.generation = d.sys.generation := by unfold requestLedger; split <;> rfl
  have hledgerLive : (requestLedger d .ledger).silicon = d.silicon := by rw [hledger]
  generalize requestLedger d .ledger = e at *
  obtain ⟨cs, hfresh⟩ := freshClusters_only e (finalReports s)
  obtain ⟨ph, ro, hidentity⟩ := writeIdentity_frame (freshClusters e (finalReports s))
  have hidLive : (writeIdentity (freshClusters e (finalReports s))).silicon.live = e.silicon.live := by rw [hidentity, hfresh]
  have hidSys : (writeIdentity (freshClusters e (finalReports s))).sys = e.sys := by rw [hidentity, hfresh]
  generalize writeIdentity (freshClusters e (finalReports s)) = f at *
  obtain ⟨hcSilicon, hcGen, hcStores, hcFull, hcUsable, hcHoles⟩ := writeCounts_facts f
  generalize writeCounts f = c' at *
  obtain ⟨mr, hmirror⟩ := mirrorLive_only c'
  have hcounted : (mirrorLive c').sys = c'.sys := by rw [hmirror]
  have hcountedLive : (mirrorLive c').silicon = f.silicon := by rw [hmirror]; exact hcSilicon
  generalize mirrorLive c' = g at *
  have hsteps := testsEnded_steps g
  obtain ⟨fa, al, ps, os, hdiscovery⟩ := beginDiscovery_fabricOnly (testsEnded g)
  have hended : (beginDiscovery (testsEnded g)).sys.stepEnded = (testsEnded g).sys.stepEnded := by rw [hdiscovery]
  have hkept : (beginDiscovery (testsEnded g)).silicon = g.silicon := by rw [hdiscovery]; rfl
  have hgen : (beginDiscovery (testsEnded g)).sys.generation = g.sys.generation := by rw [hdiscovery]; rfl
  have hcount : (beginDiscovery (testsEnded g)).sys.usableCount = g.sys.usableCount := by rw [hdiscovery]; rfl
  have hholes : (beginDiscovery (testsEnded g)).sys.holeCount = g.sys.holeCount := by rw [hdiscovery]; rfl
  have hstores : (beginDiscovery (testsEnded g)).sys.stores = g.sys.stores := by rw [hdiscovery]; rfl
  have hfull : (beginDiscovery (testsEnded g)).sys.ledgerFull = g.sys.ledgerFull := by rw [hdiscovery]; rfl
  generalize beginDiscovery (testsEnded g) = r at *
  simp only [stepDone_congr hended]
  have hliveF : f.silicon.live = liveFrom s s.silicon.live.stored (finalReports s) := by rw [hidLive, hledgerLive, hrecordLive, hlive]
  have hstoresF : f.sys.stores = s.sys.stores ++ [.ledger] ∨ f.sys.ledgerFull = true := by
    rw [hidSys]
    exact hledgerStores.imp (fun h => by rw [h, hrecordStores, hsys]) id
  refine ⟨?_, hsteps, ?_, ?_, ?_, ?_⟩
  · rw [hgen, hcounted, hcGen]
    exact (congrArg Sys.generation hidSys).trans (hledgerGen.trans (hrecordGen.trans hgeneration))
  · rw [hkept, hcountedLive, hliveF]
  · rw [hcount, hcounted, hkept, hcountedLive, hcUsable]
  · rw [hholes, hcounted, hkept, hcountedLive, hcHoles]
  · rw [hstores, hfull, hcounted, hcStores, hcFull]
    exact hstoresF


theorem roundTaken_early (rs : List TestReport) (n : Nat) (s : State) (hruns : stepRuns s 5 = true) (hearly : s.silicon.round + 1 < roundCount s) :
    ∃ s', exec (.neighbourTestRound rs n) s = .next s' ∧ s'.silicon.round = s.silicon.round + 1
        ∧ s'.silicon.reports = s.silicon.reports ++ firstReports (rs.filter (reportFits s)) ∧ s'.sys = s.sys ∧ s'.mem = s.mem :=
  ⟨_, (execNeighbourTestRound_eq hruns).trans (if_pos hearly), rfl, rfl, rfl, rfl⟩

theorem lastRound_finishes (rs : List TestReport) (n : Nat) (s : State) (hruns : stepRuns s 5 = true) (hcold : s.sys.requalify = none)
    (hround : s.silicon.round = 3) :
    ∃ s', exec (.neighbourTestRound rs n) s = .next s' ∧ s'.sys.generation = nextGeneration s
        ∧ stepDone s' 5 = true ∧ stepDone s' 6 = true ∧ stepDone s' 7 = true ∧ stepDone s' 8 = true
        ∧ s'.silicon.live = liveFrom s s.silicon.live.stored (secondCount (s.silicon.reports ++ firstReports (rs.filter (reportFits s))))
        ∧ s'.sys.usableCount = usableTotal s'.silicon.live ∧ s'.sys.holeCount = 1680 - usableTotal s'.silicon.live
        ∧ (s'.sys.stores = s.sys.stores ++ [.ledger] ∨ s'.sys.ledgerFull = true) := by
  have hexec := execNeighbourTestRound_eq (rs := rs) (n := n) hruns
  generalize firstReports (rs.filter (reportFits s)) = new at hexec ⊢
  have hlast : ¬ (roundTaken s new).silicon.round < roundCount (roundTaken s new) := by
    have hcount : roundCount (roundTaken s new) = 4 := if_neg (by rw [show (roundTaken s new).sys = s.sys from rfl, hcold]; decide)
    have hnow : (roundTaken s new).silicon.round = s.silicon.round + 1 := rfl
    rw [hcount, hnow, hround]
    decide
  rw [if_neg hlast, hcold, if_neg (by decide)] at hexec
  have hreports : finalReports (roundTaken s new) = secondCount (s.silicon.reports ++ new) := by
    unfold finalReports
    rw [show (roundTaken s new).sys = s.sys from rfl, hcold]
    rfl
  obtain ⟨hgeneration, ⟨h5, h6, h7, h8⟩, hlive, husable, hholes, hstores⟩ := finishBringup_facts (roundTaken s new) n
  refine ⟨_, hexec, hgeneration.trans (nextGeneration_congr (s := s) rfl), h5, h6, h7, h8, ?_, husable, hholes, hstores⟩
  have hstored : (roundTaken s new).silicon.live.stored = s.silicon.live.stored := rfl
  rw [hlive, hreports, hstored, liveFrom_congr (s := s) (s' := roundTaken s new) rfl (fun _ => rfl)]

/-- Settles O21: the rounds of the neighbour test, and the stores of the ledger and of the generation log. -/
theorem neighbourTestAndStores : Obligations.NeighbourTestAndStores :=
  ⟨roundTaken_early, lastRound_finishes, ledgerStore_commits, generationSectorErase_erases⟩

end Sys2Proof.Machine

/-!
What discovery changes (R465 to R479, R487): messages only go out, routes and numbers are the fabric's own, and no link, accepted message or alert bit
is lost on the way.
-/

namespace Sys2Proof.Machine

/-! ## Messages that go out (R487) -/

/-- From s to s' messages have gone out: the output, the next SEQ and the free values' counter have changed. -/
def Emits (s s' : State) : Prop := s' = { s with out := s'.out, freeCtr := s'.freeCtr, fabric := { s.fabric with sendSeq := s'.fabric.sendSeq } }

theorem Emits.refl (s : State) : Emits s s := rfl

theorem Emits.trans {a b c : State} (hab : Emits a b) (hbc : Emits b c) : Emits a c := by
  unfold Emits at *
  rw [hab] at hbc
  exact hbc

theorem Emits.fabric {s s' : State} (h : Emits s s') : s'.fabric = { s.fabric with sendSeq := s'.fabric.sendSeq } := by
  unfold Emits at h
  exact congrArg State.fabric h

/-- What a function of the fabric other than the next SEQ gives stays. -/
theorem Emits.field {α : Type} {s s' : State} (h : Emits s s') (f : Fabric → α) (hf : ∀ x q, f { x with sendSeq := q } = f x) :
    f s'.fabric = f s.fabric := by
  rw [h.fabric]
  exact hf _ _

theorem Emits.sys {s s' : State} (h : Emits s s') : s'.sys = s.sys := by
  unfold Emits at h
  exact (congrArg State.sys h :)

theorem Emits.casing {s s' : State} (h : Emits s s') : s'.casing = s.casing := by
  unfold Emits at h
  exact (congrArg State.casing h :)

theorem emitPeer_emits (s : State) (dst : Option Nat) (b : PeerBody) : Emits s (emitPeer s dst b) := rfl

theorem emitEach_emits (s : State) (ws : List Nat) (bodies : Nat → List PeerBody) : Emits s (emitEach s ws bodies) :=
  foldl_keeps (Emits s) _ (fun a w h => foldl_keeps (Emits s) _ (fun c b h => h.trans (emitPeer_emits c _ b)) (bodies w) a h) ws s (.refl s)

theorem emitHello_emits (s : State) : Emits s (emitHello s) :=
  foldl_keeps (Emits s) _ (fun a _ h => h.trans (emitPeer_emits a _ _)) _ s (.refl s)

theorem emitLinks_emits (s : State) : Emits s (emitLinks s) := by
  unfold emitLinks
  split
  · exact .refl s
  · exact emitEach_emits s _ _

theorem emitMap_emits (s : State) : Emits s (emitMap s) := by
  unfold emitMap
  dsimp only
  split
  · exact emitEach_emits s _ _
  · exact .refl s

theorem emitRoutes_emits (s : State) : Emits s (emitRoutes s) := by
  unfold emitRoutes
  dsimp only
  split
  · exact emitEach_emits s _ _
  · exact .refl s

theorem emitStatus_emits (s : State) : Emits s (emitStatus s) := by
  unfold emitStatus
  dsimp only
  split
  · exact .refl s
  · split
    · exact .refl s
    · exact emitEach_emits s _ _

theorem emitSwitch_emits (s : State) : Emits s (emitSwitch s) := by
  unfold emitSwitch
  dsimp only
  split
  · exact emitEach_emits s _ _
  · exact .refl s

theorem emitPrimary_emits (s : State) : Emits s (emitPrimary s) := by
  unfold emitPrimary
  split
  · exact emitEach_emits s _ _
  · exact .refl s

/-! ## Facts that numbering and routing keep -/

/-- From s to s' the links, the accepted messages, the candidate, every report of a wafer, the alerts and the time have stayed. -/
structure FabricKept (s s' : State) : Prop where
  links : s'.fabric.links = s.fabric.links
  accepted : s'.fabric.accepted = s.fabric.accepted
  candidate : s'.fabric.candidate = s.fabric.candidate
  candidateAt : s'.fabric.candidateAt = s.fabric.candidateAt
  cages : s'.fabric.cages = s.fabric.cages
  reports : ∀ serial part, partOf s' serial part = partOf s serial part
  alerts : s'.sys.alertStatus = s.sys.alertStatus
  serial : s'.sys.serial = s.sys.serial
  now : s'.nowUs = s.nowUs

theorem FabricKept.refl (s : State) : FabricKept s s := ⟨rfl, rfl, rfl, rfl, rfl, fun _ _ => rfl, rfl, rfl, rfl⟩

theorem FabricKept.trans {a b c : State} (hab : FabricKept a b) (hbc : FabricKept b c) : FabricKept a c :=
  ⟨hbc.links.trans hab.links, hbc.accepted.trans hab.accepted, hbc.candidate.trans hab.candidate, hbc.candidateAt.trans hab.candidateAt,
    hbc.cages.trans hab.cages,
    fun serial part => (hbc.reports serial part).trans (hab.reports serial part), hbc.alerts.trans hab.alerts, hbc.serial.trans hab.serial,
    hbc.now.trans hab.now⟩

theorem FabricKept.link {s s' : State} (h : FabricKept s s') (l : Nat) : s'.link l = s.link l := congrArg (fun t => tget ({} : Link) t l) h.links

theorem FabricKept.alertBit {s s' : State} (h : FabricKept s s') (i : Nat) : alertBit s' i = alertBit s i :=
  congrArg (fun b : BitVec 5 => b.getLsbD i) h.alerts

/-- Beyond FabricKept, the numbers, the wafers known and present, and the part of coordinator have stayed: routes and the phase may have changed. -/
structure RoutesOnly (s s' : State) : Prop extends FabricKept s s' where
  wafers : s'.fabric.wafers = s.fabric.wafers
  present : s'.fabric.present = s.fabric.present
  serials : s'.fabric.serials = s.fabric.serials
  number : s'.fabric.number = s.fabric.number
  fabricId : s'.fabric.fabricId = s.fabric.fabricId
  coordinator : s'.fabric.coordinator = s.fabric.coordinator

theorem RoutesOnly.refl (s : State) : RoutesOnly s s := ⟨.refl s, rfl, rfl, rfl, rfl, rfl, rfl⟩

theorem RoutesOnly.trans {a b c : State} (hab : RoutesOnly a b) (hbc : RoutesOnly b c) : RoutesOnly a c :=
  ⟨hab.toFabricKept.trans hbc.toFabricKept, hbc.wafers.trans hab.wafers, hbc.present.trans hab.present, hbc.serials.trans hab.serials,
    hbc.number.trans hab.number, hbc.fabricId.trans hab.fabricId, hbc.coordinator.trans hab.coordinator⟩

theorem partOf_congr {s s' : State} (h : s'.fabric.wafers = s.fabric.wafers) (serial : DWord) (part : Nat) : partOf s' serial part = partOf s serial part := by
  unfold partOf
  rw [h]

/-- A state of the same fabric but for the routes, the phase and the pause. -/
theorem routesOnly_of_fabric {s s' : State}
    (h : ∃ ph lv sl ro sr ge sg sw pa q, s'.fabric = { s.fabric with
      phase := ph, level := lv, shadowLevels := sl, routes := ro, shadowRoutes := sr, generation := ge, shadowGeneration := sg, switching := sw
      pausedAt := pa, sendSeq := q })
    (halerts : s'.sys.alertStatus = s.sys.alertStatus) (hserial : s'.sys.serial = s.sys.serial) (hnow : s'.nowUs = s.nowUs) : RoutesOnly s s' := by
  obtain ⟨ph, lv, sl, ro, sr, ge, sg, sw, pa, q, heq⟩ := h
  exact ⟨⟨by rw [heq], by rw [heq], by rw [heq], by rw [heq], by rw [heq], partOf_congr (by rw [heq]), halerts, hserial, hnow⟩, by rw [heq], by rw [heq], by rw [heq],
    by rw [heq], by rw [heq], by rw [heq]⟩

theorem Emits.routesOnly {s s' : State} (h : Emits s s') : RoutesOnly s s' := by
  unfold Emits at h
  refine routesOnly_of_fabric ⟨_, _, _, _, _, _, _, _, _, s'.fabric.sendSeq, congrArg State.fabric h⟩ ?_ ?_ ?_ <;> rw [h]

/-! ## Step 9 ends (R465) -/

theorem bindAll_frame (s : State) (p : Nat) : ∃ ts mr, bindAll s p = { s with tenants := ts, mirror := mr } := by
  unfold bindAll
  generalize List.range 16 = l
  refine foldl_keeps (fun a => ∃ ts mr, a = { s with tenants := ts, mirror := mr }) _ (fun a t h => ?_) l s ⟨s.tenants, s.mirror, rfl⟩
  obtain ⟨ts, mr, rfl⟩ := h
  exact ⟨_, _, rfl⟩

/-- READY changes the tenants' ports and the engine's own state. -/
theorem bootReady_frame (s : State) : ∃ ts mr st, bootReady s
    = { s with tenants := ts, mirror := mr, sys := { (endStep s 9).sys with state := 1, lastBeat := s.nowUs, stores := st } } := by
  unfold bootReady
  dsimp only
  split
  · rename_i p _
    obtain ⟨ts, mr, hbind⟩ := bindAll_frame { endStep s 9 with sys := { (endStep s 9).sys with state := 1, lastBeat := (endStep s 9).nowUs } } p
    rw [hbind]
    obtain ⟨st, hsector⟩ := requestSectorErase_only
      { ({ endStep s 9 with sys := { (endStep s 9).sys with state := 1, lastBeat := (endStep s 9).nowUs } } : State) with tenants := ts, mirror := mr }
    exact ⟨ts, mr, st, hsector⟩
  · obtain ⟨st, hsector⟩ := requestSectorErase_only
      { endStep s 9 with sys := { (endStep s 9).sys with state := 1, lastBeat := (endStep s 9).nowUs } }
    exact ⟨s.tenants, s.mirror, st, hsector⟩

/-- Leaving discovery keeps the fabric, the alerts and the number in the global page. -/
theorem leaveDiscovery_keeps (s : State) : (leaveDiscovery s).fabric = s.fabric ∧ (leaveDiscovery s).sys.alertStatus = s.sys.alertStatus
    ∧ (leaveDiscovery s).sys.serial = s.sys.serial ∧ (leaveDiscovery s).sys.waferNumber = s.sys.waferNumber
    ∧ (leaveDiscovery s).sys.waferCount = s.sys.waferCount ∧ (leaveDiscovery s).nowUs = s.nowUs := by
  unfold leaveDiscovery
  split
  · obtain ⟨ts, mr, st, hready⟩ := bootReady_frame s
    rw [hready]
    exact ⟨rfl, rfl, rfl, rfl, rfl, rfl⟩
  · exact ⟨rfl, rfl, rfl, rfl, rfl, rfl⟩

theorem enterRunning_fabric (s : State) : (enterRunning s).fabric = { s.fabric with phase := .running } := (leaveDiscovery_keeps _).1

theorem enterRunning_sys (s : State) : (enterRunning s).sys.alertStatus = s.sys.alertStatus ∧ (enterRunning s).sys.serial = s.sys.serial
    ∧ (enterRunning s).sys.waferNumber = s.sys.waferNumber ∧ (enterRunning s).sys.waferCount = s.sys.waferCount ∧ (enterRunning s).nowUs = s.nowUs :=
  (leaveDiscovery_keeps _).2

theorem enterRunning_routesOnly (s : State) : RoutesOnly s (enterRunning s) := by
  obtain ⟨halerts, hserial, -, -, hnow⟩ := enterRunning_sys s
  exact routesOnly_of_fabric ⟨_, _, _, _, _, _, _, _, _, _, enterRunning_fabric s⟩ halerts hserial hnow

/-! ## Routes (R478, R479) -/

theorem tryRunning_fabric (s : State) : ∃ ph, (tryRunning s).fabric = { s.fabric with phase := ph } ∧ (ph = s.fabric.phase ∨ ph = .running) := by
  unfold tryRunning
  split
  · exact ⟨.running, enterRunning_fabric s, .inr rfl⟩
  · exact ⟨s.fabric.phase, rfl, .inl rfl⟩

theorem tryRunning_routesOnly (s : State) : RoutesOnly s (tryRunning s) := by
  unfold tryRunning
  split
  · exact enterRunning_routesOnly s
  · exact .refl s

theorem trySwitch_fabric (s : State) :
    ∃ sw pa q, (trySwitch s).fabric = { s.fabric with switching := sw, pausedAt := pa, sendSeq := q } := by
  unfold trySwitch
  dsimp only
  split
  · have hsent := emitSwitch_emits (setFabric s (fun x => { x with switching := true }))
    generalize emitSwitch (setFabric s (fun x => { x with switching := true })) = a at hsent ⊢
    unfold Emits at hsent
    unfold pauseInjection
    rw [hsent]
    exact ⟨_, _, _, rfl⟩
  · exact ⟨_, _, _, rfl⟩

theorem trySwitch_routesOnly (s : State) : RoutesOnly s (trySwitch s) := by
  unfold trySwitch
  dsimp only
  split
  · have hset : RoutesOnly s (setFabric s (fun x => { x with switching := true })) :=
      routesOnly_of_fabric ⟨_, _, _, _, _, _, _, _, _, _, rfl⟩ rfl rfl rfl
    have hsent := (emitSwitch_emits (setFabric s (fun x => { x with switching := true }))).routesOnly
    generalize emitSwitch (setFabric s (fun x => { x with switching := true })) = a at hsent ⊢
    exact hset.trans
      (hsent.trans (routesOnly_of_fabric (s' := pauseInjection a) ⟨_, _, _, _, _, _, _, _, some (a.fabric.pausedAt.getD a.nowUs), _, rfl⟩ rfl rfl rfl))
  · exact .refl s

/-- The state whose new routes of a coordinator go out. -/
def recomputed (s : State) : State :=
  setFabric s (fun y => { y with
    generation := max s.fabric.generation s.fabric.shadowGeneration + 1
    routes := routeTable s s.fabric.levels (s.fabric.number.getD 0) })

theorem recompute_eq (s : State) : recompute s = emitRoutes (emitMap (showNumber (recomputed s))) := rfl

theorem recompute_emits (s : State) : Emits (showNumber (recomputed s)) (recompute s) := (emitMap_emits _).trans (emitRoutes_emits _)

theorem showNumber_routesOnly (s : State) : RoutesOnly s (showNumber s) :=
  routesOnly_of_fabric ⟨_, _, _, _, _, _, _, _, _, _, rfl⟩ rfl rfl rfl

theorem recompute_routesOnly (s : State) : RoutesOnly s (recompute s) :=
  (routesOnly_of_fabric (s' := recomputed s) ⟨_, _, _, _, _, _, _, _, _, _, rfl⟩ rfl rfl rfl).trans
    ((showNumber_routesOnly _).trans (recompute_emits s).routesOnly)

/-- The state whose shadow set of a coordinator goes out. -/
def reoriented (s : State) : State :=
  setFabric s (fun y => { y with
    shadowLevels := freshLevels s, shadowGeneration := max s.fabric.generation s.fabric.shadowGeneration + 1
    shadowRoutes := routeTable s (freshLevels s) (s.fabric.number.getD 0), switching := false })

theorem reorient_eq (s : State) : reorient s = trySwitch (emitRoutes (emitMap (showNumber (reoriented s)))) := rfl

theorem reoriented_emits (s : State) : Emits (showNumber (reoriented s)) (emitRoutes (emitMap (showNumber (reoriented s)))) :=
  (emitMap_emits _).trans (emitRoutes_emits _)

theorem reorient_routesOnly (s : State) : RoutesOnly s (reorient s) :=
  (routesOnly_of_fabric (s' := reoriented s) ⟨_, _, _, _, _, _, _, _, _, _, rfl⟩ rfl rfl rfl).trans
    ((showNumber_routesOnly _).trans ((reoriented_emits s).routesOnly.trans (trySwitch_routesOnly _)))

theorem reroute_routesOnly (s : State) : RoutesOnly s (reroute s) := by
  unfold reroute
  split
  · exact .refl s
  · split
    · exact recompute_routesOnly s
    · exact reorient_routesOnly s

theorem trySwitchEnd_routesOnly (s : State) : RoutesOnly s (trySwitchEnd s) := by
  unfold trySwitchEnd
  dsimp only
  split
  · exact (routesOnly_of_fabric (s' := setFabric s (fun x => { x with switching := false })) ⟨_, _, _, _, _, _, _, _, _, _, rfl⟩ rfl rfl rfl).trans
      (reroute_routesOnly _)
  · exact .refl s

/-! ## Numbering (R467, R470) -/

theorem giveNumber_frame (s : State) (x : Fabric) (serial : Nat) :
    ∃ sr pr lv, giveNumber s x serial = { x with serials := sr, present := pr, levels := lv } := by
  unfold giveNumber
  dsimp only
  split
  · split
    · exact ⟨_, _, _, rfl⟩
    · exact ⟨_, _, _, rfl⟩
  · split
    · split
      · exact ⟨_, _, _, rfl⟩
      · exact ⟨_, _, _, rfl⟩
    · exact ⟨_, _, _, rfl⟩

theorem numberFrom_frame (s : State) (n : Nat) (queue seen : List Nat) (x : Fabric) :
    ∃ sr pr lv, numberFrom s n queue seen x = { x with serials := sr, present := pr, levels := lv } := by
  induction n generalizing queue seen x with
  | zero => exact ⟨_, _, _, rfl⟩
  | succ n ih =>
    cases queue with
    | nil => exact ⟨_, _, _, rfl⟩
    | cons w queue =>
      unfold numberFrom
      dsimp only
      obtain ⟨sr, pr, lv, hgive⟩ := giveNumber_frame s x w
      generalize giveNumber s x w = y at hgive ⊢
      obtain ⟨sr', pr', lv', hrest⟩ := ih (queue ++ (neighbours s (BitVec.ofNat 64 w)).filter (fun p => !seen.contains p))
        (seen ++ (neighbours s (BitVec.ofNat 64 w)).filter (fun p => !seen.contains p)) y
      rw [hrest, hgive]
      exact ⟨_, _, _, rfl⟩

theorem numberWafers_frame (s : State) :
    ∃ sr pr lv, numberWafers s = { s with fabric := { s.fabric with serials := sr, present := pr, levels := lv } } := by
  obtain ⟨sr, pr, lv, h⟩ := numberFrom_frame s (knownWafers s).length [s.sys.serial.toNat] [s.sys.serial.toNat] s.fabric
  refine ⟨sr, pr, lv, ?_⟩
  unfold numberWafers setFabric
  dsimp only
  rw [h]

theorem numberWafers_kept (s : State) : FabricKept s (numberWafers s) := by
  obtain ⟨sr, pr, lv, h⟩ := numberWafers_frame s
  rw [h]
  exact ⟨rfl, rfl, rfl, rfl, rfl, fun _ _ => rfl, rfl, rfl, rfl⟩

/-- The coordinator numbers the wafers: what stands before its routes are made. -/
def numbered (s : State) : State :=
  setFabric (numberWafers (setFabric s (fun x => { x with phase := .number, coordinator := true, present := [] }))) (fun x => { x with
    number := numberOf x s.sys.serial.toNat, level := 0, lost := 0, fabricId := if x.fabricId = 0 then s.sys.serial else x.fabricId })

theorem numbered_frame (s : State) : ∃ sr pr lv nu fid, numbered s = { s with fabric := { s.fabric with
    phase := .number, coordinator := true, present := pr, serials := sr, levels := lv, number := nu, level := 0, lost := 0, fabricId := fid } } := by
  obtain ⟨sr, pr, lv, h⟩ := numberWafers_frame (setFabric s (fun x => { x with phase := .number, coordinator := true, present := [] }))
  unfold numbered
  rw [h]
  exact ⟨_, _, _, _, _, rfl⟩

theorem numberFabric_eq (s : State) :
    numberFabric s = tryRunning (if s.fabric.number.isSome = true then reorient (numbered s) else recompute (numbered s)) := by
  obtain ⟨sr, pr, lv, h⟩ := numberWafers_frame (setFabric s (fun x => { x with phase := .number, coordinator := true, present := [] }))
  have hserial : (numberWafers (setFabric s (fun x => { x with phase := .number, coordinator := true, present := [] }))).sys.serial = s.sys.serial := by
    rw [h]
    rfl
  unfold numberFabric numbered
  dsimp only
  rw [hserial]

/-- The routes of a numbered fabric are made; the numbers stay. -/
theorem numberFabric_routesOnly (s : State) : RoutesOnly (numbered s) (numberFabric s) := by
  rw [numberFabric_eq]
  refine RoutesOnly.trans ?_ (tryRunning_routesOnly _)
  split
  · exact reorient_routesOnly _
  · exact recompute_routesOnly _

theorem numberFabric_kept (s : State) : FabricKept s (numberFabric s) := by
  refine FabricKept.trans ?_ (numberFabric_routesOnly s).toFabricKept
  obtain ⟨sr, pr, lv, nu, fid, h⟩ := numbered_frame s
  rw [h]
  exact ⟨rfl, rfl, rfl, rfl, rfl, fun _ _ => rfl, rfl, rfl, rfl⟩

theorem tryNumber_kept (s : State) : FabricKept s (tryNumber s) := by
  unfold tryNumber
  dsimp only
  split
  · exact numberFabric_kept s
  · exact .refl s

/-! ## A change of the links that this wafer knows of (R470, R478) -/

/-- A wafer's record with the time of its cut: all else of it stays. -/
theorem partOf_mapWafers {s s' : State} (f : WaferInfo → WaferInfo) (hwafers : s'.fabric.wafers = s.fabric.wafers.map f)
    (hf : ∀ w, (f w).serial = w.serial ∧ (f w).reports = w.reports) (serial : DWord) (part : Nat) : partOf s' serial part = partOf s serial part := by
  unfold partOf
  rw [hwafers, List.find?_map]
  have hsame : ((fun w : WaferInfo => decide (w.serial = serial)) ∘ f) = fun w => decide (w.serial = serial) := by
    funext w
    simp [(hf w).1]
  rw [hsame]
  cases s.fabric.wafers.find? (fun w => decide (w.serial = serial)) with
  | none => rfl
  | some w => exact congrArg (fun r => tget [] r part) (hf w).2

theorem noteCut_kept (s : State) : FabricKept s (noteCut s) := by
  refine ⟨rfl, rfl, rfl, rfl, rfl, partOf_mapWafers _ rfl (fun w => ?_), rfl, rfl, rfl⟩
  split
  · exact ⟨rfl, rfl⟩
  · exact ⟨rfl, rfl⟩

theorem linksChanged_kept (s : State) : FabricKept s (linksChanged s) := by
  unfold linksChanged
  dsimp only
  refine (noteCut_kept s).trans ?_
  generalize noteCut s = a
  split
  · exact .refl a
  · split
    · exact (emitLinks_emits a).routesOnly.toFabricKept
    · split
      · exact (numberWafers_kept a).trans ((reroute_routesOnly _).trans (tryRunning_routesOnly _)).toFabricKept
      · exact tryNumber_kept a

end Sys2Proof.Machine

/-!
Links that train, spare a lane, retrain, fall and try again (R450, R451), and modules that come and go (R646, R647).
-/

namespace Sys2Proof.Machine

theorem link_congr {s s' : State} (h : s'.fabric.links = s.fabric.links) (l : Nat) : s'.link l = s.link l :=
  congrArg (fun t => tget ({} : Link) t l) h

theorem raiseAlert_fabric (s : State) (bs : BitVec 5) : (raiseAlert s bs).fabric = s.fabric := by
  obtain ⟨ps, os, h⟩ := raiseAlert_frame s bs
  rw [h]

theorem alertBit_raiseAlert_fabric (s : State) : alertBit (raiseAlert s alFabric) 3 = true := by
  obtain ⟨ps, os, h⟩ := raiseAlert_frame s alFabric
  unfold alertBit
  rw [h]
  simp [alFabric]

theorem raiseAlert_link (s : State) (bs : BitVec 5) (l : Nat) : (raiseAlert s bs).link l = s.link l :=
  link_congr (congrArg Fabric.links (raiseAlert_fabric s bs)) l

/-! ## One link changes -/

/-- From s to s' link l has become x, every other link is as it was, and the cages stay. -/
structure LinkBecomes (s s' : State) (l : Nat) (x : Link) : Prop where
  here : s'.link l = x
  others : OtherLinks s s' l

theorem LinkBecomes.setLink (s : State) (l : Nat) (x : Link) : LinkBecomes s (s.setLink l x) l x :=
  ⟨State.link_setLink_same s l x, fun _ hi => State.link_setLink_other s l _ x hi⟩

theorem LinkBecomes.of_links {s s' s'' : State} {l : Nat} {x : Link} (h : LinkBecomes s s' l x) (hlinks : s''.fabric.links = s'.fabric.links) :
    LinkBecomes s s'' l x :=
  ⟨(link_congr hlinks l).trans h.here, fun i hi => (link_congr hlinks i).trans (h.others i hi)⟩

theorem LinkBecomes.raiseAlert {s s' : State} {l : Nat} {x : Link} (h : LinkBecomes s s' l x) (bs : BitVec 5) :
    LinkBecomes s (raiseAlert s' bs) l x := h.of_links (congrArg Fabric.links (raiseAlert_fabric s' bs))

theorem LinkBecomes.linksChanged {s s' : State} {l : Nat} {x : Link} (h : LinkBecomes s s' l x) : LinkBecomes s (linksChanged s') l x :=
  h.of_links (linksChanged_kept s').links

/-- A link without a waiting packet has none to route again. -/
theorem rerouteAll_of_none {s : State} {l : Nat} (h : (s.link l).txq = []) : rerouteAll s l = s.setLink l (s.link l) := by
  unfold rerouteAll
  rw [h]
  dsimp only [List.foldl]
  exact congrArg (s.setLink l) (by rw [← h])

/-- A link set without a waiting packet, whose packets then are routed again. -/
theorem LinkBecomes.rerouteAll (s : State) {l : Nat} {x : Link} (h : x.txq = []) : LinkBecomes s (rerouteAll (s.setLink l x) l) l x := by
  have hlink := State.link_setLink_same s l x
  rw [rerouteAll_of_none ((congrArg Link.txq hlink).trans h), hlink]
  exact ⟨State.link_setLink_same _ l x, fun i hi => (State.link_setLink_other _ l _ x hi).trans (State.link_setLink_other s l _ x hi)⟩

/-! ## A fall and a retrain -/

/-- The link after a fall at a time (R451). -/
def fallenLink (x : Link) (now : Nat) : Link :=
  { freshLink x with
    status := if 3 ≤ ((x.downTimes.filter (fun t => decide (now < t + 60000000))) ++ [now]).length then 6 else 5
    downTimes := (x.downTimes.filter (fun t => decide (now < t + 60000000))) ++ [now], downAt := now, downs := satInc 0xFFFF x.downs }

theorem fallenLink_status (x : Link) (now : Nat) :
    (fallenLink x now).status = if 2 ≤ (x.downTimes.filter (fun t => decide (now < t + 60000000))).length then 6 else 5 := by
  unfold fallenLink
  dsimp only
  rw [List.length_append]
  exact if_congr (by simp) rfl rfl

theorem goDown_falls {s : State} {l : Nat} (h : (s.link l).txq = []) :
    LinkBecomes s (goDown s l) l (fallenLink (s.link l) s.nowUs) ∧ alertBit (goDown s l) 3 = true :=
  ⟨(LinkBecomes.rerouteAll s (x := fallenLink (s.link l) s.nowUs) h).raiseAlert alFabric, alertBit_raiseAlert_fabric _⟩

/-- A data lane that fails is spared: the link retrains. -/
theorem laneSpared {s : State} {l lane : Nat} (h : (s.link l).txq = []) :
    LinkBecomes s (goRetrain (s.setLink l { s.link l with spareFor := lane }) l) l { s.link l with spareFor := lane, status := 4, nakCount := 0 } := by
  have hlink := State.link_setLink_same s l { s.link l with spareFor := lane }
  unfold goRetrain
  rw [hlink]
  have hgo := LinkBecomes.rerouteAll (s.setLink l { s.link l with spareFor := lane }) (l := l)
    (x := { s.link l with spareFor := lane, status := 4, nakCount := 0 }) h
  exact ⟨hgo.here, fun i hi => (hgo.others i hi).trans (State.link_setLink_other s l _ _ hi)⟩

section
variable {s : State} {l : Fin 24} (hpower : poweredUp s = true) (hempty : (s.link l).txq = [])
include hpower

theorem exec_laneFailure_eq (lane : Fin 5) : exec (.laneFailure l lane) s =
    if (s.link l).status = 2 then
      if lane.val < 4 then .next (linksChanged (raiseAlert (goRetrain (s.setLink l { s.link l with spareFor := lane }) l) alFabric)) else .next s
    else if ((s.link l).status = 3 && decide (lane.val ≠ (s.link l).spareFor)) = true then .next (linksChanged (goDown s l))
    else .next s := by
  refine Eq.trans (b := execLaneFailure l lane s) rfl ?_
  unfold execLaneFailure
  rw [hpower]
  rfl

include hempty

theorem laneFailure_spares (lane : Fin 5) (hup : (s.link l).status = 2) (hlane : lane.val < 4) :
    ∃ s', exec (.laneFailure l lane) s = .next s' ∧ (s'.link l).status = 4 ∧ (s'.link l).spareFor = lane ∧ (s'.link l).replay = (s.link l).replay
      ∧ alertBit s' 3 = true ∧ OtherLinks s s' l := by
  have hbecomes := ((laneSpared (lane := lane) hempty).raiseAlert alFabric).linksChanged
  refine ⟨_, (exec_laneFailure_eq hpower lane).trans ((if_pos hup).trans (if_pos hlane)), ?_⟩
  have halert := (linksChanged_kept (raiseAlert (goRetrain (s.setLink l { s.link l with spareFor := lane }) l) alFabric)).alertBit 3
  rw [hbecomes.here]
  exact ⟨rfl, rfl, rfl, halert.trans (alertBit_raiseAlert_fabric _), hbecomes.others⟩

theorem laneFailure_fells (lane : Fin 5) (hspared : (s.link l).status = 3) (hlane : lane.val ≠ (s.link l).spareFor) :
    ∃ s', exec (.laneFailure l lane) s = .next s' ∧ (s'.link l).replay = [] ∧ (s'.link l).downAt = s.nowUs ∧ alertBit s' 3 = true
      ∧ (s'.link l).status = (if 2 ≤ ((s.link l).downTimes.filter (fun t => decide (s.nowUs < t + 60000000))).length then 6 else 5)
      ∧ OtherLinks s s' l := by
  obtain ⟨hfalls, halert⟩ := goDown_falls hempty
  refine ⟨linksChanged (goDown s l), (exec_laneFailure_eq hpower lane).trans ((if_neg (by omega)).trans (if_pos (by simp [hspared, hlane]))), ?_⟩
  rw [hfalls.linksChanged.here]
  exact ⟨rfl, rfl, ((linksChanged_kept _).alertBit 3).trans halert, fallenLink_status _ _, hfalls.linksChanged.others⟩

end

/-! ## Training (R451) -/

theorem trainedStatus_of_part {s : State} (x : Link) (hexcluded : s.fabric.phase ≠ .excluded) (hconflict : s.fabric.phase ≠ .conflict) :
    trainedStatus s x = if x.spareFor < 4 then 3 else 2 := by
  unfold trainedStatus
  split
  · exact absurd ‹_› hexcluded
  · exact absurd ‹_› hconflict
  all_goals rfl

/-- A link whose replay buffer is empty and for which no packet waits only takes the status that its retraining gives. -/
theorem retrained_becomes {s : State} {l : Nat} (hempty : (s.link l).txq = []) (hreplay : (s.link l).replay = []) :
    LinkBecomes s (retrained s l) l
      { s.link l with status := trainedStatus s (s.link l), trainFails := 0, retrains := satInc 0xFFFF (s.link l).retrains } := by
  unfold retrained
  dsimp only
  generalize hy : ({ s.link l with status := trainedStatus s (s.link l), trainFails := 0, retrains := satInc 0xFFFF (s.link l).retrains } : Link) = y
  have hlink := State.link_setLink_same s l y
  have hsent : resendAll (s.setLink l y) l = s.setLink l y := by
    have hnone : y.replay = [] := by rw [← hy]; exact hreplay
    unfold resendAll
    rw [hlink, hnone]
    rfl
  have hpumped : pumpAll (s.setLink l y) l = s.setLink l y := by
    have hnone : y.txq = [] := by rw [← hy]; exact hempty
    unfold pumpAll pumpLink
    rw [hlink, hnone]
    have hnext : nextPacket y = none := by
      unfold nextPacket
      simp [hnone, firstRanked]
    dsimp only [List.length_nil]
    rw [hnext]
  rw [hsent, hpumped]
  exact .setLink s l y

section
variable {s : State} {l : Fin 24} (hpower : poweredUp s = true) (hempty : (s.link l).txq = [])
include hpower

theorem exec_linkTrainingDone_eq (ok : Bool) : exec (.linkTrainingDone l ok) s =
    if (s.link l).status = 1 then
      if (ok && (tget {} s.fabric.cages l).present) = true then
        .next (linksChanged (s.setLink l { freshLink (s.link l) with status := trainedStatus s (s.link l) }))
      else .next (linksChanged (trainFailed s l))
    else if (s.link l).status = 4 then .next (linksChanged (if ok = true then retrained s l else retrainFailed s l))
    else .next s := by
  refine Eq.trans (b := execLinkTrainingDone l ok s) rfl ?_
  unfold execLinkTrainingDone
  rw [hpower]
  rfl

theorem training_succeeds (htrains : (s.link l).status = 1) (hmodule : (tget {} s.fabric.cages l).present = true)
    (hexcluded : s.fabric.phase ≠ .excluded) (hconflict : s.fabric.phase ≠ .conflict) :
    ∃ s', exec (.linkTrainingDone l true) s = .next s' ∧ (s'.link l).status = (if (s.link l).spareFor < 4 then 3 else 2) ∧ (s'.link l).fseq = 0
      ∧ (s'.link l).lastGood = 4095 ∧ (s'.link l).credits = [2048, 4096, 256] ∧ OtherLinks s s' l := by
  have hbecomes := (LinkBecomes.setLink s l { freshLink (s.link l) with status := trainedStatus s (s.link l) }).linksChanged
  refine ⟨_, (exec_linkTrainingDone_eq hpower true).trans ((if_pos htrains).trans (if_pos hmodule)), ?_⟩
  rw [hbecomes.here]
  exact ⟨trainedStatus_of_part _ hexcluded hconflict, rfl, rfl, rfl, hbecomes.others⟩

theorem training_fails (htrains : (s.link l).status = 1) :
    ∃ s', exec (.linkTrainingDone l false) s = .next s' ∧ (s'.link l).status = 5 ∧ (s'.link l).downAt = s.nowUs ∧ alertBit s' 3 = true
      ∧ OtherLinks s s' l := by
  have hbecomes := ((LinkBecomes.setLink s l { s.link l with status := 5, downAt := s.nowUs }).raiseAlert alFabric).linksChanged
  refine ⟨linksChanged (trainFailed s l), (exec_linkTrainingDone_eq hpower false).trans ((if_pos htrains).trans (if_neg Bool.false_ne_true)), ?_⟩
  refine ⟨congrArg Link.status hbecomes.here, congrArg Link.downAt hbecomes.here, ?_, hbecomes.others⟩
  exact ((linksChanged_kept _).alertBit 3).trans (alertBit_raiseAlert_fabric _)

theorem retraining_fails (hretrains : (s.link l).status = 4) (hfew : (s.link l).trainFails + 1 < 3) :
    ∃ s', exec (.linkTrainingDone l false) s = .next s' ∧ (s'.link l).status = 4 ∧ (s'.link l).trainFails = (s.link l).trainFails + 1 := by
  have hfailed : retrainFailed s l
      = s.setLink l { s.link l with trainFails := (s.link l).trainFails + 1, retrains := satInc 0xFFFF (s.link l).retrains } :=
    if_neg (Nat.not_le.mpr hfew)
  have hbecomes := (LinkBecomes.setLink s l
    { s.link l with trainFails := (s.link l).trainFails + 1, retrains := satInc 0xFFFF (s.link l).retrains }).linksChanged
  rw [← hfailed] at hbecomes
  refine ⟨linksChanged (retrainFailed s l), (exec_linkTrainingDone_eq hpower false).trans ((if_neg (by omega)).trans (if_pos hretrains)), ?_⟩
  exact ⟨(congrArg Link.status hbecomes.here).trans hretrains, congrArg Link.trainFails hbecomes.here⟩

include hempty

theorem retraining_succeeds (hretrains : (s.link l).status = 4) (hexcluded : s.fabric.phase ≠ .excluded) (hconflict : s.fabric.phase ≠ .conflict)
    (hreplay : (s.link l).replay = []) :
    ∃ s', exec (.linkTrainingDone l true) s = .next s' ∧ (s'.link l).status = (if (s.link l).spareFor < 4 then 3 else 2) ∧ (s'.link l).trainFails = 0
      ∧ (s'.link l).retrains = min 0xFFFF ((s.link l).retrains + 1) ∧ OtherLinks s s' l := by
  have hbecomes := (retrained_becomes hempty hreplay).linksChanged
  refine ⟨linksChanged (retrained s l), (exec_linkTrainingDone_eq hpower true).trans ((if_neg (by omega)).trans (if_pos hretrains)), ?_⟩
  rw [hbecomes.here]
  exact ⟨trainedStatus_of_part _ hexcluded hconflict, rfl, rfl, hbecomes.others⟩

end

/-! ## Another attempt (R451) -/

theorem linkRetry_tries {s : State} {l : Fin 24} (hmay : mayTrain s l = true) (hdown : (s.link l).status = 5) :
    ((s.link l).downAt + 1000000 ≤ s.nowUs → exec (.linkRetry l) s = .next (s.setLink l { s.link l with status := 1 }))
      ∧ (s.nowUs < (s.link l).downAt + 1000000 → exec (.linkRetry l) s = .next s) :=
  ⟨fun hdue => if_pos (by simp [hmay, hdown, hdue]), fun hearly => if_neg (by simp [hmay, hdown, hearly])⟩

theorem linkHoldExpiry_tries {s : State} {l : Fin 24} (hmay : mayTrain s l = true) (hheld : (s.link l).status = 6) :
    ((s.link l).downAt + 60000000 ≤ s.nowUs → exec (.linkHoldExpiry l) s = .next (s.setLink l { s.link l with status := 1 }))
      ∧ (s.nowUs < (s.link l).downAt + 60000000 → exec (.linkHoldExpiry l) s = .next s) :=
  ⟨fun hdue => if_pos (by simp [hmay, hheld, hdue]), fun hearly => if_neg (by simp [hmay, hheld, hearly])⟩

/-! ## Modules (R646, R647) -/

/-- A module stands in the cage of link l. -/
def moduleIn (s : State) (l watts : Nat) (low : Bool) : State :=
  setFabric s (fun x => { x with cages := tset {} x.cages l { present := true, watts := watts, lowPower := low } })

theorem qsfpInsert_takes {s : State} {l : Fin 24} (hpower : poweredUp s = true) (w : Nat) (htested : stepDone s 8 = true)
    (henabled : bit s.fabric.linkEnable.toNat l = true) :
    ∃ s', exec (.qsfpInsert l w) s = .next s' ∧ tget {} s'.fabric.cages l = { present := true, watts := w, lowPower := decide (16 < w) }
      ∧ (s'.link l).status = (if 16 < w then 5 else 1) ∧ (16 < w → alertBit s' 3 = true) ∧ OtherLinks s s' l := by
  have hready : (poweredUp s && stepDone s 8 && bit s.fabric.linkEnable.toNat l) = true := by simp [hpower, htested, henabled]
  have hcage : ∀ low, tget {} (moduleIn s l w low).fabric.cages l = { present := true, watts := w, lowPower := low }  := by
    intro low
    unfold moduleIn setFabric
    dsimp only
    exact tget_tset_same (α := Cage) _ _ _ _
  by_cases hheavy : 16 < w
  · rw [if_pos hheavy, decide_eq_true hheavy]
    have hbecomes := (LinkBecomes.setLink (moduleIn s l w true) l { s.link l with status := 5, downAt := s.nowUs }).raiseAlert alFabric
    refine ⟨_, (if_pos hready).trans (if_pos hheavy), ?_, congrArg Link.status hbecomes.here, fun _ => alertBit_raiseAlert_fabric _, hbecomes.others⟩
    exact (congrArg (fun x => tget ({} : Cage) (Fabric.cages x) l) (raiseAlert_fabric _ _)).trans (hcage true)
  · rw [if_neg hheavy, decide_eq_false hheavy]
    have hbecomes := LinkBecomes.setLink (moduleIn s l w false) l { freshLink (s.link l) with status := 1 }
    exact ⟨_, (if_pos hready).trans (if_neg hheavy), hcage false, congrArg Link.status hbecomes.here, fun h => absurd h hheavy, hbecomes.others⟩

/-- The cage of link l is empty. -/
def moduleOut (s : State) (l : Nat) : State := setFabric s (fun x => { x with cages := tset {} x.cages l {} })

theorem rerouteAll_cages {s : State} {l : Nat} (h : (s.link l).txq = []) : (rerouteAll s l).fabric.cages = s.fabric.cages := by
  rw [rerouteAll_of_none h]
  rfl

theorem goDown_cages {s : State} {l : Nat} (h : (s.link l).txq = []) : (goDown s l).fabric.cages = s.fabric.cages := by
  unfold goDown
  dsimp only
  rw [raiseAlert_fabric]
  exact rerouteAll_cages (by rw [State.link_setLink_same]; exact h)

theorem qsfpRemove_fells {s : State} {l : Fin 24} (hpower : poweredUp s = true) (hempty : (s.link l).txq = []) (hup : linkUp (s.link l) = true) :
    ∃ s', exec (.qsfpRemove l) s = .next s' ∧ (tget {} s'.fabric.cages l).present = false ∧ ((s'.link l).status = 5 ∨ (s'.link l).status = 6)
      ∧ alertBit s' 3 = true ∧ OtherLinks s s' l := by
  have hstatus : (s.link l).status = 2 ∨ (s.link l).status = 3 := by simpa [linkUp] using hup
  obtain ⟨hfalls, halert⟩ := goDown_falls (s := moduleOut s l) (l := l) hempty
  have hkept := linksChanged_kept (goDown (moduleOut s l) l)
  refine ⟨linksChanged (goDown (moduleOut s l) l), if_pos ?_, ?_, ?_, (hkept.alertBit 3).trans halert, hfalls.linksChanged.others⟩
  · have hother : (s.link l).status ≠ 0 ∧ (s.link l).status ≠ 5 ∧ (s.link l).status ≠ 6 := by omega
    exact Bool.and_eq_true_iff.mpr ⟨hpower, decide_eq_true hother⟩
  · have hcage : tget ({} : Cage) (moduleOut s l).fabric.cages l = {} := by
      unfold moduleOut setFabric
      dsimp only
      exact tget_tset_same (α := Cage) _ _ _ _
    rw [hkept.cages, goDown_cages (s := moduleOut s l) hempty, hcage]
  · rw [hfalls.linksChanged.here, fallenLink_status]
    split
    · exact .inr rfl
    · exact .inl rfl

/-- Settles O49: a link's fall and its retraining change that link alone, and what follows of a change of the links touches none. -/
theorem linksTrainAndFall : Obligations.LinksTrainAndFall := by
  intro l s hpower hempty
  refine ⟨fun lane hup hlane => laneFailure_spares hpower hempty lane hup hlane, fun lane hspared hlane => laneFailure_fells hpower hempty lane hspared hlane,
    fun htrains hmodule hexcluded hconflict => training_succeeds hpower htrains hmodule hexcluded hconflict, training_fails hpower,
    fun hretrains hexcluded hconflict hreplay => retraining_succeeds hpower hempty hretrains hexcluded hconflict hreplay,
    fun hretrains hfew => retraining_fails hpower hretrains hfew, fun hmay => ?_,
    fun w htested henabled => qsfpInsert_takes hpower w htested henabled, qsfpRemove_fells hpower hempty⟩
  exact ⟨fun hdown => (linkRetry_tries hmay hdown).1, fun hdown => (linkRetry_tries hmay hdown).2, fun hheld => (linkHoldExpiry_tries hmay hheld).1,
    fun hheld => (linkHoldExpiry_tries hmay hheld).2⟩

end Sys2Proof.Machine

/-!
The peer messages of discovery and routing (R465 to R472, R478, R479, R487), each taken by its command from the head of the accepted ones.
-/

namespace Sys2Proof.Machine

section
variable {s : State} {m : PeerMsg} {rest : List PeerMsg} (hat : AtPeer s m rest)
include hat

/-- A command at the head of the accepted messages acts on that message's contents. -/
theorem onPeer_of_atPeer {f : State → PeerBody → Option State} {t : State} (h : f (popPeer s) m.body = some t) : onPeer s f = .next t := by
  obtain ⟨hruns, haccepted⟩ := hat
  unfold onPeer
  rw [if_pos hruns, haccepted]
  dsimp only
  rw [h]

theorem popPeer_accepted : (popPeer s).fabric.accepted = rest := by
  unfold popPeer setFabric
  dsimp only
  rw [hat.2]
  rfl

end

theorem partakes_congr {s s' : State} (h : s'.fabric.phase = s.fabric.phase) : partakes s' = partakes s := by
  unfold partakes
  rw [h]

/-! ## HELLO (R465, R471) -/

/-- A link as a HELLO's sender describes its far end. -/
def helloLink (s : State) (l : Nat) (serial : DWord) (peerLink : Nat) (fabricId : DWord) (number level : Nat) : Link :=
  { s.link l with
    peerSerial := serial, peerLink := peerLink, peerNumber := number, peerLevel := level, peerFabric := fabricId
    conflictPeer := peerConflicts s serial fabricId number }

/-- What follows the new status of the link: the candidate of a wafer that takes part is adopted. -/
def helloAdopted (s t : State) (l : Nat) (serial fabricId candidate : DWord) (number : Nat) : State :=
  if serial = s.sys.serial || !linkUp (t.link l) then t
  else if losesConflict s serial fabricId number then enterIsolated t .conflict
  else if partakes s then adoptCandidate t (candidateAfter s serial fabricId candidate)
  else t

/-- The state in which the link has its new status. -/
def helloSeen (s : State) (l : Nat) (serial : DWord) (peerLink : Nat) (fabricId : DWord) (number level : Nat) : State :=
  setHelloStatus (s.setLink l (helloLink s l serial peerLink fabricId number level)) l (helloStatus s (s.link l) serial fabricId)

/-- A link whose new status carries no traffic adopts no candidate. -/
theorem helloAdopted_of_turned {s t : State} {l : Nat} {serial fabricId candidate : DWord} {number : Nat}
     (h : serial = s.sys.serial ∨ linkUp (t.link l) = false) :
    helloAdopted s t l serial fabricId candidate number = t := by
  unfold helloAdopted
  rw [if_pos]
  rcases h with h | h <;> simp [h]

theorem helloSeen_turns {s : State} {l : Nat} {serial fabricId : DWord} {peerLink number level n : Nat} (hempty : (s.link l).txq = []) (hn : helloStatus s (s.link l) serial fabricId = n) (hturns : (s.link l).status ≠ n) :
    ((helloSeen s l serial peerLink fabricId number level).link l).status = n
      ∧ alertBit (helloSeen s l serial peerLink fabricId number level) 3 = true := by
  unfold helloSeen setHelloStatus
  rw [hn, State.link_setLink_same, if_neg (show (helloLink s l serial peerLink fabricId number level).status ≠ n from hturns)]
  refine ⟨?_, alertBit_raiseAlert_fabric _⟩
  have hbecomes := (LinkBecomes.rerouteAll (s.setLink l (helloLink s l serial peerLink fabricId number level))
    (l := l) (x := { helloLink s l serial peerLink fabricId number level with status := n }) hempty).raiseAlert alFabric
  exact congrArg Link.status hbecomes.here

section
variable {s : State} {l : Nat} {serial fabricId candidate : DWord} {peerLink number level : Nat} (hup : linkUp (s.link l) = true)
include hup

theorem hearHello_eq {t : State} (ht : helloAdopted s (helloSeen s l serial peerLink fabricId number level) l serial fabricId candidate number = t) :
    hearHello s l serial peerLink fabricId candidate number level
      = if (s.link l).peerSerial ≠ serial || (s.link l).peerLink ≠ peerLink || (s.link l).status ≠ (t.link l).status then linksChanged t else t := by
  rw [← ht]
  exact if_neg (by simp [hup])

/-- A HELLO on an UP link, and what a change of the links does after it. -/
theorem hearHello_kept : FabricKept (helloAdopted s (helloSeen s l serial peerLink fabricId number level) l serial fabricId candidate number)
    (hearHello s l serial peerLink fabricId candidate number level) := by
  rw [hearHello_eq hup rfl]
  generalize helloAdopted s (helloSeen s l serial peerLink fabricId number level) l serial fabricId candidate number = t
  split
  · exact linksChanged_kept t
  · exact .refl t

theorem hearHello_turns {n : Nat} (hempty : (s.link l).txq = []) (hn : helloStatus s (s.link l) serial fabricId = n) (hseven : n = 7 ∨ n = 8) :
    ((hearHello s l serial peerLink fabricId candidate number level).link l).status = n
      ∧ alertBit (hearHello s l serial peerLink fabricId candidate number level) 3 = true := by
  have hstatus : (s.link l).status = 2 ∨ (s.link l).status = 3 := by simpa [linkUp] using hup
  obtain ⟨hturned, halert⟩ := helloSeen_turns (peerLink := peerLink) (number := number) (level := level) hempty hn (by omega)
  have hdown : linkUp ((helloSeen s l serial peerLink fabricId number level).link l) = false := by
    unfold linkUp
    rw [hturned]
    rcases hseven with rfl | rfl <;> rfl
  have hkept := hearHello_kept (s := s) (l := l) (serial := serial) (fabricId := fabricId) (candidate := candidate) (peerLink := peerLink)
    (number := number) (level := level) hup
  rw [helloAdopted_of_turned (.inr hdown)] at hkept
  exact ⟨(congrArg Link.status (hkept.link l)).trans hturned, (hkept.alertBit 3).trans halert⟩

end

theorem adoptCandidate_links (s : State) (c : DWord) :
    (adoptCandidate s c).fabric.links = s.fabric.links ∧ (adoptCandidate s c).fabric.accepted = s.fabric.accepted := by
  unfold adoptCandidate
  split
  · exact ⟨rfl, rfl⟩
  · exact ⟨rfl, rfl⟩

/-- A HELLO that leaves the status alone records its sender, and a candidate below this wafer's is adopted (R465). -/
theorem helloAdopted_steady {s : State} {l : Nat} {serial fabricId candidate : DWord} {number : Nat} {y : Link}
    (hother : serial ≠ s.sys.serial) (hup : linkUp y = true) (hwins : losesConflict s serial fabricId number = false) :
    helloAdopted s (s.setLink l y) l serial fabricId candidate number
      = if partakes s then adoptCandidate (s.setLink l y) (candidateAfter s serial fabricId candidate) else s.setLink l y := by
  unfold helloAdopted
  rw [State.link_setLink_same, if_neg (by simp [hother, hup]), hwins]
  rfl

theorem candidateAfter_of_lower {s : State} {serial fabricId candidate : DWord} (hlost : s.fabric.lost = 0) (hnumber : s.fabric.number = none)
    (hfabric : fabricId = 0) (hlow : candidate ≤ serial) (hbelow : candidate < s.fabric.candidate) :
    candidateAfter s serial fabricId candidate = candidate := by
  have hheard : (if serial ≤ candidate then serial else candidate) = candidate := by
    split
    · exact BitVec.le_antisymm ‹_› hlow
    · rfl
  unfold candidateAfter
  dsimp only
  rw [hheard, hlost, hnumber, hfabric]
  simp [hbelow]

section
variable {s : State} {l : Fin 24} {serial : DWord} {pl : BitVec 5} {fid cand : DWord} {num : BitVec 8} {level : Nat} {m : PeerMsg} {rest : List PeerMsg}
  (hat : AtPeer s m rest) (hbody : m.body = .hello l serial pl fid cand num level) (hup : linkUp (s.link l) = true)
include hat hbody

theorem exec_hello_eq : exec .hello s = .next (hearHello (popPeer s) l serial pl.toNat fid cand num.toNat level) := by
  refine Eq.trans (b := execHello s) rfl (onPeer_of_atPeer hat ?_)
  rw [hbody]

include hup

theorem hello_records (hother : serial ≠ s.sys.serial) (hsteady : helloStatus s (s.link l) serial fid = (s.link l).status)
    (hwins : losesConflict s serial fid num.toNat = false) :
    ∃ s', exec .hello s = .next s' ∧ (s'.link l).peerSerial = serial ∧ (s'.link l).peerLink = pl.toNat ∧ (s'.link l).peerNumber = num.toNat
      ∧ (s'.link l).peerLevel = level ∧ (s'.link l).peerFabric = fid ∧ s'.fabric.accepted = rest ∧ OtherLinks s s' l
      ∧ (partakes s = true → s.fabric.coordinator = false → s.fabric.lost = 0 → s.fabric.number = none → s.fabric.fabricId = 0 → fid = 0 →
          cand ≤ serial → cand < s.fabric.candidate → s'.fabric.candidate = cand ∧ s'.fabric.candidateAt = s.nowUs) := by
  have hpop := popPeer_accepted hat
  have hkept := hearHello_kept (s := popPeer s) (l := l) (serial := serial) (fabricId := fid) (candidate := cand) (peerLink := pl.toNat)
    (number := num.toNat) (level := level) hup
  have hseen : helloSeen (popPeer s) l serial pl.toNat fid num.toNat level
      = (popPeer s).setLink l (helloLink (popPeer s) l serial pl.toNat fid num.toNat level) := by
    unfold helloSeen setHelloStatus
    rw [State.link_setLink_same]
    exact if_pos hsteady.symm
  have hbecomes := LinkBecomes.setLink (popPeer s) l (helloLink (popPeer s) l serial pl.toNat fid num.toNat level)
  rw [hseen, helloAdopted_steady (s := popPeer s) (y := helloLink (popPeer s) l serial pl.toNat fid num.toNat level) hother hup hwins] at hkept
  refine ⟨_, exec_hello_eq hat hbody, ?_⟩
  generalize hearHello (popPeer s) l serial pl.toNat fid cand num.toNat level = s' at hkept ⊢
  generalize hy : helloLink (popPeer s) l serial pl.toNat fid num.toNat level = y at hkept hbecomes
  have hgoes : LinkBecomes (popPeer s) s' l y ∧ s'.fabric.accepted = rest := by
    split at hkept
    · obtain ⟨hlinks, haccepted⟩ := adoptCandidate_links ((popPeer s).setLink l y) (candidateAfter (popPeer s) serial fid cand)
      exact ⟨hbecomes.of_links (hkept.links.trans hlinks), hkept.accepted.trans (haccepted.trans hpop)⟩
    · exact ⟨hbecomes.of_links hkept.links, hkept.accepted.trans hpop⟩
  obtain ⟨hgoes, haccepted⟩ := hgoes
  refine ⟨?_, ?_, ?_, ?_, ?_, haccepted, fun i hi => hgoes.others i hi, fun hpartakes _ hlost hnumber _ hfabric hlow hbelow => ?_⟩
  iterate 5
    rw [hgoes.here, ← hy]
    rfl
  have hcandidate : candidateAfter (popPeer s) serial fid cand = cand := candidateAfter_of_lower hlost hnumber hfabric hlow hbelow
  have hpart : partakes (popPeer s) = true := (partakes_congr rfl).trans hpartakes
  rw [if_pos hpart, hcandidate] at hkept
  have hnew : ¬ cand = ((popPeer s).setLink l y).fabric.candidate := fun h => absurd (h ▸ hbelow) (BitVec.lt_irrefl _)
  unfold adoptCandidate at hkept
  rw [if_neg hnew] at hkept
  exact ⟨hkept.candidate, hkept.candidateAt⟩

theorem hello_turns {n : Nat} (hempty : (s.link l).txq = []) (hn : helloStatus s (s.link l) serial fid = n) (hseven : n = 7 ∨ n = 8) :
    ∃ s', exec .hello s = .next s' ∧ (s'.link l).status = n ∧ alertBit s' 3 = true :=
  ⟨_, exec_hello_eq hat hbody, hearHello_turns (s := popPeer s) hup hempty hn hseven⟩

end

/-! ## LINKS (R465, R487) -/

theorem recordLinks_kept (s : State) (serial : DWord) (part : Nat) (rs : List LinkReport) :
    (recordLinks s serial part rs).fabric.links = s.fabric.links ∧ (recordLinks s serial part rs).fabric.accepted = s.fabric.accepted := ⟨rfl, rfl⟩

/-- The coordinator has the part of a report that it has recorded. -/
theorem partOf_recordLinks (s : State) (serial : DWord) (part : Nat) (rs : List LinkReport) : partOf (recordLinks s serial part rs) serial part = rs := by
  unfold partOf recordLinks setFabric
  dsimp only
  by_cases hknown : s.fabric.wafers.any (fun w => decide (w.serial = serial)) = true
  · rw [if_pos hknown, List.find?_map]
    have hsame : ((fun w : WaferInfo => decide (w.serial = serial))
        ∘ fun w : WaferInfo => if w.serial = serial then { w with reports := tset [] w.reports part rs } else w) = fun w => decide (w.serial = serial) := by
      funext w
      dsimp only [Function.comp]
      split
      · rfl
      · rfl
    rw [hsame]
    obtain ⟨w, hw⟩ := Option.isSome_iff_exists.mp (List.find?_isSome.mpr (List.any_eq_true.mp hknown))
    have hserial : w.serial = serial := by simpa using List.find?_some hw
    rw [hw]
    dsimp only [Option.map]
    rw [if_pos hserial]
    exact tget_tset_same _ _ _ _
  · rw [if_neg hknown, List.find?_append]
    have hnone : s.fabric.wafers.find? (fun w => decide (w.serial = serial)) = none := by simpa using hknown
    rw [hnone]
    simp

section
variable {serial : DWord} {part : Fin 4} {rs : List LinkReport} {s : State} {m : PeerMsg} {rest : List PeerMsg}
  (hat : AtPeer s m rest) (hbody : m.body = .links serial part rs)
include hat hbody

theorem exec_links_eq : exec .links s = .next (hearLinks (popPeer s) serial part rs) := by
  refine Eq.trans (b := execLinks s) rfl (onPeer_of_atPeer hat ?_)
  rw [hbody]

theorem links_records (hcoordinator : s.fabric.coordinator = true) (hpartakes : partakes s = true) :
    ∃ s', exec .links s = .next s' ∧ partOf s' serial part = rs ∧ s'.fabric.links = s.fabric.links ∧ s'.fabric.accepted = rest := by
  have hpop := popPeer_accepted hat
  have hmember : ¬ (!(popPeer s).fabric.coordinator || !partakes (popPeer s)) = true := by
    have hpart : partakes (popPeer s) = true := (partakes_congr rfl).trans hpartakes
    have hcoord : (popPeer s).fabric.coordinator = true := hcoordinator
    simp [hpart, hcoord]
  refine ⟨_, exec_links_eq hat hbody, ?_⟩
  unfold hearLinks
  rw [if_neg hmember]
  split
  · have hkept := tryNumber_kept (popPeer s)
    exact ⟨(hkept.reports serial part).trans ‹_›, hkept.links, hkept.accepted.trans hpop⟩
  · have hkept := linksChanged_kept (recordLinks (popPeer s) serial part rs)
    exact ⟨(hkept.reports serial part).trans (partOf_recordLinks _ _ _ _), hkept.links, hkept.accepted.trans hpop⟩

theorem links_ignored (hmember : s.fabric.coordinator = false) : exec .links s = .next (popPeer s) := by
  refine (exec_links_eq hat hbody).trans (congrArg Host.Outcome.next (if_pos ?_))
  have hcoord : (popPeer s).fabric.coordinator = false := hmember
  simp [hcoord]

end

/-! ## MAP (R469, R470) -/

theorem tryAwaitEnd_fabric (s : State) : ∃ ph, (tryAwaitEnd s).fabric = { s.fabric with phase := ph } := by
  unfold tryAwaitEnd
  split
  · exact ⟨.running, enterRunning_fabric s⟩
  · exact ⟨s.fabric.phase, rfl⟩

theorem tryAwaitEnd_sys (s : State) :
    (tryAwaitEnd s).sys.waferNumber = s.sys.waferNumber ∧ (tryAwaitEnd s).sys.waferCount = s.sys.waferCount := by
  unfold tryAwaitEnd
  split
  · obtain ⟨-, -, hnumber, hcount, -⟩ := enterRunning_sys s
    exact ⟨hnumber, hcount⟩
  · exact ⟨rfl, rfl⟩

/-- The numbers that a wafer knows with those of a MAP part. -/
def mapTable (s : State) (es : List (Nat × DWord)) : Tab DWord :=
  es.foldl (fun t e => if e.1 < 128 then tset 0 t e.1 e.2 else t) s.fabric.serials

theorem mem_bitmapList (b : BitVec 128) (w : Nat) : w ∈ bitmapList b ↔ (w < 128 ∧ bit b.toNat w = true) := by
  unfold bitmapList
  rw [List.mem_filter, List.mem_range]

theorem ite_raiseAlert_keeps (c : Bool) (a : State) : (if c then raiseAlert a alFabric else a).fabric = a.fabric
    ∧ (if c then raiseAlert a alFabric else a).sys.waferNumber = a.sys.waferNumber
    ∧ (if c then raiseAlert a alFabric else a).sys.serial = a.sys.serial := by
  cases c with
  | false => exact ⟨rfl, rfl, rfl⟩
  | true =>
    obtain ⟨ps, os, h⟩ := raiseAlert_frame a alFabric
    rw [if_pos rfl, h]
    exact ⟨rfl, rfl, rfl⟩

/-- What a MAP installs on a wafer that it numbers (R467, R470). -/
theorem installMap_numbers {s : State} {fid : DWord} {mx n : Nat} {pr : List Nat} {es : List (Nat × DWord)} (hnumber : s.fabric.number = none)
    (hn : numberOf { s.fabric with serials := mapTable s es } s.sys.serial.toNat = some n) :
    ∃ lv, (installMap s fid mx pr es).fabric = { s.fabric with
        serials := mapTable s es, present := pr, maxWafers := mx, lastMap := s.nowUs, lost := 0, fabricId := fid, number := some n, level := lv }
      ∧ (installMap s fid mx pr es).sys.waferNumber = n ∧ (installMap s fid mx pr es).sys.serial = s.sys.serial := by
  unfold mapTable at hn ⊢
  unfold installMap
  dsimp only
  obtain ⟨hfabric, hwafer, hserial⟩ := ite_raiseAlert_keeps (someAbsent s.fabric.present pr) _
  rw [hfabric, hwafer, hserial]
  unfold setFabric
  dsimp only
  simp only [hnumber] at hn ⊢
  simp only [hn]
  exact ⟨_, rfl, rfl, rfl⟩

section
variable {fid : DWord} {mx wc n : Nat} {pr : BitVec 128} {es : List (Nat × DWord)} {m : PeerMsg} {rest : List PeerMsg} {s : State}
  (hat : AtPeer s m rest) (hbody : m.body = .map fid mx wc pr es)
include hat hbody

theorem map_numbers (hcoordinator : s.fabric.coordinator = false) (hpartakes : partakes s = true)
    (hfid : s.fabric.fabricId = 0 ∨ s.fabric.fabricId = fid) (hnumber : s.fabric.number = none)
    (hn : numberOf { s.fabric with serials := mapTable s es } s.sys.serial.toNat = some n) (hown : tget 0 (mapTable s es) n = s.sys.serial) :
    ∃ s', exec .map s = .next s' ∧ s'.fabric.number = some n ∧ s'.sys.waferNumber = n ∧ s'.sys.waferCount = wc ∧ s'.fabric.fabricId = fid
      ∧ s'.fabric.maxWafers = mx ∧ s'.fabric.serials = mapTable s es ∧ s'.fabric.lastMap = s.nowUs
      ∧ (∀ w, w ∈ s'.fabric.present ↔ (w < 128 ∧ bit pr.toNat w = true)) := by
  refine ⟨hearMap (popPeer s) fid mx wc (bitmapList pr) es, Eq.trans (b := execMap s) rfl (onPeer_of_atPeer hat (by rw [hbody])), ?_⟩
  have hmember : ¬ ((popPeer s).fabric.coordinator || !partakes (popPeer s)
      || ((popPeer s).fabric.fabricId ≠ 0 && (popPeer s).fabric.fabricId ≠ fid)) = true := by
    have hpart : partakes (popPeer s) = true := (partakes_congr rfl).trans hpartakes
    have hcoord : (popPeer s).fabric.coordinator = false := hcoordinator
    have hid : (popPeer s).fabric.fabricId = 0 ∨ (popPeer s).fabric.fabricId = fid := hfid
    rcases hid with hid | hid <;> simp [hpart, hcoord, hid]
  obtain ⟨lv, hfabric, hwafer, hserial⟩ := installMap_numbers (s := popPeer s) (fid := fid) (mx := mx) (pr := bitmapList pr) (es := es) hnumber hn
  have hserials : (installMap (popPeer s) fid mx (bitmapList pr) es).fabric.serials = mapTable s es := congrArg Fabric.serials hfabric
  have hgiven : (installMap (popPeer s) fid mx (bitmapList pr) es).fabric.number = some n := congrArg Fabric.number hfabric
  unfold hearMap
  rw [if_neg hmember]
  dsimp only
  generalize installMap (popPeer s) fid mx (bitmapList pr) es = a at hfabric hwafer hserial hserials hgiven ⊢
  have hours : tget 0 a.fabric.serials n = a.sys.serial := by rw [hserials, hserial]; exact hown
  have hother : decide (tget 0 a.fabric.serials n ≠ 0 ∧ tget 0 a.fabric.serials n < a.sys.serial) = false := by
    rw [hours]
    simp
  have hleft : leftOut { a with sys := { a.sys with waferCount := wc } } = false := by
    unfold leftOut
    simp [hgiven]
  rw [hgiven]
  dsimp only
  rw [if_neg (c := decide (tget 0 a.fabric.serials n ≠ 0 ∧ tget 0 a.fabric.serials n < a.sys.serial) = true) (by rw [hother]; exact Bool.false_ne_true),
    if_neg (by rw [hleft]; exact Bool.false_ne_true)]
  obtain ⟨ph, hend⟩ := tryAwaitEnd_fabric { a with sys := { a.sys with waferCount := wc } }
  obtain ⟨hnum, hcount⟩ := tryAwaitEnd_sys { a with sys := { a.sys with waferCount := wc } }
  rw [hend, hnum, hcount]
  dsimp only
  rw [hfabric]
  exact ⟨rfl, hwafer, rfl, rfl, rfl, rfl, rfl, mem_bitmapList pr⟩

end

/-! ## ROUTES (R474, R478, R479) -/

theorem stageRoutes_head (x : Fabric) (g : Nat) (orient shadow : Bool) (es : List RouteEntry) :
    (stageRoutes x g orient shadow es).generation = g ∧ (stageRoutes x g orient shadow es).shadow = shadow
      ∧ (stageRoutes x g orient shadow es).orient = orient := by
  unfold stageRoutes
  dsimp only
  refine foldl_keeps (fun a : Staging => a.generation = g ∧ a.shadow = shadow ∧ a.orient = orient) _ ?_ es _ ?_
  · exact fun a e h => h
  · split
    · exact ‹_›
    · exact ⟨rfl, rfl, rfl⟩

/-- A whole table that is no shadow set is used from now on. -/
theorem installRoutes_whole {s : State} (hwhole : 128 ≤ s.fabric.staging.dests.length) (hshadow : s.fabric.staging.shadow = false) :
    ∃ ph, (installRoutes s).fabric = { s.fabric with
      routes := s.fabric.staging.table, generation := s.fabric.staging.generation, orient := s.fabric.staging.orient, staging := {}, phase := ph } := by
  unfold installRoutes
  dsimp only
  rw [if_neg (Nat.not_lt.mpr hwhole), if_neg (by simp [hshadow])]
  exact tryAwaitEnd_fabric _

section
variable {g : Nat} {orient shadow : Bool} {es : List RouteEntry} {m : PeerMsg} {rest : List PeerMsg} {s : State}
  (hat : AtPeer s m rest) (hbody : m.body = .routes g orient shadow es) (hcoordinator : s.fabric.coordinator = false) (hpartakes : partakes s = true)
  (hnew : g ≠ (if shadow then s.fabric.shadowGeneration else s.fabric.generation))
include hat hbody hcoordinator hpartakes hnew

theorem exec_routes_eq :
    exec .routes s = .next (installRoutes (setFabric (popPeer s) (fun x => { x with staging := stageRoutes x g orient shadow es }))) := by
  refine Eq.trans (b := execRoutes s) rfl (onPeer_of_atPeer hat ?_)
  rw [hbody]
  have hmember : ¬ ((popPeer s).fabric.coordinator || !partakes (popPeer s)) = true := by
    have hpart : partakes (popPeer s) = true := (partakes_congr rfl).trans hpartakes
    have hcoord : (popPeer s).fabric.coordinator = false := hcoordinator
    simp [hpart, hcoord]
  exact congrArg some ((if_neg hmember).trans (if_neg hnew))

theorem routes_stage (hpart : (stageRoutes s.fabric g orient shadow es).dests.length < 128) :
    ∃ s', exec .routes s = .next s' ∧ s'.fabric.staging = stageRoutes s.fabric g orient shadow es ∧ s'.fabric.routes = s.fabric.routes
      ∧ s'.fabric.shadowRoutes = s.fabric.shadowRoutes ∧ s'.fabric.generation = s.fabric.generation := by
  refine ⟨_, (exec_routes_eq hat hbody hcoordinator hpartakes hnew).trans (congrArg Host.Outcome.next (if_pos hpart)), ?_⟩
  exact ⟨rfl, rfl, rfl, rfl⟩

theorem routes_install (hwhole : 128 ≤ (stageRoutes s.fabric g orient shadow es).dests.length) (hshadow : shadow = false) :
    ∃ s', exec .routes s = .next s' ∧ s'.fabric.routes = (stageRoutes s.fabric g orient shadow es).table ∧ s'.fabric.generation = g
      ∧ s'.fabric.orient = orient ∧ s'.fabric.staging = {} ∧ s'.fabric.shadowRoutes = s.fabric.shadowRoutes := by
  obtain ⟨hgeneration, hkind, horient⟩ := stageRoutes_head s.fabric g orient shadow es
  obtain ⟨ph, hinstalled⟩ := installRoutes_whole
    (s := setFabric (popPeer s) (fun x => { x with staging := stageRoutes x g orient shadow es })) hwhole (hkind.trans hshadow)
  refine ⟨_, exec_routes_eq hat hbody hcoordinator hpartakes hnew, ?_⟩
  rw [hinstalled]
  exact ⟨rfl, hgeneration, horient, rfl, rfl⟩

theorem routes_installShadow (hwhole : 128 ≤ (stageRoutes s.fabric g orient shadow es).dests.length) (hshadow : shadow = true) :
    ∃ s', exec .routes s = .next s' ∧ s'.fabric.shadowRoutes = (stageRoutes s.fabric g orient shadow es).table ∧ s'.fabric.shadowGeneration = g
      ∧ s'.fabric.routes = s.fabric.routes ∧ s'.fabric.orient = s.fabric.orient ∧ s'.fabric.generation = s.fabric.generation := by
  obtain ⟨hgeneration, hkind, -⟩ := stageRoutes_head s.fabric g orient shadow es
  refine ⟨_, (exec_routes_eq hat hbody hcoordinator hpartakes hnew).trans
    (congrArg Host.Outcome.next ((if_neg (Nat.not_lt.mpr hwhole)).trans (if_pos (hkind.trans hshadow)))), ?_⟩
  exact ⟨rfl, hgeneration, rfl, rfl, rfl⟩

end

/-! ## STATUS, SWITCH and PRIMARY (R479, R487) -/

section
variable {num : BitVec 7} {ins sh : Nat} {orient : Bool} {up : BitVec 24} {m : PeerMsg} {rest : List PeerMsg} {s : State}
  (hat : AtPeer s m rest) (hbody : m.body = .status num ins sh orient up)
include hat hbody

theorem status_records (hcoordinator : s.fabric.coordinator = true) (hpartakes : partakes s = true) :
    ∃ s', exec .status s = .next s' ∧ s'.fabric.accepted = rest
      ∧ ∀ w ∈ s'.fabric.wafers, w.serial = tget 0 s.fabric.serials num.toNat →
          w.installed = ins ∧ w.shadow = sh ∧ w.orient = orient ∧ w.linksUp = up ∧ w.lastStatus = s.nowUs := by
  have hmember : ¬ (!(popPeer s).fabric.coordinator || !partakes (popPeer s)) = true := by
    have hpart : partakes (popPeer s) = true := (partakes_congr rfl).trans hpartakes
    have hcoord : (popPeer s).fabric.coordinator = true := hcoordinator
    simp [hpart, hcoord]
  have honly := (tryRunning_routesOnly (recordStatus (popPeer s) num.toNat ins sh orient up)).trans
    ((trySwitch_routesOnly _).trans (trySwitchEnd_routesOnly _))
  refine ⟨_, Eq.trans (b := execStatus s) rfl (onPeer_of_atPeer hat (by rw [hbody])), ?_⟩
  unfold hearStatus
  rw [if_neg hmember]
  refine ⟨honly.accepted.trans (popPeer_accepted hat), ?_⟩
  rw [honly.wafers]
  intro w hw hserial
  obtain ⟨v, -, rfl⟩ := List.mem_map.mp hw
  by_cases hv : v.serial = tget 0 (popPeer s).fabric.serials num.toNat
  · rw [if_pos hv]
    exact ⟨rfl, rfl, rfl, rfl, rfl⟩
  · rw [if_neg hv] at hserial
    exact absurd hserial hv

end

theorem switch_pauses {g : Nat} {m : PeerMsg} {rest : List PeerMsg} {s : State} (hat : AtPeer s m rest) (hbody : m.body = .switch g)
    (hpartakes : partakes s = true) :
    (g = s.fabric.shadowGeneration → s.fabric.generation < g → s.fabric.pausedAt = none →
      ∃ s', exec .switch s = .next s' ∧ s'.fabric.pausedAt = some s.nowUs ∧ s'.fabric.routes = s.fabric.routes)
    ∧ (g ≠ s.fabric.shadowGeneration → exec .switch s = .next (popPeer s)) := by
  have hexec : exec .switch s = .next (hearSwitch (popPeer s) g) := by
    refine Eq.trans (b := execSwitch s) rfl (onPeer_of_atPeer hat ?_)
    rw [hbody]
  have hpart : partakes (popPeer s) = true := (partakes_congr rfl).trans hpartakes
  refine ⟨fun hshadow hlater hrunning => ?_, fun hother => ?_⟩
  · refine ⟨pauseInjection (popPeer s), hexec.trans (congrArg Host.Outcome.next (if_pos ?_)), ?_, rfl⟩
    · have hset : g = (popPeer s).fabric.shadowGeneration := hshadow
      have hbelow : (popPeer s).fabric.generation < g := hlater
      rw [← hset]
      simp [hpart, hbelow]
    · have hnone : (popPeer s).fabric.pausedAt = none := hrunning
      unfold pauseInjection setFabric
      dsimp only
      rw [hnone]
      rfl
  · have hset : g ≠ (popPeer s).fabric.shadowGeneration := hother
    exact hexec.trans (congrArg Host.Outcome.next (if_neg (by simp [hset])))

theorem primary_records {south : Bool} {fo : BitVec 8} {m : PeerMsg} {rest : List PeerMsg} {s : State} (hat : AtPeer s m rest)
    (hbody : m.body = .primary south fo) :
    ∃ s', exec .primary s = .next s' ∧ tget false s'.fabric.peerPrimary (peerSrc m) = south ∧ s' = { s with fabric := s'.fabric } := by
  refine ⟨setFabric (popPeer s) (fun x => { x with peerPrimary := tset false x.peerPrimary (peerSrc m) south }),
    Eq.trans (b := execPrimary s) rfl ?_, ?_, rfl⟩
  · unfold execPrimary
    rw [hat.2]
    refine onPeer_of_atPeer hat ?_
    rw [hbody]
    rfl
  · unfold setFabric
    dsimp only
    exact tget_tset_same (α := Bool) _ _ _ _

/-- Settles O50: each command takes the head of the accepted messages and records it; what a change of the links does besides keeps links and reports. -/
theorem peerMessagesHeard : Obligations.PeerMessagesHeard := by
  refine ⟨fun l serial pl fid cand num level m rest s hat hbody hup hempty => ⟨fun hother hsteady hwins => ?_, fun hown => ?_, fun hother hset hgiven hfid => ?_⟩,
    fun serial part rs m rest s hat hbody => ⟨links_records hat hbody, links_ignored hat hbody⟩,
    fun fid mx wc pr es n m rest s hat hbody hcoordinator hpartakes hfid hnumber => map_numbers hat hbody hcoordinator hpartakes hfid hnumber,
    fun g orient shadow es m rest s hat hbody hcoordinator hpartakes hnew => ⟨routes_stage hat hbody hcoordinator hpartakes hnew,
      routes_install hat hbody hcoordinator hpartakes hnew, routes_installShadow hat hbody hcoordinator hpartakes hnew⟩,
    fun num ins sh orient up m rest s hat hbody => status_records hat hbody,
    fun g m rest s hat hbody hpartakes => switch_pauses hat hbody hpartakes, fun south fo m rest s hat hbody => primary_records hat hbody⟩
  · exact hello_records hat hbody hup hother hsteady hwins
  · exact hello_turns hat hbody hup hempty (if_pos hown) (.inl rfl)
  · refine hello_turns hat hbody hup hempty ((if_neg hother).trans (if_pos ?_)) (.inr rfl)
    exact Bool.and_eq_true_iff.mpr ⟨Bool.and_eq_true_iff.mpr ⟨decide_eq_true hset, decide_eq_true hgiven⟩, decide_eq_true hfid⟩

end Sys2Proof.Machine

/-!
The timers of discovery (R465, R466, R488, R490), the switch over to a shadow set (R479) and the repetition of messages (R487).
-/

namespace Sys2Proof.Machine

/-! ## Training ends, and the candidate settles (R465) -/

theorem linkTrainExit_ends {s : State} (hruns : firmwareRuns s = true) (htested : stepDone s 8 = true) (hphase : s.fabric.phase = .linkTrain) :
    ((∀ l, l < 24 → settledLink s l = true) ∨ s.fabric.stepStart + 200000 ≤ s.nowUs →
      ∃ s', exec .linkTrainExit s = .next s' ∧ s'.fabric.phase = .elect ∧ s'.fabric.candidateAt = s.nowUs ∧ s'.fabric.links = s.fabric.links
        ∧ s'.tenants = s.tenants ∧ s'.mem = s.mem)
    ∧ (∀ l, l < 24 → settledLink s l = false → s.nowUs < s.fabric.stepStart + 200000 → exec .linkTrainExit s = .next s) := by
  have hall : (List.range 24).all (settledLink s) = true ↔ ∀ l, l < 24 → settledLink s l = true := by simp [List.all_eq_true]
  refine ⟨fun hover => ?_, fun l hl hunsettled hearly => if_neg ?_⟩
  · refine ⟨setFabric s (fun x => { x with phase := .elect, candidateAt := s.nowUs }), if_pos ?_, rfl, rfl, rfl, rfl, rfl⟩
    have hdue : ((List.range 24).all (settledLink s) || decide (s.fabric.stepStart + 200000 ≤ s.nowUs)) = true := by
      rcases hover with hsettled | hlate
      · rw [hall.mpr hsettled]
        rfl
      · rw [decide_eq_true hlate, Bool.or_true]
    rw [hruns, htested, hphase, hdue]
    rfl
  · have hnot : ¬ (List.range 24).all (settledLink s) = true := fun h => Bool.false_ne_true (hunsettled.symm.trans (hall.mp h l hl))
    rw [Bool.not_eq_true] at hnot
    rw [hnot, decide_eq_false (Nat.not_le.mpr ‹_›)]
    simp

/-- Numbering begins, if it does, as the coordinator's and goes to NUMBER or RUNNING. -/
theorem tryNumber_phase (s : State) (hcoordinator : s.fabric.coordinator = true) :
    (tryNumber s).fabric.coordinator = true ∧ ((tryNumber s).fabric.phase = s.fabric.phase ∨ (tryNumber s).fabric.phase = .number
      ∨ (tryNumber s).fabric.phase = .running) := by
  unfold tryNumber
  dsimp only
  split
  · obtain ⟨sr, pr, lv, nu, fid, hnumbered⟩ := numbered_frame s
    refine ⟨(numberFabric_routesOnly s).coordinator.trans (by rw [hnumbered]), .inr ?_⟩
    have hrouted : ∀ a : State, a.fabric.phase = .number → (tryRunning a).fabric.phase = .number ∨ (tryRunning a).fabric.phase = .running := by
      intro a ha
      obtain ⟨ph, hfabric, hph⟩ := tryRunning_fabric a
      rw [hfabric]
      exact hph.imp (·.trans ha) id
    rw [numberFabric_eq]
    refine hrouted _ ?_
    have hphase : (numbered s).fabric.phase = .number := by rw [hnumbered]
    split
    · rw [reorient_eq]
      obtain ⟨sw, pa, q, hswitch⟩ := trySwitch_fabric (emitRoutes (emitMap (showNumber (reoriented (numbered s)))))
      rw [hswitch]
      exact ((reoriented_emits (numbered s)).field Fabric.phase (fun _ _ => rfl)).trans hphase
    · exact ((recompute_emits (numbered s)).field Fabric.phase (fun _ _ => rfl)).trans hphase
  · exact ⟨hcoordinator, .inl rfl⟩

section
variable {s : State} (hruns : firmwareRuns s = true) (hphase : s.fabric.phase = .elect)
include hruns hphase

theorem electSettle_settles : (s.fabric.candidateAt + 1000 * s.fabric.settle ≤ s.nowUs → s.fabric.candidate ≠ s.sys.serial →
      ∃ s', exec .electSettle s = .next s' ∧ s'.fabric.phase = .await ∧ s'.fabric.coordinator = s.fabric.coordinator)
    ∧ (s.fabric.candidateAt + 1000 * s.fabric.settle ≤ s.nowUs → s.fabric.candidate = s.sys.serial →
      ∃ s', exec .electSettle s = .next s' ∧ s'.fabric.coordinator = true
        ∧ (s'.fabric.phase = .collect ∨ s'.fabric.phase = .number ∨ s'.fabric.phase = .running))
    ∧ (s.nowUs < s.fabric.candidateAt + 1000 * s.fabric.settle → exec .electSettle s = .next s) := by
  have hdue : s.fabric.candidateAt + 1000 * s.fabric.settle ≤ s.nowUs →
      (firmwareRuns s && s.fabric.phase = .elect && decide (s.fabric.candidateAt + 1000 * s.fabric.settle ≤ s.nowUs)) = true := by
    intro h
    rw [hruns, hphase, decide_eq_true h]
    rfl
  refine ⟨fun hsettled hother => ?_, fun hsettled hown => ?_, fun hearly => if_neg ?_⟩
  · have hsent := emitLinks_emits (setFabric s (fun x => { x with phase := .await, lastMap := s.nowUs }))
    refine ⟨_, (if_pos (hdue hsettled)).trans (if_neg hother), ?_, ?_⟩
    · exact hsent.field Fabric.phase (fun _ _ => rfl)
    · exact hsent.field Fabric.coordinator (fun _ _ => rfl)
  · obtain ⟨hcoordinator, hphases⟩ := tryNumber_phase (setFabric s (fun x => { x with phase := .collect, coordinator := true })) rfl
    exact ⟨_, (if_pos (hdue hsettled)).trans (if_pos hown), hcoordinator, hphases⟩
  · rw [decide_eq_false (Nat.not_le.mpr hearly)]
    simp

end

/-! ## A fabric of its own (R466) -/

/-- The state in which a wafer is wafer 0 of its own fabric, before its routes are made. -/
def ownWafer (s : State) : State :=
  setFabric s (fun x => { x with
    fabricId := s.sys.serial, candidate := s.sys.serial, coordinator := true, number := some 0, level := 0
    serials := [(0, s.sys.serial)], present := [0], levels := [], wafers := [] })

theorem ownFabric_eq (s : State) : ownFabric s = enterRunning (raiseAlert (recompute (ownWafer s)) alFabric) := rfl

/-- The step that ends when discovery is left: the engine is READY (R465). -/
theorem leaveDiscovery_ends {s : State} (h : stepRuns s 9 = true) : (leaveDiscovery s).sys.state = 1 ∧ stepDone (leaveDiscovery s) 9 = true := by
  unfold leaveDiscovery
  rw [if_pos h]
  obtain ⟨ts, mr, st, hready⟩ := bootReady_frame s
  rw [hready]
  exact ⟨rfl, stepDone_endStep s (n := 9) (by decide) (by decide)⟩

theorem stepRuns_congr {s s' : State} (hsteps : s'.sys.stepEnded = s.sys.stepEnded) (hruns : firmwareRuns s' = firmwareRuns s) (n : Nat) :
    stepRuns s' n = stepRuns s n := by
  have hdone : ∀ i, stepDone s' i = stepDone s i := fun i => stepDone_congr hsteps i
  unfold stepRuns
  rw [hruns, hdone, funext hdone]

theorem firmwareRuns_congr {s s' : State} (hcasing : s'.casing = s.casing) (hsteps : s'.sys.stepEnded = s.sys.stepEnded)
    (hdead : s'.sys.pumphouseDead = s.sys.pumphouseDead) (hstate : s'.sys.state = s.sys.state) : firmwareRuns s' = firmwareRuns s := by
  unfold firmwareRuns poweredUp
  rw [stepDone_congr hsteps, hcasing, hdead, hstate]

/-- What the wafer is once it has made its own fabric's routes and raised FABRIC. -/
theorem ownFabric_before (s : State) : ∃ a, ownFabric s = enterRunning a
    ∧ a.fabric.number = some 0 ∧ a.fabric.coordinator = true ∧ a.fabric.fabricId = s.sys.serial ∧ a.fabric.present = [0]
    ∧ a.sys.waferNumber = 0 ∧ a.sys.waferCount = 1 ∧ alertBit a 3 = true ∧ stepRuns a 9 = stepRuns s 9 := by
  have honly := recompute_routesOnly (ownWafer s)
  have hsys := (recompute_emits (ownWafer s)).sys
  have hcasing := (recompute_emits (ownWafer s)).casing
  rw [ownFabric_eq]
  generalize recompute (ownWafer s) = b at honly hsys hcasing ⊢
  refine ⟨raiseAlert b alFabric, rfl, ?_, ?_, ?_, ?_, ?_, ?_, alertBit_raiseAlert_fabric b, ?_⟩
  · rw [raiseAlert_fabric]
    exact honly.number
  · rw [raiseAlert_fabric]
    exact honly.coordinator
  · rw [raiseAlert_fabric]
    exact honly.fabricId
  · rw [raiseAlert_fabric]
    exact honly.present
  all_goals
    obtain ⟨ps, os, hraised⟩ := raiseAlert_frame b alFabric
    rw [hraised]
  · exact congrArg Sys.waferNumber hsys
  · exact congrArg Sys.waferCount hsys
  · exact stepRuns_congr (congrArg Sys.stepEnded hsys)
      (firmwareRuns_congr hcasing (congrArg Sys.stepEnded hsys) (congrArg Sys.pumphouseDead hsys) (congrArg Sys.state hsys)) 9

theorem discoveryWindow_ends {s : State} (hruns : firmwareRuns s = true) (htested : stepDone s 8 = true) (hdiscovers : inDiscovery s.fabric = true)
    (hnumber : s.fabric.number = none) (hdue : s.fabric.stepStart + 1000 * s.fabric.window + 200000 ≤ s.nowUs) :
    ∃ s', exec .discoveryWindow s = .next s' ∧ s'.fabric.phase = .running ∧ s'.fabric.number = some 0 ∧ s'.fabric.coordinator = true
      ∧ s'.fabric.fabricId = s.sys.serial ∧ s'.fabric.present = [0] ∧ s'.sys.waferNumber = 0 ∧ s'.sys.waferCount = 1 ∧ alertBit s' 3 = true
      ∧ (stepRuns s 9 = true → s'.sys.state = 1 ∧ stepDone s' 9 = true) := by
  have hexec : exec .discoveryWindow s = .next (ownFabric s) := by
    refine (if_pos (by rw [hruns, htested, hdiscovers]; rfl)).trans ((if_pos hdue).trans (if_pos ?_))
    rw [hnumber]
    rfl
  obtain ⟨a, ha, hzero, hcoordinator, hid, hpresent, hwafer, hcount, halert, hstep⟩ := ownFabric_before s
  have hfabric := enterRunning_fabric a
  obtain ⟨halerts, -, hwaferA, hcountA, -⟩ := enterRunning_sys a
  refine ⟨_, hexec, ?_⟩
  rw [ha]
  refine ⟨congrArg Fabric.phase hfabric, (congrArg Fabric.number hfabric).trans hzero, (congrArg Fabric.coordinator hfabric).trans hcoordinator,
    (congrArg Fabric.fabricId hfabric).trans hid, (congrArg Fabric.present hfabric).trans hpresent, hwaferA.trans hwafer, hcountA.trans hcount,
    (enterRunning_routesOnly a).alertBit 3 |>.trans halert, fun hlast => leaveDiscovery_ends ?_⟩
  exact (stepRuns_congr (s := a) rfl (firmwareRuns_congr rfl rfl rfl rfl) 9).trans (hstep.trans hlast)

/-! ## A coordinator or a wafer is lost (R488, R490) -/

theorem mapTimeout_elects {s : State} (hruns : firmwareRuns s = true) (hcoordinator : s.fabric.coordinator = false)
    (hnumber : s.fabric.number.isSome = true) (hphase : s.fabric.phase = .running ∨ s.fabric.phase = .await) :
    (s.fabric.lastMap + 500000 ≤ s.nowUs →
      ∃ s', exec .mapTimeout s = .next s' ∧ s'.fabric.phase = .elect ∧ s'.fabric.candidate = s.sys.serial
        ∧ s'.fabric.lost = s.fabric.candidate ∧ s'.fabric.number = s.fabric.number ∧ s'.fabric.fabricId = s.fabric.fabricId
        ∧ s'.fabric.serials = s.fabric.serials ∧ s'.fabric.routes = s.fabric.routes)
    ∧ (s.nowUs < s.fabric.lastMap + 500000 → exec .mapTimeout s = .next s) := by
  refine ⟨fun hlate => ?_, fun hearly => if_neg ?_⟩
  · have hsent := emitHello_emits (setFabric s (fun x => { x with
      phase := .elect, stepStart := s.nowUs, lost := x.candidate, candidate := s.sys.serial, candidateAt := s.nowUs, wafers := [] }))
    refine ⟨_, if_pos ?_, hsent.field Fabric.phase (fun _ _ => rfl), hsent.field Fabric.candidate (fun _ _ => rfl),
      hsent.field Fabric.lost (fun _ _ => rfl), hsent.field Fabric.number (fun _ _ => rfl), hsent.field Fabric.fabricId (fun _ _ => rfl),
      hsent.field Fabric.serials (fun _ _ => rfl), hsent.field Fabric.routes (fun _ _ => rfl)⟩
    rw [hruns, hcoordinator, hnumber, decide_eq_true hlate]
    rcases hphase with hphase | hphase <;> rw [hphase] <;> rfl
  · rw [decide_eq_false (Nat.not_le.mpr hearly)]
    simp

theorem foldl_tset_routes (f : Nat → Route) (ds : List Nat) (t : Tab Route) (w : Nat) (h : w ∈ ds) :
    tget {} (ds.foldl (fun t d => tset {} t d (f d)) t) w = f w := by
  refine foldl_establishes _ (fun (t : Tab Route) d => tget {} t d = f d) ?_ ?_ t h
  · exact fun t d => tget_tset_same _ _ _ _
  · intro t e d ht
    by_cases hd : d = e
    · subst hd
      exact tget_tset_same _ _ _ _
    · exact (tget_tset_other _ _ _ _ _ hd).trans ht

/-- A wafer whose number stays reserved but which is not present is ABSENT in every other wafer's table (R474). -/
theorem routeTable_absent {s : State} {lv : Tab Nat} {me w : Nat} (hw : w < 128) (hother : w ≠ me) (hgone : w ∉ s.fabric.present)
    (hserial : tget 0 s.fabric.serials w ≠ 0) : (tget {} (routeTable s lv me) w).state = 2 := by
  unfold routeTable
  rw [foldl_tset_routes (fun d => routeTo s lv me d) _ _ _ (List.mem_range.mpr hw)]
  unfold routeTo
  rw [if_neg hother, if_neg (by simpa using hgone), if_pos hserial]

/-- The wafers without the lost one. -/
def waferDropped (s : State) (w : Nat) : State :=
  setFabric s (fun x => { x with
    present := x.present.filter (fun n => n ≠ w), wafers := x.wafers.filter (fun i => i.serial ≠ tget 0 x.serials w) })

theorem reroute_absent {s : State} {n w : Nat} (hw : w < 128) (hnumber : s.fabric.number = some n) (hother : w ≠ n) (hgone : w ∉ s.fabric.present)
    (hserial : tget 0 s.fabric.serials w ≠ 0) (hswitching : s.fabric.switching = false) :
    (tget {} (reroute s).fabric.routes w).state = 2 ∨ (tget {} (reroute s).fabric.shadowRoutes w).state = 2 := by
  unfold reroute
  rw [if_neg (by simp [hswitching])]
  split
  · left
    have hroutes : (recompute s).fabric.routes = routeTable s s.fabric.levels (s.fabric.number.getD 0) :=
      (recompute_emits s).field Fabric.routes (fun _ _ => rfl)
    rw [hroutes, hnumber]
    exact routeTable_absent hw hother hgone hserial
  · right
    obtain ⟨sw, pa, q, hswitch⟩ := trySwitch_fabric (emitRoutes (emitMap (showNumber (reoriented s))))
    have hroutes : (reorient s).fabric.shadowRoutes = routeTable s (freshLevels s) (s.fabric.number.getD 0) := by
      rw [reorient_eq, hswitch]
      exact (reoriented_emits s).field Fabric.shadowRoutes (fun _ _ => rfl)
    rw [hroutes, hnumber]
    exact routeTable_absent hw hother hgone hserial

theorem waferAbsent_marks {s : State} (hruns : firmwareRuns s = true) (w : Fin 128) (n : Nat) (hcoordinator : s.fabric.coordinator = true)
    (hpresent : w.val ∈ s.fabric.present) (hnumber : s.fabric.number = some n) (hother : n ≠ w.val) (hserial : tget 0 s.fabric.serials w ≠ 0) :
    (waferLost s (tget 0 s.fabric.serials w) = true → s.fabric.switching = false →
      ∃ s', exec (.waferAbsent w) s = .next s' ∧ w.val ∉ s'.fabric.present ∧ s'.fabric.serials = s.fabric.serials ∧ alertBit s' 3 = true
        ∧ ((tget {} s'.fabric.routes w).state = 2 ∨ (tget {} s'.fabric.shadowRoutes w).state = 2))
    ∧ (waferLost s (tget 0 s.fabric.serials w) = false → exec (.waferAbsent w) s = .next s) := by
  refine ⟨fun hlost hswitching => ?_, fun hlost => if_neg ?_⟩
  · have hgone : w.val ∉ (waferDropped s w).fabric.present := by
      unfold waferDropped setFabric
      simp
    have honly := (reroute_routesOnly (waferDropped s w)).trans (tryRunning_routesOnly _)
    have habsent := reroute_absent (s := waferDropped s w) w.isLt hnumber (Ne.symm hother) hgone hserial hswitching
    obtain ⟨ph, hfabric, -⟩ := tryRunning_fabric (reroute (waferDropped s w))
    refine ⟨raiseAlert (tryRunning (reroute (waferDropped s w))) alFabric, if_pos ?_, ?_, ?_, alertBit_raiseAlert_fabric _, ?_⟩
    · rw [hruns, hcoordinator, hlost, hnumber]
      simp [hpresent, hother]
    · rw [raiseAlert_fabric, honly.present]
      exact hgone
    · rw [raiseAlert_fabric]
      exact honly.serials
    · rw [raiseAlert_fabric, hfabric]
      exact habsent
  · rw [hlost]
    simp

/-! ## The switch over to the shadow set (R479) -/

theorem switchPauseEnd_switches {s : State} {t0 : Nat} (hpaused : s.fabric.pausedAt = some t0) :
    (t0 + 300 ≤ s.nowUs → s.fabric.generation < s.fabric.shadowGeneration → s.fabric.switching = false →
      ∃ s', exec .switchPauseEnd s = .next s' ∧ s'.fabric.pausedAt = none ∧ s'.fabric.routes = s.fabric.shadowRoutes
        ∧ s'.fabric.generation = s.fabric.shadowGeneration ∧ s'.fabric.orient = !s.fabric.orient)
    ∧ (s.nowUs < t0 + 300 → exec .switchPauseEnd s = .next s) := by
  have hexec : exec .switchPauseEnd s = execSwitchPauseEnd s := rfl
  rw [hexec]
  unfold execSwitchPauseEnd
  rw [hpaused]
  refine ⟨fun hover hshadow hswitching => ?_, fun hearly => if_neg (Nat.not_le.mpr hearly)⟩
  dsimp only
  rw [if_pos hover]
  refine ⟨_, congrArg Host.Outcome.next (if_neg ?_), ?_⟩
  · unfold setFabric
    dsimp only
    rw [if_pos hshadow]
    simp [hswitching]
  · unfold setFabric
    dsimp only
    rw [if_pos hshadow]
    exact ⟨rfl, rfl, rfl, rfl⟩

/-! ## Messages are repeated (R386, R487) -/

theorem emitHello_count (s : State) : (emitHello s).out.length = s.out.length + ((List.range 24).filter (fun l => linkUp (s.link l))).length := by
  unfold emitHello
  dsimp only
  generalize (List.range 24).filter (fun l => linkUp (s.link l)) = ls
  generalize s.fabric = x
  generalize s.sys.serial = serial
  induction ls generalizing s with
  | nil => rfl
  | cons l ls ih =>
    rw [List.foldl_cons, ih]
    simp only [emitPeer, State.emit, List.length_cons]
    omega

theorem emitStatus_sends {s : State} {n : Nat} (hnumber : s.fabric.number = some n) (hmember : s.fabric.coordinator = false) :
    (emitStatus s).fabric.sendSeq = s.fabric.sendSeq + 1 ∧ (emitStatus s).out = .peer (some (coordinatorNumber s))
      (5 + 2 ^ 8 * (n % 128) + 2 ^ 16 * s.fabric.sendSeq.toNat) (.status (BitVec.ofNat 7 n) s.fabric.generation s.fabric.shadowGeneration s.fabric.orient
      (linkMask ((List.range 24).filter (fun l => linkUp (s.link l))))) :: s.out := by
  have hsource : ownSource s = n % 128 := by
    unfold ownSource
    rw [hnumber]
  unfold emitStatus
  dsimp only
  rw [hnumber]
  dsimp only
  rw [if_neg (by simp [hmember])]
  unfold emitEach emitPeer
  simp only [List.foldl_cons, List.foldl_nil]
  rw [hsource]
  exact ⟨rfl, rfl⟩

/-- The messages of one type go out. -/
def emitKind (s : State) : PeerType → State
  | .hello => emitHello s
  | .links => emitLinks s
  | .map => emitMap s
  | .routes => emitRoutes s
  | .status => emitStatus s
  | .switch => emitSwitch s
  | .primary => emitPrimary s

theorem emitKind_emits (s : State) (kind : PeerType) : Emits s (emitKind s kind) := by
  cases kind with
  | hello => exact emitHello_emits s
  | links => exact emitLinks_emits s
  | map => exact emitMap_emits s
  | routes => exact emitRoutes_emits s
  | status => exact emitStatus_emits s
  | switch => exact emitSwitch_emits s
  | primary => exact emitPrimary_emits s

theorem exec_peerMessageRepeat_eq {s : State} (hruns : firmwareRuns s = true) (htested : stepDone s 8 = true) (hpartakes : partakes s = true)
    (kind : PeerType) : exec (.peerMessageRepeat kind) s = .next (emitKind s kind) := by
  have hsends : (firmwareRuns s && stepDone s 8 && partakes s) = true := by rw [hruns, htested, hpartakes]; rfl
  refine Eq.trans (if_pos hsends) ?_
  cases kind <;> rfl

/-- Settles O51: each timer's command by its guard; numbering and routing keep what the statement names. -/
theorem discoveryProceeds : Obligations.DiscoveryProceeds := by
  intro s hruns htested
  refine ⟨linkTrainExit_ends hruns htested, electSettle_settles hruns, discoveryWindow_ends hruns htested, mapTimeout_elects hruns,
    waferAbsent_marks hruns, fun t0 => switchPauseEnd_switches, fun kind hpartakes => ?_⟩
  refine ⟨_, exec_peerMessageRepeat_eq hruns htested hpartakes kind, emitKind_emits s kind, ?_, ?_⟩
  · rintro rfl
    exact emitHello_count s
  · rintro n rfl
    exact emitStatus_sends

end Sys2Proof.Machine

/-!
Failover to the standby Pumphouse (R387 to R395, R414, R439): the mirror is taken, every clause and message of the failed primary is failed, and a
tenant's epoch moves on.
-/

namespace Sys2Proof.Machine

/-! ## Heartbeat and watchdog (R389, R395) -/

theorem heartbeatWatchdog_late {s : State} (hruns : firmwareRuns s = true) (hlate : s.sys.lastBeat + 20000 ≤ s.nowUs) :
    (s.sys.noStandby = false → exec .heartbeatWatchdog s = .next { s with sys := { s.sys with standbyRung := true } })
    ∧ (s.sys.noStandby = true →
      ∃ s', exec .heartbeatWatchdog s = .next s' ∧ s'.sys.state = 2 ∧ alertBit s' 4 = true ∧ s'.tenants = s.tenants ∧ s'.mem = s.mem) := by
  have hdue : (firmwareRuns s && decide (s.sys.lastBeat + 20000 ≤ s.nowUs)) = true := by rw [hruns, decide_eq_true hlate]; rfl
  refine ⟨fun hstandby => ?_, fun hnone => ?_⟩
  · have hnot : ¬ s.sys.noStandby = true := by simp [hstandby]
    exact (if_pos hdue).trans ((if_neg hnot).trans (congrArg Host.Outcome.next (if_neg hnot)))
  · have hstops := enterStopped_stops { s with sys := { s.sys with pumphouseDead := true } }
    obtain ⟨xs, os, st, ps, hframe⟩ := enterStopped_frame { s with sys := { s.sys with pumphouseDead := true } }
    refine ⟨losePumphouse s, (if_pos hdue).trans (if_pos hnone), hstops.1, hstops.2, ?_, ?_⟩
    · exact (congrArg State.tenants hframe :)
    · exact (congrArg State.mem hframe :)

/-! ## One tenant at a time -/

/-- A fold that meets t once: what R grants before it, and Q after it. -/
theorem foldl_once {α β : Type} {g : α → β → α} {R Q : α → Prop} {t : β} (hhit : ∀ a, R a → Q (g a t)) {l : List β}
    (hbefore : ∀ a, ∀ u ∈ l, u ≠ t → R a → R (g a u)) (hafter : ∀ a, ∀ u ∈ l, u ≠ t → Q a → Q (g a u)) (hl : l.Nodup) (ht : t ∈ l) {a : α}
    (h : R a) : Q (l.foldl g a) := by
  induction l generalizing a with
  | nil => cases ht
  | cons u l ih =>
    obtain ⟨hnot, hrest⟩ := List.nodup_cons.mp hl
    by_cases hu : u = t
    · subst hu
      have hkeep : ∀ (m : List β) (b : α), (∀ v ∈ m, v ∈ l) → Q b → Q (m.foldl g b) := by
        intro m
        induction m with
        | nil => exact fun b _ hb => hb
        | cons v m ihm =>
          intro b hm hb
          have hv := hm v List.mem_cons_self
          exact ihm _ (fun w hw => hm w (List.mem_cons_of_mem _ hw))
            (hafter b v (List.mem_cons_of_mem _ hv) (fun heq => hnot (heq ▸ hv)) hb)
      exact hkeep l _ (fun v hv => hv) (hhit a h)
    · have htl : t ∈ l := (List.mem_cons.mp ht).resolve_left (fun heq => hu heq.symm)
      exact ih (fun b v hv => hbefore b v (List.mem_cons_of_mem _ hv)) (fun b v hv => hafter b v (List.mem_cons_of_mem _ hv)) hrest htl
        (hbefore a u List.mem_cons_self hu h)

theorem OtherTenants.trans {a b c : State} {t : Nat} (hab : OtherTenants a b t) (hbc : OtherTenants b c t) : OtherTenants a c t :=
  fun u hu => (hbc u hu).trans (hab u hu)

theorem otherTenants_refl (s : State) (t : Nat) : OtherTenants s s t := fun _ _ => rfl

theorem otherTenants_postNotice (s : State) (t : Nat) (body : List Byte) : OtherTenants s (postNotice s t body) t := by
  unfold postNotice
  dsimp only
  split
  · rw [writeNotice_eq]
    exact OtherTenants.trans (fun u _ => writeSlot_tenant s t body u) (otherTenants_setTenant _ t _)
  · split
    · exact otherTenants_setTenant s t _
    · exact otherTenants_setTenant s t _

theorem otherTenants_reply (s : State) (t seq type status reason index result cookie : Nat) :
    OtherTenants s (reply s t seq type status reason index result cookie) t :=
  (otherTenants_postNotice s t _).trans (otherTenants_setTenant _ t _)

theorem otherTenants_foldl {β : Type} (g : State → β → State) (t : Nat) (l : List β) (hg : ∀ s, ∀ b ∈ l, OtherTenants s (g s b) t) (s : State) :
    OtherTenants s (l.foldl g s) t := by
  induction l generalizing s with
  | nil => exact otherTenants_refl s t
  | cons b l ih => exact (hg s b List.mem_cons_self).trans (ih (fun s c hc => hg s c (List.mem_cons_of_mem _ hc)) _)

theorem otherTenants_finishClears (s : State) (t : Nat) : OtherTenants s (finishClears s t) t := by
  refine otherTenants_foldl _ t _ (fun s c _ => ?_) s
  split
  · exact otherTenants_refl s t
  · exact (otherTenants_setTenant s t _).trans (otherTenants_reply _ t _ _ _ _ _ _ _)

theorem otherTenants_endClause (s : State) (f : Flight) (v : Verdict) : OtherTenants s (endClause s f v) f.tenant := by
  have hgone := (clauseGone_workOnly s f).tenant
  unfold endClause
  dsimp only
  rw [show forgetClause (removeFlight s f.uid) f.tenant (mSeq f.words) = clauseGone s f from rfl]
  refine OtherTenants.trans (fun u _ => hgone u) (OtherTenants.trans ?_ (otherTenants_finishClears _ _))
  split
  · exact otherTenants_refl _ _
  · exact otherTenants_postNotice _ _ _

/-! ## The parts of a tenant's failover (R390, R392, R439) -/

theorem waitingFlights_tenant {s : State} {t : Nat} {f : Flight} (h : f ∈ waitingFlights s t) : f.tenant = t := by
  obtain ⟨p, -, hf⟩ := List.mem_flatMap.mp h
  obtain ⟨c, -, rfl⟩ := List.mem_map.mp hf
  rfl

theorem tenantFlights_tenant {s : State} {t : Nat} {f : Flight} (h : f ∈ tenantFlights s t) : f.tenant = t := (mem_tenantFlights.mp h).2

theorem failClause_clauseFrame (s : State) (f : Flight) : ClauseFrame s (failClause s f) := endClause_clauseFrame s f _

theorem foldl_failClause_frame (s : State) (fs : List Flight) : ClauseFrame s (fs.foldl failClause s) :=
  foldl_clauseFrame failClause failClause_clauseFrame fs s

theorem otherTenants_failClauses_foldl (s : State) {t : Nat} {fs : List Flight} (hfs : ∀ f ∈ fs, f.tenant = t) :
    OtherTenants s (fs.foldl failClause s) t := by
  refine otherTenants_foldl failClause t fs (fun a f hf => ?_) s
  have hother := otherTenants_endClause a f { status := stFailover }
  rwa [hfs f hf] at hother

/-- The tenant as its epoch moves on and its background work is dropped. -/
def failing (x : Tenant) (now : Nat) : Tenant := dropBackground { x with epoch := x.epoch + 1, lastIncrement := some now }

/-- The state in which the tenant has its new epoch. -/
def failStarted (s : State) (t : Nat) : State := (bumpEpoch s t).modTenant t dropBackground

theorem failStarted_tenant (s : State) (t : Nat) : (failStarted s t).tenant t = failing (s.tenant t) s.nowUs := by
  unfold failStarted bumpEpoch
  rw [State.tenant_modTenant_same, State.tenant_modTenant_same]
  rfl

/-- A tenant's rings stand empty at a new sentence. -/
def emptyRings (x : Tenant) : Tenant := { x with rings := x.rings.map (fun r => newSentence { r with waiting := [] }) }

theorem failClauses_eq (s : State) (t : Nat) : failClauses s t
    = (waitingFlights s t).foldl failClause (((tenantFlights s t).foldl failClause s).modTenant t emptyRings) := rfl

theorem failTenant_eq (s : State) (t : Nat) : failTenant s t
    = openRings (failoverEvent (failMessages (failClauses (findTail (failStarted s t) t) t) t) t) t := rfl

theorem removeFlight_tenant (s : State) (uid u : Nat) : (removeFlight s uid).tenant u = s.tenant u := by
  obtain ⟨cs, h⟩ := releaseClusters_only s uid
  unfold removeFlight
  rw [h]
  rfl

/-- Flights are dropped from the clauses in flight. -/
def dropFlights (s : State) (fs : List Flight) : State := fs.foldl (fun s f => removeFlight s f.uid) s

theorem dropFlights_frame (s : State) (fs : List Flight) : ClauseFrame s (dropFlights s fs) :=
  foldl_clauseFrame (fun s (f : Flight) => removeFlight s f.uid) (fun b f => removeFlight_clauseFrame b f.uid) fs s

theorem dropFlights_tenant (s : State) (fs : List Flight) (u : Nat) : (dropFlights s fs).tenant u = s.tenant u :=
  foldl_keeps (fun a : State => a.tenant u = s.tenant u) (fun a (f : Flight) => removeFlight a f.uid)
    (fun a f h => (removeFlight_tenant a f.uid u).trans h) fs s rfl

/-- Reading the ring moves the tenant's tail; flights that it shows as noticed are gone. -/
theorem findTail_frame (s : State) (t : Nat) : ClauseFrame s (findTail s t) ∧ OtherTenants s (findTail s t) t := by
  have hmoved : ∀ tl ph used, ClauseFrame s (s.setTenant t { s.tenant t with tail := tl, tailPhase := ph, ringUsed := used })
      ∧ OtherTenants s (s.setTenant t { s.tenant t with tail := tl, tailPhase := ph, ringUsed := used }) t := fun tl ph used =>
    ⟨(setTenant_mailFrame s t _ ⟨_, _, _, _, _, _, _, _, _, _, _, _, rfl⟩).clauseFrame, otherTenants_setTenant s t _⟩
  unfold findTail
  dsimp only
  split
  · generalize readRing s (s.tenant t) 4096 (s.tenant t).tail (s.tenant t).tailPhase = r
    generalize min 4096 ((s.tenant t).ringUsed + r.2.2.1) = used
    obtain ⟨hframe, hother⟩ := hmoved r.1 r.2.1 used
    exact ⟨hframe.trans (dropFlights_frame _ _), hother.trans (fun u _ => dropFlights_tenant _ _ u)⟩
  · exact ⟨.refl s, otherTenants_refl s t⟩

theorem failMessages_frame (s : State) (t : Nat) : MailFrame s (failMessages s t) ∧ OtherTenants s (failMessages s t) t :=
  ⟨foldl_mailFrame _ (fun a _ => reply_mailFrame a t _ _ _ _ _ _ _) _ s, otherTenants_foldl _ t _ (fun a _ _ => otherTenants_reply a t _ _ _ _ _ _ _) s⟩

theorem failoverEvent_frame (s : State) (t : Nat) : MailFrame s (failoverEvent s t) ∧ OtherTenants s (failoverEvent s t) t := by
  unfold failoverEvent
  dsimp only
  split
  · exact ⟨postNotice_mailFrame s t _, otherTenants_postNotice s t _⟩
  · exact ⟨.refl s, otherTenants_refl s t⟩

/-! ## What a failover leaves of the state beyond its tenants -/

/-- From s to s' the host's memory, the tenants, the mirror, the ports, the output, the work and the clusters may have changed: flights have only gone,
and sessions stay. -/
structure FailOnly (s s' : State) : Prop where
  rest : ∃ h ts mr ps os w cs,
    s' = { s with mem := { s.mem with host := h }, tenants := ts, mirror := mr, ports := ps, out := os, work := w, clusters := cs }
  flights : s'.work.flights.Sublist s.work.flights
  sessions : s'.work.sessions = s.work.sessions

theorem ClauseFrame.failOnly {s s' : State} (h : ClauseFrame s s') : FailOnly s s' := ⟨h.rest, h.resetFrame.flights, h.sessions⟩

theorem FailOnly.trans {a b c : State} (hab : FailOnly a b) (hbc : FailOnly b c) : FailOnly a c := by
  refine ⟨?_, hbc.flights.trans hab.flights, hbc.sessions.trans hab.sessions⟩
  obtain ⟨h, ts, mr, ps, os, w, cs, hb⟩ := hab.rest
  obtain ⟨h', ts', mr', ps', os', w', cs', hc⟩ := hbc.rest
  rw [hc, hb]
  exact ⟨h', ts', mr', ps', os', w', cs', rfl⟩

theorem setTenant_failOnly (s : State) (t : Nat) (x : Tenant) : FailOnly s (s.setTenant t x) :=
  ⟨⟨s.mem.host, _, _, s.ports, s.out, s.work, s.clusters, rfl⟩, List.Sublist.refl _, rfl⟩

theorem failClauses_frame (s : State) (t : Nat) : FailOnly s (failClauses s t) ∧ OtherTenants s (failClauses s t) t := by
  rw [failClauses_eq]
  have hwaiting : ∀ f ∈ waitingFlights s t, f.tenant = t := fun f => waitingFlights_tenant
  generalize waitingFlights s t = ws at hwaiting ⊢
  have hfirst := foldl_failClause_frame s (tenantFlights s t)
  have hothers := otherTenants_failClauses_foldl s (fun f (hf : f ∈ tenantFlights s t) => tenantFlights_tenant hf)
  generalize (tenantFlights s t).foldl failClause s = a at hfirst hothers ⊢
  exact ⟨hfirst.failOnly.trans ((setTenant_failOnly a t _).trans (foldl_failClause_frame _ ws).failOnly),
    hothers.trans ((otherTenants_setTenant a t _).trans (otherTenants_failClauses_foldl _ hwaiting))⟩

theorem failStarted_frame (s : State) (t : Nat) : FailOnly s (failStarted s t) ∧ OtherTenants s (failStarted s t) t :=
  ⟨(setTenant_failOnly s t _).trans (setTenant_failOnly _ t _), (otherTenants_setTenant s t _).trans (otherTenants_setTenant _ t _)⟩

theorem failTenant_frame (s : State) (t : Nat) : FailOnly s (failTenant s t) ∧ OtherTenants s (failTenant s t) t := by
  rw [failTenant_eq]
  obtain ⟨h1, o1⟩ := failStarted_frame s t
  obtain ⟨h2, o2⟩ := findTail_frame (failStarted s t) t
  obtain ⟨h3, o3⟩ := failClauses_frame (findTail (failStarted s t) t) t
  generalize failClauses (findTail (failStarted s t) t) t = c at h3 o3 ⊢
  obtain ⟨h4, o4⟩ := failMessages_frame c t
  obtain ⟨h5, o5⟩ := failoverEvent_frame (failMessages c t) t
  generalize failoverEvent (failMessages c t) t = e at h5 o5 ⊢
  exact ⟨h1.trans (h2.failOnly.trans (h3.trans (h4.clauseFrame.failOnly.trans (h5.clauseFrame.failOnly.trans (setTenant_failOnly e t _))))),
    o1.trans (o2.trans (o3.trans (o4.trans (o5.trans (otherTenants_setTenant e t _)))))⟩

/-! ## What it leaves of its tenant -/

/-- A tenant as its failover leaves it: no work, and the next epoch. -/
structure FailedTenant (x y : Tenant) : Prop where
  epoch : y.epoch = x.epoch + 1
  expected : y.expected = x.expected
  plan : y.plan = x.plan
  counters : y.counters = x.counters
  halted : y.halted = 0
  copied : y.copied = []
  waiting : ∀ p, (y.ring p).waiting = []

theorem emptyRings_waiting (x : Tenant) (p : Nat) : ((emptyRings x).ring p).waiting = [] := by
  unfold emptyRings Tenant.ring
  dsimp only
  rw [List.getD_eq_getElem?_getD, List.getElem?_map]
  cases x.rings[p]? with
  | none => rfl
  | some r => rfl

theorem TenantMail.failedTenant {x y z : Tenant} {now : Nat} (hy : TenantMail (failing x now) y) (hz : TenantMail (emptyRings y) z) :
    FailedTenant x { z with halted := 0 } := by
  have hwaiting := emptyRings_waiting y
  obtain ⟨_, _, _, _, _, _, _, _, _, _, _, _, hz⟩ := hz
  obtain ⟨_, _, _, _, _, _, _, _, _, _, _, _, hy⟩ := hy
  rw [hz]
  exact ⟨(congrArg Tenant.epoch hy :), (congrArg Tenant.expected hy :), (congrArg Tenant.plan hy :), (congrArg Tenant.counters hy :), rfl,
    (congrArg Tenant.copied hy :), hwaiting⟩

/-- None of a tenant's clauses is in flight once those in flight have been failed. -/
theorem foldl_failClause_gone (s : State) (t : Nat) : ∀ f ∈ ((tenantFlights s t).foldl failClause s).work.flights, f.tenant ≠ t := by
  intro f hf ht
  have hin : f ∈ tenantFlights s t := mem_tenantFlights.mpr ⟨(foldl_failClause_frame s (tenantFlights s t)).resetFrame.flights.subset hf, ht⟩
  have hgone := foldl_establishes failClause (fun s f => ∀ g ∈ s.work.flights, g.uid ≠ f.uid)
    (fun a b g hg => by
      unfold failClause at hg
      rw [endClause_flights] at hg
      exact of_decide_eq_true (List.mem_filter.mp hg).2)
    (fun a b c hc g hg => hc g (by
      unfold failClause at hg
      rw [endClause_flights] at hg
      exact (List.mem_filter.mp hg).1)) s hin
  exact hgone f hf rfl

theorem failClauses_facts (s : State) (t : Nat) : (∃ y, TenantMail (s.tenant t) y ∧ TenantMail (emptyRings y) ((failClauses s t).tenant t))
    ∧ ∀ f ∈ (failClauses s t).work.flights, f.tenant ≠ t := by
  have hgone := foldl_failClause_gone s t
  have hfirst := foldl_failClause_frame s (tenantFlights s t)
  rw [failClauses_eq]
  generalize (tenantFlights s t).foldl failClause s = a at hgone hfirst ⊢
  have hlast := foldl_failClause_frame (a.modTenant t emptyRings) (waitingFlights s t)
  generalize (waitingFlights s t).foldl failClause (a.modTenant t emptyRings) = b at hlast ⊢
  refine ⟨⟨a.tenant t, hfirst.tenants t, ?_⟩, fun f hf => hgone f (hlast.resetFrame.flights.subset hf)⟩
  have hmail := hlast.tenants t
  rwa [State.tenant_modTenant_same] at hmail

theorem failTenant_fails (s : State) (t : Nat) :
    FailedTenant (s.tenant t) ((failTenant s t).tenant t) ∧ ∀ f ∈ (failTenant s t).work.flights, f.tenant ≠ t := by
  have hstarted := failStarted_tenant s t
  have htail := (findTail_frame (failStarted s t) t).1.tenants t
  rw [failTenant_eq]
  generalize findTail (failStarted s t) t = b at htail ⊢
  obtain ⟨⟨y, hy, hrings⟩, hgone⟩ := failClauses_facts b t
  generalize failClauses b t = c at hrings hgone ⊢
  have hmessages := (failMessages_frame c t).1
  have hevent := (failoverEvent_frame (failMessages c t) t).1
  generalize failoverEvent (failMessages c t) t = e at hevent ⊢
  have hmail := hmessages.trans hevent
  rw [hstarted] at htail
  have hfailed := (htail.trans hy).failedTenant (hrings.trans (hmail.tenants t))
  refine ⟨?_, fun f hf => hgone f (hmail.clauseFrame.resetFrame.flights.subset hf)⟩
  unfold openRings
  rw [State.tenant_modTenant_same]
  exact hfailed

/-! ## A tenant without a notice ring -/

/-- From s to s' a tenant without a ring has stayed without one, and the memories, the ports and the TAPs have not changed. -/
structure Ringless (t : Nat) (s s' : State) : Prop where
  ring : (s'.tenant t).ringSet = false
  mem : s'.mem = s.mem
  ports : s'.ports = s.ports
  taps : s'.taps = s.taps

theorem Ringless.trans {a b c : State} {t : Nat} (hab : Ringless t a b) (hbc : Ringless t b c) : Ringless t a c :=
  ⟨hbc.ring, hbc.mem.trans hab.mem, hbc.ports.trans hab.ports, hbc.taps.trans hab.taps⟩

theorem ringless_refl {s : State} {t : Nat} (h : (s.tenant t).ringSet = false) : Ringless t s s := ⟨h, rfl, rfl, rfl⟩

theorem ringless_setTenant {s : State} {t : Nat} {x : Tenant} (h : x.ringSet = false) : Ringless t s (s.setTenant t x) := by
  refine ⟨?_, rfl, rfl, rfl⟩
  rw [State.tenant_setTenant_same]
  exact h

theorem ringless_postNotice {s : State} {t : Nat} (body : List Byte) (h : (s.tenant t).ringSet = false) : Ringless t s (postNotice s t body) := by
  have hroom : noticeRoom s t = false := by
    unfold noticeRoom
    simp [h]
  unfold postNotice
  dsimp only
  rw [hroom, if_neg (by simp)]
  split
  · exact ringless_setTenant h
  · exact ringless_setTenant h

theorem ringless_foldl {β : Type} (g : State → β → State) (t : Nat) (l : List β)
    (hg : ∀ s, ∀ b ∈ l, (s.tenant t).ringSet = false → Ringless t s (g s b)) {s : State} (h : (s.tenant t).ringSet = false) :
    Ringless t s (l.foldl g s) := by
  induction l generalizing s with
  | nil => exact ringless_refl h
  | cons b l ih =>
    have hfirst := hg s b List.mem_cons_self h
    exact hfirst.trans (ih (fun s c hc => hg s c (List.mem_cons_of_mem _ hc)) hfirst.ring)

theorem ringless_reply {s : State} {t : Nat} (seq type status reason index result cookie : Nat) (h : (s.tenant t).ringSet = false) :
    Ringless t s (reply s t seq type status reason index result cookie) := by
  have hposted := ringless_postNotice (replyNotice seq status type reason index result cookie) h
  exact hposted.trans (ringless_setTenant hposted.ring)

theorem ringless_finishClears {s : State} {t : Nat} (h : (s.tenant t).ringSet = false) : Ringless t s (finishClears s t) := by
  refine ringless_foldl _ t _ (fun a c _ ha => ?_) h
  split
  · exact ringless_refl ha
  · have hset : Ringless t a (a.setTenant t { a.tenant t with
        clears := (a.tenant t).clears.erase c, halted := (a.tenant t).halted &&& ~~~ (BitVec.ofNat 4 c.2.1) }) := ringless_setTenant ha
    exact hset.trans (ringless_reply _ _ _ _ _ _ _ hset.ring)

theorem ringless_endClause {s : State} {f : Flight} {t : Nat} (v : Verdict) (hf : f.tenant = t) (h : (s.tenant t).ringSet = false) :
    Ringless t s (endClause s f v) := by
  obtain ⟨cs, w, hgone⟩ := clauseGone_workOnly s f
  have hstart : Ringless t s (clauseGone s f) := by
    rw [hgone]
    exact ⟨h, rfl, rfl, rfl⟩
  subst hf
  unfold endClause
  dsimp only
  rw [show forgetClause (removeFlight s f.uid) f.tenant (mSeq f.words) = clauseGone s f from rfl]
  refine hstart.trans ?_
  have hposted : Ringless f.tenant (clauseGone s f) (if decide (v.status = 0) && cQuiet f.words then clauseGone s f
      else postNotice (clauseGone s f) f.tenant (clauseNotice f v)) := by
    split
    · exact ringless_refl hstart.ring
    · exact ringless_postNotice _ hstart.ring
  exact hposted.trans (ringless_finishClears hposted.ring)

theorem ringless_failTenant {s : State} {t : Nat} (h : (s.tenant t).ringSet = false) : Ringless t s (failTenant s t) := by
  have hstarted : Ringless t s (failStarted s t) :=
    (ringless_setTenant (x := { s.tenant t with epoch := (s.tenant t).epoch + 1, lastIncrement := some s.nowUs }) h).trans
      (ringless_setTenant (by unfold bumpEpoch; rw [State.tenant_modTenant_same]; exact h))
  have hclauses : ∀ (fs : List Flight) (a : State), (∀ f ∈ fs, f.tenant = t) → (a.tenant t).ringSet = false → Ringless t a (fs.foldl failClause a) :=
    fun fs a hfs ha => ringless_foldl failClause t fs (fun b f hf hb => ringless_endClause _ (hfs f hf) hb) ha
  rw [failTenant_eq]
  refine hstarted.trans ?_
  have hring := hstarted.ring
  generalize failStarted s t = a at hring ⊢
  have htail : findTail a t = a := by
    unfold findTail
    dsimp only
    rw [hring]
    rfl
  rw [htail, failClauses_eq]
  have hfirst := hclauses (tenantFlights a t) a (fun f hf => tenantFlights_tenant hf) hring
  have hwaiting : ∀ f ∈ waitingFlights a t, f.tenant = t := fun f => waitingFlights_tenant
  generalize waitingFlights a t = ws at hwaiting ⊢
  refine hfirst.trans ?_
  have hringB := hfirst.ring
  generalize (tenantFlights a t).foldl failClause a = b at hringB ⊢
  have hrings : Ringless t b (b.modTenant t emptyRings) := ringless_setTenant hringB
  have hlast := hclauses ws _ hwaiting hrings.ring
  refine hrings.trans (hlast.trans ?_)
  have hringC := hlast.ring
  generalize ws.foldl failClause (b.modTenant t emptyRings) = c at hringC ⊢
  have hmessages : Ringless t c (failMessages c t) := ringless_foldl _ t _ (fun a _ _ ha => ringless_reply _ _ _ _ _ _ _ ha) hringC
  refine hmessages.trans ?_
  have hringD := hmessages.ring
  generalize failMessages c t = d at hringD ⊢
  have hevent : failoverEvent d t = d := by
    unfold failoverEvent
    dsimp only
    rw [hringD]
    rfl
  rw [hevent]
  exact ringless_setTenant hringD

/-! ## Clusters (R390) -/

/-- A cluster on which nothing of a clause stands. -/
def idleCluster (c : Cluster) : Prop :=
  c.slots = [] ∧ c.held = none ∧ c.saved = [] ∧ c.owner = none ∧ c.run = none ∧ c.outbound = [] ∧ c.merging = [] ∧ c.landed = [] ∧ c.outHalf = []

/-- Every listed cluster is idle. -/
def IdleClusters (s : State) : Prop := ∀ e ∈ s.clusters, idleCluster e.2

theorem idleCluster_default : idleCluster {} := ⟨rfl, rfl, rfl, rfl, rfl, rfl, rfl, rfl, rfl⟩

theorem idleCluster_clusterReset (now : Nat) (c : Cluster) : idleCluster (clusterReset now c) := ⟨rfl, rfl, rfl, rfl, rfl, rfl, rfl, rfl, rfl⟩

/-- What holds of the default and of every entry of a table holds of what it gives. -/
theorem tget_of_forall {α : Type} {P : α → Prop} {d : α} (hd : P d) {m : Tab α} (h : ∀ e ∈ m, P e.2) (k : Nat) : P (tget d m k) := by
  induction m with
  | nil => exact hd
  | cons e m ih =>
    unfold tget
    split
    · exact h e List.mem_cons_self
    · exact ih (fun f hf => h f (List.mem_cons_of_mem _ hf))

theorem IdleClusters.cluster {s : State} (h : IdleClusters s) (k : Nat) : idleCluster (s.cluster k) := tget_of_forall idleCluster_default h k

/-- An entry of a table that is set is the new one, or one of another key. -/
theorem mem_of_mem_tset {α : Type} [DecidableEq α] {d v : α} {k : Nat} {m : Tab α} {e : Nat × α} (h : e ∈ tset d m k v) :
    e = (k, v) ∨ (e ∈ m ∧ e.1 ≠ k) := by
  have hold : e ∈ m.filter (fun e => e.1 ≠ k) → e ∈ m ∧ e.1 ≠ k := fun h => by simpa using h
  unfold tset at h
  split at h
  · exact .inr (hold h)
  · exact (mem_tins k v _ e h).imp id hold

/-- After every cluster's reset each listed one is idle. -/
theorem emptyClusters_idle (s : State) : IdleClusters (emptyClusters s) := by
  have hreset : ∀ (l : Tab Cluster) (a : State), (∀ e ∈ a.clusters, idleCluster e.2 ∨ ∃ c ∈ l, c.1 = e.1) →
      IdleClusters (l.foldl (fun s e => s.setCluster e.1 (clusterReset s.nowUs e.2)) a) := by
    intro l
    induction l with
    | nil => exact fun a ha e he => (ha e he).resolve_right (by simp)
    | cons c l ih =>
      intro a ha
      refine ih _ (fun e he => ?_)
      rcases mem_of_mem_tset he with rfl | ⟨hin, hkey⟩
      · exact .inl (idleCluster_clusterReset _ _)
      · refine (ha e hin).imp id (fun ⟨d, hd, hsame⟩ => ?_)
        rcases List.mem_cons.mp hd with rfl | hd
        · exact absurd hsame.symm hkey
        · exact ⟨d, hd, hsame⟩
  exact hreset s.clusters s (fun e he => .inr ⟨e, he, rfl⟩)

/-- On idle clusters there is nothing to release. -/
theorem releaseClusters_of_idle {s : State} (h : IdleClusters s) (uid : Nat) : releaseClusters s uid = s := by
  have hskip : ∀ l : Tab Cluster, (∀ e ∈ l, idleCluster e.2) → l.foldl (fun s e =>
      if e.2.slots.any (fun sl => sl.uid = uid) || e.2.owner = some uid || e.2.run.any (fun r => r.uid = uid) || e.2.saved.any (fun v => v.uid = uid)
          || e.2.outbound.any (fun v => v.uid = uid) || e.2.merging.any (fun v => v.uid = uid)
          || e.2.landed.any (fun v => v.uid = uid) || e.2.outHalf.any (fun v => v.uid = uid) then
        s.setCluster e.1 { clusterRelease uid e.2 with idleSince := s.nowUs }
      else s) s = s := by
    intro l hl
    induction l with
    | nil => rfl
    | cons e l ih =>
      obtain ⟨hslots, -, hsaved, howner, hrun, houtbound, hmerging, hlanded, hhalf⟩ := hl e List.mem_cons_self
      rw [List.foldl_cons, if_neg (by simp [hslots, hsaved, howner, hrun, houtbound, hmerging, hlanded, hhalf])]
      exact ih (fun f hf => hl f (List.mem_cons_of_mem _ hf))
  exact hskip s.clusters h

theorem removeFlight_clusters {s : State} (h : IdleClusters s) (uid : Nat) : (removeFlight s uid).clusters = s.clusters := by
  unfold removeFlight
  rw [releaseClusters_of_idle h]

theorem failClause_clusters {s : State} (h : IdleClusters s) (f : Flight) : (failClause s f).clusters = s.clusters := by
  have hmail : MailFrame (clauseGone s f) (failClause s f) := by
    unfold failClause endClause
    refine MailFrame.trans ?_ (finishClears_mailFrame _ _)
    split
    · exact .refl _
    · exact postNotice_mailFrame _ _ _
  obtain ⟨hm, ts, mr, ps, os, heq⟩ := hmail.rest
  rw [heq]
  exact removeFlight_clusters h f.uid

theorem foldl_clusters {β : Type} (g : State → β → State) (hg : ∀ s b, IdleClusters s → (g s b).clusters = s.clusters) (l : List β) {s : State}
    (h : IdleClusters s) : (l.foldl g s).clusters = s.clusters :=
  foldl_keeps (fun a => a.clusters = s.clusters) g (fun a b ha => (hg a b (fun e he => h e (ha ▸ he))).trans ha) l s rfl

theorem MailFrame.clusters {s s' : State} (h : MailFrame s s') : s'.clusters = s.clusters := by
  obtain ⟨hm, ts, mr, ps, os, heq⟩ := h.rest
  rw [heq]

theorem idleClusters_congr {s s' : State} (h : s'.clusters = s.clusters) (hidle : IdleClusters s) : IdleClusters s' := fun e he => hidle e (h ▸ he)

theorem findTail_clusters {s : State} (h : IdleClusters s) (t : Nat) : (findTail s t).clusters = s.clusters := by
  unfold findTail
  dsimp only
  split
  · generalize readRing s (s.tenant t) 4096 (s.tenant t).tail (s.tenant t).tailPhase = r
    generalize min 4096 ((s.tenant t).ringUsed + r.2.2.1) = used
    exact foldl_clusters (fun s (f : Flight) => removeFlight s f.uid) (fun a f ha => removeFlight_clusters ha f.uid) _
      (s := s.setTenant t { s.tenant t with tail := r.1, tailPhase := r.2.1, ringUsed := used }) h
  · rfl

theorem failClauses_clusters {s : State} (h : IdleClusters s) (t : Nat) : (failClauses s t).clusters = s.clusters := by
  have hfirst := foldl_clusters failClause (fun a f ha => failClause_clusters ha f) (tenantFlights s t) h
  rw [failClauses_eq]
  generalize (tenantFlights s t).foldl failClause s = a at hfirst ⊢
  exact (foldl_clusters failClause (fun a f ha => failClause_clusters ha f) (waitingFlights s t) (s := a.modTenant t emptyRings)
    (idleClusters_congr hfirst h)).trans hfirst

theorem failTenant_clusters {s : State} (h : IdleClusters s) (t : Nat) : (failTenant s t).clusters = s.clusters := by
  rw [failTenant_eq]
  have hstarted : IdleClusters (failStarted s t) := h
  have htail := findTail_clusters hstarted t
  generalize findTail (failStarted s t) t = b at htail ⊢
  have hclauses := failClauses_clusters (idleClusters_congr htail h) t
  generalize failClauses b t = c at hclauses ⊢
  have hmail := (failMessages_frame c t).1.trans (failoverEvent_frame (failMessages c t) t).1
  generalize failoverEvent (failMessages c t) t = e at hmail ⊢
  exact hmail.clusters.trans (hclauses.trans htail)

/-! ## The takeover before the tenants are failed (R390) -/

theorem dropStaging_frame (s : State) : ∃ fl c, ∃ sy : Sys, dropStaging s = { s with mem := { s.mem with flash := fl }, freeCtr := c, sys := sy }
    ∧ sy.primarySouth = s.sys.primarySouth ∧ sy.noStandby = s.sys.noStandby ∧ sy.standbyRung = s.sys.standbyRung ∧ sy.failovers = s.sys.failovers := by
  unfold dropStaging
  dsimp only
  split
  · obtain ⟨fl, c, b, h⟩ := abandonStore_storeOnly s (firmwareArea (otherCopy s))
    rw [h]
    exact ⟨fl, c, _, rfl, rfl, rfl, rfl, rfl⟩
  · exact ⟨s.mem.flash, s.freeCtr, _, rfl, rfl, rfl, rfl, rfl⟩

theorem dropFieldResets_frame (s : State) : ∃ fs, dropFieldResets s = { s with fields := fs } := by
  unfold dropFieldResets
  generalize List.range 70 = l
  refine foldl_keeps (fun a => ∃ fs, a = { s with fields := fs }) _ (fun a f h => ?_) l s ⟨s.fields, rfl⟩
  obtain ⟨fs, rfl⟩ := h
  exact ⟨_, rfl⟩

theorem emptyClusters_frame (s : State) : ∃ cs, emptyClusters s = { s with clusters := cs } := by
  unfold emptyClusters
  generalize s.clusters = l
  refine foldl_keeps (fun a => ∃ cs, a = { s with clusters := cs }) _ (fun a f h => ?_) l s ⟨s.clusters, rfl⟩
  obtain ⟨cs, rfl⟩ := h
  exact ⟨_, rfl⟩

/-- A tenant as the mirror holds it. -/
def mirrored (s : State) (t : Nat) : Durable := tget (tenantDef t).durable s.mirror.tenants t

/-- The state whose tenants are then taken from the mirror. -/
def mirrorOpened (s : State) : State :=
  { s with work := { s.work with sessions := s.mirror.sessions }, silicon := { s.silicon with live := s.mirror.live } }

theorem takeMirror_eq (s : State) :
    takeMirror s = (List.range 16).foldl (fun a t => a.modTenant t (takeDurable (mirrored s t))) (mirrorOpened s) := rfl

theorem takeMirror_frame (s : State) : ∃ ts mr, takeMirror s = { mirrorOpened s with tenants := ts, mirror := mr } := by
  rw [takeMirror_eq]
  generalize List.range 16 = l
  refine foldl_keeps (fun a => ∃ ts mr, a = { mirrorOpened s with tenants := ts, mirror := mr }) _ (fun a t h => ?_) l (mirrorOpened s)
    ⟨s.tenants, s.mirror, rfl⟩
  obtain ⟨ts, mr, rfl⟩ := h
  exact ⟨_, _, rfl⟩

theorem takeMirror_tenant (s : State) {t : Nat} (ht : t < 16) : (takeMirror s).tenant t = takeDurable (mirrored s t) (s.tenant t) := by
  rw [takeMirror_eq]
  refine foldl_once (g := fun (a : State) t => a.modTenant t (takeDurable (mirrored s t))) (R := fun a => a.tenant t = s.tenant t)
    (Q := fun a => a.tenant t = takeDurable (mirrored s t) (s.tenant t)) (fun a ha => ?_) (fun a u _ hu ha => ?_) (fun a u _ hu ha => ?_)
    List.nodup_range (List.mem_range.mpr ht) rfl
  · rw [State.tenant_modTenant_same, ha]
  · exact (a.tenant_setTenant_other u t _ (Ne.symm hu)).trans ha
  · exact (a.tenant_setTenant_other u t _ (Ne.symm hu)).trans ha

/-- The new primary with what the mirror gives it. -/
def takenOver (s : State) : State := takeMirror (emptyClusters (dropFieldResets (dropStaging (switchPrimary s))))

/-- What stands before the tenants are failed. -/
structure TakenOver (s b : State) : Prop where
  rest : ∃ fl c sy w si cs fs ts mr fa, b = { s with
    mem := { s.mem with flash := fl }, freeCtr := c, sys := sy, work := w, silicon := si, clusters := cs, fields := fs, tenants := ts, mirror := mr
    fabric := fa }
  primary : b.sys.primarySouth = !s.sys.primarySouth
  standby : b.sys.noStandby = true
  rung : b.sys.standbyRung = false
  failovers : b.sys.failovers = min 0xFF (s.sys.failovers + 1)
  sessions : b.work.sessions = s.mirror.sessions
  flights : b.work.flights = s.work.flights
  live : b.silicon.live = s.mirror.live
  idle : IdleClusters b
  tenants : ∀ t : Fin 16, b.tenant t = takeDurable (mirrored s t) (s.tenant t)

theorem takenOver_facts (s : State) : TakenOver s (takenOver s) := by
  unfold takenOver
  obtain ⟨fl, c, sy, hstaging, hprimary, hstandby, hrung, hfailovers⟩ := dropStaging_frame (switchPrimary s)
  obtain ⟨fs, hfields⟩ := dropFieldResets_frame (dropStaging (switchPrimary s))
  have hidle := emptyClusters_idle (dropFieldResets (dropStaging (switchPrimary s)))
  obtain ⟨cs, hclusters⟩ := emptyClusters_frame (dropFieldResets (dropStaging (switchPrimary s)))
  have hbefore : ∃ fa, emptyClusters (dropFieldResets (dropStaging (switchPrimary s))) = { s with
      mem := { s.mem with flash := fl }, freeCtr := c, sys := sy, clusters := cs, fields := fs, fabric := fa } := by
    rw [hclusters, hfields, hstaging]
    exact ⟨_, rfl⟩
  obtain ⟨fa, hbefore⟩ := hbefore
  generalize emptyClusters (dropFieldResets (dropStaging (switchPrimary s))) = a at hbefore hidle ⊢
  obtain ⟨ts, mr, hmirror⟩ := takeMirror_frame a
  have htenants : ∀ t : Fin 16, (takeMirror a).tenant t = takeDurable (mirrored s t) (s.tenant t) := by
    intro t
    rw [takeMirror_tenant a t.isLt, hbefore]
    rfl
  have hsame : takeMirror a = { s with
      mem := { s.mem with flash := fl }, freeCtr := c, sys := sy, work := { s.work with sessions := s.mirror.sessions }
      silicon := { s.silicon with live := s.mirror.live }, clusters := cs, fields := fs, tenants := ts, mirror := mr, fabric := fa } := by
    rw [hmirror, hbefore]
    rfl
  have hclustersA : (takeMirror a).clusters = a.clusters := by
    rw [hmirror]
    rfl
  have hidleB := idleClusters_congr hclustersA hidle
  generalize takeMirror a = b at hsame htenants hidleB ⊢
  subst hsame
  exact ⟨⟨_, _, _, _, _, _, _, _, _, _, rfl⟩, hprimary, hstandby, hrung, hfailovers, rfl, rfl, rfl, hidleB, htenants⟩

/-! ## A tenant with a ring and nothing to fail (R377, R391, R392) -/

theorem takeDurable_own (x : Tenant) : takeDurable x.durable x = x := rfl

/-- The ring ends at the tail where its next entry is not of this pass. -/
theorem readRing_stops {s : State} {x : Tenant} {e n : Nat} {ph : Bool} (h : bit (tget 0 s.mem.host (hostKey x.hostPort (x.noticeBase.toNat + 32 * e))).toNat 0 ≠ ph) :
    readRing s x (n + 1) e ph = (e, ph, 0, []) := by
  unfold readRing
  exact if_neg h

theorem findTail_of_current {s : State} {t : Nat} (hnone : tenantFlights s t = []) (hused : (s.tenant t).ringUsed ≤ 4096)
    (hring : ((s.tenant t).ringSet && (s.tenant t).bound && portWritable (s.port (s.tenant t).hostPort)) = true)
    (hphase : bit (tget 0 s.mem.host (tailKey s t)).toNat 0 ≠ (s.tenant t).tailPhase) : findTail s t = s.setTenant t (s.tenant t) := by
  have hread : readRing s (s.tenant t) 4096 (s.tenant t).tail (s.tenant t).tailPhase = ((s.tenant t).tail, (s.tenant t).tailPhase, 0, []) :=
    readRing_stops (n := 4095) hphase
  have hsame : min 4096 ((s.tenant t).ringUsed + 0) = (s.tenant t).ringUsed := Nat.min_eq_right hused
  unfold findTail
  dsimp only
  rw [if_pos hring, hread]
  dsimp only
  rw [hsame]
  have hgone : tenantFlights (s.setTenant t (s.tenant t)) t = [] := hnone
  generalize hx : s.tenant t = x at hgone ⊢
  rw [hgone]
  rfl

theorem tenantFlights_setTenant (s : State) (t u : Nat) (x : Tenant) : tenantFlights (s.setTenant t x) u = tenantFlights s u := rfl

/-- With no clause in flight and none waiting, only the rings start new sentences. -/
theorem failClauses_of_none {s : State} {t : Nat} (hnone : tenantFlights s t = []) (hwaiting : ∀ p, ((s.tenant t).ring p).waiting = []) :
    failClauses s t = s.modTenant t emptyRings := by
  have hempty : waitingFlights s t = [] := by
    unfold waitingFlights
    exact List.flatMap_eq_nil_iff.mpr (fun p _ => by rw [hwaiting p]; rfl)
  rw [failClauses_eq, hempty, hnone]
  rfl

theorem failing_noticeState (x : Tenant) (now : Nat) : noticeState (emptyRings (failing x now)) = noticeState x := rfl

/-- A tenant with nothing to fail has its FAILOVER event in the slot at TAIL. -/
theorem failTenant_notifies {s : State} {t : Nat} (hcan : CanNotify s t) (hnone : tenantFlights s t = []) (hunanswered : (s.tenant t).unanswered = [])
    (hwaiting : ∀ p, ((s.tenant t).ring p).waiting = []) (hphase : bit (tget 0 s.mem.host (tailKey s t)).toNat 0 ≠ (s.tenant t).tailPhase) :
    Notified s (failTenant s t) t (eventNotice 1 (s.tenant t).expected.toNat ((s.tenant t).epoch + 1).toNat) ∧ HostOnlySlot s (failTenant s t) t := by
  have hroom := hcan.1
  have hset : (s.tenant t).ringSet = true ∧ (s.tenant t).bound = true ∧ portWritable (s.port (s.tenant t).hostPort) = true
      ∧ (s.tenant t).ringUsed < 4096 := by
    unfold noticeRoom at hroom
    simpa [and_assoc] using hroom
  obtain ⟨hring, hbound, hport, hused⟩ := hset
  have hstarted : failStarted s t = s.setTenant t (failing (s.tenant t) s.nowUs) := by
    unfold failStarted bumpEpoch State.modTenant
    rw [State.setTenant_setTenant, State.tenant_setTenant_same]
    rfl
  have hown : (s.setTenant t (failing (s.tenant t) s.nowUs)).tenant t = failing (s.tenant t) s.nowUs := State.tenant_setTenant_same _ _ _
  have htail : findTail (failStarted s t) t = s.setTenant t (failing (s.tenant t) s.nowUs) := by
    rw [hstarted]
    refine (findTail_of_current (s := s.setTenant t (failing (s.tenant t) s.nowUs)) hnone ?_ ?_ ?_).trans ?_
    · rw [hown]
      exact hused.le
    · rw [hown]
      exact Bool.and_eq_true_iff.mpr ⟨Bool.and_eq_true_iff.mpr ⟨hring, hbound⟩, hport⟩
    · have hkey : tailKey (s.setTenant t (failing (s.tenant t) s.nowUs)) t = tailKey s t := by
        unfold tailKey
        rw [hown]
        rfl
      rw [hkey, hown]
      exact hphase
    · rw [hown, State.setTenant_setTenant]
  have hclauses : failClauses (s.setTenant t (failing (s.tenant t) s.nowUs)) t = s.setTenant t (emptyRings (failing (s.tenant t) s.nowUs)) := by
    refine (failClauses_of_none (s := s.setTenant t (failing (s.tenant t) s.nowUs)) hnone (fun p => ?_)).trans (State.modTenant_setTenant _ _ _ _)
    rw [hown]
    exact hwaiting p
  have hy := State.tenant_setTenant_same s t (emptyRings (failing (s.tenant t) s.nowUs))
  have hmessages : failMessages (s.setTenant t (emptyRings (failing (s.tenant t) s.nowUs))) t = s.setTenant t (emptyRings (failing (s.tenant t) s.nowUs)) := by
    unfold failMessages
    rw [hy]
    have hnil : (emptyRings (failing (s.tenant t) s.nowUs)).unanswered = [] := hunanswered
    rw [hnil]
    rfl
  have hevent : failoverEvent (s.setTenant t (emptyRings (failing (s.tenant t) s.nowUs))) t
      = (writeSlot s t (eventNotice 1 (s.tenant t).expected.toNat ((s.tenant t).epoch + 1).toNat)).setTenant t
        (tailMoved (emptyRings (failing (s.tenant t) s.nowUs))) := by
    unfold failoverEvent
    dsimp only
    rw [hy]
    exact (if_pos hring).trans (postNotice_of_canNotify _ hcan (failing_noticeState _ _))
  rw [failTenant_eq, htail, hclauses, hmessages, hevent]
  unfold openRings
  rw [State.modTenant_setTenant]
  have hlen : (eventNotice 1 (s.tenant t).expected.toNat ((s.tenant t).epoch + 1).toNat).length ≤ 32 := by
    unfold eventNotice
    simp [padTo, leBytes_length, zeros]
  exact ⟨notified_writeSlot hcan.2.2.2 hlen rfl rfl, hostOnlySlot_writeSlot hcan.2.2.2 hlen⟩

/-! ## The failover (R390 to R395) -/

/-- Every tenant's clauses and messages of the failed primary are failed. -/
def tenantsFailed (s : State) : State := (List.range 16).foldl failTenant s

theorem tenantsFailed_frame (s : State) : FailOnly s (tenantsFailed s) :=
  foldl_keeps (FailOnly s) failTenant (fun a t h => h.trans (failTenant_frame a t).1) _ s (ClauseFrame.refl s).failOnly

theorem tenantsFailed_clusters {s : State} (h : IdleClusters s) : (tenantsFailed s).clusters = s.clusters :=
  foldl_clusters failTenant (fun _ t ha => failTenant_clusters ha t) _ h

theorem tenantsFailed_fails (s : State) (t : Fin 16) :
    FailedTenant (s.tenant t) ((tenantsFailed s).tenant t) ∧ ∀ f ∈ (tenantsFailed s).work.flights, f.tenant ≠ t := by
  refine foldl_once (g := failTenant) (t := t.val) (R := fun a => a.tenant t = s.tenant t)
    (Q := fun a => FailedTenant (s.tenant t) (a.tenant t) ∧ ∀ f ∈ a.work.flights, f.tenant ≠ t) (fun a ha => ?_) (fun a u _ hu ha => ?_)
    (fun a u _ hu ha => ?_) List.nodup_range (List.mem_range.mpr t.isLt) rfl
  · have hfails := failTenant_fails a t
    rwa [ha] at hfails
  · exact ((failTenant_frame a u).2 t (Ne.symm hu)).trans ha
  · obtain ⟨hframe, hother⟩ := failTenant_frame a u
    refine ⟨?_, fun f hf => ha.2 f (hframe.flights.subset hf)⟩
    rw [hother t (Ne.symm hu)]
    exact ha.1

theorem tenantsFailed_notifies {s : State} {t : Fin 16} (hcan : CanNotify s t) (hnone : tenantFlights s t = []) (hunanswered : (s.tenant t).unanswered = [])
    (hwaiting : ∀ p, ((s.tenant t).ring p).waiting = []) (hphase : bit (tget 0 s.mem.host (tailKey s t)).toNat 0 ≠ (s.tenant t).tailPhase)
    (hothers : ∀ u : Fin 16, u ≠ t → (s.tenant u).ringSet = false) :
    Notified s (tenantsFailed s) t (eventNotice 1 (s.tenant t).expected.toNat ((s.tenant t).epoch + 1).toNat) ∧ HostOnlySlot s (tenantsFailed s) t := by
  have hringless : ∀ u, u < 16 → u ≠ t.val → (s.tenant u).ringSet = false := fun u hu hne => hothers ⟨u, hu⟩ (fun h => hne (congrArg Fin.val h))
  have hstill : ∀ (a : State) (u : Nat), (∀ v, v < 16 → v ≠ t.val → (a.tenant v).ringSet = false) → u < 16 → u ≠ t.val →
      ∀ v, v < 16 → v ≠ t.val → ((failTenant a u).tenant v).ringSet = false := by
    intro a u ha hu hne v hv hvt
    by_cases hvu : v = u
    · rw [hvu]
      exact (ringless_failTenant (ha u hu hne)).ring
    · rw [(failTenant_frame a u).2 v hvu]
      exact ha v hv hvt
  have hresult := foldl_once (g := failTenant) (t := t.val)
    (R := fun a => (a.tenant t = s.tenant t ∧ a.mem = s.mem ∧ a.ports = s.ports ∧ a.taps = s.taps ∧ a.work.flights.Sublist s.work.flights)
      ∧ ∀ u, u < 16 → u ≠ t.val → (a.tenant u).ringSet = false)
    (Q := fun a => (Notified s a t (eventNotice 1 (s.tenant t).expected.toNat ((s.tenant t).epoch + 1).toNat) ∧ HostOnlySlot s a t)
      ∧ ∀ u, u < 16 → u ≠ t.val → (a.tenant u).ringSet = false)
    ?_ ?_ ?_ List.nodup_range (List.mem_range.mpr t.isLt) ⟨⟨rfl, rfl, rfl, rfl, List.Sublist.refl _⟩, hringless⟩
  · exact hresult.1
  · rintro a ⟨⟨htenant, hmem, hports, htaps, hflights⟩, hrings⟩
    have hkey : tailKey a t = tailKey s t := by
      unfold tailKey
      rw [htenant]
    have hgone : tenantFlights a t = [] := by
      refine List.eq_nil_iff_forall_not_mem.mpr (fun f hf => ?_)
      obtain ⟨hin, hown⟩ := mem_tenantFlights.mp hf
      exact List.not_mem_nil (hnone ▸ mem_tenantFlights.mpr ⟨hflights.subset hin, hown⟩)
    have hnotifies := failTenant_notifies (canNotify_congr (by rw [htenant]) hports htaps hcan) hgone (by rw [htenant]; exact hunanswered)
      (by rw [htenant]; exact hwaiting) (by rw [hmem, hkey, htenant]; exact hphase)
    rw [htenant] at hnotifies
    refine ⟨⟨notified_congr (by rw [htenant]) hnotifies.1, hostOnlySlot_congr (by rw [htenant]) (by rw [hmem]) hnotifies.2⟩, fun u hu hne => ?_⟩
    rw [(failTenant_frame a t).2 u hne]
    exact hrings u hu hne
  · rintro a u hu hne ⟨⟨htenant, hmem, hports, htaps, hflights⟩, hrings⟩
    have hu16 := List.mem_range.mp hu
    have hless := ringless_failTenant (hrings u hu16 hne)
    obtain ⟨hframe, hother⟩ := failTenant_frame a u
    exact ⟨⟨(hother t (Ne.symm hne)).trans htenant, hless.mem.trans hmem, hless.ports.trans hports, hless.taps.trans htaps,
      hframe.flights.trans hflights⟩, hstill a u hrings hu16 hne⟩
  · rintro a u hu hne ⟨⟨hnotified, hslot⟩, hrings⟩
    have hu16 := List.mem_range.mp hu
    have hless := ringless_failTenant (hrings u hu16 hne)
    have htenant := (failTenant_frame a u).2 t (Ne.symm hne)
    refine ⟨⟨?_, ?_⟩, hstill a u hrings hu16 hne⟩
    · unfold Notified at hnotified ⊢
      rw [hless.mem, htenant]
      exact hnotified
    · unfold HostOnlySlot at hslot ⊢
      rw [hless.mem]
      exact hslot

theorem exec_failover_eq {s : State} (hruns : firmwareRuns s = true) (hstandby : s.sys.noStandby = false) (hcrc : s.mirror.crcOk = true) :
    exec .failover s = .next (emitPrimary (raiseAlert (tenantsFailed (takenOver (ringStandby s))) (alFailover ||| alNoStandby))) := by
  have hgoes : (firmwareRuns s && !s.sys.noStandby) = true := by rw [hruns, hstandby]; rfl
  have hgood : (switchPrimary (ringStandby s)).mirror.crcOk = true := by
    unfold ringStandby
    rw [hstandby]
    exact hcrc
  exact (if_pos hgoes).trans (if_pos hgood)

/-- FAILOVER's flags in the global page. -/
theorem raiseAlert_failover (s : State) :
    alertBit (raiseAlert s (alFailover ||| alNoStandby)) 0 = true ∧ alertBit (raiseAlert s (alFailover ||| alNoStandby)) 1 = true := by
  obtain ⟨ps, os, h⟩ := raiseAlert_frame s (alFailover ||| alNoStandby)
  unfold alertBit
  rw [h]
  simp [alFailover, alNoStandby]

/-- What the alert and PRIMARY leave alone. -/
theorem announced_frame (s : State) : ∃ al fc fa ps os, emitPrimary (raiseAlert s (alFailover ||| alNoStandby))
    = { s with sys := { s.sys with alertStatus := al }, freeCtr := fc, fabric := fa, ports := ps, out := os } := by
  have hsent := emitPrimary_emits (raiseAlert s (alFailover ||| alNoStandby))
  generalize emitPrimary (raiseAlert s (alFailover ||| alNoStandby)) = r at hsent ⊢
  obtain ⟨ps, os, hraised⟩ := raiseAlert_frame s (alFailover ||| alNoStandby)
  unfold Emits at hsent
  rw [hraised] at hsent
  rw [hsent]
  exact ⟨_, _, _, _, _, rfl⟩

theorem announced_alerts (s : State) : alertBit (emitPrimary (raiseAlert s (alFailover ||| alNoStandby))) 0 = true
    ∧ alertBit (emitPrimary (raiseAlert s (alFailover ||| alNoStandby))) 1 = true := by
  have hkept := (emitPrimary_emits (raiseAlert s (alFailover ||| alNoStandby))).routesOnly.toFabricKept
  obtain ⟨hfailover, hstandby⟩ := raiseAlert_failover s
  exact ⟨(hkept.alertBit 0).trans hfailover, (hkept.alertBit 1).trans hstandby⟩

section
variable {s : State} (hruns : firmwareRuns s = true) (hstandby : s.sys.noStandby = false) (hcrc : s.mirror.crcOk = true)
include hruns hstandby hcrc

theorem failover_takes :
    ∃ s', exec .failover s = .next s' ∧ s'.sys.primarySouth = !s.sys.primarySouth ∧ s'.sys.noStandby = true ∧ s'.sys.standbyRung = false
      ∧ s'.sys.failovers = min 0xFF (s.sys.failovers + 1) ∧ alertBit s' 0 = true ∧ alertBit s' 1 = true
      ∧ s'.work.sessions = s.mirror.sessions ∧ s'.silicon.live = s.mirror.live
      ∧ (∀ t : Fin 16, (s'.tenant t).epoch = (s.tenant t).epoch + 1 ∧ tenantFlights s' t = [] ∧ (s'.tenant t).expected = (mirrored s t).expected
          ∧ (s'.tenant t).plan = (mirrored s t).plan ∧ (s'.tenant t).counters = (mirrored s t).counters
          ∧ (s'.tenant t).halted = 0 ∧ (s'.tenant t).copied = [] ∧ ∀ p, ((s'.tenant t).ring p).waiting = [])
      ∧ (∀ k, (s'.cluster k).slots = [] ∧ (s'.cluster k).held = none ∧ (s'.cluster k).saved = [] ∧ (s'.cluster k).owner = none)
      ∧ (∀ t : Fin 16, CanNotify s t → mirrored s t = (s.tenant t).durable → (∀ u : Fin 16, u ≠ t → (mirrored s u).ringSet = false) →
          tenantFlights s t = [] → (s.tenant t).unanswered = [] → (∀ p, ((s.tenant t).ring p).waiting = []) →
          bit (tget 0 s.mem.host (tailKey s t)).toNat 0 ≠ (s.tenant t).tailPhase →
          Notified s s' t (eventNotice 1 (s.tenant t).expected.toNat ((s.tenant t).epoch + 1).toNat) ∧ HostOnlySlot s s' t) := by
  have hrung : ringStandby s = { s with sys := { s.sys with standbyRung := true } } := if_neg (by simp [hstandby])
  have hexec := exec_failover_eq hruns hstandby hcrc
  have htaken := takenOver_facts (ringStandby s)
  rw [hrung] at hexec htaken
  generalize takenOver { s with sys := { s.sys with standbyRung := true } } = b at hexec htaken
  obtain ⟨⟨fl, c, sy, w, si, cs, fs, ts, mr, fa, hb⟩, hprimary, hnone, hquiet, hfailovers, hsessions, hflights, hlive, hidle, htenants⟩ := htaken
  have hframe := tenantsFailed_frame b
  have hclusters := tenantsFailed_clusters hidle
  have hfails := tenantsFailed_fails b
  have hnotifies := fun t : Fin 16 => @tenantsFailed_notifies b t
  generalize tenantsFailed b = d at hexec hframe hclusters hfails hnotifies
  have hidleD := idleClusters_congr hclusters hidle
  obtain ⟨halert0, halert1⟩ := announced_alerts d
  obtain ⟨al, fc, fab, ps, os, hannounced⟩ := announced_frame d
  refine ⟨_, hexec, ?_⟩
  generalize emitPrimary (raiseAlert d (alFailover ||| alNoStandby)) = e at halert0 halert1 hannounced ⊢
  obtain ⟨⟨hh, htsD, hmrD, hpsD, hosD, hwD, hcsD, hd⟩, -, hsessionsD⟩ := hframe
  have hsysD : d.sys = b.sys := by rw [hd]
  have hliveD : d.silicon = b.silicon := by rw [hd]
  have hsysE : ∀ g : Sys → Prop, (∀ x y, g x → g { x with alertStatus := y }) → g b.sys → g e.sys := by
    intro g hg h
    rw [hannounced]
    exact hg _ _ (by rw [hsysD]; exact h)
  have htenant : ∀ u, e.tenant u = d.tenant u := fun u => by rw [hannounced]; rfl
  have hwork : e.work = d.work := by rw [hannounced]
  refine ⟨hsysE (fun x => x.primarySouth = _) (fun _ _ h => h) hprimary, hsysE (fun x => x.noStandby = true) (fun _ _ h => h) hnone,
    hsysE (fun x => x.standbyRung = false) (fun _ _ h => h) hquiet, hsysE (fun x => x.failovers = _) (fun _ _ h => h) hfailovers, halert0, halert1,
    ?_, ?_, fun t => ?_, fun k => ?_, fun t hcan hown hothers hnoflight hunanswered hwaiting hphase => ?_⟩
  · rw [hwork]
    exact hsessionsD.trans hsessions
  · have hsilicon : e.silicon = d.silicon := by rw [hannounced]
    rw [hsilicon, hliveD]
    exact hlive
  · obtain ⟨hfailed, hgone⟩ := hfails t
    rw [htenants t] at hfailed
    rw [htenant]
    refine ⟨hfailed.epoch, List.eq_nil_iff_forall_not_mem.mpr (fun f hf => ?_), hfailed.expected, hfailed.plan, hfailed.counters, hfailed.halted,
      hfailed.copied, hfailed.waiting⟩
    obtain ⟨hin, hmine⟩ := mem_tenantFlights.mp hf
    rw [hwork] at hin
    exact hgone f hin hmine
  · have hcluster : e.cluster k = d.cluster k := by rw [hannounced]; rfl
    rw [hcluster]
    obtain ⟨hslots, hheld, hsaved, howner, -⟩ := hidleD.cluster k
    exact ⟨hslots, hheld, hsaved, howner⟩
  · have htenantB : ∀ u : Fin 16, b.tenant u = takeDurable (mirrored s u) (s.tenant u) := htenants
    have hsame : b.tenant t = s.tenant t := by
      rw [htenantB t, hown]
      rfl
    have hhost : b.mem.host = s.mem.host := by rw [hb]
    have hkey : tailKey b t = tailKey s t := by
      unfold tailKey
      rw [hsame]
    have hgone : tenantFlights b t = [] := by
      unfold tenantFlights at hnoflight ⊢
      rw [hflights]
      exact hnoflight
    obtain ⟨hnotified, hslot⟩ := hnotifies t (canNotify_congr (s := s) (by rw [hsame]) (by rw [hb]) (by rw [hb]) hcan) hgone
      (by rw [hsame]; exact hunanswered) (by rw [hsame]; exact hwaiting) (by rw [hhost, hkey, hsame]; exact hphase)
      (fun u hu => by rw [htenantB u]; exact hothers u hu)
    rw [hsame] at hnotified
    have hhostE : e.mem = d.mem := by rw [hannounced]
    refine ⟨notified_congr (u := b) (by rw [hsame]) ?_, hostOnlySlot_congr (u := b) (by rw [hsame]) hhost ?_⟩
    · unfold Notified at hnotified ⊢
      rw [hhostE, htenant]
      exact hnotified
    · unfold HostOnlySlot at hslot ⊢
      rw [hhostE]
      exact hslot

end

/-- Settles O52: what the mirror holds is taken, then every tenant is failed by itself; a tenant without a ring writes nothing. -/
theorem failoverToStandby : Obligations.FailoverToStandby := by
  intro s hruns
  refine ⟨if_pos hruns, fun hlate => heartbeatWatchdog_late hruns hlate, fun hearly => if_neg ?_, fun _ hstandby hcrc => failover_takes hruns hstandby hcrc⟩
  rw [decide_eq_false (Nat.not_le.mpr hearly)]
  simp

end Sys2Proof.Machine

/-!
Frames of a link (R452 to R459): a bad one is answered with a NAK, a good one acknowledged and taken apart, and a skip frame goes out in time.
-/

namespace Sys2Proof.Machine

/-! ## A frame that goes out -/

theorem emitFrame_of_free {s : State} {l : Nat} (bs : List Byte) (h : rimTaken s (l / 6) = false) : emitFrame s l bs = s.emit (.frame l bs) :=
  if_neg (by simp [h])

/-- The link after a header with these slots has gone out. -/
def frameSentLink (x : Link) (vcs : List Nat) (payload : List Byte) : Link :=
  { headerSent x with
    fseq := (x.fseq + 1) % 4096, replay := x.replay ++ [(x.fseq, vcs ++ List.replicate (25 - vcs.length) 3, payload)], sinceSkip := x.sinceSkip + 1 }

/-- The frame that goes out next on a link. -/
def nextFrame (x : Link) (vcs : List Nat) (payload : List Byte) : Frame :=
  linkFrame x x.fseq false (vcs ++ List.replicate (25 - vcs.length) 3) payload

theorem sendFrame_of_free {s : State} {l : Nat} (vcs : List Nat) (payload : List Byte) (h : rimTaken s (l / 6) = false) :
    sendFrame s l vcs payload
      = (s.setLink l (frameSentLink (s.link l) vcs payload)).emit (.frame l (frameMessage (nextFrame (s.link l) vcs payload))) := by
  refine Eq.trans (b := emitFrame (s.setLink l (frameSentLink (s.link l) vcs payload)) l (frameMessage (nextFrame (s.link l) vcs payload))) rfl ?_
  exact emitFrame_of_free _ h

/-- Two successive settings of a link are the last one. -/
theorem State.setLink_setLink (s : State) (l : Nat) (x y : Link) : (s.setLink l x).setLink l y = s.setLink l y := by
  unfold State.setLink
  dsimp only
  rw [tset_tset]

/-! ## Skip frames (R457) -/

theorem skipFrame_sends {l : Fin 24} {s : State} (hpower : poweredUp s = true) (hup : linkUp (s.link l) = true) (hfree : rimTaken s (l / 6) = false)
    (hroom : (s.link l).replay.length < 512) :
    (4096 ≤ (s.link l).sinceSkip →
      ∃ s' fr, exec (.skipFrame l) s = .next s' ∧ s'.out = .frame l (frameMessage fr) :: s.out ∧ fr.fseq = (s.link l).fseq
        ∧ fr.vcs = List.replicate 25 3 ∧ (s'.link l).sinceSkip = 0 ∧ (s'.link l).fseq = ((s.link l).fseq + 1) % 4096 ∧ OtherLinks s s' l)
    ∧ ((s.link l).sinceSkip < 4096 → exec (.skipFrame l) s = .next s) := by
  refine ⟨fun hdue => ?_, fun hearly => if_neg (by simp [Nat.not_le.mpr hearly])⟩
  have hgoes : (poweredUp s && linkUp (s.link l) && decide (4096 ≤ (s.link l).sinceSkip) && decide ((s.link l).replay.length < 512)) = true := by
    rw [hpower, hup, decide_eq_true hdue, decide_eq_true hroom]
    rfl
  have hsent := sendFrame_of_free (l := l) [] [] hfree
  have hlink : (sendFrame s l [] []).link l = frameSentLink (s.link l) [] [] := by
    rw [hsent]
    exact State.link_setLink_same _ _ _
  refine ⟨_, nextFrame (s.link l) [] [], if_pos hgoes, ?_, rfl, rfl, ?_, ?_, fun i hi => ?_⟩
  · rw [hsent]
    rfl
  · rw [State.link_setLink_same]
  · rw [State.link_setLink_same, hlink]
    rfl
  · rw [State.link_setLink_other _ _ _ _ hi, hsent]
    exact State.link_setLink_other _ _ _ _ hi

/-! ## A frame that is not good (R454) -/

theorem exec_frameReceive_eq {l : Fin 24} {s : State} (fec : Option Nat) (bs : List Byte) (hpower : poweredUp s = true)
    (hup : linkUp (s.link l) = true) (hfree : rimTaken s (l / 6) = false) :
    exec (.frameReceive l fec bs) s = if frameGood (countFec (s.link l) fec) fec (bs.take 416) = true then
        .next (goodFrame (s.setLink l (countFec (s.link l) fec)) l (frameOf (bs.take 416)))
      else .next (answerFrame (s.setLink l { countFec (s.link l) fec with nakOwed := true }) l (s.link l).fseq true) := by
  refine if_pos ?_
  rw [hpower, hup, hfree]
  rfl

theorem frameGood_countFec (x : Link) (fec : Option Nat) (msg : List Byte) : frameGood (countFec x fec) fec msg = frameGood x fec msg := rfl

theorem frameReceive_nak {l : Fin 24} {fec : Option Nat} {bs : List Byte} {s : State} (hpower : poweredUp s = true) (hup : linkUp (s.link l) = true)
    (hfree : rimTaken s (l / 6) = false) (hbad : frameGood (s.link l) fec (bs.take 416) = false) (hroom : (s.link l).replay.length < 512) :
    ∃ s' fr, exec (.frameReceive l fec bs) s = .next s' ∧ s'.out = .frame l (frameMessage fr) :: s.out ∧ fr.nak = true ∧ fr.ack = (s.link l).lastGood
      ∧ fr.fseq = (s.link l).fseq ∧ (s'.link l).lastGood = (s.link l).lastGood ∧ (s'.link l).streams = (s.link l).streams
      ∧ s'.fabric.arrived = s.fabric.arrived ∧ s'.mem = s.mem ∧ OtherLinks s s' l := by
  have hlink := State.link_setLink_same s l { countFec (s.link l) fec with nakOwed := true }
  have hanswer : answerFrame (s.setLink l { countFec (s.link l) fec with nakOwed := true }) l (s.link l).fseq true
      = sendFrame (s.setLink l { countFec (s.link l) fec with nakOwed := true }) l [] [] := by
    have hup' : linkUp { countFec (s.link l) fec with nakOwed := true } = true := hup
    have hroom' : ({ countFec (s.link l) fec with nakOwed := true } : Link).replay.length < 512 := hroom
    unfold answerFrame
    rw [hlink]
    exact if_pos (by rw [hup', decide_eq_true hroom']; simp [countFec])
  have hsent := sendFrame_of_free (s := s.setLink l { countFec (s.link l) fec with nakOwed := true }) (l := l) [] [] hfree
  rw [hlink] at hsent
  refine ⟨_, nextFrame { countFec (s.link l) fec with nakOwed := true } [] [],
    (exec_frameReceive_eq fec bs hpower hup hfree).trans (if_neg ?_), ?_⟩
  · rw [frameGood_countFec, hbad]
    exact Bool.false_ne_true
  · rw [hanswer, hsent]
    have hthere := State.link_setLink_same (s.setLink l { countFec (s.link l) fec with nakOwed := true }) l
      (frameSentLink { countFec (s.link l) fec with nakOwed := true } [] [])
    refine ⟨rfl, rfl, rfl, rfl, (congrArg Link.lastGood hthere).trans rfl, (congrArg Link.streams hthere).trans rfl, rfl, rfl, fun i hi => ?_⟩
    exact (State.link_setLink_other _ _ _ _ hi).trans (State.link_setLink_other _ _ _ _ hi)

/-! ## What a good frame leaves in the streams (R458, R459) -/

/-- The slots of channel v in a frame. -/
def slotsOf (f : Frame) (v : Nat) : List Byte :=
  (List.range 25).flatMap (fun i => if f.vcs.getD i 3 = v then (f.payload.drop (16 * i)).take 16 else [])

/-- The link after a good frame: its header is taken and its slots stand in the streams. -/
def frameTaken (x : Link) (f : Frame) : Link := takeSlots (takeHeader x f) f

theorem frameTaken_streams {x : Link} (f : Frame) (h : x.streams = [[], [], []]) : (frameTaken x f).streams = [slotsOf f 0, slotsOf f 1, slotsOf f 2] := by
  refine Eq.trans (b := (List.range 3).map (fun v => x.streams.getD v [] ++ slotsOf f v)) rfl ?_
  rw [h]
  rfl

theorem slotsOf_of_other {f : Frame} {v : Nat} (h : ∀ i, i < 25 → f.vcs.getD i 3 ≠ v) : slotsOf f v = [] :=
  List.flatMap_eq_nil_iff.mpr (fun i hi => if_neg (h i (List.mem_range.mp hi)))

/-- A frame without slots leaves the streams. -/
theorem slotsOf_idle {f : Frame} (h : f.vcs = List.replicate 25 3) {v : Nat} (hv : v < 3) : slotsOf f v = [] := by
  refine slotsOf_of_other (fun i hi => ?_)
  rw [h, List.getD_eq_getElem?_getD, List.getElem?_replicate, if_pos hi]
  exact fun h3 => absurd (show (3 : Nat) = v from h3) (by omega)

theorem frameTaken_streams_idle {x : Link} {f : Frame} (h : x.streams = [[], [], []]) (hidle : f.vcs = List.replicate 25 3) :
    (frameTaken x f).streams = [[], [], []] := by
  rw [frameTaken_streams f h, slotsOf_idle hidle (by decide), slotsOf_idle hidle (by decide), slotsOf_idle hidle (by decide)]

/-- The slots at the head of a payload follow each other. -/
theorem flatMap_slices (bs : List Byte) (n m : Nat) :
    (List.range m).flatMap (fun i => if i < n then (bs.drop (16 * i)).take 16 else []) = bs.take (16 * min m n) := by
  induction m with
  | zero => simp
  | succ m ih =>
    rw [List.range_succ, List.flatMap_append, ih, List.flatMap_singleton]
    by_cases hm : m < n
    · rw [if_pos hm, Nat.min_eq_left hm.le, Nat.min_eq_left (Nat.succ_le_of_lt hm), Nat.mul_succ, List.take_add]
    · rw [if_neg hm, List.append_nil, Nat.min_eq_right (by omega), Nat.min_eq_right (by omega)]

section
variable {f : Frame} {n v : Nat} (hvcs : f.vcs = List.replicate n v ++ List.replicate (25 - n) 3) (hn : n ≤ 25) (hv : v < 3)
include hvcs hn

theorem vcs_getD {i : Nat} (hi : i < 25) : f.vcs.getD i 3 = if i < n then v else 3 := by
  rw [hvcs, List.getD_eq_getElem?_getD, List.getElem?_append, List.length_replicate]
  split
  · rw [List.getElem?_replicate, if_pos ‹_›]
    rfl
  · rw [List.getElem?_replicate, if_pos (by omega)]
    rfl

theorem slotsOf_packet_other {w : Nat} (hw : w < 3) (hne : w ≠ v) : slotsOf f w = [] := by
  refine slotsOf_of_other (fun i hi => ?_)
  rw [vcs_getD hvcs hn hi]
  split
  · exact Ne.symm hne
  · omega

include hv

theorem slotsOf_packet : slotsOf f v = f.payload.take (16 * n) := by
  have hslices := flatMap_slices f.payload n 25
  rw [Nat.min_eq_right hn] at hslices
  rw [← hslices]
  refine List.flatMap_congr (fun i hi => ?_)
  rw [vcs_getD hvcs hn (List.mem_range.mp hi)]
  by_cases hin : i < n
  · rw [if_pos hin, if_pos hin, if_pos rfl]
  · rw [if_neg hin, if_neg hin, if_neg (by omega)]

end

/-! ## The streams are taken apart (R458, R460) -/

theorem modAt_id {α : Type} (xs : List α) (i : Nat) (f : α → α) (h : ∀ x, xs[i]? = some x → f x = x) : modAt xs i f = xs := by
  unfold modAt
  refine List.ext_getElem (by simp) (fun j h1 h2 => ?_)
  rw [List.getElem_mapIdx]
  split
  · subst_vars
    exact h _ (List.getElem?_eq_getElem h2)
  · rfl

/-- A stream without a byte gives no packet. -/
theorem drainStream_of_empty (s : State) {l v : Nat} {y : Link} (h : y.streams.getD v [] = []) : drainStream (s.setLink l y) l v = s.setLink l y := by
  have hstreams : modAt y.streams v (fun _ => []) = y.streams := modAt_id _ _ _ (fun x hx => by
    rw [List.getD_eq_getElem?_getD, hx] at h
    exact h.symm)
  have howed : modAt y.creditsOwed v (· + 0) = y.creditsOwed := modAt_id _ _ _ (fun _ _ => rfl)
  unfold drainStream
  rw [State.link_setLink_same]
  dsimp only
  rw [h]
  refine Eq.trans (b := (s.setLink l y).setLink l { y with
    streams := modAt y.streams v (fun _ => []), creditsOwed := modAt y.creditsOwed v (· + 0) }) rfl ?_
  rw [hstreams, howed, State.setLink_setLink]

theorem drainStreams_of_empty (s : State) (l : Nat) {y : Link} (h : y.streams = [[], [], []]) : drainStreams (s.setLink l y) l = s.setLink l y := by
  unfold drainStreams
  rw [drainStream_of_empty s (by rw [h]; rfl), drainStream_of_empty s (by rw [h]; rfl), drainStream_of_empty s (by rw [h]; rfl)]

/-- A link without a waiting packet sends none. -/
theorem pumpLink_of_none (s : State) (l n : Nat) {y : Link} (h : y.txq = []) : pumpLink (s.setLink l y) l n = s.setLink l y := by
  have hnext : nextPacket y = none := by
    unfold nextPacket
    simp [h, firstRanked]
  cases n with
  | zero => rfl
  | succ n =>
    unfold pumpLink
    dsimp only
    rw [State.link_setLink_same, hnext]

theorem pumpAll_of_none (s : State) (l : Nat) {y : Link} (h : y.txq = []) : pumpAll (s.setLink l y) l = s.setLink l y := pumpLink_of_none s l _ h

theorem answerFrame_of_not_owed (s : State) (l n : Nat) : answerFrame s l n false = s := by
  unfold answerFrame
  rfl

theorem vcs_idle {f : Frame} (h : f.vcs = List.replicate 25 3) : (f.vcs.any (fun v => decide (v < 3))) = false := by
  rw [h]
  rfl

/-- What follows the header of a good frame without slots changes nothing more. -/
theorem goodFrame_rest (s : State) (l n : Nat) {y : Link} (hstreams : y.streams = [[], [], []]) (hempty : y.txq = []) :
    answerFrame (pumpAll (drainStreams (s.setLink l y) l) l) l n false = s.setLink l y := by
  rw [answerFrame_of_not_owed, drainStreams_of_empty s l hstreams, pumpAll_of_none s l hempty]

/-- A good frame: its header and slots are taken, a NAK is served, and the streams are taken apart. -/
theorem goodFrame_eq (s : State) (l : Nat) (x : Link) (f : Frame) : goodFrame (s.setLink l x) l f
    = answerFrame (pumpAll (drainStreams (if f.nak = true then takeNak (s.setLink l (frameTaken x f)) l else s.setLink l (frameTaken x f)) l) l) l
        x.fseq (f.vcs.any (fun v => decide (v < 3))) := by
  unfold goodFrame
  dsimp only
  rw [State.link_setLink_same, State.setLink_setLink]
  rfl

/-! ## A stream of one whole packet (R458, R461) -/

/-- A stream that holds one whole packet and no more gives that packet. -/
theorem takePackets_of_one {bs : List Byte} {n : Nat} (hn : 1 ≤ n) (hlen : bs.length = 16 * n) (hwhole : streamPacketBytes bs = 16 * n) :
    takePackets (bs.length / 16) bs = ([bs], []) := by
  have hfirst : firstPacket bs = some (bs, []) := by
    unfold firstPacket
    rw [if_neg (by omega), hwhole, ← hlen, List.take_length, List.drop_length]
  have hrest : ∀ m, takePackets m ([] : List Byte) = ([], []) := by
    intro m
    cases m with
    | zero => rfl
    | succ m => rfl
  have hcount : bs.length / 16 = (n - 1) + 1 := by omega
  rw [hcount]
  unfold takePackets
  rw [hfirst]
  dsimp only
  rw [hrest]

/-- A packet for this wafer stays with it. -/
theorem deliverPacket_of_own {s : State} {bs : List Byte} (l : Nat) (hencoded : packetReserved bs = false)
    (horient : (packetOf bs).orient = s.fabric.orient) (hdst : (packetOf bs).dstWafer.toNat = s.sys.waferNumber) :
    deliverPacket s l bs = setFabric s (fun x => { x with arrived := x.arrived ++ [packetOf bs] }) := by
  unfold deliverPacket
  dsimp only
  rw [hencoded, if_neg Bool.false_ne_true, if_neg (fun h => h horient), if_pos hdst]

/-- The link whose stream v has been taken apart. -/
def drainedLink (y : Link) (v slots : Nat) : Link :=
  { y with streams := modAt y.streams v (fun _ => []), creditsOwed := modAt y.creditsOwed v (· + slots) }

/-- The stream of one whole packet for this wafer: the packet stays with it. -/
theorem drainStream_of_one (s : State) {l v n : Nat} {y : Link} {bs : List Byte} (hbs : y.streams.getD v [] = bs) (hn : 1 ≤ n)
    (hlen : bs.length = 16 * n) (hwhole : streamPacketBytes bs = 16 * n) (hencoded : packetReserved bs = false)
    (horient : (packetOf bs).orient = s.fabric.orient) (hdst : (packetOf bs).dstWafer.toNat = s.sys.waferNumber) :
    drainStream (s.setLink l y) l v
      = (setFabric s (fun x => { x with arrived := x.arrived ++ [packetOf bs] })).setLink l (drainedLink y v ((bs.length - 0) / 16)) := by
  unfold drainStream
  rw [State.link_setLink_same]
  dsimp only
  rw [hbs, takePackets_of_one hn hlen hwhole, State.setLink_setLink]
  dsimp only
  rw [List.foldl_cons, List.foldl_nil]
  exact deliverPacket_of_own (s := s.setLink l (drainedLink y v ((bs.length - 0) / 16))) l hencoded horient hdst

/-- Where only channel v held bytes, no channel holds any after it has been taken apart. -/
theorem drainedLink_getD {y : Link} {v slots : Nat} (hlength : y.streams.length = 3) (hothers : ∀ w, w < 3 → w ≠ v → y.streams.getD w [] = [])
    {w : Nat} (hw : w < 3) : (drainedLink y v slots).streams.getD w [] = [] := by
  have hw' : w < y.streams.length := by omega
  unfold drainedLink modAt
  dsimp only
  rw [List.getD_eq_getElem?_getD, List.getElem?_mapIdx, List.getElem?_eq_getElem hw']
  dsimp only [Option.map, Option.getD]
  by_cases hwv : w = v
  · exact if_pos hwv
  · have hother := hothers w hw hwv
    rw [List.getD_eq_getElem?_getD, List.getElem?_eq_getElem hw'] at hother
    rw [if_neg hwv]
    exact hother

/-- What the streams hold while the channels are taken apart: only channel v holds bytes. -/
theorem drainStreams_of_one (s : State) {l v n : Nat} {y : Link} {bs : List Byte} (hv : v < 3) (hlength : y.streams.length = 3)
    (hbs : y.streams.getD v [] = bs) (hothers : ∀ w, w < 3 → w ≠ v → y.streams.getD w [] = []) (hn : 1 ≤ n) (hlen : bs.length = 16 * n)
    (hwhole : streamPacketBytes bs = 16 * n) (hencoded : packetReserved bs = false) (horient : (packetOf bs).orient = s.fabric.orient)
    (hdst : (packetOf bs).dstWafer.toNat = s.sys.waferNumber) :
    drainStreams (s.setLink l y) l
      = (setFabric s (fun x => { x with arrived := x.arrived ++ [packetOf bs] })).setLink l (drainedLink y v ((bs.length - 0) / 16)) := by
  have hone := drainStream_of_one s (l := l) hbs hn hlen hwhole hencoded horient hdst
  have hafter := fun w (hw : w < 3) => drainedLink_getD (slots := (bs.length - 0) / 16) hlength hothers hw
  have hbefore : ∀ w, w < 3 → w ≠ v → drainStream (s.setLink l y) l w = s.setLink l y := fun w hw hne => drainStream_of_empty s (hothers w hw hne)
  have hdone := fun w (hw : w < 3) => drainStream_of_empty (setFabric s (fun x => { x with arrived := x.arrived ++ [packetOf bs] })) (l := l) (hafter w hw)
  unfold drainStreams
  have hcases : v = 0 ∨ v = 1 ∨ v = 2 := by omega
  rcases hcases with rfl | rfl | rfl
  · rw [hbefore 2 (by decide) (by decide), hbefore 1 (by decide) (by decide), hone]
  · rw [hbefore 2 (by decide) (by decide), hone, hdone 0 (by decide)]
  · rw [hone, hdone 1 (by decide), hdone 0 (by decide)]

theorem drainedLink_streams {y : Link} {v : Nat} (slots : Nat) (hlength : y.streams.length = 3)
    (hothers : ∀ w, w < 3 → w ≠ v → y.streams.getD w [] = []) : (drainedLink y v slots).streams = [[], [], []] := by
  have hempty := fun w (hw : w < 3) => drainedLink_getD (slots := slots) hlength hothers hw
  have hlen : (drainedLink y v slots).streams.length = 3 := by
    unfold drainedLink modAt
    dsimp only
    rw [List.length_mapIdx]
    exact hlength
  generalize (drainedLink y v slots).streams = xs at hempty hlen
  obtain ⟨a, b, c, rfl⟩ := List.length_eq_three.mp hlen
  have h0 : a = [] := hempty 0 (by decide)
  have h1 : b = [] := hempty 1 (by decide)
  have h2 : c = [] := hempty 2 (by decide)
  rw [h0, h1, h2]

/-- A header that answers a frame leaves what has arrived, the streams and the last good FSEQ. -/
theorem answerFrame_keeps (s : State) (l n : Nat) (owed : Bool) (hfree : rimTaken s (l / 6) = false) :
    (answerFrame s l n owed).fabric.arrived = s.fabric.arrived ∧ ((answerFrame s l n owed).link l).lastGood = (s.link l).lastGood
      ∧ ((answerFrame s l n owed).link l).streams = (s.link l).streams ∧ (answerFrame s l n owed).mem = s.mem
      ∧ (answerFrame s l n owed).tenants = s.tenants := by
  unfold answerFrame
  dsimp only
  split
  · rw [sendFrame_of_free _ _ hfree]
    have hlink : ((s.setLink l (frameSentLink (s.link l) [] [])).emit (.frame l (frameMessage (nextFrame (s.link l) [] [])))).link l
        = frameSentLink (s.link l) [] [] := State.link_setLink_same _ _ _
    exact ⟨rfl, (congrArg Link.lastGood hlink).trans rfl, (congrArg Link.streams hlink).trans rfl, rfl, rfl⟩
  · exact ⟨rfl, rfl, rfl, rfl, rfl⟩

/-- The one frame of a replay buffer is sent again. -/
theorem resendAll_of_one {s : State} {l : Nat} {e : Nat × List Nat × List Byte} (h : (s.link l).replay = [e]) : resendAll s l
    = emitFrame (s.setLink l { headerSent (s.link l) with replayed := satInc 0xFFFFFFFF (s.link l).replayed }) l
        (frameMessage (linkFrame (s.link l) e.1 true e.2.1 e.2.2)) := by
  unfold resendAll
  rw [h, List.foldl_cons, List.foldl_nil]

/-! ## A good frame without slots (R455, R459) -/

theorem frameTaken_txq (x : Link) (f : Frame) : (frameTaken x f).txq = x.txq := rfl

theorem frameTaken_replay (x : Link) (f : Frame) : (frameTaken x f).replay = x.replay.filter (fun e => !ackCovers f.ack e.1) := rfl

theorem frameTaken_credits {x : Link} {f : Frame} {v : Nat} (hv : v < 3) (hf : f.creditVc = v) (hlen : v < x.credits.length) :
    (frameTaken x f).credits.getD v 0 = x.credits.getD v 0 + f.credits := by
  have hcredits : (frameTaken x f).credits = modAt x.credits v (· + f.credits) := by
    refine Eq.trans (b := if f.creditVc < 3 then modAt x.credits f.creditVc (· + f.credits) else x.credits) rfl ?_
    rw [hf]
    exact if_pos hv
  rw [hcredits, List.getD_eq_getElem?_getD, List.getD_eq_getElem?_getD, modAt, List.getElem?_mapIdx, List.getElem?_eq_getElem hlen]
  dsimp only [Option.map, Option.getD]
  exact if_pos rfl

section
variable {l : Fin 24} {fec : Option Nat} {bs : List Byte} {s : State} (hpower : poweredUp s = true) (hup : linkUp (s.link l) = true)
  (hfree : rimTaken s (l / 6) = false) (hgood : frameGood (s.link l) fec (bs.take 416) = true)
include hpower hup hfree hgood

theorem exec_frameReceive_good :
    exec (.frameReceive l fec bs) s = .next (goodFrame (s.setLink l (countFec (s.link l) fec)) l (frameOf (bs.take 416))) :=
  (exec_frameReceive_eq fec bs hpower hup hfree).trans (if_pos hgood)

section
variable (hidle : (frameOf (bs.take 416)).vcs = List.replicate 25 3) (hempty : (s.link l).txq = []) (hstreams : (s.link l).streams = [[], [], []])
include hidle hempty hstreams

theorem frameReceive_acknowledges (hnak : (frameOf (bs.take 416)).nak = false) :
    ∃ s', exec (.frameReceive l fec bs) s = .next s' ∧ (s'.link l).lastGood = (frameOf (bs.take 416)).fseq
      ∧ (s'.link l).replay = (s.link l).replay.filter (fun e => !ackCovers (frameOf (bs.take 416)).ack e.1)
      ∧ (∀ v, v < 3 → (frameOf (bs.take 416)).creditVc = v → v < (s.link l).credits.length →
          (s'.link l).credits.getD v 0 = (s.link l).credits.getD v 0 + (frameOf (bs.take 416)).credits)
      ∧ (s'.link l).fecCorrected = min 0xFFFFFFFF ((s.link l).fecCorrected + fec.getD 0) ∧ s'.out = s.out ∧ OtherLinks s s' l ∧ s'.mem = s.mem := by
  have hrest : goodFrame (s.setLink l (countFec (s.link l) fec)) l (frameOf (bs.take 416))
      = s.setLink l (frameTaken (countFec (s.link l) fec) (frameOf (bs.take 416))) := by
    rw [goodFrame_eq, hnak, vcs_idle hidle]
    exact goodFrame_rest s l _ (frameTaken_streams_idle hstreams hidle) hempty
  refine ⟨_, exec_frameReceive_good hpower hup hfree hgood, ?_⟩
  rw [hrest, State.link_setLink_same]
  exact ⟨rfl, rfl, fun v hv hf hlen => frameTaken_credits hv hf hlen, rfl, rfl, fun i hi => State.link_setLink_other _ _ _ _ hi, rfl⟩

theorem frameReceive_resends {e : Nat × List Nat × List Byte} (hnak : (frameOf (bs.take 416)).nak = true)
    (hkept : (s.link l).replay.filter (fun e => !ackCovers (frameOf (bs.take 416)).ack e.1) = [e])
    (hlen : ((s.link l).replay.filter (fun e => !ackCovers (frameOf (bs.take 416)).ack e.1)).length = (s.link l).replay.length)
    (hfew : (s.link l).nakCount + 1 < 16) :
    ∃ s' fr, exec (.frameReceive l fec bs) s = .next s' ∧ s'.out = .frame l (frameMessage fr) :: s.out ∧ fr.fseq = e.1 ∧ fr.replayed = true
      ∧ fr.vcs = e.2.1 ∧ fr.payload = e.2.2 ∧ fr.ack = (frameOf (bs.take 416)).fseq ∧ (s'.link l).nakCount = (s.link l).nakCount + 1
      ∧ (s'.link l).replay = (s.link l).replay.filter (fun e => !ackCovers (frameOf (bs.take 416)).ack e.1) := by
  have hstill := frameTaken_streams_idle (x := countFec (s.link l) fec) hstreams hidle
  have hcount : (frameTaken (countFec (s.link l) fec) (frameOf (bs.take 416))).nakCount = (s.link l).nakCount :=
    if_neg (by rw [show (countFec (s.link l) fec).replay = (s.link l).replay from rfl, hlen]; omega)
  have hreplay : (frameTaken (countFec (s.link l) fec) (frameOf (bs.take 416))).replay = [e] := hkept
  have hlast : (frameTaken (countFec (s.link l) fec) (frameOf (bs.take 416))).lastGood = (frameOf (bs.take 416)).fseq := rfl
  have hnone : (frameTaken (countFec (s.link l) fec) (frameOf (bs.take 416))).txq = [] := hempty
  refine ⟨_, linkFrame (frameTaken (countFec (s.link l) fec) (frameOf (bs.take 416))) e.1 true e.2.1 e.2.2,
    exec_frameReceive_good hpower hup hfree hgood, ?_⟩
  rw [goodFrame_eq, if_pos hnak, vcs_idle hidle]
  generalize frameTaken (countFec (s.link l) fec) (frameOf (bs.take 416)) = y at hstill hcount hreplay hlast hnone ⊢
  have hsent : takeNak (s.setLink l y) l = (s.emit (.frame l (frameMessage (linkFrame y e.1 true e.2.1 e.2.2)))).setLink l
      { headerSent { y with nakCount := y.nakCount + 1 } with replayed := satInc 0xFFFFFFFF y.replayed } := by
    unfold takeNak
    rw [State.link_setLink_same, if_neg (by omega), State.setLink_setLink]
    rw [resendAll_of_one (by rw [State.link_setLink_same]; exact hreplay), State.link_setLink_same, State.setLink_setLink]
    exact emitFrame_of_free _ hfree
  rw [hsent, goodFrame_rest _ l _ (y := { headerSent { y with nakCount := y.nakCount + 1 } with replayed := satInc 0xFFFFFFFF y.replayed }) hstill hnone,
    State.link_setLink_same]
  exact ⟨rfl, rfl, rfl, rfl, rfl, hlast, congrArg (· + 1) hcount, hreplay.trans hkept.symm⟩

theorem frameReceive_retrains (hnak : (frameOf (bs.take 416)).nak = true)
    (hlen : ((s.link l).replay.filter (fun e => !ackCovers (frameOf (bs.take 416)).ack e.1)).length = (s.link l).replay.length)
    (hmany : 16 ≤ (s.link l).nakCount + 1) :
    ∃ s', exec (.frameReceive l fec bs) s = .next s' ∧ (s'.link l).status = 4
      ∧ (s'.link l).replay = (s.link l).replay.filter (fun e => !ackCovers (frameOf (bs.take 416)).ack e.1) ∧ s'.out = s.out := by
  have hstill := frameTaken_streams_idle (x := countFec (s.link l) fec) hstreams hidle
  have hcount : (frameTaken (countFec (s.link l) fec) (frameOf (bs.take 416))).nakCount = (s.link l).nakCount :=
    if_neg (by rw [show (countFec (s.link l) fec).replay = (s.link l).replay from rfl, hlen]; omega)
  have hreplay := frameTaken_replay (countFec (s.link l) fec) (frameOf (bs.take 416))
  have hnone : (frameTaken (countFec (s.link l) fec) (frameOf (bs.take 416))).txq = [] := hempty
  refine ⟨_, exec_frameReceive_good hpower hup hfree hgood, ?_⟩
  rw [goodFrame_eq, if_pos hnak, vcs_idle hidle]
  generalize frameTaken (countFec (s.link l) fec) (frameOf (bs.take 416)) = y at hstill hcount hreplay hnone ⊢
  have hfalls : takeNak (s.setLink l y) l = s.setLink l { y with status := 4, nakCount := 0 } := by
    unfold takeNak
    rw [State.link_setLink_same, if_pos (by omega)]
    unfold goRetrain
    rw [State.link_setLink_same, State.setLink_setLink]
    rw [rerouteAll_of_none (by rw [State.link_setLink_same]; exact hnone), State.link_setLink_same, State.setLink_setLink]
  rw [hfalls, goodFrame_rest _ l _ (y := { y with status := 4, nakCount := 0 }) hstill hnone, State.link_setLink_same]
  exact ⟨rfl, hreplay, rfl⟩

end

theorem frameReceive_delivers {n v : Nat} (hnak : (frameOf (bs.take 416)).nak = false) (hempty : (s.link l).txq = [])
    (hstreams : (s.link l).streams = [[], [], []]) (hn : 1 ≤ n) (hn25 : n ≤ 25) (hv : v < 3)
    (hvcs : (frameOf (bs.take 416)).vcs = List.replicate n v ++ List.replicate (25 - n) 3)
    (hlen : ((frameOf (bs.take 416)).payload.take (16 * n)).length = 16 * n)
    (hwhole : streamPacketBytes ((frameOf (bs.take 416)).payload.take (16 * n)) = 16 * n)
    (hencoded : packetReserved ((frameOf (bs.take 416)).payload.take (16 * n)) = false)
    (horient : (packetOf ((frameOf (bs.take 416)).payload.take (16 * n))).orient = s.fabric.orient)
    (hdst : (packetOf ((frameOf (bs.take 416)).payload.take (16 * n))).dstWafer.toNat = s.sys.waferNumber) :
    ∃ s', exec (.frameReceive l fec bs) s = .next s'
      ∧ s'.fabric.arrived = s.fabric.arrived ++ [packetOf ((frameOf (bs.take 416)).payload.take (16 * n))]
      ∧ (s'.link l).lastGood = (frameOf (bs.take 416)).fseq ∧ (s'.link l).streams = [[], [], []] ∧ s'.mem = s.mem ∧ s'.tenants = s.tenants := by
  refine ⟨_, exec_frameReceive_good hpower hup hfree hgood, ?_⟩
  have htaken := frameTaken_streams (x := countFec (s.link l) fec) (frameOf (bs.take 416)) hstreams
  have hnone : (frameTaken (countFec (s.link l) fec) (frameOf (bs.take 416))).txq = [] := hempty
  have hlast : (frameTaken (countFec (s.link l) fec) (frameOf (bs.take 416))).lastGood = (frameOf (bs.take 416)).fseq := rfl
  rw [goodFrame_eq, hnak, if_neg Bool.false_ne_true]
  generalize (frameOf (bs.take 416)).vcs.any (fun v => decide (v < 3)) = owed
  have hslots := slotsOf_packet hvcs hn25 hv
  have hslots' := fun w (hw : w < 3) (hne : w ≠ v) => slotsOf_packet_other hvcs hn25 hw hne
  generalize frameTaken (countFec (s.link l) fec) (frameOf (bs.take 416)) = y at htaken hnone hlast ⊢
  generalize (frameOf (bs.take 416)).payload.take (16 * n) = pkt at hlen hwhole hencoded horient hdst hslots ⊢
  have hlength : y.streams.length = 3 := by rw [htaken]; rfl
  have hget : ∀ w, w < 3 → y.streams.getD w [] = slotsOf (frameOf (bs.take 416)) w := by
    intro w hw
    rw [htaken]
    have hcases : w = 0 ∨ w = 1 ∨ w = 2 := by omega
    rcases hcases with rfl | rfl | rfl <;> rfl
  have hothers : ∀ w, w < 3 → w ≠ v → y.streams.getD w [] = [] := fun w hw hne => (hget w hw).trans (hslots' w hw hne)
  have hdrained := drainStreams_of_one s (l := l) hv hlength ((hget v hv).trans hslots) hothers hn hlen hwhole hencoded horient hdst
  have hrest := drainedLink_streams ((pkt.length - 0) / 16) hlength hothers
  rw [hdrained]
  have hpumped := pumpAll_of_none (setFabric s (fun x => { x with arrived := x.arrived ++ [packetOf pkt] })) l
    (y := drainedLink y v ((pkt.length - 0) / 16)) hnone
  rw [hpumped]
  obtain ⟨harrived, hgoodSeq, hkept, hmem, htenants⟩ := answerFrame_keeps
    ((setFabric s (fun x => { x with arrived := x.arrived ++ [packetOf pkt] })).setLink l (drainedLink y v ((pkt.length - 0) / 16))) l
    (countFec (s.link l) fec).fseq owed hfree
  rw [State.link_setLink_same] at hgoodSeq hkept
  exact ⟨harrived, hgoodSeq.trans hlast, hkept.trans hrest, hmem, htenants⟩

end

/-- Settles O48: a good frame's header, slots and NAK are taken in turn; streams and queues that are empty leave the rest alone. -/
theorem framesReceivedAndReplayed : Obligations.FramesReceivedAndReplayed := by
  intro l fec bs s hpower hup hfree
  refine ⟨fun hbad hroom => frameReceive_nak hpower hup hfree hbad hroom, fun hgood hidle hempty hstreams => ⟨?_, ?_, ?_⟩,
    fun n v hgood hnak hempty hstreams hn hn25 hv hvcs hlen hwhole hencoded horient hdst =>
      frameReceive_delivers hpower hup hfree hgood hnak hempty hstreams hn hn25 hv hvcs hlen hwhole hencoded horient hdst,
    fun hroom => skipFrame_sends hpower hup hfree hroom⟩
  · exact fun hnak => frameReceive_acknowledges hpower hup hfree hgood hidle hempty hstreams hnak
  · exact fun e hnak hkept hlen hfew => frameReceive_resends hpower hup hfree hgood hidle hempty hstreams hnak hkept hlen hfew
  · exact fun hnak hlen hmany => frameReceive_retrains hpower hup hfree hgood hidle hempty hstreams hnak hlen hmany

end Sys2Proof.Machine

/-!
A member whose clause stops (R411): with no output waiting for its group, the stop is noted, the member no longer waits, and no memory and no tenant
changes.
-/

namespace Sys2Proof.Machine

/-- From s to s' only clusters, and flights with their members, have changed. -/
def MembersOnly (s s' : State) : Prop := ∃ cs fl, s' = { s with clusters := cs, work := { s.work with flights := fl } }

theorem MembersOnly.refl (s : State) : MembersOnly s s := ⟨s.clusters, s.work.flights, rfl⟩

theorem MembersOnly.trans {a b c : State} (hab : MembersOnly a b) (hbc : MembersOnly b c) : MembersOnly a c := by
  obtain ⟨cs, fl, rfl⟩ := hab
  obtain ⟨cs', fl', rfl⟩ := hbc
  exact ⟨cs', fl', rfl⟩

theorem modFlight_membersOnly (s : State) (uid : Nat) (g : Flight → Flight) : MembersOnly s (modFlight s uid g) := ⟨s.clusters, _, rfl⟩

theorem modCluster_membersOnly (s : State) (k : Nat) (g : Cluster → Cluster) : MembersOnly s (s.modCluster k g) := ⟨_, s.work.flights, rfl⟩

/-! ## Dropping a member -/

/-- The cluster that has dropped a clause. -/
def droppedCluster (uid : Nat) (c : Cluster) : Cluster :=
  { clusterRelease uid c with
    outHalf := c.outHalf
    slots := c.slots.map (fun sl => if sl.uid = uid then { sl with finished := true } else sl)
    owner := if decide (c.owner = some uid) then none else c.owner, unit := if decide (c.owner = some uid) then {} else c.unit }

theorem flushMember_of_none_forming {s : State} {k : Nat} (uid : Nat) (h : (s.cluster k).forming = []) : flushMember s k uid = s := by
  unfold flushMember
  split
  · rfl
  · next j hj =>
    split
    · unfold flushForming
      dsimp only
      rw [(jobOf_parts hj).2, h]
      rfl
    · rfl

theorem dropMember_of_none_forming {s : State} {k : Nat} (uid : Nat) (h : (s.cluster k).forming = []) :
    dropMember s k uid = modFlight (s.modCluster k (droppedCluster uid)) uid (fun f => { f with waiting := f.waiting.erase k }) := by
  unfold dropMember
  rw [flushMember_of_none_forming uid h]
  rfl

/-! ## A member that stops its clause -/

/-- The flight that a verdict has stopped and for which member k no longer waits. -/
def stoppedFlight (f : Flight) (k : Nat) (v : Verdict) : Flight := { f with stop := some v, started := true, waiting := f.waiting.erase k }

/-- A clause that ran is stopped by its member's drop. -/
theorem dropMember_stopClause {s t : State} {k uid : Nat} {f : Flight} {v : Verdict} (hf : flightOf s uid = some f) (hs : f.stop = none)
    (ht : t.work.flights = (stopClause s uid v).work.flights) (hforming : (t.cluster k).forming = []) :
    flightOf (dropMember t k uid) uid = some (stoppedFlight f k v) ∧ MembersOnly t (dropMember t k uid) := by
  have huid : f.uid = uid := flightOf_uid hf
  have hstopped : flightOf t uid = some { f with stop := some v, started := true } := by
    rw [flightOf_congr ht]
    unfold stopClause
    rw [flightOf_modFlight s uid uid _ (by intro f; split <;> rfl), hf]
    simp [huid, hs]
  rw [dropMember_of_none_forming uid hforming]
  refine ⟨?_, (modCluster_membersOnly t k _).trans (modFlight_membersOnly _ uid _)⟩
  have hsame : flightOf (t.modCluster k (droppedCluster uid)) uid = flightOf t uid := rfl
  rw [flightOf_modFlight _ uid uid _ (by intro f; rfl), hsame, hstopped]
  exact congrArg some (if_pos huid)

/-- A trap or a fault of a member that has no output waiting for its group. -/
theorem trapMember_of_none_forming {s : State} {k uid : Nat} {f : Flight} (v : Verdict) (hf : flightOf s uid = some f) (hs : f.stop = none)
    (hforming : (s.cluster k).forming = []) :
    flightOf (trapMember s k uid v) uid = some (stoppedFlight f k v) ∧ MembersOnly s (trapMember s k uid v) := by
  obtain ⟨hflight, honly⟩ := dropMember_stopClause (t := stopClause s uid v) hf hs rfl hforming
  exact ⟨hflight, (modFlight_membersOnly s uid _).trans honly⟩

theorem discardTile_membersOnly (s : State) (k uid l2 : Nat) : MembersOnly s (discardTile s k uid l2) := modCluster_membersOnly s k _

theorem discardTile_forming {s : State} {k : Nat} (uid l2 : Nat) (h : (s.cluster k).forming = []) : ((discardTile s k uid l2).cluster k).forming = [] := by
  unfold discardTile
  rw [State.cluster_modCluster_same]
  dsimp only
  rw [h]
  split <;> rfl

theorem discardTile_flights (s : State) (k uid l2 : Nat) : (discardTile s k uid l2).work.flights = s.work.flights := rfl

theorem faultMember_of_none_forming {s : State} {k uid : Nat} {f : Flight} (v : Verdict) (hf : flightOf s uid = some f) (hs : f.stop = none)
    (hforming : (s.cluster k).forming = []) :
    flightOf (faultMember s k uid v) uid = some (stoppedFlight f k v) ∧ MembersOnly s (faultMember s k uid v) := by
  have hstop : MembersOnly s (stopClause s uid v) := modFlight_membersOnly s uid _
  have hfirst := discardTile_membersOnly (stopClause s uid v) k uid v.l2Tile
  have hformingA := discardTile_forming uid v.l2Tile (s := stopClause s uid v) hforming
  have hflightsA : (discardTile (stopClause s uid v) k uid v.l2Tile).work.flights = (stopClause s uid v).work.flights := rfl
  unfold faultMember
  dsimp only
  generalize discardTile (stopClause s uid v) k uid v.l2Tile = a at hfirst hformingA hflightsA ⊢
  split
  · next l2 _ =>
    obtain ⟨hflight, honly⟩ := dropMember_stopClause (t := discardTile a k uid l2) hf hs hflightsA (discardTile_forming uid l2 hformingA)
    exact ⟨hflight, hstop.trans (hfirst.trans ((discardTile_membersOnly a k uid l2).trans honly))⟩
  · obtain ⟨hflight, honly⟩ := dropMember_stopClause (t := a) hf hs hflightsA hformingA
    exact ⟨hflight, hstop.trans (hfirst.trans honly)⟩

end Sys2Proof.Machine

/-!
The answers to this wafer's requests (R436, R440, R441, R463), and the peer inbox (R383 to R385).
-/

namespace Sys2Proof.Machine

theorem onPacket_of_forThis {s : State} {kind : Nat} {p : Packet} (f : State → State) (h : forThis s kind p = true) :
    onPacket s kind p f = .next (f (takeUp s p)) := if_pos h

theorem recordOf_takeUp (s : State) (p : Packet) : recordOf (takeUp s p) p = recordOf s p := rfl

/-! ## Answers (R436, R463) -/

section
variable {p : Packet} {o : Outstanding} {s : State} (hrecord : recordOf s p = some o)
include hrecord

theorem readData_lands (hkind : forThis s 2 p = true) (hread : o.isWrite = false) (hlen : p.data.length = 64 * o.len) :
    ∃ s', exec (.readData p) s = .next s' ∧ s'.work.outstanding = s.work.outstanding.erase o
      ∧ s'.work.landed = s.work.landed ++ [(o.uid, o.cluster, o.addr)] ∧ readBytes 0 s'.work.fetched o.addr (64 * o.len) = p.data
      ∧ s'.work.flights = s.work.flights ∧ s'.mem = s.mem ∧ s'.tenants = s.tenants ∧ s'.clusters = s.clusters := by
  have hexec : exec (.readData p) s = .next (landGranule (dropOutstanding (takeUp s p) o) o (p.data.take (64 * o.len))) := by
    refine Eq.trans (b := execReadData p s) rfl ((onPacket_of_forThis _ hkind).trans (congrArg Host.Outcome.next ?_))
    rw [recordOf_takeUp, hrecord]
    exact if_neg (by simp [hread])
  refine ⟨_, hexec, rfl, rfl, ?_, rfl, rfl, rfl, rfl⟩
  have htake : p.data.take (64 * o.len) = p.data := List.take_of_length_le hlen.le
  rw [htake, ← hlen]
  exact readBytes_writeBytes _ _ _ _

theorem writeAck_frees (hkind : forThis s 3 p = true) (hwrite : o.isWrite = true) :
    ∃ s', exec (.writeAck p) s = .next s' ∧ s'.work.outstanding = s.work.outstanding.erase o ∧ s'.work.flights = s.work.flights
      ∧ s'.work.landed = s.work.landed ∧ s'.mem = s.mem ∧ s'.clusters = s.clusters := by
  have hexec : exec (.writeAck p) s = .next (dropOutstanding (takeUp s p) o) := by
    refine Eq.trans (b := execWriteAck p s) rfl ((onPacket_of_forThis _ hkind).trans (congrArg Host.Outcome.next ?_))
    rw [recordOf_takeUp, hrecord]
    exact if_pos hwrite
  exact ⟨_, hexec, rfl, rfl, rfl, rfl, rfl⟩

theorem nack_stops {f : Flight} (hkind : forThis s 4 p = true) (hf : flightOf s o.uid = some f) (hstop : f.stop = none)
    (hforming : (s.cluster o.cluster).forming = []) :
    ∃ s' h, exec (.nack p) s = .next s' ∧ s'.work.outstanding = s.work.outstanding.erase o ∧ flightOf s' o.uid = some h
      ∧ h.stop = some (nackVerdict p.code.toNat) ∧ h.waiting = f.waiting.erase o.cluster ∧ s'.mem = s.mem ∧ s'.tenants = s.tenants := by
  have hexec : exec (.nack p) s = .next (faultMember (dropOutstanding (takeUp s p) o) o.cluster o.uid (nackVerdict p.code.toNat)) := by
    refine Eq.trans (b := execNack p s) rfl ((onPacket_of_forThis _ hkind).trans (congrArg Host.Outcome.next ?_))
    rw [recordOf_takeUp, hrecord]
  obtain ⟨hflight, cs, fl, honly⟩ := faultMember_of_none_forming (s := dropOutstanding (takeUp s p) o) (nackVerdict p.code.toNat) hf hstop hforming
  refine ⟨_, _, hexec, ?_, hflight, rfl, rfl, ?_, ?_⟩
  all_goals
    rw [honly]
    rfl

end

theorem answer_unmatched {p : Packet} {s : State} {c : Instr} {kind : Nat} (hrecord : recordOf s p = none) (hkind : forThis s kind p = true)
    (hc : (c = .readData p ∧ kind = 2) ∨ (c = .writeAck p ∧ kind = 3) ∨ (c = .nack p ∧ kind = 4)) : exec c s = .next (takeUp s p) := by
  rcases hc with ⟨rfl, rfl⟩ | ⟨rfl, rfl⟩ | ⟨rfl, rfl⟩
  · refine Eq.trans (b := execReadData p s) rfl ((onPacket_of_forThis _ hkind).trans (congrArg Host.Outcome.next ?_))
    rw [recordOf_takeUp, hrecord]
  · refine Eq.trans (b := execWriteAck p s) rfl ((onPacket_of_forThis _ hkind).trans (congrArg Host.Outcome.next ?_))
    rw [recordOf_takeUp, hrecord]
  · refine Eq.trans (b := execNack p s) rfl ((onPacket_of_forThis _ hkind).trans (congrArg Host.Outcome.next ?_))
    rw [recordOf_takeUp, hrecord]

section
variable {txn : Nat} {o : Outstanding} {s : State} (hfind : s.work.outstanding.find? (fun o => o.txn = txn) = some o)
include hfind

theorem exec_requestTimeout_eq : exec (.requestTimeout txn) s =
    if o.issuedAt + requestTimeout (s.tenant o.tenant) ≤ s.nowUs then
      .next (faultMember (dropOutstanding s o) o.cluster o.uid { status := stTimeout })
    else .next s := by
  refine Eq.trans (b := execRequestTimeout txn s) rfl ?_
  unfold execRequestTimeout
  rw [hfind]

theorem requestTimeout_stops {f : Flight} (hdue : o.issuedAt + requestTimeout (s.tenant o.tenant) ≤ s.nowUs) (hf : flightOf s o.uid = some f)
    (hstop : f.stop = none) (hforming : (s.cluster o.cluster).forming = []) :
    ∃ s' h, exec (.requestTimeout txn) s = .next s' ∧ s'.work.outstanding = s.work.outstanding.erase o ∧ flightOf s' o.uid = some h
      ∧ h.stop = some { status := 5 } ∧ s'.mem = s.mem ∧ s'.tenants = s.tenants := by
  obtain ⟨hflight, cs, fl, honly⟩ := faultMember_of_none_forming (s := dropOutstanding s o) { status := stTimeout } hf hstop hforming
  refine ⟨_, _, (exec_requestTimeout_eq hfind).trans (if_pos hdue), ?_, hflight, rfl, ?_, ?_⟩
  all_goals
    rw [honly]
    rfl

end

/-! ## The peer inbox (R383 to R385) -/

theorem control_delivers {p : Packet} (body : PeerBody) {s : State} (hkind : forThis s 5 p = true) (hpeer : isPeerPacket p = true) :
    let m : PeerMsg := { data := p.data, body := body }
    ∃ s', exec (.control ⟨p, body⟩) s = .next s' ∧ s'.fabric.arrived = s.fabric.arrived.erase p
      ∧ s'.fabric.accepted = s.fabric.accepted ∧ s'.mem = s.mem ∧ s'.tenants = s.tenants
      ∧ (s.fabric.inbox.length < 256 → s'.fabric.inbox = s.fabric.inbox ++ [m] ∧ s'.sys = s.sys)
      ∧ (256 ≤ s.fabric.inbox.length → s'.fabric.inbox = s.fabric.inbox ∧ s'.sys.peerDrops = min 0xFFFF (s.sys.peerDrops + 1)) := by
  intro m
  have hexec : exec (.control ⟨p, body⟩) s = .next (deliverPeer m (takeUp s p)) :=
    Eq.trans (b := execControl ⟨p, body⟩ s) rfl ((onPacket_of_forThis _ hkind).trans (congrArg Host.Outcome.next (if_pos hpeer)))
  refine ⟨_, hexec, ?_⟩
  by_cases hroom : s.fabric.inbox.length < 256
  · have hdelivered : deliverPeer m (takeUp s p)
        = { takeUp s p with fabric := { (takeUp s p).fabric with inbox := (takeUp s p).fabric.inbox ++ [m] } } := if_pos hroom
    rw [hdelivered]
    exact ⟨rfl, rfl, rfl, rfl, fun _ => ⟨rfl, rfl⟩, fun hfull => absurd hroom (Nat.not_lt.mpr hfull)⟩
  · have hdelivered : deliverPeer m (takeUp s p)
        = { takeUp s p with sys := { (takeUp s p).sys with peerDrops := satInc 0xFFFF (takeUp s p).sys.peerDrops } } := if_neg hroom
    rw [hdelivered]
    exact ⟨rfl, rfl, rfl, rfl, fun h => absurd h hroom, fun _ => ⟨rfl, rfl⟩⟩

theorem peerSeq_lt (m : PeerMsg) : peerSeq m < 65536 := by
  unfold peerSeq bits
  omega

/-- R385: what SEQ above the last accepted one means, and the SEQ accepted last. -/
theorem freshSeq_of_above {last seq : Nat} (hseq : seq < 65536) (hlast : last ≤ 65536)
    (h : last = 0 ∨ ∃ d, 1 ≤ d ∧ d ≤ 32767 ∧ (last - 1 + d) % 65536 = seq) : freshSeq last seq = true := by
  unfold freshSeq
  by_cases hzero : last = 0
  · simp [hzero]
  · obtain ⟨d, hlow, hhigh, hsum⟩ := h.resolve_left hzero
    have hdistance : (seq + 65537 - last) % 65536 = d := by omega
    dsimp only
    rw [hdistance]
    simp [hlow, hhigh]

theorem freshSeq_of_repeated {last seq : Nat} (hlast : last ≠ 0) (h : seq + 1 = last) : freshSeq last seq = false := by
  have hdistance : (seq + 65537 - last) % 65536 = 0 := by omega
  unfold freshSeq
  dsimp only
  rw [hdistance]
  simp [hlast]

theorem peerInboxPoll_takes {m : PeerMsg} {s : State} (hruns : firmwareRuns s = true) (hinbox : s.fabric.inbox = [m]) :
    let last := tget 0 s.fabric.lastSeq (peerSrc m)
    ∃ s', exec .peerInboxPoll s = .next s' ∧ s'.fabric.inbox = []
      ∧ (knownPeer m = true → (last = 0 ∨ ∃ d, 1 ≤ d ∧ d ≤ 32767 ∧ (last - 1 + d) % 65536 = peerSeq m) → last ≤ 65536 →
          s'.fabric.accepted = s.fabric.accepted ++ [m] ∧ tget 0 s'.fabric.lastSeq (peerSrc m) = peerSeq m + 1)
      ∧ ((knownPeer m = false ∨ (last ≠ 0 ∧ peerSeq m + 1 = last)) →
          s'.fabric.accepted = s.fabric.accepted ∧ s'.fabric.lastSeq = s.fabric.lastSeq) := by
  intro last
  have hexec : exec .peerInboxPoll s = .next { s with fabric := pollMessage { s.fabric with inbox := [] } m } := by
    refine Eq.trans (b := execPeerInboxPoll s) rfl ((if_pos hruns).trans ?_)
    rw [hinbox]
    rfl
  refine ⟨_, hexec, ?_⟩
  dsimp only
  cases hknown : knownPeer m && freshSeq last (peerSeq m) with
  | true =>
    have hpolled : pollMessage { s.fabric with inbox := [] } m = { s.fabric with
        inbox := [], lastSeq := tset 0 s.fabric.lastSeq (peerSrc m) (peerSeq m + 1), accepted := s.fabric.accepted ++ [m] } := if_pos hknown
    rw [hpolled]
    dsimp only
    refine ⟨rfl, fun _ _ _ => ⟨rfl, tget_tset_same (α := Nat) _ _ _ _⟩, fun hnot => ?_⟩
    obtain ⟨hm, hfresh⟩ := Bool.and_eq_true_iff.mp hknown
    rcases hnot with hnot | ⟨hlast, hrepeated⟩
    · exact absurd (hm.symm.trans hnot) (by decide)
    · exact absurd (hfresh.symm.trans (freshSeq_of_repeated hlast hrepeated)) (by decide)
  | false =>
    have hpolled : pollMessage { s.fabric with inbox := [] } m = { s.fabric with inbox := [] } := if_neg (by rw [hknown]; exact Bool.false_ne_true)
    rw [hpolled]
    refine ⟨rfl, fun hm habove hlast => ?_, fun _ => ⟨rfl, rfl⟩⟩
    rw [hm, freshSeq_of_above (peerSeq_lt m) hlast habove] at hknown
    exact absurd hknown (by decide)

/-- Settles O47: an answer acts on the record that it matches and on nothing without one; a message of the inbox is accepted by its TYPE and SEQ. -/
theorem answersAndPeerInbox : Obligations.AnswersAndPeerInbox := by
  refine ⟨⟨fun p o s hrecord => ⟨readData_lands hrecord, writeAck_frees hrecord, fun f => nack_stops hrecord⟩,
      fun p s c kind hrecord hkind hc => answer_unmatched hrecord hkind hc,
      fun txn o s hfind => ⟨fun f => requestTimeout_stops hfind, fun hearly => (exec_requestTimeout_eq hfind).trans (if_neg (Nat.not_le.mpr hearly))⟩⟩,
    fun p body s hkind hpeer => control_delivers body hkind hpeer, fun m s hruns hinbox => peerInboxPoll_takes hruns hinbox⟩

end Sys2Proof.Machine

/-!
Requests that arrive at this wafer (R401, R437, R442, R461 to R463): a READ is answered with its bytes, a WRITE stored and acknowledged, one that is not
allowed answered with a NACK.
-/

namespace Sys2Proof.Machine

/-! ## A packet goes out (R455, R459, R474) -/

/-- From s to s' only links and the output have changed. -/
def LinksOut (s s' : State) : Prop := ∃ ls os, s' = { s with out := os, fabric := { s.fabric with links := ls } }

theorem LinksOut.refl (s : State) : LinksOut s s := ⟨s.fabric.links, s.out, rfl⟩

theorem LinksOut.trans {a b c : State} (hab : LinksOut a b) (hbc : LinksOut b c) : LinksOut a c := by
  obtain ⟨ls, os, rfl⟩ := hab
  obtain ⟨ls', os', rfl⟩ := hbc
  exact ⟨ls', os', rfl⟩

theorem setLink_linksOut (s : State) (l : Nat) (x : Link) : LinksOut s (s.setLink l x) := ⟨_, s.out, rfl⟩

theorem sendFrame_linksOut (s : State) (l : Nat) (vcs : List Nat) (payload : List Byte) : LinksOut s (sendFrame s l vcs payload) := by
  unfold sendFrame emitFrame
  dsimp only
  split
  · exact setLink_linksOut s l _
  · exact (setLink_linksOut s l _).trans ⟨_, _, rfl⟩

theorem pumpLink_linksOut (s : State) (l n : Nat) : LinksOut s (pumpLink s l n) := by
  induction n generalizing s with
  | zero => exact .refl s
  | succ n ih =>
    unfold pumpLink
    dsimp only
    split
    · exact .refl s
    · exact (setLink_linksOut s l _).trans ((sendFrame_linksOut _ l _ _).trans (ih _))

theorem sendPacket_linksOut (s : State) (q : Packet) : LinksOut s (sendPacket s q) := by
  unfold sendPacket
  split
  · exact .refl s
  · exact (setLink_linksOut s _ _).trans (pumpLink_linksOut _ _ _)

theorem packetChannel_lt (q : Packet) : packetChannel q < 3 := by
  unfold packetChannel
  split
  · decide
  · split <;> decide

/-- The one packet that waits for a link goes next when it may. -/
theorem nextPacket_of_one {y : Link} {q : Packet} (hone : y.txq = [q]) (hsend : canSend y q = true) : nextPacket y = some q := by
  have hbest : ∀ v, (firstRanked (y.txq.filter (fun p => packetChannel p = v))).filter (canSend y) = if packetChannel q = v then some q else none := by
    intro v
    rw [hone]
    by_cases hv : packetChannel q = v
    · simp [hv, firstRanked, hsend]
    · simp [hv, firstRanked]
  unfold nextPacket
  simp only [hbest]
  have hcases : packetChannel q = 0 ∨ packetChannel q = 1 ∨ packetChannel q = 2 := by
    have := packetChannel_lt q
    omega
  rcases hcases with h | h | h <;> rw [h] <;> rfl

/-- The link from which a packet has taken its credits. -/
def paidLink (y : Link) (q : Packet) : Link :=
  { y with txq := y.txq.erase q, credits := modAt y.credits (packetChannel q) (fun c => c - packetSlots q) }

/-- A single waiting packet is sent in one frame. -/
theorem pumpAll_of_one {s : State} {l : Nat} {y : Link} {q : Packet} (hone : y.txq = [q]) (hsend : canSend y q = true)
    (hfree : rimTaken s (l / 6) = false) : pumpAll (s.setLink l y) l
      = (s.setLink l (frameSentLink (paidLink y q) (List.replicate (packetSlots q) (packetChannel q)) (packetBytes q))).emit (.frame l (frameMessage
          (nextFrame (paidLink y q) (List.replicate (packetSlots q) (packetChannel q)) (packetBytes q)))) := by
  have hpaid : (paidLink y q).txq = [] := by
    unfold paidLink
    dsimp only
    rw [hone, List.erase_cons_head]
  have hlen : y.txq.length = 1 := by rw [hone]; rfl
  have hsent := sendFrame_of_free (s := s.setLink l (paidLink y q)) (l := l) (List.replicate (packetSlots q) (packetChannel q)) (packetBytes q) hfree
  rw [State.link_setLink_same, State.setLink_setLink] at hsent
  unfold pumpAll
  rw [State.link_setLink_same, hlen]
  unfold pumpLink
  dsimp only
  rw [State.link_setLink_same, nextPacket_of_one hone hsend]
  dsimp only
  rw [State.setLink_setLink]
  refine Eq.trans (b := pumpLink (sendFrame (s.setLink l (paidLink y q)) l (List.replicate (packetSlots q) (packetChannel q)) (packetBytes q)) l 1) rfl ?_
  rw [hsent]
  exact pumpLink_of_none (s.emit (.frame l (frameMessage (nextFrame (paidLink y q) (List.replicate (packetSlots q) (packetChannel q)) (packetBytes q))))) l 1
    (y := frameSentLink (paidLink y q) (List.replicate (packetSlots q) (packetChannel q)) (packetBytes q)) hpaid

theorem sendPacket_sent (s : State) (q : Packet) : Sent s (sendPacket s q) q := by
  refine ⟨fun hnone => ?_, fun l hl hempty hsend hfree => ?_⟩
  · unfold sendPacket
    rw [hnone]
  · generalize hq : ({ q with down := q.down || descends s l } : Packet) = q' at hsend ⊢
    have hpumped := pumpAll_of_one (s := s) (l := l) (y := { s.link l with txq := (s.link l).txq ++ [q'] }) (q := q') (by simp [hempty]) hsend hfree
    have hsent : sendPacket s q = pumpAll (s.setLink l { s.link l with txq := (s.link l).txq ++ [q'] }) l := by
      rw [← hq]
      unfold sendPacket
      rw [hl]
    have hslots : packetSlots q' = packetSlots q := by rw [← hq]; rfl
    have hchannel : packetChannel q' = packetChannel q := by rw [← hq]; rfl
    rw [hsent, hpumped]
    have hlink := State.link_setLink_same s l (frameSentLink (paidLink { s.link l with txq := (s.link l).txq ++ [q'] } q')
      (List.replicate (packetSlots q') (packetChannel q')) (packetBytes q'))
    refine ⟨_, rfl, rfl, rfl, rfl, ?_, ?_⟩
    · rw [← hslots, ← hchannel]
      exact congrArg (fun n => List.replicate (packetSlots q') (packetChannel q') ++ List.replicate (25 - n) 3) (List.length_replicate ..)
    · exact congrArg Link.replay hlink

/-! ## The bytes of a WRITE (R463) -/

theorem leNat_shift (bs : List Byte) (i : Nat) (h : i < bs.length) : leNat bs / 256 ^ i % 256 = bs[i].toNat := by
  induction bs generalizing i with
  | nil => simp at h
  | cons b rest ih =>
    have hb := b.isLt
    cases i with
    | zero =>
      unfold leNat
      simp only [pow_zero, Nat.div_one, List.getElem_cons_zero]
      omega
    | succ i =>
      have hrest := ih i (by simpa using h)
      unfold leNat
      rw [pow_succ', ← Nat.div_div_eq_div_mul, List.getElem_cons_succ, ← hrest]
      congr 2
      omega

/-- Eight bits that are given one by one are the byte that they are of. -/
theorem foldl_bits (w : Nat) : (List.range 8).foldl (fun acc i => acc + b2n (bit w i) * 2 ^ i) 0 = w % 256 := by
  have hbit : ∀ i, b2n (bit w i) = w / 2 ^ i % 2 := by
    intro i
    unfold b2n bit
    have hlt : w / 2 ^ i % 2 < 2 := Nat.mod_lt _ (by decide)
    by_cases h : w / 2 ^ i % 2 = 1
    · simp [h]
    · simp [h]
      omega
  simp only [hbit, List.range_succ, List.range_zero, List.nil_append, List.cons_append, List.foldl_cons, List.foldl_nil]
  omega

/-- A byte that a write covers whole takes its value. -/
theorem mergeByte_inside {bs : List Byte} {i : Nat} (old : Byte) (g : Nat) (h : i < bs.length) :
    mergeByte old (g + i) (g * 8) (8 * bs.length) (leNat bs) = bs[i] := by
  have hbits : ∀ j, j < 8 → (if g * 8 ≤ (g + i) * 8 + j ∧ (g + i) * 8 + j < g * 8 + 8 * bs.length then bit (leNat bs) ((g + i) * 8 + j - g * 8)
      else bit old.toNat j) = bit (leNat bs / 256 ^ i) j := by
    intro j hj
    rw [if_pos (by omega)]
    have hpos : (g + i) * 8 + j - g * 8 = 8 * i + j := by omega
    unfold bit
    rw [hpos, pow_add, ← Nat.div_div_eq_div_mul, pow_mul, show (2 : Nat) ^ 8 = 256 from rfl]
  have hfold : (List.range 8).foldl (fun acc j => acc + b2n (if g * 8 ≤ (g + i) * 8 + j ∧ (g + i) * 8 + j < g * 8 + 8 * bs.length
      then bit (leNat bs) ((g + i) * 8 + j - g * 8) else bit old.toNat j) * 2 ^ j) 0 = leNat bs / 256 ^ i % 256 := by
    rw [← foldl_bits]
    exact List.foldl_ext _ _ _ (fun acc j hj => by rw [hbits j (List.mem_range.mp hj)])
  refine Eq.trans (b := BitVec.ofNat 8 ((List.range 8).foldl (fun acc j => acc + b2n (if g * 8 ≤ (g + i) * 8 + j
    ∧ (g + i) * 8 + j < g * 8 + 8 * bs.length then bit (leNat bs) ((g + i) * 8 + j - g * 8) else bit old.toNat j) * 2 ^ j) 0)) rfl ?_
  rw [hfold, leNat_shift bs i h]
  simp

/-- Bytes put one after another. -/
def putEach (s : State) (g : Nat) : List Byte → State
  | [] => s
  | b :: rest => putEach (putByte s g b) (g + 1) rest

theorem putEach_of_foldl (bs : List Byte) (F : State → Nat → Byte) : ∀ (s : State) (g : Nat), (∀ a i, (hi : i < bs.length) → F a i = bs[i]) →
    (List.range bs.length).foldl (fun s i => putByte s (g + i) (F s i)) s = putEach s g bs := by
  induction bs generalizing F with
  | nil => exact fun _ _ _ => rfl
  | cons b rest ih =>
    intro s g hF
    rw [List.length_cons, List.range_succ_eq_map, List.foldl_cons, List.foldl_map, hF s 0 (by simp)]
    have hrest := ih (fun a i => F a (i + 1)) (putByte s g b) (g + 1) (fun a i hi => hF a (i + 1) (by simpa using hi))
    refine Eq.trans ?_ hrest
    exact List.foldl_ext _ _ _ (fun a i _ => by rw [Nat.add_assoc, Nat.add_comm 1 i])

theorem putBits_bytes (s : State) (g : Nat) (bs : List Byte) : putBits s (g * 8, 8 * bs.length, leNat bs) = putEach s g bs := by
  have hfirst : g * 8 / 8 = g := by omega
  have hcount : ceilDiv (g * 8 % 8 + 8 * bs.length) 8 = bs.length := by
    unfold ceilDiv
    omega
  unfold putBits
  dsimp only
  rw [hfirst, hcount]
  exact putEach_of_foldl bs (fun a i => mergeByte (byteAt a (g + i)) (g + i) (g * 8) (8 * bs.length) (leNat bs)) s g
    (fun a i hi => mergeByte_inside _ g hi)

/-- A run of bytes inside DDR. -/
theorem putEach_ddr (bs : List Byte) : ∀ (s : State) (g : Nat), gSpace g = 0 → gOff g + bs.length ≤ 2 ^ 52 →
    putEach s g bs = { s with mem := { s.mem with ddr := writeBytes 0 s.mem.ddr (gOff g) bs } } := by
  induction bs with
  | nil => exact fun _ _ _ _ => rfl
  | cons b rest ih =>
    intro s g hspace hroom
    have hput : putByte s g b = { s with mem := { s.mem with ddr := tset 0 s.mem.ddr (gOff g) b } } := if_pos hspace
    unfold putEach
    rw [hput]
    cases rest with
    | nil => rfl
    | cons c rest =>
      have hroom' : gOff g + (rest.length + 1 + 1) ≤ 2 ^ 52 := hroom
      have hnext : gOff (g + 1) = gOff g + 1 := by
        unfold gOff at hroom' ⊢
        omega
      have hspace' : gSpace (g + 1) = 0 := by
        unfold gSpace bits at hspace ⊢
        unfold gOff at hroom'
        omega
      rw [ih _ (g + 1) hspace' (by rw [hnext, List.length_cons]; omega), hnext]
      rfl

/-- A run of bytes inside one cistern. -/
theorem putEach_cistern (bs : List Byte) : ∀ (s : State) (g : Nat), gSpace g = 1 → gCisOff g + bs.length ≤ 2 ^ 41 →
    putEach s g bs = { s with mem := { s.mem with cistern := writeBytes 0 s.mem.cistern (cisKey (gCluster g) (gCisOff g)) bs } } := by
  induction bs with
  | nil => exact fun _ _ _ _ => rfl
  | cons b rest ih =>
    intro s g hspace hroom
    have hput : putByte s g b = { s with mem := { s.mem with cistern := tset 0 s.mem.cistern (cisKey (gCluster g) (gCisOff g)) b } } :=
      if_neg (by omega)
    unfold putEach
    rw [hput]
    cases rest with
    | nil => rfl
    | cons c rest =>
      have hroom' : gCisOff g + (rest.length + 1 + 1) ≤ 2 ^ 41 := hroom
      have hnext : gCisOff (g + 1) = gCisOff g + 1 := by
        unfold gCisOff at hroom' ⊢
        omega
      have hcluster : gCluster (g + 1) = gCluster g := by
        have hcarry : (g + 1) / 2 ^ 41 = g / 2 ^ 41 := by
          unfold gCisOff at hroom'
          omega
        unfold gCluster bits
        rw [hcarry]
      have hspace' : gSpace (g + 1) = 1 := by
        unfold gSpace bits at hspace ⊢
        unfold gCisOff at hroom'
        omega
      have hkey : cisKey (gCluster g) (gCisOff g + 1) = cisKey (gCluster g) (gCisOff g) + 1 := (Nat.add_assoc _ _ _).symm
      rw [ih _ (g + 1) hspace' (by rw [hnext, List.length_cons]; omega), hnext, hcluster, hkey]
      rfl

/-! ## Where a request's bytes stand (R480, R494) -/

section
variable {s : State} {p : Packet} (hfor : ∃ kind, forThis s kind p = true)
include hfor

theorem packetGlobal_wafer {i : Nat} (hi : p.addr.toNat + i < 2 ^ 56) : gWafer (packetGlobal p + i) = s.sys.waferNumber := by
  obtain ⟨kind, hkind⟩ := hfor
  have hdst : p.dstWafer.toNat = s.sys.waferNumber := by
    unfold forThis at hkind
    simp only [Bool.and_eq_true, decide_eq_true_eq] at hkind
    obtain ⟨⟨⟨-, hdst⟩, -⟩, -⟩ := hkind
    exact hdst
  have hwafer := p.dstWafer.isLt
  rw [← hdst]
  unfold gWafer bits packetGlobal
  omega

end

theorem packetGlobal_wafer_self {s : State} {p : Packet} {kind : Nat} (hkind : forThis s kind p = true) :
    gWafer (packetGlobal p) = s.sys.waferNumber := by
  have hwafer := packetGlobal_wafer (i := 0) ⟨kind, hkind⟩ (by rw [Nat.add_zero]; exact p.addr.isLt)
  rwa [Nat.add_zero] at hwafer

theorem packetGlobal_addr (p : Packet) : packetGlobal p % 2 ^ 56 = p.addr.toNat := by
  have haddr := p.addr.isLt
  unfold packetGlobal
  omega

theorem packetLen_le (p : Packet) : packetLen p ≤ 448 := by
  have hlen := p.len.isLt
  unfold packetLen
  omega

/-- An access that may be made of a packet for this wafer names its DDR or one cluster's cistern, inside the plan's area. -/
theorem accessNack_space {s : State} {t g n : Nat} (hwafer : gWafer g = s.sys.waferNumber) (h : accessNack s t g n = none) :
    gSpace g = 0 ∨ (gSpace g = 1 ∧ gCisOff g + n ≤ planArea) := by
  unfold accessNack at h
  split at h
  · cases h
  · next hspace =>
    rw [if_neg (fun hne => hne hwafer)] at h
    by_cases hzero : gSpace g = 0
    · exact .inl hzero
    · rw [if_neg hzero] at h
      refine .inr ⟨by omega, ?_⟩
      split at h
      · cases h
      · split at h
        · next hmember =>
          exact of_decide_eq_true (Bool.and_eq_true_iff.mp hmember).2
        · cases h

/-- An allowed access ends inside the address space of its wafer. -/
theorem allowed_inside {s : State} {p : Packet} {kind : Nat} (hkind : forThis s kind p = true)
    (hnack : accessNack s p.tenant.toNat (packetGlobal p) (packetLen p) = none)
    (hroom : gSpace (packetGlobal p) = 0 → gOff (packetGlobal p) + packetLen p ≤ 2 ^ 42) : p.addr.toNat + packetLen p ≤ 2 ^ 56 := by
  have haddr := packetGlobal_addr p
  have harea : planArea < 2 ^ 41 := by decide
  rcases accessNack_space (packetGlobal_wafer_self hkind) hnack with hspace | ⟨hspace, hplan⟩
  · have hroom' := hroom hspace
    generalize packetGlobal p = g at *
    unfold gSpace bits at hspace
    unfold gOff at hroom'
    omega
  · generalize packetGlobal p = g at *
    unfold gSpace bits at hspace
    unfold gCisOff at hplan
    omega

/-- The bytes at an address of this wafer's DDR are those at its offset. -/
theorem bytesAt_ddr {s : State} {g : Nat} {bs : List Byte} (hwafer : ∀ i, i < bs.length → gWafer (g + i) = s.sys.waferNumber) (hspace : gSpace g = 0)
    (hroom : gOff g + bs.length ≤ 2 ^ 42) (hmem : ∀ i, (hi : i < bs.length) → tget 0 s.mem.ddr (gOff g + i) = bs[i]) : bytesAt s g bs.length = bs := by
  unfold bytesAt
  refine List.ext_getElem (by simp) (fun i h1 h2 => ?_)
  have hoff : gOff (g + i) = gOff g + i := by
    unfold gOff at hroom ⊢
    omega
  have hspace' : gSpace (g + i) = 0 := by
    unfold gSpace bits at hspace ⊢
    unfold gOff at hroom
    omega
  rw [List.getElem_map, List.getElem_range]
  unfold byteAt
  rw [if_pos (hwafer i h2), if_pos hspace', hoff]
  exact hmem i h2

theorem bytesAt_cistern {s : State} {g : Nat} {bs : List Byte} (hwafer : ∀ i, i < bs.length → gWafer (g + i) = s.sys.waferNumber) (hspace : gSpace g = 1)
    (hroom : gCisOff g + bs.length ≤ planArea)
    (hmem : ∀ i, (hi : i < bs.length) → tget 0 s.mem.cistern (cisKey (gCluster g) (gCisOff g) + i) = bs[i]) : bytesAt s g bs.length = bs := by
  have harea : planArea < 2 ^ 41 := by decide
  unfold bytesAt
  refine List.ext_getElem (by simp) (fun i h1 h2 => ?_)
  have hoff : gCisOff (g + i) = gCisOff g + i := by
    unfold gCisOff at hroom ⊢
    omega
  have hspace' : gSpace (g + i) = 1 := by
    unfold gSpace bits at hspace ⊢
    unfold gCisOff at hroom
    omega
  have hcluster : gCluster (g + i) = gCluster g := by
    have hcarry : (g + i) / 2 ^ 41 = g / 2 ^ 41 := by
      unfold gCisOff at hroom
      omega
    unfold gCluster bits
    rw [hcarry]
  have hkey : cisKey (gCluster g) (gCisOff g + i) = cisKey (gCluster g) (gCisOff g) + i := (Nat.add_assoc _ _ _).symm
  rw [List.getElem_map, List.getElem_range]
  unfold byteAt
  rw [if_pos (hwafer i h2), if_neg (by omega), hoff, hcluster, hkey]
  exact hmem i h2

/-! ## Requests (R401, R442, R461, R463) -/

/-- A packet sent from a state that differs from s only in the packets that have arrived. -/
theorem sent_takeUp {s : State} {p q : Packet} {s' : State} (h : Sent (takeUp s p) s' q) : Sent s s' q := h

theorem answer_eq (s : State) (p : Packet) (kind : Nat) (len : BitVec 3) (code : Nat) (data : List Byte) :
    answer (takeUp s p) p kind len code data = sendPacket (takeUp s p) (answerPacket s p kind len code data) := rfl

/-- The answer to a request goes out, and nothing else changes. -/
theorem answer_goes (s : State) (p : Packet) (kind : Nat) (len : BitVec 3) (code : Nat) (data : List Byte) :
    Sent s (answer (takeUp s p) p kind len code data) (answerPacket s p kind len code data)
      ∧ LinksOut (takeUp s p) (answer (takeUp s p) p kind len code data) := by
  rw [answer_eq]
  exact ⟨sent_takeUp (sendPacket_sent _ _), sendPacket_linksOut _ _⟩

section
variable {p : Packet} {s : State} (hfresh : staleRequest s p = false)
include hfresh

theorem serve_allowed (f : State → State) (hnack : accessNack s p.tenant.toNat (packetGlobal p) (packetLen p) = none)
    (hroute : cutOff s (packetGlobal p) = false) (hawake : dormantTarget s (packetGlobal p) = none) : serve p f (takeUp s p) = f (takeUp s p) := by
  have hfresh' : staleRequest (takeUp s p) p = false := hfresh
  have hnack' : accessNack (takeUp s p) p.tenant.toNat (packetGlobal p) (packetLen p) = none := hnack
  have hroute' : cutOff (takeUp s p) (packetGlobal p) = false := hroute
  have hawake' : dormantTarget (takeUp s p) (packetGlobal p) = none := hawake
  unfold serve
  rw [hfresh', hnack', hroute', hawake']
  rfl

theorem serve_wakes (f : State → State) {k : Nat} (hnack : accessNack s p.tenant.toNat (packetGlobal p) (packetLen p) = none)
    (hroute : cutOff s (packetGlobal p) = false) (hdormant : dormantTarget s (packetGlobal p) = some k) :
    serve p f (takeUp s p) = f (wakeDone (takeUp s p) k) := by
  have hfresh' : staleRequest (takeUp s p) p = false := hfresh
  have hnack' : accessNack (takeUp s p) p.tenant.toNat (packetGlobal p) (packetLen p) = none := hnack
  have hroute' : cutOff (takeUp s p) (packetGlobal p) = false := hroute
  have hdormant' : dormantTarget (takeUp s p) (packetGlobal p) = some k := hdormant
  unfold serve
  rw [hfresh', hnack', hroute', hdormant']
  rfl

theorem serve_nack (f : State → State) {code : Nat} (hnack : accessNack s p.tenant.toNat (packetGlobal p) (packetLen p) = some code) :
    serve p f (takeUp s p) = answer (takeUp s p) p 4 0 code [] := by
  have hfresh' : staleRequest (takeUp s p) p = false := hfresh
  have hnack' : accessNack (takeUp s p) p.tenant.toNat (packetGlobal p) (packetLen p) = some code := hnack
  unfold serve
  rw [hfresh', hnack']
  rfl

end

section
variable {p : Packet} {s : State} (hfresh : staleRequest s p = false)
  (hnack : accessNack s p.tenant.toNat (packetGlobal p) (packetLen p) = none) (hroute : cutOff s (packetGlobal p) = false)
  (hawake : dormantTarget s (packetGlobal p) = none)
include hfresh hnack hroute hawake

theorem read_answers (hkind : forThis s 0 p = true) :
    ∃ s', exec (.read p .clean) s = .next s' ∧ Sent s s' (answerPacket s p 2 p.len 0 (bytesAt s (packetGlobal p) (packetLen p))) ∧ s'.mem = s.mem
      ∧ s'.fabric.arrived = s.fabric.arrived.erase p ∧ s'.tenants = s.tenants ∧ s'.clusters = s.clusters := by
  have hexec : exec (.read p .clean) s = .next (answer (takeUp s p) p 2 p.len 0 (bytesAt s (packetGlobal p) (packetLen p))) :=
    Eq.trans (b := execRead p .clean s) rfl
      ((onPacket_of_forThis _ hkind).trans (congrArg Host.Outcome.next (serve_allowed hfresh (serveRead p .clean) hnack hroute hawake)))
  obtain ⟨hsent, ls, os, hout⟩ := answer_goes s p 2 p.len 0 (bytesAt s (packetGlobal p) (packetLen p))
  refine ⟨_, hexec, hsent, ?_⟩
  rw [hout]
  exact ⟨rfl, rfl, rfl, rfl⟩

/-- The state in which a WRITE's bytes stand. -/
def writeStored (s : State) (p : Packet) : State := putBytes (takeUp s p) (packetGlobal p) (p.data.take (packetLen p))

theorem exec_write_eq (hkind : forThis s 1 p = true) (haligned : p.addr.toNat % 64 = 0) :
    exec (.write p .clean) s = .next (answer (writeStored s p) p 3 0 0 []) := by
  have hserve : serveWrite p .clean (takeUp s p) = answer (writeStored s p) p 3 0 0 [] := by
    unfold serveWrite mergeWrite writeStored
    rw [if_pos haligned]
  exact Eq.trans (b := execWrite p .clean s) rfl ((onPacket_of_forThis _ hkind).trans
    (congrArg Host.Outcome.next ((serve_allowed hfresh (serveWrite p .clean) hnack hroute hawake).trans hserve)))

end

theorem putBytes_mem (s : State) (g : Nat) (bs : List Byte) :
    ∃ po, putBytes s g bs = { putEach s g bs with mem := { (putEach s g bs).mem with poisoned := po } } := by
  unfold putBytes putAll clearWholeLines
  rw [List.foldl_cons, List.foldl_nil, putBits_bytes]
  exact ⟨_, rfl⟩

/-- What a WRITE stores in this wafer's memory. -/
theorem writeStored_mem {s : State} {p : Packet} (hkind : forThis s 1 p = true) (hlen : p.data.length = packetLen p)
    (hnack : accessNack s p.tenant.toNat (packetGlobal p) (packetLen p) = none)
    (hroom : gSpace (packetGlobal p) = 0 → gOff (packetGlobal p) + packetLen p ≤ 2 ^ 42) :
    ∃ m, writeStored s p = { takeUp s p with mem := m } ∧ m.flash = s.mem.flash ∧ m.host = s.mem.host
      ∧ (gSpace (packetGlobal p) = 0 → m.cistern = s.mem.cistern ∧ m.ddr = writeBytes 0 s.mem.ddr (gOff (packetGlobal p)) p.data)
      ∧ (gSpace (packetGlobal p) = 1 → m.ddr = s.mem.ddr
          ∧ m.cistern = writeBytes 0 s.mem.cistern (cisKey (gCluster (packetGlobal p)) (gCisOff (packetGlobal p))) p.data) := by
  have htake : p.data.take (packetLen p) = p.data := List.take_of_length_le hlen.le
  have hsmall := packetLen_le p
  have hwafer : gWafer (packetGlobal p) = s.sys.waferNumber := packetGlobal_wafer_self hkind
  obtain ⟨po, hput⟩ := putBytes_mem (takeUp s p) (packetGlobal p) p.data
  unfold writeStored
  rw [htake, hput]
  rcases accessNack_space hwafer hnack with hspace | ⟨hspace, harea⟩
  · have hroom' := hroom hspace
    rw [putEach_ddr p.data (takeUp s p) (packetGlobal p) hspace (by omega)]
    exact ⟨_, rfl, rfl, rfl, fun _ => ⟨rfl, rfl⟩, fun h => absurd (hspace.symm.trans h) (by decide)⟩
  · have harea' : planArea < 2 ^ 41 := by decide
    rw [putEach_cistern p.data (takeUp s p) (packetGlobal p) hspace (by omega)]
    exact ⟨_, rfl, rfl, rfl, fun h => absurd (hspace.symm.trans h) (by decide), fun _ => ⟨rfl, rfl⟩⟩

section
variable {p : Packet} {s : State} (hfresh : staleRequest s p = false)
  (hnack : accessNack s p.tenant.toNat (packetGlobal p) (packetLen p) = none) (hroute : cutOff s (packetGlobal p) = false)
include hfresh hnack hroute

theorem write_stores (hawake : dormantTarget s (packetGlobal p) = none) (hkind : forThis s 1 p = true) (haligned : p.addr.toNat % 64 = 0)
    (hlen : p.data.length = packetLen p) (hroom : gSpace (packetGlobal p) = 0 → gOff (packetGlobal p) + packetLen p ≤ 2 ^ 42) :
    ∃ s', exec (.write p .clean) s = .next s' ∧ Sent s s' (answerPacket s p 3 0 0 []) ∧ bytesAt s' (packetGlobal p) (packetLen p) = p.data
      ∧ (gSpace (packetGlobal p) = 0 → s'.mem.cistern = s.mem.cistern
          ∧ ∀ x, x < gOff (packetGlobal p) ∨ gOff (packetGlobal p) + packetLen p ≤ x → tget 0 s'.mem.ddr x = tget 0 s.mem.ddr x)
      ∧ (gSpace (packetGlobal p) = 1 → s'.mem.ddr = s.mem.ddr ∧ ∀ x, x < cisKey (gCluster (packetGlobal p)) (gCisOff (packetGlobal p))
          ∨ cisKey (gCluster (packetGlobal p)) (gCisOff (packetGlobal p)) + packetLen p ≤ x → tget 0 s'.mem.cistern x = tget 0 s.mem.cistern x)
      ∧ s'.mem.flash = s.mem.flash ∧ s'.mem.host = s.mem.host ∧ s'.tenants = s.tenants := by
  obtain ⟨m, hstored, hflash, hhost, hddr, hcistern⟩ := writeStored_mem hkind hlen hnack hroom
  have hsmall := packetLen_le p
  have hwafer : ∀ i, i < p.data.length → gWafer (packetGlobal p + i) = s.sys.waferNumber :=
    fun i hi => packetGlobal_wafer ⟨1, hkind⟩ (by have := allowed_inside hkind hnack hroom; omega)
  have hwafer0 : gWafer (packetGlobal p) = s.sys.waferNumber := packetGlobal_wafer_self hkind
  have hsent : Sent s (answer (writeStored s p) p 3 0 0 []) (answerPacket s p 3 0 0 [])
      ∧ LinksOut (writeStored s p) (answer (writeStored s p) p 3 0 0 []) := by
    rw [hstored]
    exact ⟨sendPacket_sent { takeUp s p with mem := m } (answerPacket s p 3 0 0 []),
      sendPacket_linksOut { takeUp s p with mem := m } (answerPacket s p 3 0 0 [])⟩
  refine ⟨_, exec_write_eq hfresh hnack hroute hawake hkind haligned, hsent.1, ?_⟩
  obtain ⟨ls, os, hout⟩ := hsent.2
  rw [hout, hstored, ← hlen]
  refine ⟨?_, fun hspace => ?_, fun hspace => ?_, hflash, hhost, rfl⟩
  · rcases accessNack_space hwafer0 hnack with hspace | ⟨hspace, harea⟩
    · refine bytesAt_ddr hwafer hspace (by rw [hlen]; exact hroom hspace) (fun i hi => ?_)
      exact (congrArg (fun d => tget 0 d (gOff (packetGlobal p) + i)) (hddr hspace).2).trans (tget_writeBytes_inside _ _ _ _ _ hi)
    · refine bytesAt_cistern hwafer hspace (by rw [hlen]; exact harea) (fun i hi => ?_)
      exact (congrArg (fun d => tget 0 d (cisKey (gCluster (packetGlobal p)) (gCisOff (packetGlobal p)) + i)) (hcistern hspace).2).trans
        (tget_writeBytes_inside _ _ _ _ _ hi)
  · obtain ⟨hsame, hwritten⟩ := hddr hspace
    exact ⟨hsame, fun x hx => (congrArg (fun d => tget 0 d x) hwritten).trans (tget_writeBytes_other _ _ _ _ _ hx)⟩
  · obtain ⟨hsame, hwritten⟩ := hcistern hspace
    exact ⟨hsame, fun x hx => (congrArg (fun d => tget 0 d x) hwritten).trans (tget_writeBytes_other _ _ _ _ _ hx)⟩

end

/-! ## A dormant target wakes (R442, R484) -/

theorem wakeDone_awake (s : State) (k : Nat) : ((wakeDone s k).cluster k).awake = true := by
  unfold wakeDone
  dsimp only
  rw [holdRail_cluster, State.cluster_modCluster_same]

theorem applyEcc_awake (s : State) (k q : Nat) (e : Ecc) (rs : List (Nat × Nat)) (h : (s.cluster q).awake = true) :
    ((applyEcc s k e rs).cluster q).awake = true := by
  have hcount : ∀ p, ((s.modCluster p (fun c => { c with ecc := satInc 0xFFFFFFFF c.ecc })).cluster q).awake = true := by
    intro p
    by_cases hq : q = p
    · subst hq
      rw [State.cluster_modCluster_same]
      exact h
    · rw [State.cluster_modCluster_other _ _ _ _ hq]
      exact h
  have hpoison : ∀ l, ((poisonLine s l).cluster q).awake = true := by
    intro l
    unfold poisonLine
    split
    · exact h
    · exact h
  unfold applyEcc
  split
  · split
    · exact h
    · exact h
    · exact hcount _
  · split
    · exact hpoison _
    · exact h
  · exact h

theorem answer_cluster (s : State) (p : Packet) (kind : Nat) (len : BitVec 3) (code : Nat) (data : List Byte) (q : Nat) :
    (answer s p kind len code data).cluster q = s.cluster q := by
  obtain ⟨ls, os, h⟩ := sendPacket_linksOut s { p with
    kind := BitVec.ofNat 4 kind, len := len, down := false, srcWafer := BitVec.ofNat 7 s.sys.waferNumber, dstWafer := p.srcWafer
    code := BitVec.ofNat 2 code, orient := s.fabric.orient, data := data }
  unfold answer
  rw [h]
  rfl

theorem serve_awake {s : State} {p : Packet} {e : Ecc} {k : Nat} (h : (s.cluster k).awake = true) :
    ((serveRead p e s).cluster k).awake = true ∧ ((serveWrite p e s).cluster k).awake = true := by
  constructor
  · unfold serveRead
    rw [answer_cluster]
    exact applyEcc_awake _ _ _ _ _ h
  · have hmerge : ((mergeWrite p e s).cluster k).awake = true := by
      unfold mergeWrite
      split
      · exact h
      · exact applyEcc_awake _ _ _ _ _ h
    unfold serveWrite
    rw [answer_cluster]
    unfold putBytes
    rw [(putAll_memOnly (mergeWrite p e s) _).cluster k]
    exact hmerge

/-- Settles O46: a request acts by its access check; the bytes of an allowed WRITE stand where they were read, and only the answer goes out. -/
theorem requestsServed : Obligations.RequestsServed := by
  intro p s
  refine ⟨fun hkind hfresh hnack hroute hawake => read_answers hfresh hnack hroute hawake hkind,
    fun hkind hfresh hnack hroute hawake haligned hlen hroom => write_stores hfresh hnack hroute hawake hkind haligned hlen hroom,
    fun c kind k e hc hkind hfresh hnack hroute hdormant => ?_, fun c kind code e hc hkind => ⟨fun hfresh hnack => ?_, fun hstale => ?_⟩⟩
  · have hawake := serve_awake (p := p) (e := e) (wakeDone_awake (takeUp s p) k)
    rcases hc with ⟨rfl, rfl⟩ | ⟨rfl, rfl⟩
    · exact ⟨_, Eq.trans (b := execRead p e s) rfl ((onPacket_of_forThis _ hkind).trans
        (congrArg Host.Outcome.next (serve_wakes hfresh (serveRead p e) hnack hroute hdormant))), hawake.1⟩
    · exact ⟨_, Eq.trans (b := execWrite p e s) rfl ((onPacket_of_forThis _ hkind).trans
        (congrArg Host.Outcome.next (serve_wakes hfresh (serveWrite p e) hnack hroute hdormant))), hawake.2⟩
  · obtain ⟨hsent, ls, os, hout⟩ := answer_goes s p 4 0 code []
    have hexec : exec c s = .next (answer (takeUp s p) p 4 0 code []) := by
      rcases hc with ⟨rfl, rfl⟩ | ⟨rfl, rfl⟩
      · exact Eq.trans (b := execRead p e s) rfl ((onPacket_of_forThis _ hkind).trans
          (congrArg Host.Outcome.next (serve_nack hfresh (serveRead p e) hnack)))
      · exact Eq.trans (b := execWrite p e s) rfl ((onPacket_of_forThis _ hkind).trans
          (congrArg Host.Outcome.next (serve_nack hfresh (serveWrite p e) hnack)))
    refine ⟨_, hexec, hsent, ?_⟩
    rw [hout]
    exact ⟨rfl, rfl⟩
  · have hserve : ∀ f, serve p f (takeUp s p) = takeUp s p := fun f => if_pos hstale
    rcases hc with ⟨rfl, rfl⟩ | ⟨rfl, rfl⟩
    · exact ⟨_, Eq.trans (b := execRead p e s) rfl ((onPacket_of_forThis _ hkind).trans (congrArg Host.Outcome.next (hserve _))), rfl⟩
    · exact ⟨_, Eq.trans (b := execWrite p e s) rfl ((onPacket_of_forThis _ hkind).trans (congrArg Host.Outcome.next (hserve _))), rfl⟩

end Sys2Proof.Machine

/-!
Outputs that are stored (R328, R431) and clauses that complete (R291, R292): what a store of outputs changes, and what the end of a clause leaves.
-/

namespace Sys2Proof.Machine

/-! ## Outputs go to memory and to other wafers (R431, R437, R482) -/

/-- From s to s' only memory, the accesses on record, the free values' counter, the requests outstanding and what goes out have changed. -/
def OutputsOnly (s s' : State) : Prop :=
  ∃ m n ts txn outs ls os, s' = { s with
    mem := m, freeCtr := n, out := os, work := { s.work with touches := ts, nextTxn := txn, outstanding := outs }, fabric := { s.fabric with links := ls } }

theorem OutputsOnly.refl (s : State) : OutputsOnly s s := ⟨_, _, _, _, _, _, _, rfl⟩

theorem OutputsOnly.trans {a b c : State} (hab : OutputsOnly a b) (hbc : OutputsOnly b c) : OutputsOnly a c := by
  obtain ⟨_, _, _, _, _, _, _, rfl⟩ := hab
  obtain ⟨_, _, _, _, _, _, _, rfl⟩ := hbc
  exact ⟨_, _, _, _, _, _, _, rfl⟩

theorem OutputsOnly.cluster {s s' : State} (h : OutputsOnly s s') (k : Nat) : s'.cluster k = s.cluster k := by
  obtain ⟨_, _, _, _, _, _, _, rfl⟩ := h
  rfl

theorem OutputsOnly.clusters {s s' : State} (h : OutputsOnly s s') : s'.clusters = s.clusters := by
  obtain ⟨_, _, _, _, _, _, _, rfl⟩ := h
  rfl

theorem OutputsOnly.tenants {s s' : State} (h : OutputsOnly s s') : s'.tenants = s.tenants := by
  obtain ⟨_, _, _, _, _, _, _, rfl⟩ := h
  rfl

theorem OutputsOnly.flights {s s' : State} (h : OutputsOnly s s') : s'.work.flights = s.work.flights := by
  obtain ⟨_, _, _, _, _, _, _, rfl⟩ := h
  rfl

theorem AccessOnly.outputsOnly {s s' : State} (h : AccessOnly s s') : OutputsOnly s s' := by
  obtain ⟨m, n, ts, rfl⟩ := h
  exact ⟨m, n, ts, _, _, _, _, rfl⟩

theorem LinksOut.outputsOnly {s s' : State} (h : LinksOut s s') : OutputsOnly s s' := by
  obtain ⟨ls, os, rfl⟩ := h
  exact ⟨_, _, _, _, _, ls, os, rfl⟩

theorem issueRequest_outputsOnly (s : State) (j : Job) (kind addr : Nat) (data : List Byte) : OutputsOnly s (issueRequest s j kind addr data) := by
  unfold issueRequest
  exact OutputsOnly.trans (b := { s with work := { s.work with nextTxn := _, outstanding := _ } }) ⟨_, _, _, _, _, _, _, rfl⟩
    (sendPacket_linksOut _ _).outputsOnly

theorem storeOutputs_outputsOnly (s : State) (j : Job) (ws : List (Nat × Nat × Nat)) : OutputsOnly s (storeOutputs s j .clean ws) := by
  have hnear : OutputsOnly s (raceWrite (applyEcc (putAll s (ws.filter (fun w => !remote s (w.1 / 8)))) j.k .clean
      (mergeRanges s (ws.filter (fun w => !remote s (w.1 / 8))))) j.f (ws.filter (fun w => !remote s (w.1 / 8)))) :=
    ((putAll_memOnly s _).accessOnly.trans (raceWrite_accessOnly _ _ _)).outputsOnly
  unfold storeOutputs
  exact foldl_keeps (OutputsOnly s) _ (fun a g h => h.trans (issueRequest_outputsOnly a j 1 g _)) _ _ hnear

/-! ## OUT_WRITE_BACK (R328) -/

/-- A member that is finished keeps the OUT halves that its cluster holds. -/
theorem finishMember_outHalf (s : State) (k : Nat) : ((finishMember s k).cluster k).outHalf = (s.cluster k).outHalf := by
  unfold finishMember
  split
  · rfl
  · dsimp only
    split
    · rw [State.cluster_setCluster_same]
    · rfl

theorem outWriteBack_stores {k : Fin 1680} {j : Job} {h : OutHalf} {s : State} (hhalf : readyHalf (s.cluster k) = some h)
    (hjob : jobOf s k h.uid = some j) (hchecked : checkWrites s j .clean h.writes = .ok) :
    ∃ s', exec (.outWriteBack k .clean) s = .next s' ∧ (s'.cluster k).outHalf = (s.cluster k).outHalf.erase h
      ∧ s'.mem = (storeOutputs s j .clean h.writes).mem ∧ s'.tenants = s.tenants := by
  have hstored := storeOutputs_outputsOnly s j h.writes
  refine ⟨_, Eq.trans (b := execOutWriteBack k .clean s) rfl (by unfold execOutWriteBack; rw [hhalf]; dsimp only; rw [hjob]; dsimp only; rw [hchecked]),
    ?_, ?_, ?_⟩
  · rw [finishMember_outHalf, State.cluster_modCluster_same, show (forget (storeOutputs s j .clean h.writes) j (writeRanges h.writes)).cluster k
      = (storeOutputs s j .clean h.writes).cluster k from rfl, hstored.cluster k]
  · rw [finishMember_mem]
    rfl
  · rw [finishMember_tenants]
    exact hstored.tenants

/-! ## CLAUSE_COMPLETE (R291, R292) -/

section
variable {t : Fin 16} {tag : BitVec 16} {f : Flight} {s : State} (htag : flightTag s t tag.toNat = some f) (hclears : (s.tenant t).clears = [])
include htag

theorem execClauseComplete_of_done (hstop : f.stop = none) (hwaiting : f.waiting = []) (hnone : ∀ o ∈ s.work.outstanding, o.uid ≠ f.uid)
    (hverb : cVerb f.words < 0x0C ∨ 0x0E < cVerb f.words) : exec (.clauseComplete t tag) s = .next (completeClause s f {}) := by
  have hanswered : s.work.outstanding.all (fun o => o.uid ≠ f.uid) = true := List.all_eq_true.mpr (fun o ho => decide_eq_true (hnone o ho))
  refine Eq.trans (b := execClauseComplete t tag s) rfl ?_
  unfold execClauseComplete
  rw [htag]
  dsimp only
  rw [hstop]
  dsimp only
  rw [hanswered, hwaiting, decide_eq_false (by omega : ¬ (0x0C ≤ cVerb f.words ∧ cVerb f.words ≤ 0x0E))]
  rfl

theorem execClauseComplete_of_stopped {v : Verdict} (hstop : f.stop = some v) (hquiet : quiet s f.uid = true)
    (hwrites : ∀ o ∈ s.work.outstanding, o.uid = f.uid → o.isWrite = false) :
    exec (.clauseComplete t tag) s = .next (completeClause s f v) := by
  have hanswered : s.work.outstanding.all (fun o => o.uid ≠ f.uid || !o.isWrite) = true := List.all_eq_true.mpr (fun o ho => by
    by_cases huid : o.uid = f.uid
    · simp [hwrites o ho huid]
    · simp [huid])
  refine Eq.trans (b := execClauseComplete t tag s) rfl ?_
  unfold execClauseComplete
  rw [htag]
  dsimp only
  rw [hstop]
  dsimp only
  rw [hquiet, hanswered]
  rfl

include hclears

theorem endClause_mem_of_quiet (hquiet : cQuiet f.words = true) : (endClause s f {}).mem = s.mem := by
  obtain ⟨htenant, -⟩ := flightTag_mem htag
  have hgone := clauseGone_workOnly s f
  have hend : endClause s f {} = finishClears (clauseGone s f) f.tenant := by
    unfold endClause
    rw [hquiet]
    rfl
  rw [hend, finishClears_of_none (by rw [hgone.tenant, htenant]; exact hclears)]
  obtain ⟨cs, w, heq⟩ := hgone
  rw [heq]

theorem clauseComplete_done (hexec : exec (.clauseComplete t tag) s = .next (completeClause s f {})) :
    ∃ s', exec (.clauseComplete t tag) s = .next s' ∧ (∀ g, g ∈ s'.work.flights ↔ (g ∈ s.work.flights ∧ g.uid ≠ f.uid))
      ∧ (s'.tenant t).halted = (s.tenant t).halted
      ∧ (cQuiet f.words = false → CanNotify s t → Notified s s' t (clauseNotice f {}) ∧ HostOnlySlot s s' t)
      ∧ (cQuiet f.words = true → s'.mem = s.mem) := by
  obtain ⟨htenant, -⟩ := flightTag_mem htag
  refine ⟨_, hexec, fun g => ?_, ?_, fun hquiet hcan => ?_, fun hquiet => endClause_mem_of_quiet htag hclears hquiet⟩
  · rw [completeClause_of_ok, endClause_flights]
    simp
  · rw [completeClause_of_ok, ← htenant]
    exact of_besideMail Tenant.halted (fun _ => rfl) (besideMail_endClause (by rw [htenant]; exact hclears))
  · obtain ⟨hended, -⟩ := completes_ok htag hclears hcan hquiet
    exact ⟨htenant ▸ hended.notified, htenant ▸ hended.slot⟩

/-- A stopped clause that was its tenant's only one completes with its verdict. -/
theorem completeClause_of_stopped {v : Verdict} (hprio : f.prio < 4) (hstatus : v.status ≠ 0) (hcan : CanNotify s t) (halone : tenantFlights s t = [f]) :
    tenantFlights (completeClause s f v) t = [] ∧ Notified s (completeClause s f v) t (clauseNotice f v)
      ∧ bit ((completeClause s f v).tenant t).halted.toNat f.prio = (bit (s.tenant t).halted.toNat f.prio || halts v.status) := by
  obtain ⟨htenant, -⟩ := flightTag_mem htag
  rw [← htenant] at hclears hcan halone
  rw [← htenant]
  obtain ⟨hended, hafter, hwork⟩ := endClause_ends (v := v) hcan hclears (by rw [decide_eq_false hstatus]; rfl)
  have hnone : tenantFlights (endClause s f v) f.tenant = [] := by
    unfold tenantFlights
    rw [hwork, clauseGone_flights, List.filter_filter, List.filter_eq_nil_iff]
    intro g hg h
    obtain ⟨hgt, huid⟩ := by simpa using h
    have halone' : g ∈ tenantFlights s f.tenant := List.mem_filter.mpr ⟨hg, decide_eq_true hgt⟩
    rw [halone] at halone'
    exact huid (by rw [List.mem_singleton.mp halone'])
  by_cases hhalts : halts v.status = true
  · have hring : completeClause s f v = haltRing (endClause s f v) f.tenant f.prio := if_pos hhalts
    obtain ⟨hmem, hkept, owed, hhalted⟩ := haltRing_of_none_left (prio := f.prio) hnone
    rw [hring]
    refine ⟨?_, (hended.of_halted hmem hkept hhalted).notified, ?_⟩
    · unfold tenantFlights
      rw [hkept]
      exact hnone
    · rw [hhalted, hhalts, Bool.or_true]
      exact bit_or_shift _ hprio
  · have hring : completeClause s f v = endClause s f v := if_neg hhalts
    rw [hring, Bool.eq_false_iff.mpr hhalts, Bool.or_false]
    refine ⟨hnone, hended.notified, ?_⟩
    rw [hafter]
    rfl

end

/-- Settles O37: a store of outputs leaves the clusters, and the end of a clause takes it out of flight, writes its notice and halts its ring. -/
theorem writeBackAndCompletion : Obligations.WriteBackAndCompletion := by
  refine ⟨fun k j h s hhalf hjob hchecked => outWriteBack_stores hhalf hjob hchecked, fun t tag f s htag hclears => ⟨fun hstop hwaiting hnone hverb => ?_,
    fun v hstop hquiet hwrites hprio hstatus hcan halone => ?_⟩⟩
  · exact clauseComplete_done htag hclears (execClauseComplete_of_done htag hstop hwaiting hnone hverb)
  · exact ⟨_, execClauseComplete_of_stopped htag hstop hquiet hwrites, completeClause_of_stopped htag hclears hprio hstatus hcan halone⟩

end Sys2Proof.Machine

/-!
Clusters wake and go dormant (R551, R552), and an awake one takes the best slot that is rung (R318, R419).
-/

namespace Sys2Proof.Machine

/-! ## The best slot (R318) -/

/-- The better of a slot chosen before and a further one: the earlier one of the better class. -/
def betterSlot (a x : Slot) : Slot := if x.prio < a.prio then x else a

theorem bestSlot_cons (a : Slot) (l : List Slot) : bestSlot (a :: l) = some (l.foldl betterSlot a) := by
  have hstep : ∀ (l : List Slot) (a : Slot), l.foldl (fun acc x => acc.elim (some x) (fun a => some (betterSlot a x))) (some a)
      = some (l.foldl betterSlot a) := by
    intro l
    induction l with
    | nil => exact fun _ => rfl
    | cons x rest ih => exact fun a => ih (betterSlot a x)
  rw [← hstep]
  unfold bestSlot
  refine List.foldl_ext _ _ _ (fun acc x _ => ?_)
  cases acc with
  | none => rfl
  | some a => exact (apply_ite some _ _ _).symm

theorem foldl_betterSlot (l : List Slot) : ∀ (a sl : Slot), l.foldl betterSlot a = sl →
    (sl = a ∨ sl ∈ l) ∧ sl.prio ≤ a.prio ∧ ∀ x ∈ l, sl.prio ≤ x.prio := by
  induction l with
  | nil =>
    intro a sl h
    have heq : a = sl := h
    exact ⟨.inl heq.symm, heq ▸ le_refl _, by simp⟩
  | cons y rest ih =>
    intro a sl h
    by_cases hlt : y.prio < a.prio
    · rw [List.foldl_cons, show betterSlot a y = y from if_pos hlt] at h
      obtain ⟨hmem, hle, hrest⟩ := ih y sl h
      refine ⟨.inr (List.mem_cons.mpr hmem), by omega, fun x hx => ?_⟩
      rcases List.mem_cons.mp hx with rfl | hx
      · exact hle
      · exact hrest x hx
    · rw [List.foldl_cons, show betterSlot a y = a from if_neg hlt] at h
      obtain ⟨hmem, hle, hrest⟩ := ih a sl h
      refine ⟨hmem.imp_right (List.mem_cons_of_mem _), hle, fun x hx => ?_⟩
      rcases List.mem_cons.mp hx with rfl | hx
      · omega
      · exact hrest x hx

theorem bestSlot_best {l : List Slot} {sl : Slot} (h : bestSlot l = some sl) : sl ∈ l ∧ ∀ x ∈ l, sl.prio ≤ x.prio := by
  cases l with
  | nil => cases h
  | cons a rest =>
    obtain ⟨hmem, hle, hrest⟩ := foldl_betterSlot rest a sl (Option.some.inj ((bestSlot_cons a rest).symm.trans h))
    refine ⟨List.mem_cons.mpr hmem, fun x hx => ?_⟩
    rcases List.mem_cons.mp hx with rfl | hx
    · exact hle
    · exact hrest x hx

/-- A slot that is not taken and whose doorbell is rung. -/
def rungSlot (c : Cluster) (sl : Slot) : Bool := !sl.taken && (((c.bells.getD sl.prio {}).slots >>> sl.number) &&& 1) = 1

theorem nextTake_best {c : Cluster} {sl : Slot} (h : nextTake c = some sl) :
    sl ∈ c.slots ∧ rungSlot c sl = true ∧ ∀ x ∈ c.slots, rungSlot c x = true → sl.prio ≤ x.prio := by
  obtain ⟨hmem, hbest⟩ := bestSlot_best (l := c.slots.filter (rungSlot c)) h
  obtain ⟨hin, hrung⟩ := List.mem_filter.mp hmem
  exact ⟨hin, hrung, fun x hx hr => hbest x (List.mem_filter.mpr ⟨hx, hr⟩)⟩

/-! ## Waking and going dormant (R551, R552) -/

theorem wakeDone_cluster_same (s : State) (k : Nat) : (wakeDone s k).cluster k
    = { s.cluster k with awake := true, wakeAt := none, idleSince := s.nowUs, avfs := wakeAvfs (s.cluster k).avfs (dormantStep s k) } := by
  unfold wakeDone
  dsimp only
  rw [holdRail_cluster, State.cluster_modCluster_same]

theorem wakeDone_cluster_other (s : State) {k q : Nat} (h : q ≠ k) : (wakeDone s k).cluster q = s.cluster q := by
  unfold wakeDone
  dsimp only
  rw [holdRail_cluster, State.cluster_modCluster_other _ _ _ _ h]

theorem wakeDone_railMv (s : State) (k : Nat) : ((wakeDone s k).field (fieldOfLogical k)).railMv = railFor (wakeDone s k) (fieldOfLogical k) := by
  unfold wakeDone
  dsimp only
  rw [holdRail_railMv]
  exact railFor_congr rfl _

/-- A cluster that has gone dormant. -/
def sleptCluster (c : Cluster) : Cluster := { c with awake := false, wakeAt := none, avfs := sleepAvfs c.avfs }

theorem execClusterDormant_next {k : Fin 1680} {s : State} {n : Nat} (hlimit : idleLimit s k = some n) (hawake : (s.cluster k).awake = true)
    (hslots : (s.cluster k).slots = []) (hbells : ∀ b ∈ (s.cluster k).bells, b.slots = 0) (hheld : (s.cluster k).held = none)
    (hsaved : (s.cluster k).saved = []) (hidle : (s.cluster k).idleSince + n ≤ s.nowUs) :
    exec (.clusterDormant k) s = .next (holdRail (s.setCluster k (sleptCluster (s.cluster k))) (fieldOfLogical k)) := by
  refine Eq.trans (b := execClusterDormant k s) rfl ?_
  unfold execClusterDormant
  dsimp only
  rw [hlimit]
  refine if_pos ?_
  simpa [hawake, hslots, hheld, hsaved, hidle] using hbells

/-! ## SLOT_TAKE (R318, R419) -/

theorem execSlotTake_next {k : Fin 1680} {sl : Slot} {s : State} (hawake : (s.cluster k).awake = true) (hnext : nextTake (s.cluster k) = some sl) :
    exec (.slotTake k) s = .next (s.setCluster k (takeSlot (s.cluster k) sl)) := by
  refine Eq.trans (b := execSlotTake k s) rfl ?_
  unfold execSlotTake
  dsimp only
  rw [hnext]
  exact if_pos hawake

theorem takeSlot_bells_same (c : Cluster) (sl : Slot) :
    ((takeSlot c sl).bells.getD sl.prio {}).slots = (c.bells.getD sl.prio {}).slots &&& ~~~ (1#8 <<< sl.number) := by
  rw [List.getD_eq_getElem?_getD, List.getD_eq_getElem?_getD, show (takeSlot c sl).bells = modAt c.bells sl.prio _ from rfl, getElem?_modAt]
  cases c.bells[sl.prio]? with
  | none => exact (BitVec.zero_and (x := ~~~ (1#8 <<< sl.number))).symm
  | some b => exact congrArg Doorbell.slots (if_pos (c := sl.prio = sl.prio) rfl)

theorem takeSlot_bells_other (c : Cluster) (sl : Slot) {p : Nat} (h : p ≠ sl.prio) : (takeSlot c sl).bells.getD p {} = c.bells.getD p {} := by
  rw [List.getD_eq_getElem?_getD, List.getD_eq_getElem?_getD, show (takeSlot c sl).bells = modAt c.bells sl.prio _ from rfl, getElem?_modAt]
  simp only [if_neg h, Option.map_id']

/-- Settles O27: a wake powers the one domain and moves its rail, and the slot taken is the first of the best class that is rung. -/
theorem clustersWakeAndTakeSlots : Obligations.ClustersWakeAndTakeSlots := by
  refine ⟨fun k s => ⟨fun husable hfenced hdormant hwanted => ?_, fun hready husable hfenced hdormant hrung => ?_,
    fun n hlimit hawake hslots hbells hheld hsaved hidle => ?_⟩, fun k sl s hawake hnext => ?_⟩
  · have hexec : exec (.clusterWake k) s = .next (wakeDone s k) := if_pos (by simpa [husable, hfenced, hdormant] using hwanted)
    have hcluster := wakeDone_cluster_same s k
    refine ⟨_, hexec, ?_, ?_, ?_, ?_, ?_, wakeDone_railMv s k, fun q hq => wakeDone_cluster_other s hq, rfl, rfl, rfl⟩
    all_goals rw [hcluster]
    rfl
  · have hexec : exec (.polledWake k) s = .next (wakeDone s k) := if_pos (by simpa [hready, husable, hfenced, hdormant] using hrung)
    have hcluster := wakeDone_cluster_same s k
    refine ⟨_, hexec, ?_, ?_, fun q hq => wakeDone_cluster_other s hq, rfl, rfl, rfl⟩
    all_goals rw [hcluster]
    rfl
  · have hcluster : (holdRail (s.setCluster k (sleptCluster (s.cluster k))) (fieldOfLogical k)).cluster k = sleptCluster (s.cluster k) :=
      s.cluster_setCluster_same k _
    refine ⟨_, execClusterDormant_next hlimit hawake hslots hbells hheld hsaved hidle, ?_, ?_, ?_, ?_, fun q hq => ?_, rfl, rfl, rfl⟩
    · rw [hcluster]
      rfl
    · rw [hcluster]
      rfl
    · rw [hcluster]
      rfl
    · rw [hcluster]
      rfl
    · rw [holdRail_cluster, State.cluster_setCluster_other _ _ _ _ hq]
  · obtain ⟨hin, -, hbest⟩ := nextTake_best hnext
    have hcluster := s.cluster_setCluster_same k (takeSlot (s.cluster k) sl)
    refine ⟨_, execSlotTake_next hawake hnext, hin, fun x hx htaken hrung => hbest x hx ?_, ?_, ?_, fun p hp => ?_,
      fun q hq => State.cluster_setCluster_other _ _ _ _ hq, rfl, rfl, rfl⟩
    · unfold rungSlot
      rw [htaken, decide_eq_true hrung]
      rfl
    · rw [hcluster]
      rfl
    · rw [hcluster]
      exact takeSlot_bells_same _ _
    · rw [hcluster]
      exact takeSlot_bells_other _ _ hp

end Sys2Proof.Machine

/-!
A pass commits its updates into the conflict queues (R178, R179), and a bank's combining stage adds up to four of them (R180, R181).
-/

namespace Sys2Proof.Machine

/-- The exact sum of the updates of one accumulator entry. -/
def updateSum (us : List (Nat × Int)) (key : Nat) : Int := ((us.filter (fun u => u.1 = key)).map (fun u => u.2)).sum

theorem foldl_updates (us : List (Nat × Int)) (a : Int) : us.foldl (fun a u => a + u.2) a = a + (us.map (fun u => u.2)).sum := by
  induction us generalizing a with
  | nil => simp
  | cons u rest ih => rw [List.foldl_cons, ih, List.map_cons, List.sum_cons, Int.add_assoc]

/-! ## Commit (R178, R179) -/

/-- The bank in whose queue the updates of an entry wait. -/
def bankOf (key : Nat) : Nat := key % 128 % 32

theorem tget_enqueue (us : List (Nat × Int)) (c : Cluster) (b : Nat) :
    tget [] (enqueue c us).queues b = tget [] c.queues b ++ us.filter (fun u => bankOf u.1 = b) := by
  have hfold : ∀ (us : List (Nat × Int)) (qs : Tab (List (Nat × Int))),
      tget [] (us.foldl (fun q u => tmod [] q (bankOf u.1) (fun l => l ++ [u])) qs) b = tget [] qs b ++ us.filter (fun u => bankOf u.1 = b) := by
    intro us
    induction us with
    | nil => simp
    | cons u rest ih =>
      intro qs
      rw [List.foldl_cons, ih, List.filter_cons]
      by_cases hb : bankOf u.1 = b
      · rw [if_pos (decide_eq_true hb), tmod, hb, tget_tset_same, List.append_assoc]
        rfl
      · rw [if_neg (by simpa using hb), tmod, tget_tset_other _ _ _ _ _ (fun h => hb h.symm)]
  exact hfold us c.queues

theorem partialSum_eq (c : Cluster) (key : Nat) :
    partialSum c key = tget 0 c.unit.acc key + updateSum (tget [] c.queues (bankOf key)) key := foldl_updates _ _

theorem updateSum_append (us vs : List (Nat × Int)) (key : Nat) : updateSum (us ++ vs) key = updateSum us key + updateSum vs key := by
  unfold updateSum
  rw [List.filter_append, List.map_append, List.sum_append]

/-- Every update of an entry goes to that entry's bank. -/
theorem updateSum_bank (us : List (Nat × Int)) (key : Nat) : updateSum (us.filter (fun u => bankOf u.1 = bankOf key)) key = updateSum us key := by
  unfold updateSum
  rw [List.filter_filter]
  congr 2
  refine List.filter_congr (fun u _ => ?_)
  by_cases h : u.1 = key
  · simp [h]
  · simp [h]

/-- What both branches agree on. -/
theorem ite_agree {α β : Type} {P : Prop} [Decidable P] (g : α → β) {a b : α} {z : β} (ha : g a = z) (hb : g b = z) :
    g (if P then a else b) = z := by
  split
  · exact ha
  · exact hb

theorem testVector_inFlight (j : Job) (t : Tile) (cl : Cluster) (r : TileRun) (v : Nat) (cols : List Nat) (first : Bool) (effect : Nat) :
    (testVector j t cl r v cols first effect).inFlight = r.inFlight := by
  unfold testVector
  refine foldl_keeps (fun x => x.inFlight = r.inFlight) _ (fun x c h => ?_) cols r rfl
  refine ite_agree TileRun.inFlight h ?_
  dsimp only
  generalize testOutput _ _ _ _ _ = outcome
  cases outcome with
  | none => exact h
  | some high => exact h

/-- What a commit changes: the queues take the pass's updates, INEXACT may be set, and the pass is no longer in flight. -/
theorem commitPass_eq (j : Job) (t : Tile) (c : Cluster) (r : TileRun) (p : PassRef) :
    ∃ r' i, commitPass j t c r p = { c with queues := (enqueue c p.updates).queues, unit := { c.unit with inexact := i }, run := some r' }
      ∧ r'.inFlight = r.inFlight.erase p := by
  exact ⟨_, _, rfl, ite_agree TileRun.inFlight rfl (testVector_inFlight _ _ _ _ _ _ _ _)⟩

theorem commitPass_partialSum (j : Job) (t : Tile) (c : Cluster) (r : TileRun) (p : PassRef) (key : Nat) :
    partialSum (commitPass j t c r p) key = partialSum c key + updateSum p.updates key := by
  obtain ⟨r', i, heq, -⟩ := commitPass_eq j t c r p
  rw [heq, partialSum_eq, partialSum_eq]
  dsimp only
  rw [tget_enqueue, updateSum_append, updateSum_bank, Int.add_assoc]

theorem passCommit_commits {k : Fin 1680} {j : Job} {r : TileRun} {t : Tile} {p : PassRef} {s : State} (hrun : currentRun s k = some (j, r))
    (htile : tileAt j r.l2 r.l1 = some t) (hdue : dueCommit (s.cluster k) r = some p) :
    exec (.passCommit k) s = .next (s.setCluster k (commitPass j t (s.cluster k) r p)) := by
  refine Eq.trans (b := execPassCommit k s) rfl ?_
  unfold execPassCommit
  rw [hrun]
  dsimp only
  rw [htile, hdue]

/-! ## Combine (R180, R181) -/

theorem addUpdate_acc (u : AccUnit) (key key' : Nat) (v : Int) :
    tget 0 (addUpdate u key v).acc key' = if key' = key then satAcc (tget 0 u.acc key + v) else tget 0 u.acc key' := by
  unfold addUpdate
  dsimp only
  split
  · next h => rw [h, tget_tset_same]
  · next h => rw [tget_tset_other _ _ _ _ _ h]

/-- Sums of different entries, added one after another. -/
theorem foldl_addUpdate (sumOf : Nat → Int) (keys : List Nat) : ∀ (u : AccUnit), keys.Nodup →
    let u' := (keys.map (fun k => (k, sumOf k))).foldl (fun u e => addUpdate u e.1 e.2) u
    (∀ key, tget 0 u'.acc key = if key ∈ keys then satAcc (tget 0 u.acc key + sumOf key) else tget 0 u.acc key)
      ∧ (u'.sat = true ↔ (u.sat = true ∨ ∃ key ∈ keys, satHit (tget 0 u.acc key + sumOf key) = true)) := by
  induction keys with
  | nil => exact fun u _ => ⟨fun key => by simp, by simp⟩
  | cons k rest ih =>
    intro u hnodup
    obtain ⟨hout, hrest⟩ := List.nodup_cons.mp hnodup
    obtain ⟨hacc, hsat⟩ := ih (addUpdate u k (sumOf k)) hrest
    have hkept : ∀ key ∈ rest, tget 0 (addUpdate u k (sumOf k)).acc key = tget 0 u.acc key := fun key hkey => by
      rw [addUpdate_acc, if_neg (by rintro rfl; exact hout hkey)]
    refine ⟨fun key => ?_, ?_⟩
    · rw [List.map_cons, List.foldl_cons, hacc]
      by_cases hkey : key ∈ rest
      · rw [if_pos hkey, if_pos (List.mem_cons_of_mem _ hkey), hkept key hkey]
      · rw [if_neg hkey, addUpdate_acc]
        by_cases hk : key = k
        · rw [if_pos hk, if_pos (List.mem_cons.mpr (.inl hk)), hk]
        · rw [if_neg hk, if_neg (fun h => (List.mem_cons.mp h).elim hk hkey)]
    · rw [List.map_cons, List.foldl_cons, hsat, show (addUpdate u k (sumOf k)).sat = (u.sat || satHit (tget 0 u.acc k + sumOf k)) from rfl,
        Bool.or_eq_true, or_assoc]
      refine or_congr Iff.rfl ⟨fun h => ?_, fun ⟨key, hkey, hhit⟩ => ?_⟩
      · rcases h with hhit | ⟨key, hkey, hhit⟩
        · exact ⟨k, List.mem_cons_self, hhit⟩
        · exact ⟨key, List.mem_cons_of_mem _ hkey, by rwa [hkept key hkey] at hhit⟩
      · rcases List.mem_cons.mp hkey with rfl | hkey
        · exact .inl hhit
        · exact .inr ⟨key, hkey, by rwa [hkept key hkey]⟩

theorem combined_eq (us : List (Nat × Int)) : combined us = ((us.map (fun u => u.1)).dedup).map (fun k => (k, updateSum us k)) := by
  unfold combined updateSum
  refine List.map_congr_left (fun k _ => ?_)
  rw [foldl_updates, Int.zero_add]

/-- Settles O29: a commit appends its updates to their banks' queues, and a combine adds the sums of different entries. -/
theorem passesCommitAndCombine : Obligations.PassesCommitAndCombine := by
  refine ⟨fun k j r t p s hrun htile hdue => ?_, fun k b s => ?_⟩
  · obtain ⟨r', i, heq, hflight⟩ := commitPass_eq j t (s.cluster k) r p
    have hcluster := s.cluster_setCluster_same k (commitPass j t (s.cluster k) r p)
    refine ⟨_, r', passCommit_commits hrun htile hdue, ?_, hflight, ?_, fun key => ?_, rfl, rfl, fun q hq => State.cluster_setCluster_other _ _ _ _ hq⟩
    · rw [hcluster, heq]
    · rw [hcluster, heq]
    · rw [hcluster]
      exact commitPass_partialSum j t (s.cluster k) r p key
  · have hcluster := s.cluster_setCluster_same k (combineBank (s.cluster k) b)
    obtain ⟨hacc, hsat⟩ := foldl_addUpdate (updateSum ((tget [] (s.cluster k).queues b).take 4))
      ((((tget [] (s.cluster k).queues b).take 4).map (fun u => u.1)).dedup) (s.cluster k).unit (List.nodup_dedup _)
    rw [← combined_eq] at hacc hsat
    simp only [List.mem_dedup] at hacc hsat
    refine ⟨_, rfl, ?_, fun c hc => ?_, fun key => ?_, ?_, rfl, rfl, fun c hc => State.cluster_setCluster_other _ _ _ _ hc⟩
    · rw [hcluster]
      exact tget_tset_same _ _ _ _
    · rw [hcluster]
      exact tget_tset_other _ _ _ _ _ hc
    · rw [hcluster]
      exact hacc key
    · rw [hcluster]
      exact hsat

end Sys2Proof.Machine

/-!
What carrying out a verb on its members comes to (06): which state its body starts from, what a read, a write and its end change, and what a stop on
every member leaves.
-/

namespace Sys2Proof.Machine

/-! ## Slots are taken (R419) -/

/-- From s to s' every cluster has changed in its slots and doorbells only, and nothing else has. -/
def SlotsTaken (s s' : State) : Prop :=
  (∃ cs, s' = { s with clusters := cs }) ∧ ∀ k, ∃ sl b, s'.cluster k = { s.cluster k with slots := sl, bells := b }

theorem SlotsTaken.refl (s : State) : SlotsTaken s s := ⟨⟨s.clusters, rfl⟩, fun k => ⟨(s.cluster k).slots, (s.cluster k).bells, rfl⟩⟩

theorem SlotsTaken.trans {a b c : State} (hab : SlotsTaken a b) (hbc : SlotsTaken b c) : SlotsTaken a c := by
  obtain ⟨⟨cs, hb⟩, hbs⟩ := hab
  obtain ⟨⟨cs', hc⟩, hcs⟩ := hbc
  refine ⟨⟨cs', by rw [hc, hb]⟩, fun k => ?_⟩
  obtain ⟨sl, be, hk⟩ := hbs k
  obtain ⟨sl', be', hk'⟩ := hcs k
  exact ⟨sl', be', by rw [hk', hk]⟩

theorem execSlotTake_slotsTaken (k : Nat) (s : State) : SlotsTaken s (after (execSlotTake k s) s) := by
  unfold execSlotTake
  dsimp only
  split
  · next sl _ =>
    split
    · refine ⟨⟨_, rfl⟩, fun q => ?_⟩
      by_cases hq : q = k
      · rw [hq]
        exact ⟨_, _, s.cluster_setCluster_same k _⟩
      · exact ⟨_, _, s.cluster_setCluster_other k q _ hq⟩
    · exact .refl s
  · exact .refl s

theorem takeAll_slotsTaken (s : State) (k : Nat) : SlotsTaken s (takeAll s k) :=
  foldl_keeps (SlotsTaken s) _ (fun a _ h => h.trans (execSlotTake_slotsTaken k a)) _ s (.refl s)

theorem foldl_takeAll_slotsTaken (s : State) (ks : List Nat) : SlotsTaken s (ks.foldl takeAll s) :=
  foldl_keeps (SlotsTaken s) _ (fun a k h => h.trans (takeAll_slotsTaken a k)) ks s (.refl s)

/-! ## The state in which a verb's body starts -/

/-- A verb stands ready: from s to s1 its members' slots have been taken and it has started. -/
structure Standing (s : State) (f : Flight) (s1 : State) (j : Job) : Prop where
  nostop : f.stop = none
  job : j.f = f
  member : j.k ∈ f.waiting
  flight : flightOf s1 f.uid = some { f with started := true }
  rest : ∃ cs fl, s1 = { s with clusters := cs, work := { s.work with flights := fl } }
  clusters : ∀ k, ∃ sl b, s1.cluster k = { s.cluster k with slots := sl, bells := b }

theorem VerbStands.standing {s : State} {t : Nat} {tag : BitVec 16} {ok : Clause → Bool} {isReady : State → Flight → Bool} {f : Flight} {s1 : State}
    {j : Job} (h : VerbStands s t tag ok isReady f s1 j) : Standing s f s1 j := by
  obtain ⟨hverb, hflight, hready, rfl, hjobs⟩ := h
  obtain ⟨⟨cs, hstate⟩, hclusters⟩ := foldl_takeAll_slotsTaken s f.waiting
  have hjob : j ∈ jobsOf (markStarted (f.waiting.foldl takeAll s) f.uid) f := by rw [hjobs]; exact List.mem_singleton_self j
  obtain ⟨k, hk, hjk⟩ := List.mem_filterMap.mp hjob
  obtain ⟨hf, rfl⟩ := jobFor_parts hjk
  refine ⟨?_, hf, hk, ?_, ⟨cs, _, by rw [hstate]; rfl⟩, hclusters⟩
  · unfold verbFlight at hverb
    split at hverb
    · cases hverb
    · split at hverb
      · next hstart =>
        cases hverb
        simp only [Bool.and_eq_true, mayStart, Option.isNone_iff_eq_none] at hstart
        obtain ⟨⟨⟨-, ⟨hstop, -⟩, -⟩, -⟩, -⟩ := hstart
        exact hstop
      · cases hverb
  · unfold markStarted
    rw [flightOf_modFlight _ _ _ _ (by intro g; rfl), flightOf_congr (s := s) (by rw [hstate]), hflight]
    exact congrArg some (if_pos rfl)

theorem onVerb_next {s : State} {t : Nat} {tag : BitVec 16} {ok : Clause → Bool} {isReady : State → Flight → Bool} {f : Flight} {s1 : State}
    {j : Job} (h : VerbStands s t tag ok isReady f s1 j) (body : State → Flight → List Job → State) :
    onVerb s t tag ok isReady body = .next (body s1 f [j]) := by
  obtain ⟨hverb, hflight, hready, rfl, hjobs⟩ := h
  unfold onVerb
  rw [hverb]
  dsimp only
  rw [if_pos hready]
  exact congrArg (fun js => Host.Outcome.next (body _ f js)) hjobs

/-- The clause of a standing verb is of that verb. -/
theorem VerbStands.words {s : State} {t : Nat} {tag : BitVec 16} {ok : Clause → Bool} {isReady : State → Flight → Bool} {f : Flight} {s1 : State}
    {j : Job} (h : VerbStands s t tag ok isReady f s1 j) : ok f.words = true := by
  obtain ⟨hverb, -⟩ := h
  unfold verbFlight at hverb
  split at hverb
  · cases hverb
  · split at hverb
    · next hok =>
      cases hverb
      simp only [Bool.and_eq_true] at hok
      obtain ⟨⟨⟨hok, -⟩, -⟩, -⟩ := hok
      exact hok
    · cases hverb

section
variable {s : State} {f : Flight} {s1 : State} {j : Job} (h : Standing s f s1 j)
include h

theorem Standing.mem : s1.mem = s.mem := by obtain ⟨cs, fl, heq⟩ := h.rest; rw [heq]
theorem Standing.tenants : s1.tenants = s.tenants := by obtain ⟨cs, fl, heq⟩ := h.rest; rw [heq]
theorem Standing.touches : s1.work.touches = s.work.touches := by obtain ⟨cs, fl, heq⟩ := h.rest; rw [heq]

end

/-! ## The accesses on record (R293) -/

/-- A state with other accesses on record. -/
def withTouches (ts : List Touch) (s : State) : State := { s with work := { s.work with touches := ts } }

/-- Writes commute with a change of the state that they neither read nor make. -/
theorem putAll_commutes {φ : State → State} (hput : ∀ s g b, putByte (φ s) g b = φ (putByte s g b)) (hbyte : ∀ s g, byteAt (φ s) g = byteAt s g)
    (hclear : ∀ s ws, clearWholeLines (φ s) ws = φ (clearWholeLines s ws)) (s : State) (ws : List (Nat × Nat × Nat)) :
    putAll (φ s) ws = φ (putAll s ws) := by
  have hbits : ∀ a w, putBits (φ a) w = φ (putBits a w) := fun a w =>
    List.foldl_hom φ (l := List.range (ceilDiv (w.1 % 8 + w.2.1) 8)) (init := a) (fun b i => by
      rw [hbyte]
      exact hput b _ (mergeByte (byteAt b (w.1 / 8 + i)) (w.1 / 8 + i) w.1 w.2.1 w.2.2))
  unfold putAll
  rw [List.foldl_hom φ (g₁ := putBits) (g₂ := putBits) hbits]
  exact hclear _ ws

theorem putAll_withTouches (ts : List Touch) (s : State) (ws : List (Nat × Nat × Nat)) : putAll (withTouches ts s) ws = withTouches ts (putAll s ws) :=
  putAll_commutes (φ := withTouches ts) (fun s g b => by
    unfold putByte
    split
    · rfl
    · rfl) (fun _ _ => rfl) (fun _ _ => rfl) s ws

/-- A state with other clusters. -/
def withClusters (cs : Tab Cluster) (s : State) : State := { s with clusters := cs }

theorem putAll_withClusters (cs : Tab Cluster) (s : State) (ws : List (Nat × Nat × Nat)) :
    putAll (withClusters cs s) ws = withClusters cs (putAll s ws) :=
  putAll_commutes (φ := withClusters cs) (fun s g b => by
    unfold putByte
    split
    · rfl
    · rfl) (fun _ _ => rfl) (fun _ _ => rfl) s ws

/-- An access of a clause meets none of its own. -/
theorem racedBytes_of_own {s : State} {u : Nat} {write : Bool} (rs : List (Nat × Nat)) (h : ∀ t ∈ s.work.touches, t.who = .clause u) :
    racedBytes s (.clause u) write rs = [] := by
  have hnone : s.work.touches.filter (unordered s (.clause u) write) = [] := by
    rw [List.filter_eq_nil_iff]
    intro t ht
    unfold unordered
    rw [h t ht]
    simp
  unfold racedBytes
  rw [hnone]
  rfl

theorem race_of_own {s : State} {u : Nat} {write : Bool} (rs : List (Nat × Nat)) (h : ∀ t ∈ s.work.touches, t.who = .clause u) :
    race s u write rs = withTouches (s.work.touches ++ [{ who := .clause u, write := write, bytes := rs.map rangeBytes }]) s := by
  unfold race
  rw [racedBytes_of_own rs h]
  rfl

theorem raceWrite_mem_of_own {s : State} {f : Flight} (ws : List (Nat × Nat × Nat)) (h : ∀ t ∈ s.work.touches, t.who = .clause f.uid) :
    (raceWrite s f ws).mem = s.mem := by
  unfold raceWrite
  split
  · rfl
  · rw [race_of_own _ h]
    rfl

theorem storeOutputs_mem {s : State} (j : Job) (ws : List (Nat × Nat × Nat)) (h : ∀ t ∈ s.work.touches, t.who = .clause j.f.uid) :
    (storeOutputs s j .clean ws).mem = (putAll s (ws.filter (fun w => !remote s (w.1 / 8)))).mem := by
  have hnear : (raceWrite (applyEcc (putAll s (ws.filter (fun w => !remote s (w.1 / 8)))) j.k .clean
      (mergeRanges s (ws.filter (fun w => !remote s (w.1 / 8))))) j.f (ws.filter (fun w => !remote s (w.1 / 8)))).mem
      = (putAll s (ws.filter (fun w => !remote s (w.1 / 8)))).mem := by
    refine raceWrite_mem_of_own _ (fun t ht => h t ?_)
    rwa [show (applyEcc (putAll s (ws.filter (fun w => !remote s (w.1 / 8)))) j.k .clean
      (mergeRanges s (ws.filter (fun w => !remote s (w.1 / 8))))).work = s.work from (putAll_memOnly s _).work] at ht
  unfold storeOutputs
  exact foldl_keeps (fun a => a.mem = (putAll s (ws.filter (fun w => !remote s (w.1 / 8)))).mem) _
    (fun a g ha => (issueRequest_mem a j 1 g _).trans ha) _ _ hnear

/-- What a clause stores does not depend on its own accesses before. -/
theorem storeOutputs_withTouches {s : State} {j : Job} {ts : List Touch} (ws : List (Nat × Nat × Nat)) (hs : s.work.touches = [])
    (ht : ∀ t ∈ ts, t.who = .clause j.f.uid) : (storeOutputs (withTouches ts s) j .clean ws).mem = (storeOutputs s j .clean ws).mem := by
  rw [storeOutputs_mem j ws (s := withTouches ts s) ht, storeOutputs_mem j ws (by rw [hs]; simp),
    show (fun w : Nat × Nat × Nat => !remote (withTouches ts s) (w.1 / 8)) = fun w => !remote s (w.1 / 8) from rfl, putAll_withTouches]
  rfl

/-! ## A walk's reads and writes -/

/-- The access that a read of a clause leaves on record. -/
def readTouch (j : Job) (rs : List (Nat × Nat)) : Touch := { who := .clause j.f.uid, write := false, bytes := rs.map rangeBytes }

/-- An allowed read of a clause whose accesses alone are on record adds one. -/
theorem walkRead_of_ok {s : State} {j : Job} (l2 : Nat) {rs : List (Nat × Nat)} (hown : ∀ t ∈ s.work.touches, t.who = .clause j.f.uid)
    (hok : checkReads s j .clean rs = .ok) :
    walkRead { s := s, ecc := .clean } j l2 rs = { s := withTouches (s.work.touches ++ [readTouch j rs]) s, ecc := .clean } := by
  have hrace := race_of_own (write := false) rs hown
  unfold walkRead
  rw [if_neg (by simp)]
  dsimp only
  rw [hok]
  exact congrArg (fun a => ({ s := a, ecc := .clean } : Walk)) hrace

theorem walkWrite_of_ok {s : State} {j : Job} (l2 : Nat) {ws : List (Nat × Nat × Nat)} (hok : checkWrites s j .clean ws = .ok) :
    walkWrite { s := s, ecc := .clean } j l2 ws = { s := storeOutputs s j .clean ws, ecc := .clean } := by
  unfold walkWrite
  rw [if_neg (by simp)]
  dsimp only
  rw [hok]
  rfl

theorem neededFirst_of_ok (s : State) (ls : List (Job × Landing)) (h : ∀ e ∈ ls, e.2 = .ok) : neededFirst s ls = none := by
  unfold neededFirst
  dsimp only
  rw [if_pos]
  rw [List.isEmpty_iff, List.filter_eq_nil_iff]
  intro e he
  rw [h e he]
  simp

theorem neededFirst_single {s : State} {j : Job} {x : Landing} (h : x = .ok) : neededFirst s [(j, x)] = none :=
  neededFirst_of_ok s _ (fun e he => by rw [List.mem_singleton.mp he]; exact h)

theorem checkReads_withTouches (ts : List Touch) (s : State) (j : Job) (rs : List (Nat × Nat)) :
    checkReads (withTouches ts s) j .clean rs = checkReads s j .clean rs := rfl

theorem checkWrites_withTouches (ts : List Touch) (s : State) (j : Job) (ws : List (Nat × Nat × Nat)) :
    checkWrites (withTouches ts s) j .clean ws = checkWrites s j .clean ws := rfl

/-! ## A verb that is done -/

theorem endVerb_eq (s : State) (f : Flight) :
    ∃ cs, endVerb s f = modFlight { s with clusters := cs } f.uid (fun f => { f with waiting := [], done := true })
      ∧ ∀ k, ∃ sl, (endVerb s f).cluster k = { s.cluster k with slots := sl } := by
  have hkept : (∃ cs, f.waiting.foldl (fun s k => markFinished s k f.uid) s = { s with clusters := cs })
      ∧ ∀ k, ∃ sl, (f.waiting.foldl (fun s k => markFinished s k f.uid) s).cluster k = { s.cluster k with slots := sl } := by
    refine foldl_keeps (fun a => (∃ cs, a = { s with clusters := cs }) ∧ ∀ k, ∃ sl, a.cluster k = { s.cluster k with slots := sl })
      (fun s k => markFinished s k f.uid) ?_ _ s ⟨⟨_, rfl⟩, fun k => ⟨_, rfl⟩⟩
    rintro a q ⟨⟨cs, rfl⟩, hclusters⟩
    refine ⟨⟨_, rfl⟩, fun k => ?_⟩
    obtain ⟨sl, hk⟩ := hclusters k
    by_cases hq : k = q
    · rw [hq] at hk ⊢
      refine ⟨sl.map (fun x => if x.uid = f.uid then { x with finished := true } else x), (State.cluster_modCluster_same _ q _).trans ?_⟩
      rw [hk]
      rfl
    · exact ⟨sl, (State.cluster_modCluster_other _ q k _ hq).trans hk⟩
  obtain ⟨⟨cs, heq⟩, hclusters⟩ := hkept
  refine ⟨cs, ?_, hclusters⟩
  unfold endVerb
  rw [heq]

theorem endVerb_tenants (s : State) (f : Flight) : (endVerb s f).tenants = s.tenants := by
  obtain ⟨cs, heq, -⟩ := endVerb_eq s f
  rw [heq]
  rfl

/-- A verb whose clause runs unstopped is done with the status bits that were noted. -/
theorem endVerb_done {s : State} {f g : Flight} {sat inexact clip : Bool} (hg : flightOf s f.uid = some g) (hstop : g.stop = none)
    (hstarted : g.started = true) (hsat : g.sat = (f.sat || sat)) (hinexact : g.inexact = (f.inexact || inexact)) (hclip : g.clip = (f.clip || clip)) :
    VerbDone (endVerb s f) f sat inexact clip := by
  obtain ⟨cs, heq, -⟩ := endVerb_eq s f
  refine ⟨{ g with waiting := [], done := true }, ?_, rfl, rfl, hstop, hstarted, hsat, hinexact, hclip⟩
  have hsame : flightOf { s with clusters := cs } f.uid = some g := (flightOf_congr rfl _).trans hg
  rw [heq, flightOf_modFlight _ _ _ _ (by intro g; rfl), hsame]
  exact congrArg some (if_pos (flightOf_uid hg))

theorem endVerb_done_clean {s : State} {f : Flight} (hg : flightOf s f.uid = some { f with started := true }) (hstop : f.stop = none) :
    VerbDone (endVerb s f) f false false false :=
  endVerb_done hg hstop rfl (Bool.or_false _).symm (Bool.or_false _).symm (Bool.or_false _).symm

/-! ## A verb that is stopped (R411) -/

/-- A member that a clause leaves without a flush: it does not own the cluster, or no output waits for its group. -/
def Flushless (uid : Nat) (c : Cluster) : Prop := c.owner ≠ some uid ∨ c.forming = []

theorem flushMember_of_flushless {s : State} {k uid : Nat} (h : Flushless uid (s.cluster k)) : flushMember s k uid = s := by
  rcases h with howner | hforming
  · unfold flushMember
    split
    · rfl
    · exact if_neg howner
  · exact flushMember_of_none_forming uid hforming

theorem flushless_dropped (uid : Nat) (c : Cluster) : Flushless uid (droppedCluster uid c) := by
  refine .inl ?_
  unfold droppedCluster
  dsimp only
  split
  · exact fun hn => nomatch hn
  · next howner => exact fun ho => howner (decide_eq_true ho)

theorem dropMember_of_flushless {s : State} {k uid : Nat} (h : Flushless uid (s.cluster k)) :
    dropMember s k uid = modFlight (s.modCluster k (droppedCluster uid)) uid (fun f => { f with waiting := f.waiting.erase k }) := by
  unfold dropMember
  rw [flushMember_of_flushless h]
  rfl

/-- Dropping members without a flush changes clusters and flights only. -/
theorem foldl_dropMember_membersOnly {uid : Nat} (ks : List Nat) : ∀ (s : State), (∀ k ∈ ks, Flushless uid (s.cluster k)) →
    MembersOnly s (ks.foldl (fun s k => dropMember s k uid) s) := by
  induction ks with
  | nil => exact fun s _ => .refl s
  | cons k rest ih =>
    intro s h
    have hfirst := dropMember_of_flushless (h k List.mem_cons_self)
    refine MembersOnly.trans (b := dropMember s k uid) ?_ (ih _ (fun q hq => ?_))
    · rw [hfirst]
      exact (modCluster_membersOnly s k _).trans (modFlight_membersOnly _ uid _)
    · rw [hfirst]
      have hsame : (modFlight (s.modCluster k (droppedCluster uid)) uid (fun f => { f with waiting := f.waiting.erase k })).cluster q
          = (s.modCluster k (droppedCluster uid)).cluster q := rfl
      rw [hsame]
      by_cases hqk : q = k
      · rw [hqk, State.cluster_modCluster_same]
        exact flushless_dropped _ _
      · rw [State.cluster_modCluster_other _ _ _ _ hqk]
        exact h q (List.mem_cons_of_mem _ hq)

/-- Outputs that are flushed leave the stop and the members that a clause waits for. -/
theorem flushMember_flight {s : State} {k uid : Nat} {g : Flight} (hg : flightOf s uid = some g) :
    ∃ clip, flightOf (flushMember s k uid) uid = some { g with clip := clip } := by
  unfold flushMember
  split
  · exact ⟨_, hg⟩
  · next j hj =>
    split
    · unfold flushForming
      dsimp only
      split
      · exact ⟨_, hg⟩
      · rw [flightOf_modFlight _ _ _ _ (by intro g; rfl), flightOf_congr (s := s) (by rw [deliver_flights]; rfl), hg]
        refine ⟨_, congrArg some (if_pos ?_)⟩
        rw [(jobOf_parts hj).1, flightOf_uid hg]
    · exact ⟨_, hg⟩

theorem dropMember_flight {s : State} {k uid : Nat} {g : Flight} (hg : flightOf s uid = some g) :
    ∃ clip, flightOf (dropMember s k uid) uid = some { g with waiting := g.waiting.erase k, clip := clip } := by
  obtain ⟨clip, hflush⟩ := flushMember_flight (k := k) hg
  refine ⟨clip, ?_⟩
  unfold dropMember
  rw [flightOf_modFlight _ _ _ _ (by intro g; rfl)]
  refine (congrArg (Option.map _) (Eq.trans (flightOf_congr rfl uid) hflush)).trans ?_
  exact congrArg some (if_pos (flightOf_uid hg))

theorem diff_self {α : Type} [DecidableEq α] (l : List α) : l.diff l = [] := by
  induction l with
  | nil => rfl
  | cons a rest ih => rw [List.diff_cons, List.erase_cons_head, ih]

theorem foldl_dropMember_flight {uid : Nat} (ks : List Nat) : ∀ (s : State) (g : Flight), flightOf s uid = some g →
    ∃ clip, flightOf (ks.foldl (fun s k => dropMember s k uid) s) uid = some { g with waiting := g.waiting.diff ks, clip := clip } := by
  induction ks with
  | nil => exact fun s g hg => ⟨_, hg⟩
  | cons k rest ih =>
    intro s g hg
    obtain ⟨clip, hfirst⟩ := dropMember_flight (k := k) hg
    obtain ⟨clip', hrest⟩ := ih _ _ hfirst
    exact ⟨clip', by rw [List.foldl_cons, hrest, List.diff_cons]⟩

theorem stopVerb_stops {s : State} {f : Flight} (v : Verdict) (hg : flightOf s f.uid = some { f with started := true }) (hstop : f.stop = none) :
    VerbStopped (stopVerb s f v) f v := by
  have hstopped : flightOf (stopClause s f.uid v) f.uid = some { f with stop := some v, started := true } := by
    unfold stopClause
    rw [flightOf_modFlight _ _ _ _ (by intro g; split <;> rfl), hg]
    simp [hstop]
  obtain ⟨clip, hend⟩ := foldl_dropMember_flight f.waiting _ _ hstopped
  exact ⟨_, hend, diff_self f.waiting, rfl⟩

theorem stopVerb_membersOnly {s : State} {f : Flight} (v : Verdict) (h : ∀ k ∈ f.waiting, Flushless f.uid (s.cluster k)) :
    MembersOnly s (stopVerb s f v) :=
  (modFlight_membersOnly s f.uid _).trans (foldl_dropMember_membersOnly f.waiting (stopClause s f.uid v) h)

/-- What every cluster keeps of its LUT slots and its held state when members are dropped. -/
theorem dropMember_keeps (s : State) (k uid q : Nat) :
    ((dropMember s k uid).cluster q).luts = (s.cluster q).luts ∧ ((dropMember s k uid).cluster q).held = (s.cluster q).held := by
  have hmod : ∀ (a : State) (p : Nat) (g : Cluster → Cluster), (∀ c, (g c).luts = c.luts ∧ (g c).held = c.held) →
      ((a.modCluster p g).cluster q).luts = (a.cluster q).luts ∧ ((a.modCluster p g).cluster q).held = (a.cluster q).held := by
    intro a p g hg
    by_cases hq : q = p
    · rw [hq, State.cluster_modCluster_same]
      exact hg _
    · rw [State.cluster_modCluster_other _ _ _ _ hq]
      exact ⟨rfl, rfl⟩
  have hflush : ((flushMember s k uid).cluster q).luts = (s.cluster q).luts ∧ ((flushMember s k uid).cluster q).held = (s.cluster q).held := by
    unfold flushMember
    split
    · exact ⟨rfl, rfl⟩
    · next j _ =>
      split
      · unfold flushForming
        dsimp only
        split
        · exact ⟨rfl, rfl⟩
        · have hcleared := hmod s j.k (fun c => { c with forming := [] }) (fun _ => ⟨rfl, rfl⟩)
          generalize s.modCluster j.k (fun c => { c with forming := [] }) = a at hcleared ⊢
          generalize (formGroups s j (requantOf j) _ (s.cluster j.k).forming [] true).1 = ws
          obtain hdone | ⟨hs, hdone⟩ := deliver_cases a j _ ws
          · rw [show ∀ x g, (modFlight x j.f.uid g).cluster q = x.cluster q from fun _ _ => rfl, hdone.cluster]
            exact hcleared
          · rw [show ∀ x g, (modFlight x j.f.uid g).cluster q = x.cluster q from fun _ _ => rfl, hdone]
            have hput := hmod a j.k (fun c => { c with outHalf := hs }) (fun _ => ⟨rfl, rfl⟩)
            exact ⟨hput.1.trans hcleared.1, hput.2.trans hcleared.2⟩
      · exact ⟨rfl, rfl⟩
  have hdrop := hmod (flushMember s k uid) k (droppedCluster uid) (fun _ => ⟨rfl, rfl⟩)
  exact ⟨hdrop.1.trans hflush.1, hdrop.2.trans hflush.2⟩

theorem stopVerb_keeps (s : State) (f : Flight) (v : Verdict) (q : Nat) :
    ((stopVerb s f v).cluster q).luts = (s.cluster q).luts ∧ ((stopVerb s f v).cluster q).held = (s.cluster q).held :=
  foldl_keeps (fun a : State => (a.cluster q).luts = (s.cluster q).luts ∧ (a.cluster q).held = (s.cluster q).held) _ (fun a k h => by
    obtain ⟨hluts, hheld⟩ := dropMember_keeps a k f.uid q
    exact ⟨hluts.trans h.1, hheld.trans h.2⟩) _ _ ⟨rfl, rfl⟩

end Sys2Proof.Machine

/-!
The untiled verbs (R157 to R160, R277, R279, R287): PUMP of bytes, MASKLOAD and LUTLOAD.
-/

namespace Sys2Proof.Machine

/-! ## What an untiled verb comes to on one member -/

section
variable {s : State} {f : Flight} {s1 : State} {j : Job} (h : Standing s f s1 j) (htouches : s.work.touches = [])
include h

/-- A verb that has read and written as it may is done: memory holds its writes. -/
theorem Standing.endVerb_written {s2 : State} (hstored : OutputsOnly s1 s2) :
    VerbDone (endVerb s2 f) f false false false ∧ (endVerb s2 f).tenants = s.tenants := by
  have hflight : flightOf s2 f.uid = some { f with started := true } := (flightOf_congr hstored.flights _).trans h.flight
  exact ⟨endVerb_done_clean hflight h.nostop, (endVerb_tenants s2 f).trans (hstored.tenants.trans h.tenants)⟩

/-- A verb that stops before it has written leaves memory as it was. -/
theorem Standing.stopVerb_unwritten {ts : List Touch} (v : Verdict) :
    VerbStopped (stopVerb (withTouches ts s1) f v) f v
      ∧ ((stopVerb (withTouches ts s1) f v).cluster j.k).luts = (s.cluster j.k).luts
      ∧ ((stopVerb (withTouches ts s1) f v).cluster j.k).held = (s.cluster j.k).held
      ∧ ((∀ k ∈ f.waiting, Flushless f.uid (s.cluster k)) → (stopVerb (withTouches ts s1) f v).mem = s.mem) := by
  obtain ⟨hluts, hheld⟩ := stopVerb_keeps (withTouches ts s1) f v j.k
  obtain ⟨sl, b, hcluster⟩ := h.clusters j.k
  refine ⟨stopVerb_stops v h.flight h.nostop, hluts.trans (congrArg Cluster.luts hcluster :), hheld.trans (congrArg Cluster.held hcluster :), fun hflush => ?_⟩
  have honly : MembersOnly (withTouches ts s1) (stopVerb (withTouches ts s1) f v) := stopVerb_membersOnly v (fun k hk => by
    obtain ⟨sl', b', hk'⟩ := h.clusters k
    rw [show (withTouches ts s1).cluster k = s1.cluster k from rfl, hk']
    exact hflush k hk)
  obtain ⟨cs, fl, heq⟩ := honly
  rw [heq]
  exact h.mem

include htouches

theorem Standing.own (t : Touch) (ht : t ∈ s1.work.touches) : t.who = .clause j.f.uid := by
  rw [h.touches, htouches] at ht
  exact absurd ht List.not_mem_nil

theorem Standing.walkRead (l2 : Nat) {rs : List (Nat × Nat)} (hok : checkReads s1 j .clean rs = .ok) :
    Sys2Proof.Machine.walkRead { s := s1, ecc := .clean } j l2 rs = { s := withTouches [readTouch j rs] s1, ecc := .clean } := by
  have hread := walkRead_of_ok l2 (h.own htouches) hok
  rw [h.touches, htouches] at hread
  exact hread

theorem Standing.storeOutputs_read (rs : List (Nat × Nat)) (ws : List (Nat × Nat × Nat)) :
    (storeOutputs (withTouches [readTouch j rs] s1) j .clean ws).mem = (storeOutputs s1 j .clean ws).mem :=
  storeOutputs_withTouches ws (h.touches.trans htouches) (fun t ht => by rw [List.mem_singleton.mp ht]; rfl)

variable {reads : State → Job → List (Nat × Nat)} {work : State → Job → TileOut} (hreads : checkReads s1 j .clean (reads s1 j) = .ok)
  (hwrites : checkWrites s1 j .clean (work s1 j).writes = .ok) (hsame : ∀ ts, work (withTouches ts s1) j = work s1 j)
include hreads hwrites hsame

theorem Standing.untiled_done (hfault : (work s1 j).fault = none) :
    untiled reads work .clean s1 f [j] = endVerb (storeOutputs (withTouches [readTouch j (reads s1 j)] s1) j .clean (work s1 j).writes) f := by
  have hread := h.walkRead htouches 0xFFFFFFFF hreads
  unfold untiled
  rw [List.map_singleton, neededFirst_single hreads]
  dsimp only
  rw [List.map_singleton, neededFirst_single hwrites]
  dsimp only
  rw [List.foldl_cons, List.foldl_nil]
  dsimp only
  rw [hread]
  dsimp only
  rw [if_neg (by simp), hsame, hfault]
  exact congrArg (fun w => walkEnd w f) (walkWrite_of_ok (s := withTouches [readTouch j (reads s1 j)] s1) 0xFFFFFFFF hwrites)

theorem Standing.untiled_stopped {v : Verdict} (hfault : (work s1 j).fault = some v) :
    untiled reads work .clean s1 f [j] = stopVerb (withTouches [readTouch j (reads s1 j)] s1) f v := by
  have hread := h.walkRead htouches 0xFFFFFFFF hreads
  unfold untiled
  rw [List.map_singleton, neededFirst_single hreads]
  dsimp only
  rw [List.map_singleton, neededFirst_single hwrites]
  dsimp only
  rw [List.foldl_cons, List.foldl_nil]
  dsimp only
  rw [hread]
  dsimp only
  rw [if_neg (by simp), hsame, hfault]
  rfl

/-- An untiled verb whose accesses are allowed and which makes no fault stores its writes and is done. -/
theorem Standing.untiled_stores (hfault : (work s1 j).fault = none) :
    (untiled reads work .clean s1 f [j]).mem = (storeOutputs s1 j .clean (work s1 j).writes).mem
      ∧ VerbDone (untiled reads work .clean s1 f [j]) f false false false ∧ (untiled reads work .clean s1 f [j]).tenants = s.tenants := by
  rw [h.untiled_done htouches hreads hwrites hsame hfault]
  refine ⟨(endVerb_mem _ f).trans (h.storeOutputs_read htouches _ _), h.endVerb_written ?_⟩
  exact OutputsOnly.trans ⟨_, _, _, _, _, _, _, rfl⟩ (storeOutputs_outputsOnly (withTouches [readTouch j (reads s1 j)] s1) j _)

end

/-! ## PUMP with OP 1 (R277) -/

theorem storeOutputs_nil {s : State} (j : Job) (h : s.work.touches = []) : (storeOutputs s j .clean []).mem = s.mem := by
  rw [storeOutputs_mem j [] (by rw [h]; simp)]
  have hlines : linesOf s [] = [] := rfl
  unfold putAll clearWholeLines
  simp [hlines]

theorem checkWrites_nil (s : State) (j : Job) : checkWrites s j .clean [] = .ok := rfl

theorem checkReads_nil (s : State) (j : Job) : checkReads s j .clean [] = .ok := rfl

/-! ## LUTLOAD (R287) -/

/-- The cluster whose LUT slot holds an image. -/
def lutLoaded (i : Nat) (lut : Word × Int × List Word) (c : Cluster) : Cluster := { c with luts := tset (0, 0, []) c.luts i lut }

section
variable {s : State} {f : Flight} {s1 : State} {j : Job} (h : Standing s f s1 j) (htouches : s.work.touches = [])
  (hreads : checkReads s1 j .clean (lutReads s1 j) = .ok)
include h htouches hreads

theorem Standing.lutBody_loads {lut : Word × Int × List Word} (hlut : readLut (bytesAt s1 (j.base s1 j.a) 1040) = some lut) :
    lutBody .clean s1 f [j] = endVerb ((withTouches [readTouch j (lutReads s1 j)] s1).modCluster j.k (lutLoaded (cLut f.words) lut)) f := by
  have hread := h.walkRead htouches 0xFFFFFFFF hreads
  unfold lutBody
  rw [List.map_singleton, neededFirst_single hreads]
  dsimp only
  unfold readMembers
  rw [List.foldl_cons, List.foldl_nil]
  dsimp only
  rw [hread]
  dsimp only
  rw [List.map_singleton, show readLut (bytesAt (withTouches [readTouch j (lutReads s1 j)] s1) (j.base (withTouches [readTouch j (lutReads s1 j)] s1) j.a) 1040)
    = some lut from hlut]
  rfl

theorem Standing.lutBody_stops (hlut : readLut (bytesAt s1 (j.base s1 j.a) 1040) = none) :
    lutBody .clean s1 f [j] = stopVerb (withTouches [readTouch j (lutReads s1 j)] s1) f (faulted fLutBad) := by
  have hread := h.walkRead htouches 0xFFFFFFFF hreads
  unfold lutBody
  rw [List.map_singleton, neededFirst_single hreads]
  dsimp only
  unfold readMembers
  rw [List.foldl_cons, List.foldl_nil]
  dsimp only
  rw [hread]
  dsimp only
  rw [List.map_singleton, show readLut (bytesAt (withTouches [readTouch j (lutReads s1 j)] s1) (j.base (withTouches [readTouch j (lutReads s1 j)] s1) j.a) 1040)
    = none from hlut]
  rfl

end

/-! ## The untiled verbs -/

theorem pumpCopy_withTouches (ts : List Touch) (s : State) (j : Job) : pumpCopy (withTouches ts s) j = pumpCopy s j := rfl

theorem maskTile_withTouches (ts : List Touch) (s : State) (j : Job) : maskTile (withTouches ts s) j = maskTile s j := rfl

section
variable {t : Fin 16} {tag : BitVec 16} {f : Flight} {s1 s : State} {j : Job} (htouches : s.work.touches = [])
include htouches

theorem pumpBytes_stores {ws : List (Nat × Nat × Nat)} (h : VerbStands s t tag (fun c => cVerb c = 8 && cOp c = 1) untiledReady f s1 j)
    (hreads : checkReads s1 j .clean (pumpReads s1 j) = .ok) (hcopy : pumpCopy s1 j = { writes := ws }) (hwrites : checkWrites s1 j .clean ws = .ok) :
    ∃ s', exec (.pumpBytes t ⟨tag, .clean⟩) s = .next s' ∧ s'.mem = (storeOutputs s1 j .clean ws).mem ∧ VerbDone s' f false false false
      ∧ s'.tenants = s.tenants := by
  have hstored := h.standing.untiled_stores htouches (work := pumpCopy) hreads (by rw [hcopy]; exact hwrites) (fun ts => pumpCopy_withTouches ts s1 j)
    (by rw [hcopy])
  rw [hcopy] at hstored
  exact ⟨_, onVerb_next h _, hstored⟩

theorem maskload_loads {c : Instr} {op : Nat} (hc : (c = .maskloadS24 t ⟨tag, .clean⟩ ∧ op = 0) ∨ (c = .maskloadS24T t ⟨tag, .clean⟩ ∧ op = 1))
    (h : VerbStands s t tag (fun c => cVerb c = 0x11 && cOp c = op) untiledReady f s1 j) (hreads : checkReads s1 j .clean (maskReads s1 j) = .ok)
    (hwrites : checkWrites s1 j .clean (maskTile s1 j).writes = .ok) :
    ((maskTile s1 j).fault = none →
      ∃ s', exec c s = .next s' ∧ s'.mem = (storeOutputs s1 j .clean (maskTile s1 j).writes).mem ∧ VerbDone s' f false false false
        ∧ s'.tenants = s.tenants)
    ∧ (∀ v, (maskTile s1 j).fault = some v → (∀ k ∈ f.waiting, (s.cluster k).forming = []) →
      ∃ s', exec c s = .next s' ∧ s'.mem = s.mem ∧ VerbStopped s' f v) := by
  have hexec : exec c s = .next (untiled maskReads maskTile .clean s1 f [j]) := by
    rcases hc with ⟨rfl, rfl⟩ | ⟨rfl, rfl⟩
    · exact onVerb_next h _
    · exact onVerb_next h _
  have hsame := fun ts => maskTile_withTouches ts s1 j
  refine ⟨fun hfault => ⟨_, hexec, h.standing.untiled_stores htouches hreads hwrites hsame hfault⟩, fun v hfault hforming => ⟨_, hexec, ?_⟩⟩
  obtain ⟨hstopped, -, -, hmem⟩ := h.standing.stopVerb_unwritten (ts := [readTouch j (maskReads s1 j)]) v
  rw [h.standing.untiled_stopped htouches hreads hwrites hsame hfault]
  exact ⟨hmem (fun k hk => .inr (hforming k hk)), hstopped⟩

theorem lutload_loads (h : VerbStands s t tag (fun c => cVerb c = 0x12) untiledReady f s1 j) (hreads : checkReads s1 j .clean (lutReads s1 j) = .ok)
    {lut : Word × Int × List Word} (hlut : readLut (bytesAt s1 (j.base s1 j.a) 1040) = some lut) :
    ∃ s', exec (.lutload t ⟨tag, .clean⟩) s = .next s' ∧ tget (0, 0, []) (s'.cluster j.k).luts (cLut f.words) = lut ∧ s'.mem = s.mem
      ∧ (∀ i, i ≠ cLut f.words → tget (0, 0, []) (s'.cluster j.k).luts i = tget (0, 0, []) (s.cluster j.k).luts i)
      ∧ VerbDone s' f false false false ∧ s'.tenants = s.tenants := by
  have hstands := h.standing
  obtain ⟨sl, b, hcluster⟩ := hstands.clusters j.k
  generalize hloaded : (withTouches [readTouch j (lutReads s1 j)] s1).modCluster j.k (lutLoaded (cLut f.words) lut) = s2
  obtain ⟨cs, heq, hclusters⟩ := endVerb_eq s2 f
  obtain ⟨sl', hended⟩ := hclusters j.k
  have hluts : ((endVerb s2 f).cluster j.k).luts = tset (0, 0, []) (s.cluster j.k).luts (cLut f.words) lut := by
    rw [hended, ← hloaded]
    dsimp only
    rw [State.cluster_modCluster_same, show (withTouches [readTouch j (lutReads s1 j)] s1).cluster j.k = s1.cluster j.k from rfl, hcluster]
    rfl
  have hflight : flightOf s2 f.uid = some { f with started := true } := by
    rw [← hloaded]
    exact hstands.flight
  refine ⟨endVerb s2 f, ?_, ?_, ?_, fun i hi => ?_, endVerb_done_clean hflight hstands.nostop, ?_⟩
  · rw [← hloaded, ← hstands.lutBody_loads htouches hreads hlut]
    exact onVerb_next h _
  · rw [hluts, tget_tset_same]
  · rw [endVerb_mem, ← hloaded]
    exact hstands.mem
  · rw [hluts, tget_tset_other _ _ _ _ _ hi]
  · rw [endVerb_tenants, ← hloaded]
    exact hstands.tenants

theorem lutload_stops (h : VerbStands s t tag (fun c => cVerb c = 0x12) untiledReady f s1 j) (hreads : checkReads s1 j .clean (lutReads s1 j) = .ok)
    (hlut : readLut (bytesAt s1 (j.base s1 j.a) 1040) = none) :
    ∃ s', exec (.lutload t ⟨tag, .clean⟩) s = .next s' ∧ VerbStopped s' f { status := 2, reason := 0x030A }
      ∧ (s'.cluster j.k).luts = (s.cluster j.k).luts := by
  obtain ⟨hstopped, hluts, -, -⟩ := h.standing.stopVerb_unwritten (ts := [readTouch j (lutReads s1 j)]) (faulted fLutBad)
  have hexec := onVerb_next h (lutBody .clean)
  rw [h.standing.lutBody_stops htouches hreads hlut] at hexec
  exact ⟨_, hexec, hstopped, hluts⟩

end

/-- Settles O42: an untiled verb reads, stores its writes and is done, or a fault of its source stops it with nothing written. -/
theorem untiledVerbs : Obligations.UntiledVerbs := by
  intro t tag f s1 s j htouches
  refine ⟨fun h => ⟨fun hcount => ?_, fun hcount => ?_⟩, fun c op hc h hreads hwrites => maskload_loads htouches hc h hreads hwrites,
    fun h hreads => ⟨fun lut hlut => lutload_loads htouches h hreads hlut, fun hlut => lutload_stops htouches h hreads hlut⟩⟩
  · intro ws hreads hwrites
    refine pumpBytes_stores htouches h ?_ (if_neg hcount) hwrites
    rw [show pumpReads s1 j = [(j.base s1 j.a * 8, 8 * pumpCount j.c)] from if_neg hcount]
    exact hreads
  · obtain ⟨s', hexec, hmem, hrest⟩ := pumpBytes_stores htouches h
      (by rw [show pumpReads s1 j = [] from if_pos hcount]; exact checkReads_nil s1 j) (if_pos hcount) (checkWrites_nil s1 j)
    refine ⟨s', hexec, hmem.trans ?_, hrest⟩
    rw [storeOutputs_nil j (h.standing.touches.trans htouches)]
    exact h.standing.mem

end Sys2Proof.Machine

/-!
SAVE and RESTORE (R285, R286): a held context goes to memory and is released, and an image that is good is held again.
-/

namespace Sys2Proof.Machine

section
variable {s : State} {f : Flight} {s1 : State} {j : Job} (h : Standing s f s1 j)
include h

theorem Standing.held : (s1.cluster j.k).held = (s.cluster j.k).held := by
  obtain ⟨sl, b, hcluster⟩ := h.clusters j.k
  rw [hcluster]

end

/-! ## SAVE (R285) -/

theorem releaseHeld_held (c : Cluster) : (releaseHeld c).held = none := by
  unfold releaseHeld
  split
  · rfl
  · next hnone => exact Option.not_isSome_iff_eq_none.mp hnone

theorem releaseHeld_free {c : Cluster} (h : c.held ≠ none) : (releaseHeld c).owner = none ∧ (releaseHeld c).unit = {} := by
  unfold releaseHeld
  rw [if_pos (Option.isSome_iff_ne_none.mpr h)]
  exact ⟨rfl, rfl⟩

/-- A verb that ends with a cluster's held state released. -/
theorem released_done {s1 s2 : State} {f : Flight} {k : Nat} (hflight : flightOf s2 f.uid = some { f with started := true }) (hstop : f.stop = none)
    (hcluster : s2.cluster k = s1.cluster k) :
    ((endVerb (s2.modCluster k releaseHeld) f).cluster k).held = none ∧ (endVerb (s2.modCluster k releaseHeld) f).mem = s2.mem
      ∧ ((s1.cluster k).held ≠ none → ((endVerb (s2.modCluster k releaseHeld) f).cluster k).owner = none
        ∧ ((endVerb (s2.modCluster k releaseHeld) f).cluster k).unit = {})
      ∧ VerbDone (endVerb (s2.modCluster k releaseHeld) f) f false false false := by
  obtain ⟨cs, -, hclusters⟩ := endVerb_eq (s2.modCluster k releaseHeld) f
  obtain ⟨sl, hended⟩ := hclusters k
  rw [State.cluster_modCluster_same, hcluster] at hended
  rw [hended]
  exact ⟨releaseHeld_held _, endVerb_mem _ f, releaseHeld_free, endVerb_done_clean hflight hstop⟩

section
variable {s1 : State} {f : Flight} {j : Job}

theorem saveBody_discards (hdiscard : bit (word f.words 8) 0 = true) : saveBody .clean s1 f [j] = endVerb (s1.modCluster j.k releaseHeld) f := by
  unfold saveBody
  exact if_pos hdiscard

variable (hkeep : bit (word f.words 8) 0 = false)
include hkeep

theorem saveBody_saves (hspace : (saveImage s1 [j] j).length ≤ nStride j.out 0) (hwrites : checkWrites s1 j .clean (saveWrites s1 [j] j) = .ok) :
    saveBody .clean s1 f [j] = endVerb ((storeOutputs s1 j .clean (saveWrites s1 [j] j)).modCluster j.k releaseHeld) f := by
  have hroom : ([j].any (fun j' => decide (nStride j'.out 0 < (saveImage s1 [j] j').length))) = false := by
    simp only [List.any_cons, List.any_nil, Bool.or_false]
    exact decide_eq_false (Nat.not_lt.mpr hspace)
  unfold saveBody
  dsimp only
  rw [if_neg (by rw [hkeep]; simp), hroom, if_neg (by simp), List.map_singleton, neededFirst_single hwrites]
  dsimp only
  rw [List.foldl_cons, List.foldl_nil, walkWrite_of_ok 0xFFFFFFFF hwrites]
  rfl

theorem saveBody_stops (hspace : nStride j.out 0 < (saveImage s1 [j] j).length) : saveBody .clean s1 f [j] = stopVerb s1 f (faulted fSaveSpace) := by
  have hroom : ([j].any (fun j' => decide (nStride j'.out 0 < (saveImage s1 [j] j').length))) = true := by
    simp only [List.any_cons, List.any_nil, Bool.or_false]
    exact decide_eq_true hspace
  unfold saveBody
  dsimp only
  rw [if_neg (by rw [hkeep]; simp), hroom, if_pos rfl]

end

/-- The image that SAVE writes for a cluster that holds a context. -/
theorem saveImage_of_held {s1 : State} {j : Job} {x : Held} (h : (s1.cluster j.k).held = some x) :
    saveImage s1 [j] j = contextImage (s1.cluster j.k).unit j.f.tenant (s1.tenant j.f.tenant).epoch.toNat x.l2 := by
  have hhead : (heldStates (s1.cluster j.k)).head? = some (x, (s1.cluster j.k).unit) := by
    unfold heldStates
    rw [h]
    rfl
  unfold saveImage
  rw [hhead]

theorem saveImage_of_none {s1 : State} {j : Job} (h : heldStates (s1.cluster j.k) = []) :
    saveImage s1 [j] j = contextImage {} j.f.tenant (s1.tenant j.f.tenant).epoch.toNat 0 := by
  have hregion : regionHeld s1 [j] = none := by
    unfold regionHeld
    rw [List.findSome?_cons, h]
    rfl
  unfold saveImage
  rw [h, hregion]
  rfl

section
variable {t : Fin 16} {tag : BitVec 16} {f : Flight} {s1 s : State} {j : Job}
  (h : VerbStands s t tag (fun c => cVerb c = 0x0F) untiledReady f s1 j)
include h

theorem save_discards (hdiscard : bit (word f.words 8) 0 = true) :
    ∃ s', exec (.save t ⟨tag, .clean⟩) s = .next s' ∧ (s'.cluster j.k).held = none ∧ s'.mem = s.mem ∧ VerbDone s' f false false false := by
  have hexec := onVerb_next h (saveBody .clean)
  rw [saveBody_discards hdiscard] at hexec
  obtain ⟨hheld, hmem, -, hdone⟩ := released_done (s1 := s1) (k := j.k) h.standing.flight h.standing.nostop rfl
  exact ⟨_, hexec, hheld, hmem.trans h.standing.mem, hdone⟩

theorem save_saves (hkeep : bit (word f.words 8) 0 = false) (hspace : (saveImage s1 [j] j).length ≤ nStride j.out 0)
    (hwrites : checkWrites s1 j .clean (saveWrites s1 [j] j) = .ok) :
    ∃ s', exec (.save t ⟨tag, .clean⟩) s = .next s' ∧ (s'.cluster j.k).held = none ∧ s'.mem = (storeOutputs s1 j .clean (saveWrites s1 [j] j)).mem
      ∧ ((s1.cluster j.k).held ≠ none → (s'.cluster j.k).owner = none ∧ (s'.cluster j.k).unit = {}) ∧ VerbDone s' f false false false := by
  have hexec := onVerb_next h (saveBody .clean)
  have hstored := storeOutputs_outputsOnly s1 j (saveWrites s1 [j] j)
  rw [saveBody_saves hkeep hspace hwrites] at hexec
  exact ⟨_, hexec, released_done ((flightOf_congr hstored.flights _).trans h.standing.flight) h.standing.nostop (hstored.cluster j.k)⟩

theorem save_stops (hkeep : bit (word f.words 8) 0 = false) (hspace : nStride j.out 0 < (saveImage s1 [j] j).length)
    (hforming : ∀ k ∈ f.waiting, (s.cluster k).forming = []) :
    ∃ s', exec (.save t ⟨tag, .clean⟩) s = .next s' ∧ (s'.cluster j.k).held = (s.cluster j.k).held ∧ s'.mem = s.mem
      ∧ VerbStopped s' f { status := 2, reason := 0x0308 } := by
  have hexec := onVerb_next h (saveBody .clean)
  rw [saveBody_stops hkeep hspace] at hexec
  obtain ⟨hstopped, -, hheld, hmem⟩ := h.standing.stopVerb_unwritten (ts := s1.work.touches) (faulted fSaveSpace)
  exact ⟨_, hexec, hheld, hmem (fun k hk => .inr (hforming k hk)), hstopped⟩

end

/-! ## RESTORE (R286) -/

/-- The context that a RESTORE leaves held. -/
def restoredHeld (s : State) (j : Job) : Held :=
  { uid := j.f.uid, tenant := j.f.tenant, prio := j.f.prio, map := 0, target := img (restoreImage s j) 6 1 - 1, regionIdx := cRegion j.c
    l2 := img (restoreImage s j) 0x10 4, restored := true }

/-- The cluster on which a restored context is held. -/
def restoredCluster (s : State) (j : Job) (c : Cluster) : Cluster :=
  { c with
    owner := some j.f.uid, unit := readImage (restoreImage s j), held := some (restoredHeld s j)
    slots := c.slots.filter (fun sl => sl.uid ≠ j.f.uid) }

section
variable {s : State} {f : Flight} {s1 : State} {j : Job} (h : Standing s f s1 j) (htouches : s.work.touches = [])
  (hheader : checkReads s1 j .clean (headerReads s1 j) = .ok)
include h htouches hheader

theorem Standing.restoreBody_bad_header (hbad : headerOk j.f.tenant (restoreHeader s1 j) = false) :
    restoreBody .clean s1 f [j] = stopVerb (withTouches [readTouch j (headerReads s1 j)] s1) f (faulted fRestoreBad) := by
  have hread : readMembers headerReads { s := s1, ecc := .clean } [j] = { s := withTouches [readTouch j (headerReads s1 j)] s1, ecc := .clean } :=
    h.walkRead htouches 0xFFFFFFFF hheader
  unfold restoreBody
  rw [List.map_singleton, neededFirst_single hheader]
  dsimp only
  simp only [hread, List.all_cons, hbad, Bool.false_and]
  rfl

variable (hgood : headerOk j.f.tenant (restoreHeader s1 j) = true) (himage : checkReads s1 j .clean (imageReads s1 j) = .ok)
include hgood himage

theorem Standing.restoreBody_read {good : Bool} (hok : imageOk j.f.tenant (restoreImage s1 j) = good) :
    restoreBody .clean s1 f [j]
      = if good then endVerb (restoreMember (withTouches [readTouch j (headerReads s1 j), readTouch j (imageReads s1 j)] s1) j) f
        else stopVerb (withTouches [readTouch j (headerReads s1 j), readTouch j (imageReads s1 j)] s1) f (faulted fRestoreBad) := by
  have hread : readMembers headerReads { s := s1, ecc := .clean } [j] = { s := withTouches [readTouch j (headerReads s1 j)] s1, ecc := .clean } :=
    h.walkRead htouches 0xFFFFFFFF hheader
  have hagain : readMembers imageReads { s := withTouches [readTouch j (headerReads s1 j)] s1, ecc := .clean } [j]
      = { s := withTouches [readTouch j (headerReads s1 j), readTouch j (imageReads s1 j)] s1, ecc := .clean } :=
    walkRead_of_ok (s := withTouches [readTouch j (headerReads s1 j)] s1) 0xFFFFFFFF (fun t ht => by rw [List.mem_singleton.mp ht]; rfl) himage
  unfold restoreBody
  rw [List.map_singleton, neededFirst_single hheader]
  dsimp only
  simp only [hread, List.all_cons, List.all_nil, hgood, Bool.and_true, if_true, List.map_singleton, neededFirst_single himage]
  rw [show walkStop { s := withTouches [readTouch j (headerReads s1 j)] s1, ecc := .clean } none
    = { s := withTouches [readTouch j (headerReads s1 j)] s1, ecc := .clean } from rfl, hagain]
  cases good with
  | true =>
    simp only [hok]
    rfl
  | false =>
    simp only [hok]
    rfl

end

section
variable {t : Fin 16} {tag : BitVec 16} {f : Flight} {s1 s : State} {j : Job} (h : VerbStands s t tag (fun c => cVerb c = 0x10) restoreReady f s1 j)
include h

/-- RESTORE starts on clusters that nobody owns, so that a stop flushes nothing. -/
theorem restore_flushless : ∀ k ∈ f.waiting, Flushless f.uid (s.cluster k) := by
  obtain ⟨-, -, hready, -, -⟩ := h
  intro k hk
  obtain ⟨-, hclusters⟩ := foldl_takeAll_slotsTaken s f.waiting
  obtain ⟨sl, b, hcluster⟩ := hclusters k
  have hfree := List.all_eq_true.mp (Bool.and_eq_true_iff.mp hready).2 k hk
  rw [hcluster] at hfree
  refine .inl ?_
  rw [Option.isNone_iff_eq_none.mp hfree]
  exact fun hn => nomatch hn

theorem restore_stops {ts : List Touch} (hbody : restoreBody .clean s1 f [j] = stopVerb (withTouches ts s1) f (faulted fRestoreBad)) :
    ∃ s', exec (.restore t ⟨tag, .clean⟩) s = .next s' ∧ (s'.cluster j.k).held = (s.cluster j.k).held ∧ s'.mem = s.mem
      ∧ VerbStopped s' f { status := 2, reason := 0x0309 } := by
  have hexec := onVerb_next h (restoreBody .clean)
  rw [hbody] at hexec
  obtain ⟨hstopped, -, hheld, hmem⟩ := h.standing.stopVerb_unwritten (ts := ts) (faulted fRestoreBad)
  exact ⟨_, hexec, hheld, hmem (restore_flushless h), hstopped⟩

theorem restore_restores {ts : List Touch} (hbody : restoreBody .clean s1 f [j] = endVerb (restoreMember (withTouches ts s1) j) f) :
    ∃ s' h, exec (.restore t ⟨tag, .clean⟩) s = .next s' ∧ (s'.cluster j.k).held = some h ∧ h.restored = true ∧ h.tenant = j.f.tenant
      ∧ (s'.cluster j.k).unit = readImage (restoreImage s1 j) ∧ (s'.cluster j.k).owner = some j.f.uid ∧ s'.mem = s.mem
      ∧ VerbDone s' f false false false := by
  have hexec := onVerb_next h (restoreBody .clean)
  rw [hbody] at hexec
  generalize hrestored : restoreMember (withTouches ts s1) j = s2 at hexec
  have hcluster : s2.cluster j.k = restoredCluster s1 j (s1.cluster j.k) := by
    rw [← hrestored]
    exact State.cluster_modCluster_same _ _ _
  have hflight : flightOf s2 f.uid = some { f with started := true } := by
    rw [← hrestored]
    exact h.standing.flight
  have hmem : s2.mem = s.mem := by
    rw [← hrestored]
    exact h.standing.mem
  obtain ⟨cs, -, hclusters⟩ := endVerb_eq s2 f
  obtain ⟨sl, hended⟩ := hclusters j.k
  rw [hcluster] at hended
  refine ⟨_, restoredHeld s1 j, hexec, ?_, rfl, rfl, ?_, ?_, (endVerb_mem s2 f).trans hmem, endVerb_done_clean hflight h.standing.nostop⟩
  · rw [hended]
    rfl
  · rw [hended]
    rfl
  · rw [hended]
    rfl

end

/-- Settles O43: SAVE stores the image and releases, RESTORE holds a good image, and a small area or a bad image stops with the state as it was. -/
theorem saveAndRestore : Obligations.SaveAndRestore := by
  intro t tag f s1 s j htouches
  refine ⟨fun h => ⟨fun hdiscard => save_discards h hdiscard, fun hkeep => ?_⟩, fun h hheader => ⟨fun hbad => ?_, fun hgood himage =>
    ⟨fun hok => ?_, fun hok => ?_⟩⟩⟩
  · exact ⟨fun x hx => saveImage_of_held hx, fun hnone => saveImage_of_none hnone, fun hspace hwrites => save_saves h hkeep hspace hwrites,
      fun hspace hforming => save_stops h hkeep hspace hforming⟩
  · exact restore_stops h (h.standing.restoreBody_bad_header htouches hheader hbad)
  · exact restore_restores h (h.standing.restoreBody_read htouches hheader hgood himage hok)
  · exact restore_stops h (h.standing.restoreBody_read htouches hheader hgood himage hok)

end Sys2Proof.Machine

/-!
Verbs that go through their L2 tiles element by element (R318, R327, R328), on one member with one tile that fills whole groups: the tile reads, makes
its outputs, writes them and is done.
-/

namespace Sys2Proof.Machine

/-! ## Whole groups (R96, R168) -/

/-- Elements of which none waits are the same at the end. -/
theorem readyElems_atEnd {α : Type} (n : Noun) (ix : α → List Int) (xs : List α) (h : (readyElems n ix xs false).2 = []) :
    readyElems n ix xs true = readyElems n ix xs false := by
  have hend : readyElems n ix xs true = (xs, []) := by
    unfold readyElems
    exact if_pos (by simp)
  rw [hend]
  unfold readyElems at h ⊢
  by_cases hgrouped : grouped n = true
  · rw [if_neg (by simp [hgrouped])] at h ⊢
    dsimp only at h ⊢
    have hall := List.filter_eq_nil_iff.mp h
    rw [h, List.filter_eq_self.mpr (fun x hx => by simpa using hall x hx)]
  · rw [if_pos (by simp [hgrouped])]

theorem readyCopied_atEnd (n : Noun) (xs : List (Nat × List Int × Elem)) (h : (readyCopied n xs false).2 = []) :
    readyCopied n xs true = readyCopied n xs false := by
  have hparts : ∀ r ∈ (xs.map (fun x => x.1)).dedup,
      readyElems n (fun (x : Nat × List Int × Elem) => x.2.1) (xs.filter (fun x => x.1 = r)) true
        = readyElems n (fun (x : Nat × List Int × Elem) => x.2.1) (xs.filter (fun x => x.1 = r)) false := fun r hr => by
    refine readyElems_atEnd _ _ _ ?_
    exact List.flatMap_eq_nil_iff.mp h _ (List.mem_map.mpr ⟨r, hr, rfl⟩)
  unfold readyCopied
  dsimp only
  rw [List.map_congr_left hparts]

theorem formGroups_atEnd (s : State) (j : Job) (q : Requant) (l2 : Nat) (forming : List (Nat × OutItem)) (items : List OutItem)
    (h : (formGroups s j q l2 forming items false).2.2 = []) : formGroups s j q l2 forming items true = formGroups s j q l2 forming items false := by
  unfold formGroups at h ⊢
  dsimp only at h ⊢
  rw [readyElems_atEnd _ _ _ h]

/-- A tile of which nothing waits writes the same at the end of the clause. -/
theorem tileWrites_atEnd {pick : List (Nat × Nat × (Nat × Nat × Nat)) → List (Nat × Nat × Nat)} {s : State} {j : Job} {l2 : Nat} {o : TileOut}
    {w : Waiting} (h : (tileWrites pick s j l2 o w false).2.2 = {}) : tileWrites pick s j l2 o w true = tileWrites pick s j l2 o w false := by
  have hitems : (formGroups s j { requantOf j with eacc := o.eacc } l2 w.items o.items false).2.2 = [] := congrArg Waiting.items h
  have hcopied : (readyCopied j.out (w.copied ++ o.copied.filter (fun x => inExtents j.out x.2.1)) false).2 = [] := congrArg Waiting.copied h
  unfold tileWrites
  rw [formGroups_atEnd _ _ _ _ _ _ hitems, readyCopied_atEnd _ _ hcopied]

/-- Nothing made and nothing waiting writes nothing. -/
theorem formOutputs_nil (s : State) (j : Job) (q : Requant) : (formOutputs s j q []).1 = [] := by
  have hnone : elemWrites s j j.out [] = [] := by
    unfold elemWrites
    split
    · rfl
    · split
      · rfl
      · exact ite_self _
  unfold formOutputs
  dsimp only
  rw [List.filter_nil, List.map_nil, List.map_nil, hnone]
  split
  · rfl
  · rfl

theorem readyElems_nil {α : Type} (n : Noun) (ix : α → List Int) (atEnd : Bool) : readyElems n ix [] atEnd = ([], []) := by
  unfold readyElems
  split
  · rfl
  · rfl

theorem tileWrites_nil {pick : List (Nat × Nat × (Nat × Nat × Nat)) → List (Nat × Nat × Nat)} (hpick : pick [] = []) (s : State) (j : Job) (l2 : Nat)
    (x : Option Verdict) (atEnd : Bool) : (tileWrites pick s j l2 { fault := x } {} atEnd).1 = [] := by
  have hgroups : (formGroups s j { requantOf j with eacc := 0 } l2 [] [] atEnd).1 = [] := by
    unfold formGroups
    dsimp only
    rw [List.filter_nil, List.map_nil, List.append_nil, readyElems_nil]
    exact formOutputs_nil s j _
  have hcopied : copiedWrites s j (readyCopied j.out [] atEnd).1 = [] := by
    have hnone : (readyCopied j.out [] atEnd).1 = [] := rfl
    rw [hnone]
    unfold copiedWrites
    dsimp only
    rw [List.map_nil, List.map_nil, List.dedup_nil, ite_self]
    rfl
  unfold tileWrites
  dsimp only
  rw [List.filter_nil, List.append_nil, hgroups, hcopied, hpick]
  rfl

/-! ## One tile of one member -/

/-- A member for which nothing waits has nothing to flush. -/
theorem flushWaiting_nil {v : TileVerb} (hpick : v.pick [] = []) (j : Job) (w : Walk) : flushWaiting v j (w, {}) = w := by
  have hnone := tileWrites_nil hpick w.s j 0 none true
  unfold flushWaiting
  dsimp only
  rw [hnone]
  rfl

theorem tileWrites_withTouches (pick : List (Nat × Nat × (Nat × Nat × Nat)) → List (Nat × Nat × Nat)) (ts : List Touch) (s : State) (j : Job)
    (l2 : Nat) (o : TileOut) (w : Waiting) (atEnd : Bool) :
    tileWrites pick (withTouches ts s) j l2 o w atEnd = tileWrites pick s j l2 o w atEnd := rfl

theorem plannedWrites_single {s : State} {j : Job} {l2 : Nat} {st2 : List Nat} (htiles : tilesOf j = [(l2, st2)]) (v : TileVerb) :
    plannedWrites v s j = [(tileWrites v.pick s j l2 (v.work s j l2 st2) {} true).1] := by
  unfold plannedWrites
  rw [htiles]
  rfl

section
variable {s : State} {f : Flight} {s1 : State} {j : Job} {l2 : Nat} {st2 : List Nat} (h : Standing s f s1 j) (htouches : s.work.touches = [])
  (htiles : tilesOf j = [(l2, st2)]) {v : TileVerb} (hpick : v.pick [] = []) (hreads : checkReads s1 j .clean (v.reads s1 j st2) = .ok)
  (hsame : ∀ ts, v.work (withTouches ts s1) j l2 st2 = v.work s1 j l2 st2)

section
include htiles hreads

/-- With its accesses allowed, a verb on one member is the walk of its one tile. -/
theorem runTiles_single (hwrites : checkWrites s1 j .clean (tileWrites v.pick s1 j l2 (v.work s1 j l2 st2) {} true).1 = .ok) :
    runTiles v .clean s1 f [j] = walkEnd (flushWaiting v j (doTile v j ({ s := s1, ecc := .clean }, {}) (l2, st2))) f := by
  unfold runTiles
  rw [List.flatMap_singleton, htiles, List.map_singleton, neededFirst_single hreads]
  dsimp only
  rw [List.flatMap_singleton, plannedWrites_single htiles, List.map_singleton, neededFirst_single hwrites]
  dsimp only
  rw [List.foldl_cons, List.foldl_nil, htiles]
  rfl

end

section
include h htouches hreads hsame

theorem Standing.doTile_stores (hfault : (v.work s1 j l2 st2).fault = none)
    (hwrites : checkWrites s1 j .clean (tileWrites v.pick s1 j l2 (v.work s1 j l2 st2) {} false).1 = .ok) :
    doTile v j ({ s := s1, ecc := .clean }, {}) (l2, st2)
      = ({ s := noteBits (storeOutputs (withTouches [readTouch j (v.reads s1 j st2)] s1) j .clean
             (tileWrites v.pick s1 j l2 (v.work s1 j l2 st2) {} false).1) f (v.work s1 j l2 st2).sat (v.work s1 j l2 st2).inexact
             ((v.work s1 j l2 st2).clip || (tileWrites v.pick s1 j l2 (v.work s1 j l2 st2) {} false).2.1), ecc := .clean },
         (tileWrites v.pick s1 j l2 (v.work s1 j l2 st2) {} false).2.2) := by
  have hread := h.walkRead htouches l2 hreads
  have hwrite := walkWrite_of_ok (s := withTouches [readTouch j (v.reads s1 j st2)] s1) l2 hwrites
  unfold doTile
  dsimp only
  rw [hread]
  dsimp only
  rw [if_neg (by simp), hsame, hfault]
  dsimp only
  rw [tileWrites_withTouches, hwrite, h.job]
  rfl

theorem Standing.doTile_stops {x : Verdict} (hfault : (v.work s1 j l2 st2).fault = some x) :
    doTile v j ({ s := s1, ecc := .clean }, {}) (l2, st2)
      = ({ s := withTouches [readTouch j (v.reads s1 j st2)] s1, ecc := .clean, stop := some x }, {}) := by
  have hread := h.walkRead htouches l2 hreads
  unfold doTile
  dsimp only
  rw [hread]
  dsimp only
  rw [if_neg (by simp), hsame, hfault]
  rfl

end

include h htouches htiles hpick hreads hsame

/-- A tile of which nothing waits is written, and the verb is done with the tile's status bits. -/
theorem Standing.runTiles_stores {o : TileOut} {w : List (Nat × Nat × Nat) × Bool × Waiting} (ho : v.work s1 j l2 st2 = o)
    (hw : tileWrites v.pick s1 j l2 o {} false = w) (hfault : o.fault = none) (hrest : w.2.2 = {}) (hwrites : checkWrites s1 j .clean w.1 = .ok) :
    (runTiles v .clean s1 f [j]).mem = (storeOutputs s1 j .clean w.1).mem
      ∧ VerbDone (runTiles v .clean s1 f [j]) f o.sat o.inexact (o.clip || w.2.1) ∧ (runTiles v .clean s1 f [j]).tenants = s.tenants := by
  subst ho hw
  have hend := tileWrites_atEnd hrest
  rw [runTiles_single htiles hreads (by rw [hend]; exact hwrites), h.doTile_stores htouches hreads hsame hfault hwrites,
    hrest, flushWaiting_nil hpick]
  have hstored : OutputsOnly s1 (storeOutputs (withTouches [readTouch j (v.reads s1 j st2)] s1) j .clean
      (tileWrites v.pick s1 j l2 (v.work s1 j l2 st2) {} false).1) :=
    OutputsOnly.trans ⟨_, _, _, _, _, _, _, rfl⟩ (storeOutputs_outputsOnly (withTouches [readTouch j (v.reads s1 j st2)] s1) j _)
  have hmem := h.storeOutputs_read htouches (v.reads s1 j st2) (tileWrites v.pick s1 j l2 (v.work s1 j l2 st2) {} false).1
  generalize storeOutputs (withTouches [readTouch j (v.reads s1 j st2)] s1) j .clean
    (tileWrites v.pick s1 j l2 (v.work s1 j l2 st2) {} false).1 = s2 at hstored hmem ⊢
  refine ⟨(endVerb_mem _ f).trans hmem, ?_, (endVerb_tenants _ f).trans (hstored.tenants.trans h.tenants)⟩
  refine endVerb_done (g := { f with started := true, sat := _, inexact := _, clip := _ }) ?_ h.nostop rfl rfl rfl rfl
  unfold noteBits
  rw [flightOf_modFlight _ _ _ _ (by intro g; rfl), flightOf_congr hstored.flights, h.flight]
  exact congrArg some (if_pos rfl)

theorem Standing.runTiles_stops {x : Verdict} (hfault : v.work s1 j l2 st2 = { fault := some x }) :
    runTiles v .clean s1 f [j] = stopVerb (withTouches [readTouch j (v.reads s1 j st2)] s1) f x := by
  have hnone := tileWrites_nil hpick s1 j l2 (some x) true
  rw [runTiles_single htiles hreads (by rw [hfault, hnone]; exact checkWrites_nil s1 j),
    h.doTile_stops htouches hreads hsame (x := x) (by rw [hfault]), flushWaiting_nil hpick]
  rfl

end

end Sys2Proof.Machine

/-!
POINTWISE (R270): element by element, the operation of the two operands, saturated in accumulator units.
-/

namespace Sys2Proof.Machine

/-- The verb of a POINTWISE clause. -/
def pointVerb : TileVerb := { reads := pointReads, work := pointTile }

/-- The value that a POINTWISE clause of an operation gives for an element, before saturation. -/
def pointValue (s : State) (j : Job) (op : Nat) (i : List Nat) : Int :=
  pointOp op (operandOf s j j.a j.map.a i) (if op = 0 then 0 else operandOf s j j.b j.map.b i)

section
variable {s : State} {j : Job} (hlut : cLutEn j.c = false)
include hlut

theorem pointItem_eq (i : List Nat) : ∃ inexact, pointItem s j i
    = ({ idx := evalTerms j.map.out j.out i, ch := channelOf j i, acc := satAcc (pointValue s j (cOp j.c) i) },
       satHit (pointValue s j (cOp j.c) i), inexact) := by
  have hb : (if cOp j.c = 0 then ((0, false) : Int × Bool) else accUnits j.b (cEacc j.c) (j.elem s j.b (evalTerms j.map.b j.b i))).1
      = if cOp j.c = 0 then 0 else operandOf s j j.b j.map.b i := apply_ite Prod.fst _ _ _
  unfold pointItem pointValue
  rw [hlut]
  dsimp only
  rw [hb]
  exact ⟨_, rfl⟩

theorem pointTile_eq (l2 : Nat) (st2 : List Nat) : ∃ inexact, pointTile s j l2 st2 = {
    items := (elements j l2 st2).map (fun i =>
      { idx := evalTerms j.map.out j.out i, ch := channelOf j i, acc := satAcc (pointValue s j (cOp j.c) i) })
    eacc := pointExp j.c
    sat := (elements j l2 st2).any (fun i => satHit (pointValue s j (cOp j.c) i)), inexact := inexact } := by
  have hitem : ∀ i, (pointItem s j i).1 = { idx := evalTerms j.map.out j.out i, ch := channelOf j i, acc := satAcc (pointValue s j (cOp j.c) i) }
      ∧ (pointItem s j i).2.1 = satHit (pointValue s j (cOp j.c) i) := fun i => by
    obtain ⟨inexact, heq⟩ := pointItem_eq (s := s) hlut i
    rw [heq]
    exact ⟨rfl, rfl⟩
  unfold pointTile
  dsimp only
  simp only [List.map_map, Function.comp_def, List.any_map, hitem]
  exact ⟨_, rfl⟩

end

theorem pointTile_withTouches (ts : List Touch) (s : State) (j : Job) (l2 : Nat) (st2 : List Nat) :
    pointTile (withTouches ts s) j l2 st2 = pointTile s j l2 st2 := by
  have helem : ∀ n idx, j.elem (withTouches ts s) n idx = j.elem s n idx := fun _ _ => rfl
  have hscale : ∀ ch, scaleBias (withTouches ts s) j ch = scaleBias s j ch := fun _ => rfl
  have hcluster : ∀ k, (withTouches ts s).cluster k = s.cluster k := fun _ => rfl
  have hitem : pointItem (withTouches ts s) j = pointItem s j := by
    funext i
    unfold pointItem
    rw [helem, helem, hcluster]
    simp only [hscale]
  unfold pointTile
  rw [hitem]

section
variable {t : Fin 16} {tag : BitVec 16} {f : Flight} {s1 s : State} {j : Job} {l2 : Nat} {st2 : List Nat}

/-- A POINTWISE clause whose tile fills whole groups writes its values and is done. -/
theorem pointwise_writes {c : Instr} {op : Nat} (hc : exec c s = pointwise op t tag .clean s)
    (h : VerbStands s t tag (fun c => cVerb c = 3 && cOp c = op) tiledReady f s1 j) (htiles : tilesOf j = [(l2, st2)]) (hlut : cLutEn j.c = false)
    (htouches : s.work.touches = []) (hreads : checkReads s1 j .clean (pointReads s1 j st2) = .ok) {o : List (Nat × Nat × Nat) × Bool × Waiting}
    (ho : tileOf s1 j l2 {
      items := (elements j l2 st2).map (fun i =>
        { idx := evalTerms j.map.out j.out i, ch := channelOf j i, acc := satAcc (pointValue s1 j op i) })
      eacc := if op = 3 then 2 * cEacc j.c else cEacc j.c } = o) (hrest : o.2.2 = {}) (hwrites : checkWrites s1 j .clean o.1 = .ok) :
    ∃ s' inexact, exec c s = .next s' ∧ s'.mem = (storeOutputs s1 j .clean o.1).mem
      ∧ VerbDone s' f ((elements j l2 st2).any (fun i => satHit (pointValue s1 j op i))) inexact o.2.1 ∧ s'.tenants = s.tenants := by
  have hwords := h.words
  have hop : cOp j.c = op := by
    rw [← h.standing.job] at hwords
    exact of_decide_eq_true (Bool.and_eq_true_iff.mp hwords).2
  obtain ⟨inexact, hwork⟩ := pointTile_eq (s := s1) hlut l2 st2
  rw [hop] at hwork
  have hexp : pointExp j.c = if op = 3 then 2 * cEacc j.c else cEacc j.c := by rw [← hop]; rfl
  rw [hexp] at hwork
  obtain ⟨hmem, hdone, htenants⟩ := h.standing.runTiles_stores htouches htiles (v := pointVerb) rfl hreads
    (fun ts => pointTile_withTouches ts s1 j l2 st2) hwork ho rfl hrest hwrites
  exact ⟨_, inexact, hc.trans (onVerb_next h _), hmem, hdone, htenants⟩

end

/-- Settles O39: POINTWISE's one tile holds the operation's saturated values, is written by the rules of the requantizer, and ends the verb. -/
theorem pointwiseResults : Obligations.PointwiseResults := by
  intro t tag f s1 s j l2 st2 c op z hc h htiles hlut htouches hreads value o hrest hwrites
  have hvalue : value = pointValue s1 j op := by
    rcases hc with ⟨-, rfl, rfl⟩ | ⟨-, rfl, rfl⟩ | ⟨-, rfl, rfl⟩ | ⟨-, rfl, rfl⟩ | ⟨-, rfl, rfl⟩ | ⟨-, rfl, rfl⟩ <;> rfl
  have hexec : exec c s = pointwise op t tag .clean s := by
    rcases hc with ⟨rfl, rfl, -⟩ | ⟨rfl, rfl, -⟩ | ⟨rfl, rfl, -⟩ | ⟨rfl, rfl, -⟩ | ⟨rfl, rfl, -⟩ | ⟨rfl, rfl, -⟩ <;> rfl
  rw [hvalue]
  exact pointwise_writes hexec h htiles hlut htouches hreads (o := o) (by rw [← hvalue]) hrest hwrites

end Sys2Proof.Machine

/-!
PUMP with OP 0, COMPRESS, EXPAND, GATHER and SCATTER (R274 to R278): elements are copied to their places.
-/

namespace Sys2Proof.Machine

/-! ## What a tile copies does not depend on the accesses on record -/

section
variable (ts : List Touch) (s : State) (j : Job) (l2 : Nat) (st2 : List Nat)

theorem elem_withTouches (n : Noun) (idx : List Int) : j.elem (withTouches ts s) n idx = j.elem s n idx := rfl

theorem rowIndex_withTouches (i : Nat) : rowIndex (withTouches ts s) j i = rowIndex s j i := by
  unfold rowIndex
  rw [elem_withTouches]

theorem copiedCodes_withTouches : copiedCodes (withTouches ts s) j l2 st2 = copiedCodes s j l2 st2 := by
  unfold copiedCodes
  simp only [elem_withTouches]

theorem pumpTile_withTouches : pumpTile (withTouches ts s) j l2 st2 = pumpTile s j l2 st2 := by
  unfold pumpTile
  rw [copiedCodes_withTouches]

theorem gatherPairs_withTouches : gatherPairs (withTouches ts s) j l2 st2 = gatherPairs s j l2 st2 := by
  unfold gatherPairs
  simp only [rowIndex_withTouches]

theorem gatherTile_withTouches : gatherTile (withTouches ts s) j l2 st2 = gatherTile s j l2 st2 := by
  unfold gatherTile
  simp only [gatherPairs_withTouches, elem_withTouches]

theorem scatterPairs_withTouches : scatterPairs (withTouches ts s) j l2 st2 = scatterPairs s j l2 st2 := by
  unfold scatterPairs
  simp only [rowIndex_withTouches]

theorem scatterTile_withTouches : scatterTile (withTouches ts s) j l2 st2 = scatterTile s j l2 st2 := by
  unfold scatterTile scatterElems
  simp only [scatterPairs_withTouches, elem_withTouches]

theorem maskFault_withTouches : maskFault (withTouches ts s) j l2 st2 = maskFault s j l2 st2 := rfl

theorem filledSlot_withTouches (n : Noun) (idx : List Int) : filledSlot (withTouches ts s) j n idx = filledSlot s j n idx := rfl

theorem convertTile_withTouches : convertTile (withTouches ts s) j l2 st2 = convertTile s j l2 st2 := by
  unfold convertTile
  rw [maskFault_withTouches, copiedCodes_withTouches]
  split
  · rfl
  · exact congrArg (fun xs => ({ copied := xs } : TileOut)) (List.map_congr_left (fun e _ => by rw [filledSlot_withTouches]))

end

/-! ## PUMP, COMPRESS and EXPAND (R277, R278) -/

def pumpVerb : TileVerb := { reads := copyReads, work := pumpTile }
def convertVerb : TileVerb := { reads := copyReads, work := convertTile }
def gatherVerb : TileVerb := { reads := gatherReads, work := gatherTile }

/-- Copied elements are never clipped. -/
theorem tileWrites_copied_clip (pick : List (Nat × Nat × (Nat × Nat × Nat)) → List (Nat × Nat × Nat)) (s : State) (j : Job) (l2 : Nat)
    (xs : List (Nat × List Int × Elem)) (atEnd : Bool) : (tileWrites pick s j l2 { copied := xs } {} atEnd).2.1 = false := by
  have hforms : ∀ q, (formOutputs s j q []).2 = false := by
    intro q
    unfold formOutputs
    dsimp only
    split
    · rfl
    · rfl
  unfold tileWrites formGroups
  dsimp only
  rw [List.filter_nil, List.map_nil, List.append_nil, readyElems_nil]
  exact hforms _

section
variable {s : State} {f : Flight} {s1 : State} {j : Job} {l2 : Nat} {st2 : List Nat} (htiles : tilesOf j = [(l2, st2)])
  (htouches : s.work.touches = [])
include htiles htouches

/-- A tile that copies elements, makes no fault and fills whole groups is written, and the verb is done. -/
theorem Standing.copies (h : Standing s f s1 j) {v : TileVerb} (hpick : v.pick [] = []) (hreads : checkReads s1 j .clean (v.reads s1 j st2) = .ok)
    (hsame : ∀ ts, v.work (withTouches ts s1) j l2 st2 = v.work s1 j l2 st2) {xs : List (Nat × List Int × Elem)}
    (hwork : v.work s1 j l2 st2 = { copied := xs }) {o : List (Nat × Nat × Nat) × Bool × Waiting}
    (ho : tileWrites v.pick s1 j l2 { copied := xs } {} false = o) (hrest : o.2.2 = {}) (hwrites : checkWrites s1 j .clean o.1 = .ok) :
    (runTiles v .clean s1 f [j]).mem = (storeOutputs s1 j .clean o.1).mem ∧ VerbDone (runTiles v .clean s1 f [j]) f false false false
      ∧ (runTiles v .clean s1 f [j]).tenants = s.tenants := by
  have hclip : o.2.1 = false := by rw [← ho]; exact tileWrites_copied_clip v.pick s1 j l2 xs false
  have hstored := h.runTiles_stores htouches htiles hpick hreads hsame hwork ho rfl hrest hwrites
  rw [hclip] at hstored
  exact hstored

end

/-- A job whose nouns take their masks from X stands as the job does. -/
theorem Standing.maskJob {s : State} {f : Flight} {s1 : State} {j : Job} (h : Standing s f s1 j) : Standing s f s1 (maskJob j) :=
  ⟨h.nostop, h.job, h.member, h.flight, h.rest, h.clusters⟩

/-! ## GATHER (R274, R275) -/

theorem gatherTile_of_range {s : State} {j : Job} {l2 : Nat} {st2 : List Nat}
    (h : ∀ p ∈ gatherPairs s j l2 st2, ∀ a, p.2 = some a → a.getD 0 0 < nExt j.a 0) :
    gatherTile s j l2 st2
      = { copied := (gatherPairs s j l2 st2).map (fun e => (0, e.1, match e.2 with | some a => j.elem s j.a a | none => {})) } := by
  have hrows : (gatherPairs s j l2 st2).any (fun e => badRow j.a e.2) = false := by
    rw [List.any_eq_false]
    intro p hp
    unfold badRow
    split
    · next a ha =>
      have hrange := h p hp a ha
      simpa using hrange
    · simp
  exact if_neg (by rw [hrows]; simp)

theorem gatherTile_of_bad_row {s : State} {j : Job} {l2 : Nat} {st2 : List Nat}
    (h : ∃ p ∈ gatherPairs s j l2 st2, ∃ a, p.2 = some a ∧ (nExt j.a 0 : Int) ≤ a.getD 0 0) :
    gatherTile s j l2 st2 = { fault := some { status := 2, reason := 0x0306, l2Tile := l2 } } := by
  obtain ⟨p, hp, a, ha, hbeyond⟩ := h
  refine if_pos (List.any_eq_true.mpr ⟨p, hp, ?_⟩)
  unfold badRow
  rw [ha]
  exact decide_eq_true hbeyond

/-! ## SCATTER (R275, R276) -/

theorem scatterTile_of_range {s : State} {j : Job} {l2 : Nat} {st2 : List Nat}
    (h : ∀ p ∈ scatterPairs s j l2 st2, ∀ o, p.2.2 = some o → o.getD 0 0 < nExt j.out 0) :
    scatterTile s j l2 st2 = { copied := scatterElems s j l2 st2 } := by
  have hrows : (scatterPairs s j l2 st2).any (fun e => badRow j.out e.2.2) = false := by
    rw [List.any_eq_false]
    intro p hp
    unfold badRow
    split
    · next o ho =>
      have hrange := h p hp o ho
      simpa using hrange
    · simp
  exact if_neg (by rw [hrows]; simp)

/-- Every write of a copied element, with no granule contested. -/
def allWrites (ws : List (Nat × Nat × (Nat × Nat × Nat))) : List (Nat × Nat × Nat) := (cutRows ws).map (fun e => e.2.2)

def scatterVerb : TileVerb := { reads := scatterReads, work := scatterTile, pick := allWrites }

theorem settledWrites_of_none (ctr : Nat) : settledWrites ctr [] = allWrites := by
  funext ws
  unfold settledWrites allWrites
  exact congrArg (List.map _) (List.filter_eq_self.mpr (fun _ _ => rfl))

/-- With no granule contested, SCATTER copies as the other copies do. -/
theorem scatterBody_single {s : State} {f : Flight} {j : Job} {l2 : Nat} {st2 : List Nat} (htiles : tilesOf j = [(l2, st2)])
    (hrows : contested (cutRows (copiedWrites s j ((scatterElems s j l2 st2).filter (fun x => inExtents j.out x.2.1)))) = []) :
    scatterBody .clean s f [j] = runTiles scatterVerb .clean s f [j] := by
  unfold scatterBody
  dsimp only
  rw [List.flatMap_singleton, htiles, List.flatMap_singleton]
  dsimp only
  rw [hrows, settledWrites_of_none]
  rfl

section
variable {t : Fin 16} {tag : BitVec 16} {f : Flight} {s1 s : State} {j : Job} {l2 : Nat} {st2 : List Nat} (htiles : tilesOf j = [(l2, st2)])
  (htouches : s.work.touches = [])
include htiles htouches

theorem compressExpand_writes {c : Instr} {verb : Nat} (hc : (c = .compress t ⟨tag, .clean⟩ ∧ verb = 9) ∨ (c = .expand t ⟨tag, .clean⟩ ∧ verb = 10))
    (h : VerbStands s t tag (fun c => cVerb c = verb) tiledReady f s1 j) (hreads : checkReads s1 (maskJob j) .clean (copyReads s1 (maskJob j) st2) = .ok)
    (hmask : maskFault s1 (maskJob j) l2 st2 = none) {o : List (Nat × Nat × Nat) × Bool × Waiting}
    (ho : tileOf s1 (maskJob j) l2 {
      copied := (copiedCodes s1 (maskJob j) l2 st2).map (fun e =>
        (0, e.1, if filledSlot s1 (maskJob j) (maskJob j).out e.1 then { e.2 with code := 0 } else e.2)) } = o)
    (hrest : o.2.2 = {}) (hwrites : checkWrites s1 (maskJob j) .clean o.1 = .ok) :
    ∃ s', exec c s = .next s' ∧ s'.mem = (storeOutputs s1 (maskJob j) .clean o.1).mem ∧ VerbDone s' f false false false ∧ s'.tenants = s.tenants := by
  have hexec : exec c s = .next (runTiles convertVerb .clean s1 f [maskJob j]) := by
    rcases hc with ⟨rfl, rfl⟩ | ⟨rfl, rfl⟩
    · exact onVerb_next h (convertBody .clean)
    · exact onVerb_next h (convertBody .clean)
  have hwork : convertTile s1 (maskJob j) l2 st2 = { copied := (copiedCodes s1 (maskJob j) l2 st2).map (fun e =>
      (0, e.1, if filledSlot s1 (maskJob j) (maskJob j).out e.1 then { e.2 with code := 0 } else e.2)) } := by
    unfold convertTile
    rw [hmask]
  exact ⟨_, hexec, h.standing.maskJob.copies (j := maskJob j) htiles htouches (v := convertVerb) rfl hreads
    (fun ts => convertTile_withTouches ts s1 (maskJob j) l2 st2) hwork ho hrest hwrites⟩

theorem gather_stops (h : VerbStands s t tag (fun c => cVerb c = 6) tiledReady f s1 j) (hreads : checkReads s1 j .clean (gatherReads s1 j st2) = .ok)
    (hbad : ∃ p ∈ gatherPairs s1 j l2 st2, ∃ a, p.2 = some a ∧ (nExt j.a 0 : Int) ≤ a.getD 0 0) (hforming : ∀ k ∈ f.waiting, (s.cluster k).forming = []) :
    ∃ s', exec (.gather t ⟨tag, .clean⟩) s = .next s' ∧ s'.mem = s.mem ∧ VerbStopped s' f { status := 2, reason := 0x0306, l2Tile := l2 } := by
  have hexec := onVerb_next h (runTiles gatherVerb .clean)
  rw [h.standing.runTiles_stops htouches htiles (v := gatherVerb) rfl hreads (fun ts => gatherTile_withTouches ts s1 j l2 st2)
    (gatherTile_of_bad_row hbad)] at hexec
  obtain ⟨hstopped, -, -, hmem⟩ := h.standing.stopVerb_unwritten (ts := [readTouch j (gatherReads s1 j st2)])
    { status := 2, reason := 0x0306, l2Tile := l2 }
  exact ⟨_, hexec, hmem (fun k hk => .inr (hforming k hk)), hstopped⟩

theorem scatter_writes (h : VerbStands s t tag (fun c => cVerb c = 7) tiledReady f s1 j) (hreads : checkReads s1 j .clean (scatterReads s1 j st2) = .ok)
    (hrange : ∀ p ∈ scatterPairs s1 j l2 st2, ∀ o, p.2.2 = some o → o.getD 0 0 < nExt j.out 0)
    (hrows : contested (cutRows (copiedWrites s1 j ((scatterElems s1 j l2 st2).filter (fun x => inExtents j.out x.2.1)))) = [])
    {o : List (Nat × Nat × Nat) × Bool × Waiting} (ho : tileWrites allWrites s1 j l2 { copied := scatterElems s1 j l2 st2 } {} false = o)
    (hrest : o.2.2 = {}) (hwrites : checkWrites s1 j .clean o.1 = .ok) :
    ∃ s', exec (.scatter t ⟨tag, .clean⟩) s = .next s' ∧ s'.mem = (storeOutputs s1 j .clean o.1).mem ∧ VerbDone s' f false false false
      ∧ s'.tenants = s.tenants := by
  have hexec := onVerb_next h (scatterBody .clean)
  rw [scatterBody_single htiles hrows] at hexec
  exact ⟨_, hexec, h.standing.copies htiles htouches (v := scatterVerb) rfl hreads (fun ts => scatterTile_withTouches ts s1 j l2 st2)
    (scatterTile_of_range hrange) ho hrest hwrites⟩

end

/-- Settles O40: the one tile of a copying verb holds the elements to copy, is written and ends the verb; a row out of range stops GATHER. -/
theorem copiesMoveElements : Obligations.CopiesMoveElements := by
  intro t tag f s1 s j l2 st2 htiles htouches
  refine ⟨?_, ?_, ?_, ?_⟩
  · intro h hreads o hrest hwrites
    exact ⟨_, onVerb_next h _, h.standing.copies htiles htouches (v := pumpVerb) rfl hreads (fun ts => pumpTile_withTouches ts s1 j l2 st2) (o := o)
      rfl rfl hrest hwrites⟩
  · intro c verb hc h m hreads hmask o hrest hwrites
    exact compressExpand_writes htiles htouches hc h hreads hmask (o := o) rfl hrest hwrites
  · intro h hreads ps
    refine ⟨?_, fun hbad hforming => gather_stops htiles htouches h hreads hbad hforming⟩
    intro hrange o hrest hwrites
    exact ⟨_, onVerb_next h _, h.standing.copies htiles htouches (v := gatherVerb) rfl hreads (fun ts => gatherTile_withTouches ts s1 j l2 st2)
      (o := o) (gatherTile_of_range hrange) rfl hrest hwrites⟩
  · intro h hreads hrange xs hrows o hrest hwrites
    exact scatter_writes htiles htouches h hreads hrange hrows (o := o) rfl hrest hwrites

end Sys2Proof.Machine

/-!
A keyed REDUCE whose OUT lies over its keys in X: before it writes, every key lies within the output extent; afterwards a key reads as the output written
over it, so that the drain at the end of the clause finds the hash accumulator in use and writes a spill header that no update called for.
-/

namespace Sys2Proof.Machine

/-- A local cistern noun of bytes. -/
def byteNoun (off dims rows cols : Nat) : Noun :=
  { base := BitVec.ofNat 64 (2 ^ 52 + off), format := 7, dims := dims, ext := [rows, cols, 0, 0], stride := [1, 0, 0] }

/-- A term of a map: loop l once. -/
def loopTerm (l : Nat) : DWord := BitVec.ofNat 64 (0x10008 + l)

/-- OUT of two bytes (noun 0), A of two by two (noun 1), and X, the keys, over OUT (noun 2); loop 0 is COL and loop 1 RED. -/
def overlapPlan : Plan :=
  { regions := [{ members := [0], memberCount := 1, classes := 15, spillBase := BitVec.ofNat 64 (2 ^ 52 + 0x8000), spillCapacity := 4 }]
    nouns := [byteNoun 0xA000 0 2 0, byteNoun 0x1000 1 2 2, byteNoun 0xA000 1 2 2]
    maps := [{ loops := 2, classes := [1, 3, 0, 0, 0, 0], out := [loopTerm 0, 0, 0, 0], a := [loopTerm 0, loopTerm 1, 0, 0] }]
    tiles := [{ extent := [2, 2, 0, 0, 0, 0], t2 := [2, 2, 0, 0, 0, 0], t1 := [2, 2, 0, 0, 0, 0], factor := [1, 1, 0, 0, 0, 0]
                order2 := [0, 1, 15, 15, 15, 15], order1 := [0, 1, 15, 15, 15, 15] }] }

/-- REDUCE of SUM, keyed by noun 2, of noun 1 into noun 0; tag 7, class 2. -/
def overlapWords : Clause :=
  [0x00072004, 0xFFFF0000, 0xFFFF0001, 2, 0, 7 + 4 * 2 ^ 18, 0, 0, 0, 0, 0, 0, 0, 0, 0, 0].map (BitVec.ofNat 32)

def overlapFlight : Flight :=
  { tenant := 1, tag := 7, prio := 2, words := overlapWords, uid := 5, extents := [2, 2, 2, 0, 0, 0], waiting := [0] }

/-- The clause stands ready on cluster 0; A is [[1, 2], [3, 4]], and every key is zero. -/
def overlapState : State :=
  { tenants := [(1, { enabled := true, plan := some overlapPlan })]
    silicon := { live := { mapped := true, routerGood := [0], computeGood := [0] } }
    clusters := [(0, { awake := true, slots := [{ number := 0, uid := 5, prio := 2, taken := true }] })]
    work := { flights := [overlapFlight], nextUid := 6 }
    mem := { cistern := [(0x1000, 1), (0x1001, 2), (0x1040, 3), (0x1041, 4)] } }

def overlapStarted : State := markStarted ([0].foldl takeAll overlapState) 5

def overlapJob : Job :=
  { f := overlapFlight, plan := overlapPlan, map := overlapPlan.map 0, tile := overlapPlan.tile 0, region := overlapPlan.region 0, member := 0, k := 0 }

def overlapGroup : RedGroup := ((memberGroups false overlapStarted overlapJob)[0]?).getD ⟨0, 0, [], false, false⟩

/-- What the group writes. -/
def overlapOut : List (Nat × Nat × Nat) × Bool × List (Nat × OutItem) :=
  formGroups overlapStarted overlapJob (requantOf overlapJob) overlapGroup.l2 [] (groupItems overlapJob overlapGroup) false

theorem overlap_stands : VerbStands overlapState 1 7 (fun c => cVerb c = 4 && isKeyed c) tiledReady overlapFlight overlapStarted overlapJob := by
  unfold VerbStands
  decide +kernel

/-- Every premise on the reads, the groups and the writes of the clause. -/
theorem overlap_allowed :
    hashUpdates overlapStarted overlapJob = []
      ∧ (∀ e ∈ tilesOf overlapJob, checkReads overlapStarted overlapJob .clean (reduceReads overlapStarted overlapJob e.2) = .ok)
      ∧ memberGroups (resumes overlapStarted overlapJob) overlapStarted overlapJob = [overlapGroup] ∧ overlapGroup.l2 < 0xFFFFFFFF
      ∧ (∀ h ∈ memberGroups false overlapStarted overlapJob, checkWrites overlapStarted overlapJob .clean (groupWrites overlapStarted overlapJob h).1 = .ok)
      ∧ overlapOut.2.2 = [] ∧ checkWrites overlapStarted overlapJob .clean overlapOut.1 = .ok := by
  decide +kernel

/-- The outputs leave the spill area alone, but the clause writes its header: its SPILL_CAPACITY of four. -/
theorem overlap_spills : tget 0 (storeOutputs overlapStarted overlapJob .clean overlapOut.1).mem.cistern 0x8004 = 0
    ∧ tget 0 (after (exec (.reduceKeyed 1 ⟨7, .clean⟩) overlapState) overlapState).mem.cistern 0x8004 = 4 := by
  decide +kernel

/-- Refutes O41: the drain at the end of a keyed REDUCE reads the keys again, after the outputs have been written over them. -/
theorem not_reduceAndRankResults : ¬ Obligations.ReduceAndRankResults := by
  unfold Obligations.ReduceAndRankResults
  rintro ⟨⟨hreduce, -⟩, -⟩
  obtain ⟨hupdates, hreads, hgroups, hl2, hplanned, hrest, hwrites⟩ := overlap_allowed
  obtain ⟨s', hexec, hmem, -⟩ := hreduce 1 7 overlapFlight overlapStarted overlapState overlapJob overlapGroup (.reduceKeyed 1 ⟨7, .clean⟩)
    (fun c => cVerb c = 4 && isKeyed c) (.inr (.inr (.inr ⟨rfl, rfl⟩))) overlap_stands rfl (by decide) (by decide) (by decide) (.inl (by decide))
    hupdates hreads hgroups hl2 (by decide) hplanned hrest hwrites
  obtain ⟨hstored, hspilled⟩ := overlap_spills
  rw [hexec] at hspilled
  rw [show (after (.next s') overlapState).mem = s'.mem from rfl, hmem] at hspilled
  exact absurd (hstored.symm.trans hspilled) (by decide)

end Sys2Proof.Machine

/-!
A contraction runs its clusters' cycles round by round until a round changes nothing (R265, R266).
-/

namespace Sys2Proof.Machine

/-- Repeating a step until it changes nothing is iterating it: up to the bound, or to a state that it leaves. -/
theorem untilStill_iterates (f : State → State) (n : Nat) (s : State) :
    ∃ m, m ≤ n ∧ untilStill f n s = f^[m] s ∧ (m < n → f (untilStill f n s) = untilStill f n s) := by
  induction n generalizing s with
  | zero => exact ⟨0, le_refl 0, rfl, fun h => absurd h (Nat.lt_irrefl 0)⟩
  | succ n ih =>
    unfold untilStill
    dsimp only
    split
    · next hstill => exact ⟨0, Nat.zero_le _, rfl, fun _ => hstill⟩
    · obtain ⟨m, hle, heq, hstill⟩ := ih (f s)
      exact ⟨m + 1, Nat.succ_le_succ hle, heq.trans (Function.iterate_succ_apply f m s).symm, fun h => hstill (Nat.lt_of_succ_lt_succ h)⟩

theorem contraction_runs {verb : Nat} {t : Fin 16} {tag : BitVec 16} {f : Flight} {s : State} (htag : flightTag s t tag.toNat = some f)
    (hverb : cVerb f.words = verb) : contraction verb t tag s = .next (runClause s f.uid) := by
  unfold contraction
  rw [htag]
  exact if_pos hverb

/-- Settles O38: the command iterates the clause's round, and ends where a further one changes nothing. -/
theorem contractionsRunRounds : Obligations.ContractionsRunRounds := by
  intro t tag f s htag c hc
  obtain ⟨n, hle, heq, hstill⟩ := untilStill_iterates (clauseRound f.uid) roundBound s
  have hexec : exec c s = .next (runClause s f.uid) := by
    rcases hc with ⟨rfl, hverb⟩ | ⟨rfl, hverb⟩
    · exact contraction_runs htag hverb
    · exact contraction_runs htag hverb
  exact ⟨runClause s f.uid, n, hexec, hle, heq, hstill⟩

end Sys2Proof.Machine

/-!
The requantizer drains a vector (R77, R82, R88, R182): it forms the vector's outputs, delivers them and clears the vector's entries.
-/

namespace Sys2Proof.Machine

/-- The job of a cluster's run is the cluster's own, of the run's clause. -/
theorem currentRun_parts {s : State} {k : Nat} {j : Job} {r : TileRun} (h : currentRun s k = some (j, r)) : j.k = k ∧ j.f.uid = r.uid := by
  unfold currentRun at h
  split at h
  · cases h
  · next sl j' hjob =>
    split at h
    · split at h
      · next r' _ huid =>
        cases h
        unfold currentJob at hjob
        split at hjob
        · cases hjob
        · split at hjob
          · cases hjob
          · next j'' hof =>
            split at hjob
            · cases hjob
              obtain ⟨huid', hk⟩ := jobOf_parts hof
              exact ⟨hk, huid'.trans huid.symm⟩
            · cases hjob
      · cases h
    · cases h

/-! ## Delivery (R328, R431) -/

section
variable {s : State} (j : Job) (l2 : Nat) (ws : List (Nat × Nat × Nat))

/-- Outputs of a local cistern noun go to memory and leave the clusters. -/
theorem deliver_local (hlocal : localCistern j.out = true) (htouches : s.work.touches = []) :
    AccessOnly s (deliver s j l2 ws) ∧ (deliver s j l2 ws).mem = (putAll s ws).mem := by
  unfold deliver
  by_cases hempty : ws.isEmpty = true
  · rw [if_pos hempty, List.isEmpty_iff.mp hempty]
    refine ⟨.refl s, ?_⟩
    have hlines : linesOf s [] = [] := rfl
    unfold putAll clearWholeLines
    simp [hlines]
  · rw [if_neg hempty, if_pos hlocal]
    refine ⟨(putAll_memOnly s ws).accessOnly.trans (raceWrite_accessOnly _ _ _), raceWrite_mem_of_own _ (fun t ht => ?_)⟩
    rw [(putAll_memOnly s ws).work, htouches] at ht
    exact absurd ht List.not_mem_nil

/-- Other outputs go to the OUT half of their tile, which is where the cluster holds them. -/
theorem deliver_half (hfar : localCistern j.out = false) :
    (deliver s j l2 ws).mem = s.mem ∧ (∀ q, q ≠ j.k → (deliver s j l2 ws).cluster q = s.cluster q)
      ∧ (deliver s j l2 ws).cluster j.k = { s.cluster j.k with
          outHalf := if ws = [] then (s.cluster j.k).outHalf else addHalf (s.cluster j.k).outHalf j.f.uid l2 (some (halfRange j 0 (l2 % 2))) ws } := by
  unfold deliver
  by_cases hempty : ws = []
  · rw [if_pos (List.isEmpty_iff.mpr hempty), if_pos hempty]
    exact ⟨rfl, fun _ _ => rfl, rfl⟩
  · rw [if_neg (fun h => hempty (List.isEmpty_iff.mp h)), hfar, if_neg hempty, if_neg Bool.false_ne_true]
    exact ⟨rfl, fun q hq => State.cluster_modCluster_other _ _ _ _ hq, State.cluster_modCluster_same _ _ _⟩

end

/-- What a delivery leaves of the clause's own cluster and of the others. -/
theorem deliver_clusters {s : State} (j : Job) (l2 : Nat) (ws : List (Nat × Nat × Nat)) (htouches : s.work.touches = []) :
    ∃ hs, (deliver s j l2 ws).cluster j.k = { s.cluster j.k with outHalf := hs } ∧ (∀ q, q ≠ j.k → (deliver s j l2 ws).cluster q = s.cluster q)
      ∧ (localCistern j.out = true → (deliver s j l2 ws).mem = (putAll s ws).mem ∧ hs = (s.cluster j.k).outHalf)
      ∧ (localCistern j.out = false → (deliver s j l2 ws).mem = s.mem ∧ hs = if ws = [] then (s.cluster j.k).outHalf
          else addHalf (s.cluster j.k).outHalf j.f.uid l2 (some (halfRange j 0 (l2 % 2))) ws) := by
  cases hlocal : localCistern j.out with
  | true =>
    obtain ⟨haccess, hmem⟩ := deliver_local j l2 ws hlocal htouches
    exact ⟨_, haccess.cluster j.k, fun q _ => haccess.cluster q, fun _ => ⟨hmem, rfl⟩, fun h => Bool.noConfusion h⟩
  | false =>
    obtain ⟨hmem, hother, hown⟩ := deliver_half (s := s) j l2 ws hlocal
    exact ⟨_, hown, hother, fun h => Bool.noConfusion h, fun _ => ⟨hmem, rfl⟩⟩

/-! ## REQUANT_VECTOR -/

/-- The cluster whose vector v has been drained. -/
def drainedCluster (r : TileRun) (v : Nat) (o : List (Nat × Nat × Nat) × Bool × List (Nat × OutItem)) (c : Cluster) : Cluster :=
  { c with
    unit := { c.unit with acc := c.unit.acc.filter (fun e => e.1 / 128 ≠ v), clip := c.unit.clip || o.2.1 }
    forming := o.2.2, run := some { r with drained := v + 1 } }

theorem requantize_clean (s : State) (j : Job) (t : Tile) (r : TileRun) (v : Nat) :
    requantize s j t r v .clean
      = (deliver s j r.l2 (vectorOutputs s j t r v).1).modCluster j.k (drainedCluster r v (vectorOutputs s j t r v)) := by
  have hfault : (localCistern j.out && mergeFault s .clean (vectorOutputs s j t r v).1) = false := Bool.and_false _
  unfold requantize
  dsimp only
  rw [if_neg (by rw [hfault]; simp)]
  have hclean : ∀ a, (if localCistern j.out = true then applyEcc a j.k .clean (mergeRanges a (vectorOutputs s j t r v).1) else a) = a :=
    fun a => ite_self a
  rw [hclean]
  rfl

section
variable {k : Fin 1680} {j : Job} {r : TileRun} {t : Tile} {s : State} (hrun : currentRun s k = some (j, r)) (htile : tileAt j r.l2 r.l1 = some t)
  (hdecision : cDecision j.c ≠ 3) (hready : vectorReady j (s.cluster k) r = true)
include hrun htile hdecision hready

theorem requantVector_drains (htrap : trapped j (s.cluster k).unit = false) :
    exec (.requantVector ⟨k, .clean⟩) s = .next (requantize s j t r r.drained .clean) := by
  refine Eq.trans (b := requantVector k .clean s) rfl ?_
  unfold requantVector
  rw [hrun]
  dsimp only
  rw [htile]
  dsimp only
  rw [hready, htrap, decide_eq_false hdecision]
  rfl

theorem requantVector_traps (htrap : trapped j (s.cluster k).unit = true) :
    exec (.requantVector ⟨k, .clean⟩) s = .next (trapMember (foldCounts s j r) k r.uid (atTile (faulted fAccSat) r.l2)) := by
  refine Eq.trans (b := requantVector k .clean s) rfl ?_
  unfold requantVector
  rw [hrun]
  dsimp only
  rw [htile]
  dsimp only
  rw [hready, htrap, decide_eq_false hdecision]
  rfl

end

theorem drainedCluster_acc (r : TileRun) (v : Nat) (o : List (Nat × Nat × Nat) × Bool × List (Nat × OutItem)) (c : Cluster) (key : Nat) :
    tget 0 (drainedCluster r v o c).unit.acc key = if key / 128 = v then 0 else tget 0 c.unit.acc key := by
  refine (tget_filter 0 (fun i => decide (i / 128 ≠ v)) c.unit.acc key).trans ?_
  by_cases h : key / 128 = v
  · simp [h]
  · simp [h]

theorem vector_traps {s : State} {k : Nat} {j : Job} {r : TileRun} {f : Flight} (v : Verdict) (hparts : j.f.uid = r.uid)
    (hforming : (s.cluster k).forming = []) (hflight : flightOf s r.uid = some f) (hstop : f.stop = none) :
    ∃ g, flightOf (trapMember (foldCounts s j r) k r.uid v) r.uid = some g ∧ g.stop = some v
      ∧ ((trapMember (foldCounts s j r) k r.uid v).cluster k).owner ≠ some r.uid ∧ (trapMember (foldCounts s j r) k r.uid v).mem = s.mem := by
  have hcounted : ∃ g, flightOf (foldCounts s j r) r.uid = some g ∧ g.stop = none := by
    unfold foldCounts
    dsimp only
    rw [flightOf_modFlight _ _ _ _ (by intro g; rfl), hflight]
    exact ⟨_, congrArg some (if_pos ((flightOf_uid hflight).trans hparts.symm)), hstop⟩
  obtain ⟨g, hg, hgs⟩ := hcounted
  obtain ⟨hstopped, hmembers⟩ := trapMember_of_none_forming v hg hgs (k := k) hforming
  refine ⟨_, hstopped, rfl, dropMember_owner _ _ _, ?_⟩
  obtain ⟨cs, fl, heq⟩ := hmembers
  rw [heq]
  rfl

/-- Settles O32: the vector's outputs are delivered and its entries cleared, and ACC_SAT stops the clause before them. -/
theorem requantizerDrainsVector : Obligations.RequantizerDrainsVector := by
  intro k j r t s hrun htile hdecision hready htouches
  obtain ⟨hk, huid⟩ := currentRun_parts hrun
  refine ⟨?_, fun f htrap hforming hflight hstop => ?_⟩
  · intro htrap o
    rw [← hk]
    obtain ⟨hs, hown, hother, hlocal, hfar⟩ := deliver_clusters j r.l2 o.1 htouches
    have hcluster : (requantize s j t r r.drained .clean).cluster j.k = drainedCluster r r.drained o { s.cluster j.k with outHalf := hs } := by
      rw [requantize_clean, State.cluster_modCluster_same, hown]
    have hmem : (requantize s j t r r.drained .clean).mem = (deliver s j r.l2 o.1).mem := by rw [requantize_clean]; rfl
    have htenants : (requantize s j t r r.drained .clean).tenants = s.tenants := by
      rw [requantize_clean]
      exact deliver_tenants s j r.l2 o.1
    refine ⟨_, { r with drained := r.drained + 1 }, requantVector_drains hrun htile hdecision hready htrap, ?_, rfl, fun key hkey => ?_, fun key hkey => ?_,
      ?_, fun hl => ?_, fun hf => ?_, htenants, fun q hq => ?_⟩
    · rw [hcluster]
      rfl
    · rw [hcluster, drainedCluster_acc, if_pos hkey]
    · rw [hcluster, drainedCluster_acc, if_neg hkey]
    · rw [hcluster]
      rfl
    · obtain ⟨hwritten, hhalf⟩ := hlocal hl
      rw [hcluster, hhalf]
      exact ⟨hmem.trans hwritten, rfl⟩
    · obtain ⟨hsame, hhalf⟩ := hfar hf
      rw [hcluster, hhalf]
      exact ⟨hmem.trans hsame, rfl⟩
    · rw [requantize_clean, State.cluster_modCluster_other _ _ _ _ hq]
      exact hother q hq
  · obtain ⟨g, hg, hgs, howner, hmem⟩ := vector_traps (atTile (faulted fAccSat) r.l2) huid hforming hflight hstop
    exact ⟨_, g, requantVector_traps hrun htile hdecision hready htrap, hg, hgs, howner, hmem⟩

end Sys2Proof.Machine

/-!
Parts of a split output merge on its home (R207, R208, R213, R321): a slot is granted to the lowest part that waits, and a granted tile is added.
-/

namespace Sys2Proof.Machine

/-! ## MERGE_SLOT_GRANT (R321) -/

theorem finishMember_kept (s : State) (k q : Nat) :
    ((finishMember s k).cluster q).merging = (s.cluster q).merging ∧ ((finishMember s k).cluster q).outbound = (s.cluster q).outbound := by
  unfold finishMember
  split
  · exact ⟨rfl, rfl⟩
  · dsimp only
    split
    · by_cases hq : q = k
      · rw [hq, State.cluster_setCluster_same]
        exact ⟨rfl, rfl⟩
      · rw [State.cluster_setCluster_other _ _ _ _ hq]
        exact ⟨rfl, rfl⟩
    · exact ⟨rfl, rfl⟩

theorem storePartial_memOnly (s : State) (j : Job) (k n cols : Nat) (p : Partial) : MemOnly s (storePartial s j k n cols p) := by
  unfold storePartial
  split
  · exact .refl s
  · exact putAll_memOnly s _

theorem storePartial_withClusters (cs : Tab Cluster) (s : State) (j : Job) (k n cols : Nat) (p : Partial) :
    (storePartial (withClusters cs s) j k n cols p).mem = (storePartial s j k n cols p).mem := by
  unfold storePartial
  split
  · rfl
  · dsimp only
    rw [show (withClusters cs s).sys = s.sys from rfl, putAll_withClusters]
    rfl

/-- The clusters between which a partial tile has moved. -/
def movedPartial (s : State) (k q : Nat) (o o' : Partial) : State :=
  (s.modCluster q (fun x => { x with outbound := x.outbound.erase o })).modCluster k (fun x => { x with merging := x.merging ++ [o'] })

theorem movedPartial_clusters (s : State) (k q : Nat) (o o' : Partial) :
    ((movedPartial s k q o o').cluster k).merging = (s.cluster k).merging ++ [o']
      ∧ ((movedPartial s k q o o').cluster q).outbound = (s.cluster q).outbound.erase o := by
  unfold movedPartial
  by_cases hq : q = k
  · rw [hq, State.cluster_modCluster_same, State.cluster_modCluster_same]
    exact ⟨rfl, rfl⟩
  · rw [State.cluster_modCluster_same, State.cluster_modCluster_other _ _ _ _ hq, State.cluster_modCluster_same,
      State.cluster_modCluster_other _ _ _ _ (fun h => hq h.symm)]
    exact ⟨rfl, rfl⟩

theorem mergeSlotGrant_moves {k : Fin 1680} {j : Job} {r : TileRun} {p : Nat} {o : Partial} {s : State} (hrun : currentRun s k = some (j, r))
    (hhome : isHome j = true) (hlast : r.last = true) (hkept : keptByHold j r = false) (hroom : (s.cluster k).merging.length < j.region.mergeSlots)
    (hpart : (partsOf j (runKey j r)).find? (fun p => !(s.cluster k).merged.contains p
      && (s.cluster k).merging.all (fun m => m.uid ≠ r.uid || m.part ≠ p)) = some p)
    (hslot : (s.cluster (partCluster j p)).outbound.find? (fun o => o.uid = r.uid ∧ o.part = p ∧ o.key = runKey j r) = some o) :
    exec (.mergeSlotGrant k) s
      = .next (finishMember (storePartial (movedPartial s k (partCluster j p) o { o with slot := lowestSlot (s.cluster k).merging }) j k
          (lowestSlot (s.cluster k).merging) r.colOn.length { o with slot := lowestSlot (s.cluster k).merging }) (partCluster j p)) := by
  have hopen : (!isHome j || !r.last || keptByHold j r || decide (j.region.mergeSlots ≤ (s.cluster k).merging.length)) = false := by
    rw [hhome, hlast, hkept, decide_eq_false (Nat.not_le.mpr hroom)]
    rfl
  refine Eq.trans (b := execMergeSlotGrant k s) rfl ?_
  unfold execMergeSlotGrant
  rw [hrun]
  dsimp only
  rw [hopen, if_neg Bool.false_ne_true, hpart]
  dsimp only
  rw [hslot]
  rfl

/-! ## MERGE_STEP (R207, R208) -/

section
variable {k : Fin 1680} {j : Job} {r : TileRun} {t : Tile} {m : Partial} {s : State}

/-- The cluster that has added a granted tile. -/
def mergedCluster (s : State) (j : Job) (t : Tile) (r : TileRun) (m : Partial) (c : Cluster) : Cluster :=
  { c with
    merging := c.merging.erase m, merged := c.merged ++ [m.part]
    unit := addPartial j r.eacc (homeBase (tileView s j r.l2) j t c r) m }

theorem mergeStep_adds (hrun : currentRun s k = some (j, r)) (htile : tileAt j r.l2 r.l1 = some t)
    (hfirst : (s.cluster k).merging.find? (fun m => m.uid = r.uid) = some m) (howner : (s.cluster k).owner = some r.uid) (hdone : tileDone r = true)
    (hqueues : queuesEmpty (s.cluster k) = true) :
    exec (.mergeStep k) s = .next (s.setCluster k (mergedCluster s j t r m (s.cluster k))) := by
  refine Eq.trans (b := execMergeStep k s) rfl ?_
  unfold execMergeStep
  rw [hrun]
  dsimp only
  rw [hfirst, htile]
  dsimp only
  exact if_pos (by rw [decide_eq_true howner, hdone, hqueues]; rfl)

/-- Before its first addition with nothing settled, and after any addition, the home's base is what its entries hold. -/
theorem homeBase_unit {c : Cluster} (hplain : (j.tile.partRequant && decide (nKind j.out ≠ 4)) = false) (h : r.settled = [] ∨ c.merged ≠ []) :
    homeBase s j t c r = c.unit := by
  unfold homeBase
  by_cases hmerged : c.merged = []
  · rw [if_neg (by rw [hmerged]; simp), if_neg (by rw [hplain]; simp), (h.resolve_right (fun hn => hn hmerged))]
    rfl
  · exact if_pos (by simp [hmerged])

theorem homeBase_of_merged {c : Cluster} (h : c.merged ≠ []) : homeBase s j t c r = c.unit := if_pos (by simp [h])

/-- One word of a partial tile is one saturating update of its entry. -/
theorem addPartial_word (u : AccUnit) {key : Nat} {v : Int} (hplain : (j.tile.partRequant && decide (nKind j.out ≠ 4)) = false)
    (hvals : m.vals = [(key, v)]) (eacc : Int) :
    let y := alignShift v (m.eacc - eacc)
    let x := tget 0 u.acc key + satAcc y
    let u' := addPartial j eacc u m
    tget 0 u'.acc key = satAcc x ∧ (∀ i, i ≠ key → tget 0 u'.acc i = tget 0 u.acc i) ∧ u'.sat = (u.sat || m.sat || satHit y || satHit x)
      ∧ u'.inexact = (u.inexact || m.inexact || alignDrops v (m.eacc - eacc)) := by
  have heq : addPartial j eacc u m = addUpdate { u with
      sat := u.sat || m.sat || satHit (alignShift v (m.eacc - eacc)), inexact := u.inexact || m.inexact || alignDrops v (m.eacc - eacc) } key
      (satAcc (alignShift v (m.eacc - eacc))) := by
    unfold addPartial
    dsimp only
    rw [if_neg (by rw [hplain]; simp), hvals]
    rfl
  intro y x u'
  have hacc := fun i => congrArg (fun w => tget 0 (AccUnit.acc w) i) heq
  refine ⟨?_, fun i hi => ?_, congrArg AccUnit.sat heq, congrArg AccUnit.inexact heq⟩
  · refine (hacc key).trans ?_
    rw [addUpdate_acc, if_pos rfl]
  · refine (hacc i).trans ?_
    rw [addUpdate_acc, if_neg hi]

/-- A word that has been requantized adds without a bound. -/
theorem addPartial_requantized (u : AccUnit) {key : Nat} {v : Int} (hrequant : j.tile.partRequant = true) (hkind : nKind j.out ≠ 4)
    (hvals : m.vals = [(key, v)]) (eacc : Int) :
    tget 0 (addPartial j eacc u m).acc key = tget 0 u.acc key + v ∧ ∀ i, i ≠ key → tget 0 (addPartial j eacc u m).acc i = tget 0 u.acc i := by
  have heq : (addPartial j eacc u m).acc = tmod 0 u.acc key (· + v) := by
    unfold addPartial
    dsimp only
    rw [if_pos (by rw [hrequant, decide_eq_true hkind]; rfl), hvals]
    rfl
  rw [heq]
  exact ⟨tget_tset_same _ _ _ _, fun i hi => tget_tset_other _ _ _ _ _ hi⟩

end

/-- Settles O35: a granted tile moves between two clusters and into the merge area, and its word is one update of its entry. -/
theorem partsMerge : Obligations.PartsMerge := by
  refine ⟨?_, ?_⟩
  · intro k j r p o s hrun hhome hlast hkept hroom hpart hslot o'
    have hexec := mergeSlotGrant_moves hrun hhome hlast hkept hroom hpart hslot
    obtain ⟨hmerging, houtbound⟩ := movedPartial_clusters s k (partCluster j p) o o'
    have hstored := storePartial_memOnly (movedPartial s k (partCluster j p) o o') j k o'.slot r.colOn.length o'
    refine ⟨_, hexec, ?_, ?_, ?_, ?_⟩
    · rw [(finishMember_kept _ _ _).1, hstored.cluster]
      exact hmerging
    · rw [(finishMember_kept _ _ _).2, hstored.cluster]
      exact houtbound
    · rw [finishMember_mem]
      exact storePartial_withClusters (movedPartial s k (partCluster j p) o o').clusters s j k o'.slot r.colOn.length o'
    · rw [finishMember_tenants]
      exact hstored.tenants
  · intro k j r t m key v s hrun htile hfirst howner hdone hqueues hvals
    have hcluster := s.cluster_setCluster_same k (mergedCluster s j t r m (s.cluster k))
    refine ⟨_, mergeStep_adds hrun htile hfirst howner hdone hqueues, ?_, ?_, rfl, rfl, rfl, fun q hq => State.cluster_setCluster_other _ _ _ _ hq, ?_, ?_⟩
    · rw [hcluster]
      rfl
    · rw [hcluster]
      rfl
    · intro hplain hbase
      have hnot : (j.tile.partRequant && decide (nKind j.out ≠ 4)) = false := by
        rcases hplain with h | h
        · simp [h]
        · simp [h]
      rw [hcluster, show (mergedCluster s j t r m (s.cluster k)).unit = addPartial j r.eacc (homeBase (tileView s j r.l2) j t (s.cluster k) r) m from rfl,
        homeBase_unit hnot hbase]
      exact addPartial_word (s.cluster k).unit hnot hvals r.eacc
    · intro hrequant hkind hmerged
      rw [hcluster, show (mergedCluster s j t r m (s.cluster k)).unit = addPartial j r.eacc (homeBase (tileView s j r.l2) j t (s.cluster k) r) m from rfl,
        homeBase_of_merged hmerged]
      exact addPartial_requantized (s.cluster k).unit hrequant hkind hvals r.eacc

end Sys2Proof.Machine

/-!
A cluster that runs a tile outside its member's sequence: at the L2 tile boundary that run is not left, so that it still stands in the cluster when the
slot has come to the next L2 tile.
-/

namespace Sys2Proof.Machine

/-- A contraction of bytes whose ROW loop makes two L2 tiles: loop 0 is COL, loop 1 ROW, loop 2 RED. -/
def twoTilePlan : Plan :=
  { regions := [{ members := [0], memberCount := 1, classes := 15 }]
    nouns := [byteNoun 0 1 2 2, byteNoun 0x1000 1 2 2, byteNoun 0x2000 1 2 2]
    maps := [{ loops := 3, classes := [1, 2, 3, 0, 0, 0], out := [loopTerm 1, loopTerm 0, 0, 0], a := [loopTerm 0, loopTerm 2, 0, 0]
               b := [loopTerm 1, loopTerm 2, 0, 0] }]
    tiles := [{ extent := [2, 2, 2, 0, 0, 0], t2 := [1, 2, 2, 0, 0, 0], t1 := [1, 2, 2, 0, 0, 0], factor := [1, 1, 1, 0, 0, 0]
                order2 := [0, 1, 2, 15, 15, 15], order1 := [0, 1, 2, 15, 15, 15], pwMax := 7, paMax := 7 }] }

/-- CONTRACT of nouns 1 and 2 into noun 0; tag 7, class 2. -/
def twoTileWords : Clause :=
  [0x00072001, 0xFFFF0000, 0x00020001, 0xFFFF, 0x77, 7, 0, 0, 0, 0, 0, 0, 0, 0, 0, 0].map (BitVec.ofNat 32)

def twoTileFlight : Flight :=
  { tenant := 1, tag := 7, prio := 2, words := twoTileWords, uid := 5, extents := [2, 2, 2, 0, 0, 0], started := true, waiting := [0] }

/-- A run of L1 tile 5 of L2 tile 0, which has one L1 tile. -/
def strayRun : TileRun := { uid := 5, l2 := 0, l1 := 5 }

/-- Cluster 0 owns the clause and runs the stray tile, with nothing left to do in it. -/
def strayState : State :=
  { tenants := [(1, { enabled := true, plan := some twoTilePlan })]
    silicon := { live := { mapped := true, routerGood := [0], computeGood := [0] } }
    clusters := [(0, { awake := true, slots := [{ number := 0, uid := 5, prio := 2, taken := true }], owner := some 5, run := some strayRun })]
    work := { flights := [twoTileFlight], nextUid := 6 } }

def strayJob : Job :=
  { f := twoTileFlight, plan := twoTilePlan, map := twoTilePlan.map 0, tile := twoTilePlan.tile 0, region := twoTilePlan.region 0, member := 0, k := 0 }

/-- The next L2 tile. -/
def strayNext : Tile := (tileAfter strayJob 0 5).getD default

theorem stray_run : currentRun strayState 0 = some (strayJob, strayRun) ∧ stoppedSlot strayState (strayState.cluster 0) = none
    ∧ (strayState.cluster 0).owner = some 5 ∧ l2Done strayJob (strayState.cluster 0) strayRun = true ∧ tileAt strayJob 0 5 = none := by
  decide +kernel

theorem stray_next : tileAfter strayJob 0 5 = some strayNext ∧ tileFrom strayJob strayNext.l2 = some strayNext ∧ isPart strayJob = false
    ∧ higherWaits (strayState.cluster 0) 2 = false ∧ landedFor (strayState.cluster 0) 5 strayNext.l2 = none := by
  decide +kernel

/-- A run whose tile is not of the sequence is left by no rule, and nothing is folded or ended. -/
theorem stray_left : leaveTile strayState strayJob strayRun = some strayState := by
  obtain ⟨-, -, -, -, hnone⟩ := stray_run
  unfold leaveTile
  rw [show tileAt strayJob strayRun.l2 strayRun.l1 = none from hnone]

theorem stray_stays : ((after (exec (.l2TileBoundary 0) strayState) strayState).cluster 0).run = some strayRun := by
  decide +kernel

/-- Refutes O36: at the boundary a run of a tile outside the member's sequence is not left, so that the cluster still runs it afterwards. -/
theorem not_boundariesYieldAndRestore : ¬ Obligations.BoundariesYieldAndRestore := by
  unfold Obligations.BoundariesYieldAndRestore
  rintro ⟨hboundary, -⟩
  obtain ⟨hrun, hstopped, howner, hdone, -⟩ := stray_run
  obtain ⟨hafter, hfrom, hpart, hhigher, hlanded⟩ := stray_next
  obtain ⟨hgoes, -⟩ := hboundary 0 strayJob strayRun strayNext strayState strayState hrun hstopped howner hdone stray_left hafter hfrom hpart
  obtain ⟨hfresh, -⟩ := hgoes hhigher
  obtain ⟨s', hexec, hnone, -⟩ := hfresh hlanded
  have hstays := stray_stays
  rw [hexec] at hstays
  exact absurd (hnone.symm.trans hstays) (by decide)

end Sys2Proof.Machine

/-!
Operands land (R161, R327 to R333): the bytes of one operand go to the landed copy of the member's tile, and, while that tile is not whole, no tile
starts.
-/

namespace Sys2Proof.Machine

/-! ## The best slot of some of the slots (R318) -/

/-- A slot is the first of the best class in a list. -/
def FirstBest (l : List Slot) (sl : Slot) : Prop :=
  ∃ l1 l2, l = l1 ++ sl :: l2 ∧ (∀ x ∈ l1, sl.prio < x.prio) ∧ ∀ x ∈ l2, sl.prio ≤ x.prio

theorem foldl_betterSlot_firstBest (l : List Slot) : ∀ a, FirstBest (a :: l) (l.foldl betterSlot a) := by
  induction l with
  | nil => exact fun a => ⟨[], [], rfl, by simp, by simp⟩
  | cons x rest ih =>
    intro a
    rw [List.foldl_cons]
    by_cases hlt : x.prio < a.prio
    · rw [show betterSlot a x = x from if_pos hlt]
      obtain ⟨l1, l2, heq, hbefore, hafter⟩ := ih x
      have hle := (foldl_betterSlot rest x _ rfl).2.1
      refine ⟨a :: l1, l2, by rw [heq]; rfl, fun y hy => ?_, hafter⟩
      rcases List.mem_cons.mp hy with rfl | hy
      · omega
      · exact hbefore y hy
    · rw [show betterSlot a x = a from if_neg hlt]
      obtain ⟨l1, l2, heq, hbefore, hafter⟩ := ih a
      have hle := (foldl_betterSlot rest a _ rfl).2.1
      cases l1 with
      | nil =>
        obtain ⟨hhead, hrest⟩ := List.cons.inj heq
        refine ⟨[], x :: rest, by rw [← hhead]; rfl, by simp, fun y hy => ?_⟩
        rcases List.mem_cons.mp hy with rfl | hy
        · omega
        · exact hafter y (hrest ▸ hy)
      | cons b l1 =>
        obtain ⟨hhead, hrest⟩ := List.cons.inj heq
        have ha := hbefore a (hhead ▸ List.mem_cons_self)
        refine ⟨a :: x :: l1, l2, congrArg (fun r => a :: x :: r) hrest, fun y hy => ?_, hafter⟩
        rcases List.mem_cons.mp hy with rfl | hy
        · exact ha
        · rcases List.mem_cons.mp hy with rfl | hy
          · omega
          · exact hbefore y (List.mem_cons_of_mem _ hy)

theorem bestSlot_firstBest {l : List Slot} {sl : Slot} (h : bestSlot l = some sl) : FirstBest l sl := by
  cases l with
  | nil => cases h
  | cons a rest =>
    have hbest : rest.foldl betterSlot a = sl := Option.some.inj ((bestSlot_cons a rest).symm.trans h)
    exact hbest ▸ foldl_betterSlot_firstBest rest a

theorem FirstBest.filter {l : List Slot} {sl : Slot} (h : FirstBest l sl) (p : Slot → Bool) (hp : p sl = true) : FirstBest (l.filter p) sl := by
  obtain ⟨l1, l2, rfl, hbefore, hafter⟩ := h
  refine ⟨l1.filter p, l2.filter p, by rw [List.filter_append, List.filter_cons_of_pos hp], fun x hx => ?_, fun x hx => ?_⟩
  · exact hbefore x (List.mem_filter.mp hx).1
  · exact hafter x (List.mem_filter.mp hx).1

/-- Of two best slots the one that stands after the other is worse. -/
theorem FirstBest.prio_lt {l1 m l2 : List Slot} {a b : Slot} (ha : ∀ x ∈ m ++ b :: l2, a.prio ≤ x.prio) (hb : ∀ x ∈ l1 ++ a :: m, b.prio < x.prio) :
    False := by
  have hab := ha b (by simp)
  have hba := hb a (by simp)
  omega

theorem FirstBest.unique {l : List Slot} {a b : Slot} (ha : FirstBest l a) (hb : FirstBest l b) : a = b := by
  obtain ⟨l1, l2, rfl, hbefore, hafter⟩ := ha
  obtain ⟨l1', l2', heq, hbefore', hafter'⟩ := hb
  rcases List.append_eq_append_iff.mp heq with ⟨m, hl, hr⟩ | ⟨m, hl, hr⟩
  · cases m with
    | nil => exact (List.cons.inj hr).1
    | cons x m =>
      obtain ⟨rfl, rfl⟩ := List.cons.inj hr
      exact (FirstBest.prio_lt hafter (hl ▸ hbefore')).elim
  · cases m with
    | nil => exact (List.cons.inj hr).1.symm
    | cons x m =>
      obtain ⟨rfl, rfl⟩ := List.cons.inj hr
      exact (FirstBest.prio_lt hafter' (hl ▸ hbefore)).elim

/-- The best slots of two lists with the same slots of one clause are the same one when both are of that clause. -/
theorem bestSlot_same {l l' : List Slot} {a b : Slot} {u : Nat} (ha : bestSlot l = some a) (hb : bestSlot l' = some b) (hau : a.uid = u)
    (hbu : b.uid = u) (h : l.filter (fun x => x.uid = u) = l'.filter (fun x => x.uid = u)) : a = b :=
  ((bestSlot_firstBest ha).filter _ (decide_eq_true hau)).unique (h ▸ (bestSlot_firstBest hb).filter _ (decide_eq_true hbu))

/-! ## The clause whose turn it is, while another operand lands -/

theorem flightOf_markStarted (s : State) (u v : Nat) :
    flightOf (markStarted s u) v = (flightOf s v).map (fun f => { f with started := f.started || decide (f.uid = u) }) := by
  refine (flightOf_modFlight s u v _ (by intro f; rfl)).trans (congrArg (Option.map · (flightOf s v)) (funext fun f => ?_))
  split
  · next h => simp [h]
  · next h => simp [h]

theorem mayStart_markStarted (s : State) (u : Nat) (f : Flight) (b : Bool) :
    mayStart (markStarted s u) { f with started := b } = mayStart s f := by
  have hflights : (markStarted s u).work.flights = s.work.flights.map (fun g => if g.uid = u then { g with started := true } else g) := rfl
  have hgone : ∀ v, (flightOf (markStarted s u) v).isSome = (flightOf s v).isSome := fun v => by rw [flightOf_markStarted, Option.isSome_map]
  unfold mayStart
  rw [hflights, List.all_map]
  simp only [hgone]
  congr 3
  funext g
  dsimp only [Function.comp]
  split <;> rfl

theorem mayOwn_markStarted (s : State) (u : Nat) (c : Cluster) (sl : Slot) : mayOwn (markStarted s u) c sl = mayOwn s c sl := by
  unfold mayOwn
  rw [flightOf_markStarted]
  cases flightOf s sl.uid with
  | none => rfl
  | some f =>
    dsimp only [Option.map_some]
    rw [mayStart_markStarted]
    rfl

theorem jobOf_markStarted (s : State) (u k v : Nat) :
    jobOf (markStarted s u) k v = (jobOf s k v).map (fun j => { j with f := { j.f with started := j.f.started || decide (j.f.uid = u) } }) := by
  unfold jobOf
  rw [flightOf_markStarted]
  cases flightOf s v with
  | none => rfl
  | some f =>
    dsimp only [Option.map_some]
    unfold jobFor
    dsimp only
    rw [show (markStarted s u).tenant = s.tenant from rfl]
    cases (s.tenant f.tenant).plan with
    | none => rfl
    | some p =>
      dsimp only
      cases (p.region (cRegion f.words)).members.idxOf? k with
      | none => rfl
      | some i => rfl

theorem bufferHeld_markStarted (s : State) (u k v : Nat) (c : Cluster) : bufferHeld (markStarted s u) c k v = bufferHeld s c k v := by
  unfold bufferHeld
  rw [jobOf_markStarted]
  cases jobOf s k v with
  | none => rfl
  | some j => rfl

section
variable {s s' : State} {k : Nat} {ls : List Landed} {a b : Slot}

/-- A clause whose turn it is has the same slot as before, when only landed tiles of its own have changed. -/
theorem currentSlot_same (hc : s'.cluster k = { s.cluster k with landed := ls }) (hown : ∀ c sl, mayOwn s' c sl = mayOwn s c sl)
    (hheld : ∀ c v, bufferHeld s' c k v = bufferHeld s c k v)
    (hls : ls.filter (fun e => e.uid ≠ a.uid) = (s.cluster k).landed.filter (fun e => e.uid ≠ a.uid))
    (ha : currentSlot s k = some a) (hb : currentSlot s' k = some b) (huid : b.uid = a.uid) : b = a := by
  unfold currentSlot at ha hb
  rw [hc] at hb
  dsimp only at ha hb
  rw [show runningOwner { s.cluster k with landed := ls } = runningOwner (s.cluster k) from rfl] at hb
  split at ha
  · next u hu =>
    rw [hu] at hb
    exact Option.some.inj (hb.symm.trans ha)
  · next hu =>
    rw [hu] at hb
    refine (bestSlot_same ha hb rfl huid ?_).symm
    rw [List.filter_filter, List.filter_filter]
    refine List.filter_congr (fun x _ => ?_)
    by_cases hx : x.uid = a.uid
    · have hbuffers : bufferHeld s { s.cluster k with landed := ls } k a.uid = bufferHeld s (s.cluster k) k a.uid := by
        unfold bufferHeld
        rw [hls]
      rw [hown, hheld, hx, hbuffers]
      rfl
    · simp [hx]

end

/-! ## What the pump lands -/

theorem wantedTile_of_landItem {s : State} {k : Nat} {m0 m : Job} {t : Tile} {slot : Nat} {i : LandItem} (h : landItem s k m0 t slot = some i)
    (hm : m ∈ i.members) : ∃ y, wantedTile s m = some y ∧ y.l2 = i.l2 := by
  unfold landItem at h
  dsimp only at h
  split at h
  · next hcond =>
    cases h
    simp only [Bool.and_eq_true, List.all_eq_true] at hcond
    have hwant := hcond.2 m hm
    rw [Option.any_eq_true] at hwant
    obtain ⟨y, hy, hl2⟩ := hwant
    exact ⟨y, hy, of_decide_eq_true hl2⟩
  · cases h

theorem wantedTile_of_pumpItems {s : State} {k : Nat} {j m : Job} {i : LandItem} (h : i ∈ pumpItems s k j) (hm : m ∈ i.members) :
    ∃ y, wantedTile s m = some y ∧ y.l2 = i.l2 := by
  unfold pumpItems at h
  have hin := (List.mem_filter.mp (List.mem_dedup.mp h)).1
  obtain ⟨m0, _, hitem⟩ := List.mem_flatMap.mp hin
  split at hitem
  · cases hitem
  · next t _ =>
    obtain ⟨slot, _, hland⟩ := List.mem_filterMap.mp hitem
    exact wantedTile_of_landItem hland hm

theorem wantedTile_of_pumpWork {s : State} {k : Nat} {j m : Job} {is : List LandItem} {i : LandItem} (h : pumpWork s k = some (j, is)) (hi : i ∈ is)
    (hm : m ∈ i.members) : ∃ y, wantedTile s m = some y ∧ y.l2 = i.l2 := by
  unfold pumpWork at h
  split at h
  · obtain ⟨j', _, hj'⟩ := List.exists_of_findSome?_eq_some h
    have hitems : pumpItems s k j' = is := by
      cases hcase : pumpItems s k j' with
      | nil => rw [hcase] at hj'; cases hj'
      | cons x xs => rw [hcase] at hj'; cases hj'; rfl
    exact wantedTile_of_pumpItems (hitems ▸ hi) hm
  · cases h

/-- A member that wants a tile and runs none stands in its slot at that tile. -/
theorem wantedTile_stands {s : State} {m : Job} {y : Tile} (h : wantedTile s m = some y) : ∃ sl, currentSlot s m.k = some sl ∧ sl.uid = m.f.uid
    ∧ (runningTile (s.cluster m.k) m.f.uid = none → tileFrom m sl.l2 = some y) := by
  unfold wantedTile at h
  dsimp only at h
  cases hslot : currentSlot s m.k with
  | none => rw [hslot] at h; cases h
  | some sl =>
    rw [hslot] at h
    dsimp only at h
    split at h
    · cases h
    · next hmine =>
      have huid : sl.uid = m.f.uid := by
        by_contra hne
        exact hmine (by simp [hne])
      refine ⟨sl, rfl, huid, fun hrun => ?_⟩
      have hindex : nextIndex (s.cluster m.k) sl = sl.l2 := by
        unfold nextIndex
        rw [huid, hrun]
      rw [hindex] at h
      split at h
      · cases h
      · next t ht =>
        rw [ht]
        split at h
        · split at h
          · cases h
          · exact h
        · split at h
          · exact h
          · cases h

/-! ## One operand -/

/-- The landed copy of a tile with one operand more. -/
def addedCopy (m : Job) (l2 slot : Nat) (cells : List Host.Cell) (c : Cluster) : Landed :=
  let l : Landed := (landedFor c m.f.uid l2).getD { uid := m.f.uid, l2 := l2, ranges := tileRanges m l2 }
  { l with copies := l.copies ++ [slot], cells := cells ++ l.cells, whole := (namedSlots m).all (fun x => (l.copies ++ [slot]).contains x) }

theorem addCopy_eq (m : Job) (l2 slot : Nat) (cells : List Host.Cell) (c : Cluster) : addCopy m l2 slot cells c
    = { c with landed := c.landed.filter (fun e => ¬ (e.uid = m.f.uid ∧ e.l2 = l2)) ++ [addedCopy m l2 slot cells c] } := rfl

theorem addedCopy_named (m : Job) (l2 slot : Nat) (cells : List Host.Cell) (c : Cluster) :
    (addedCopy m l2 slot cells c).uid = m.f.uid ∧ (addedCopy m l2 slot cells c).l2 = l2 := by
  unfold addedCopy
  dsimp only
  cases h : landedFor c m.f.uid l2 with
  | none => exact ⟨rfl, rfl⟩
  | some l => simpa using List.find?_some h

theorem addedCopy_copies (m : Job) (l2 slot : Nat) (cells : List Host.Cell) (c : Cluster) :
    (addedCopy m l2 slot cells c).copies = ((landedFor c m.f.uid l2).getD {}).copies ++ [slot]
      ∧ (addedCopy m l2 slot cells c).cells = cells ++ ((landedFor c m.f.uid l2).getD {}).cells
      ∧ (addedCopy m l2 slot cells c).whole
        = (namedSlots m).all (fun x => (((landedFor c m.f.uid l2).getD {}).copies ++ [slot]).contains x) := by
  unfold addedCopy
  cases landedFor c m.f.uid l2 with
  | none => exact ⟨rfl, rfl, rfl⟩
  | some l => exact ⟨rfl, rfl, rfl⟩

theorem landedFor_addCopy (m : Job) (l2 slot : Nat) (cells : List Host.Cell) (c : Cluster) :
    landedFor (addCopy m l2 slot cells c) m.f.uid l2 = some (addedCopy m l2 slot cells c) := by
  obtain ⟨huid, hl2⟩ := addedCopy_named m l2 slot cells c
  rw [addCopy_eq]
  unfold landedFor
  rw [List.find?_append, List.find?_eq_none.mpr (by simp [List.mem_filter]; tauto), Option.none_or]
  simp [huid, hl2]

/-- Only the clause's own landed tiles have changed. -/
theorem landed_addCopy_other (m : Job) (l2 slot : Nat) (cells : List Host.Cell) (c : Cluster) :
    (addCopy m l2 slot cells c).landed.filter (fun e => e.uid ≠ m.f.uid) = c.landed.filter (fun e => e.uid ≠ m.f.uid) := by
  rw [addCopy_eq]
  dsimp only
  rw [List.filter_append, List.filter_filter, List.filter_cons_of_neg (by simp [(addedCopy_named m l2 slot cells c).1]), List.filter_nil,
    List.append_nil]
  exact List.filter_congr (fun x _ => by by_cases hx : x.uid = m.f.uid <;> simp [hx])

/-- The state with other accesses and brought granules on record. -/
def noted (ts : List Touch) (ls : List (Nat × Nat × Nat)) (s : State) : State := { s with work := { s.work with touches := ts, landed := ls } }

theorem itemReads_noted (ts : List Touch) (ls : List (Nat × Nat × Nat)) (s : State) (i : LandItem) : itemReads (noted ts ls s) i = itemReads s i := by
  rfl

theorem landCells_noted (ts : List Touch) (ls : List (Nat × Nat × Nat)) (s : State) (m : Job) (slot : Nat) (rs : List (Nat × Nat)) :
    landCells (noted ts ls s) m slot rs = landCells s m slot rs := by rfl

theorem landCells_markStarted (s : State) (u : Nat) (m : Job) (slot : Nat) (rs : List (Nat × Nat)) :
    landCells (markStarted s u) m slot rs = landCells s m slot rs := by rfl

/-- The state in which a clause has started, when a landing request starts it (R409). -/
def begun (s : State) (b : Bool) (u : Nat) : State := if b then markStarted s u else s

section
variable (s : State) (b : Bool) (u : Nat)

theorem begun_keeps : (begun s b u).mem = s.mem ∧ (begun s b u).tenants = s.tenants ∧ (begun s b u).clusters = s.clusters
    ∧ (begun s b u).work.touches = s.work.touches := by
  unfold begun
  split <;> exact ⟨rfl, rfl, rfl, rfl⟩

theorem mayOwn_begun (c : Cluster) (sl : Slot) : mayOwn (begun s b u) c sl = mayOwn s c sl := by
  unfold begun
  split
  · exact mayOwn_markStarted s u c sl
  · rfl

theorem bufferHeld_begun (k v : Nat) (c : Cluster) : bufferHeld (begun s b u) c k v = bufferHeld s c k v := by
  unfold begun
  split
  · exact bufferHeld_markStarted s u k v c
  · rfl

theorem landCells_begun (m : Job) (slot : Nat) (rs : List (Nat × Nat)) : landCells (begun s b u) m slot rs = landCells s m slot rs := by
  unfold begun
  split
  · exact landCells_markStarted s u m slot rs
  · rfl

theorem flightOf_begun {f : Flight} (hb : b = true) (hf : flightOf (begun s b u) u = some f) : f.started = true := by
  rw [begun, if_pos hb, flightOf_markStarted] at hf
  cases hu : flightOf s u with
  | none => rw [hu] at hf; cases hf
  | some g =>
    rw [hu] at hf
    have huid := flightOf_uid hu
    cases hf
    simp [huid]

end

theorem landItems_one {s : State} {i : LandItem} {m : Job} (hm : i.members = [m]) : landItems s [i]
    = startTile (checkLanded (s.modCluster m.k (addCopy m i.l2 i.slot (landCells s m i.slot (itemReads s i)))) m i.l2) m := by
  unfold landItems
  simp [hm]

/-- The state in which one operand has landed for one member. -/
def landedOne (ts : List Touch) (ls : List (Nat × Nat × Nat)) (s : State) (m : Job) (l2 slot : Nat) (cells : List Host.Cell) : State :=
  (noted ts ls s).modCluster m.k (addCopy m l2 slot cells)

section
variable {s : State} {k : Fin 1680} {j m : Job} {i : LandItem}

theorem exec_landsOne (hwork : pumpWork s k = some (j, [i])) (hm : i.members = [m]) (htouches : s.work.touches = [])
    (hok : checkReads (begun s (startsClause [i]) j.f.uid) j .clean (itemReads (begun s (startsClause [i]) j.f.uid) i) = .ok) :
    ∃ ts ls, exec (.landingComplete k .clean) s
      = .next (startTile (checkLanded (landedOne ts ls (begun s (startsClause [i]) j.f.uid) m i.l2 i.slot
          (landCells s m i.slot (itemReads (begun s (startsClause [i]) j.f.uid) i))) m i.l2) m) := by
  have htouches1 : (begun s (startsClause [i]) j.f.uid).work.touches = [] := (begun_keeps s _ _).2.2.2.trans htouches
  have hcells := landCells_begun s (startsClause [i]) j.f.uid m i.slot
  have hexec : exec (.landingComplete k .clean) s = .next (pumpLand s j [i] .clean) := by
    refine Eq.trans (b := execLandingComplete k .clean s) rfl ?_
    unfold execLandingComplete
    rw [hwork]
  rw [hexec]
  unfold pumpLand
  rw [show (if startsClause [i] then markStarted s j.f.uid else s) = begun s (startsClause [i]) j.f.uid from rfl]
  generalize begun s (startsClause [i]) j.f.uid = a at *
  dsimp only
  rw [List.flatMap_singleton, hok]
  dsimp only
  rw [show applyEcc a j.k .clean (itemReads a i) = a from rfl, race_of_own _ (by rw [htouches1]; simp)]
  obtain ⟨ts, hts⟩ : ∃ ts, ts = a.work.touches ++ [{ who := .clause j.f.uid, write := false, bytes := (itemReads a i).map rangeBytes }] := ⟨_, rfl⟩
  rw [← hts]
  obtain ⟨ls, hls⟩ : ∃ ls, forget (withTouches ts a) j (itemReads a i) = noted ts ls a := ⟨_, rfl⟩
  rw [hls, landItems_one hm, landCells_noted, itemReads_noted, hcells]
  exact ⟨ts, ls, rfl⟩

end

theorem checkLanded_of_partial {s : State} {m : Job} {l2 : Nat} {l : Landed} (hl : landedFor (s.cluster m.k) m.f.uid l2 = some l)
    (hwhole : l.whole = false) : checkLanded s m l2 = s := by
  unfold checkLanded
  rw [hl]
  split
  · next l' t heq _ =>
    cases heq
    rw [hwhole]
    rfl
  · rfl

/-- No tile starts while the copy of the member's next tile is not whole. -/
theorem startTile_of_partial {s : State} {m : Job}
    (h : ∀ sl t l, currentSlot s m.k = some sl → sl.uid = m.f.uid → runningTile (s.cluster m.k) m.f.uid = none → tileFrom m sl.l2 = some t →
      landedFor (s.cluster m.k) m.f.uid t.l2 = some l → l.whole = false) : startTile s m = s := by
  unfold startTile
  dsimp only
  split
  · rfl
  · next sl hslot =>
    split
    · rfl
    · next hmine =>
      simp only [Bool.or_eq_true, not_or, decide_eq_true_eq, ne_eq, not_not, Option.isSome_iff_ne_none] at hmine
      obtain ⟨⟨huid, hrun⟩, _⟩ := hmine
      split
      · rfl
      · next t ht =>
        split
        · rfl
        · next l hl =>
          have hwhole := h sl t l hslot huid hrun ht hl
          rw [hwhole]
          split <;> rfl

section
variable {s1 s : State} {m : Job} {l2 slot : Nat}

/-- The member's next tile is the one of which an operand has landed, so it does not start while its copy is not whole. -/
theorem startTile_landedOne {y : Tile} (ts : List Touch) (ls : List (Nat × Nat × Nat)) (cells : List Host.Cell) (hclusters : s1.clusters = s.clusters)
    (hown : ∀ c sl, mayOwn s1 c sl = mayOwn s c sl) (hheld : ∀ c v, bufferHeld s1 c m.k v = bufferHeld s c m.k v)
    (hwant : wantedTile s m = some y) (hy : y.l2 = l2) (hwhole : (addedCopy m l2 slot cells (s.cluster m.k)).whole = false) :
    startTile (landedOne ts ls s1 m l2 slot cells) m = landedOne ts ls s1 m l2 slot cells := by
  have hc : (landedOne ts ls s1 m l2 slot cells).cluster m.k = addCopy m l2 slot cells (s.cluster m.k) := by
    unfold landedOne
    rw [State.cluster_modCluster_same, show (noted ts ls s1).cluster m.k = s.cluster m.k from cluster_congr hclusters m.k]
  obtain ⟨sl0, hcur, huid0, hnext⟩ := wantedTile_stands hwant
  refine startTile_of_partial (fun sl t l hslot huid hrun ht hl => ?_)
  have hsame : sl = sl0 := currentSlot_same (hc.trans (addCopy_eq m l2 slot cells _)) hown hheld
    (by rw [huid0]; exact landed_addCopy_other m l2 slot cells _) hcur hslot (huid.trans huid0.symm)
  rw [hc] at hrun hl
  have hrun0 : runningTile (s.cluster m.k) m.f.uid = none := hrun
  rw [hsame, hnext hrun0] at ht
  cases ht
  rw [hy, landedFor_addCopy] at hl
  cases hl
  exact hwhole

end

/-! ## The landed bytes -/

/-- Each landed byte is the one in memory. -/
theorem landCells_byte {s : State} {m : Job} {slot : Nat} {rs : List (Nat × Nat)} {e : Host.Cell} (h : e ∈ landCells s m slot rs) :
    e.2 = byteAt s e.1 := by
  obtain ⟨g, _, rfl⟩ := List.mem_map.mp h
  rfl

/-- Of an operand whose noun lands every byte lands. -/
theorem landCells_all {s : State} {m : Job} {slot : Nat} {rs : List (Nat × Nat)} {b : Nat × Nat} {n : Nat} (hslot : slot ∈ landingSlots m) (hb : b ∈ rs)
    (hn : n < (rangeBytes b).2) : ((rangeBytes b).1 + n, byteAt s ((rangeBytes b).1 + n)) ∈ landCells s m slot rs := by
  refine List.mem_map.mpr ⟨(rangeBytes b).1 + n, List.mem_filter.mpr ⟨List.mem_dedup.mpr (List.mem_flatMap.mpr ⟨b, hb, ?_⟩), ?_⟩, rfl⟩
  · exact List.mem_map.mpr ⟨n, List.mem_range.mpr hn, rfl⟩
  · simp [hslot]

theorem landing_lands {k : Fin 1680} {j m : Job} {i : LandItem} {s : State} (hwork : pumpWork s k = some (j, [i])) (hm : i.members = [m])
    (htouches : s.work.touches = [])
    (hpartial : (namedSlots m).all (fun x => (((landedFor (s.cluster m.k) m.f.uid i.l2).getD {}).copies ++ [i.slot]).contains x) = false)
    (hok : checkReads (begun s (startsClause [i]) j.f.uid) j .clean (itemReads (begun s (startsClause [i]) j.f.uid) i) = .ok) :
    ∃ s' cells, exec (.landingComplete k .clean) s = .next s'
      ∧ landedFor (s'.cluster m.k) m.f.uid i.l2 = some (addedCopy m i.l2 i.slot cells (s.cluster m.k))
      ∧ cells = landCells s m i.slot (itemReads (begun s (startsClause [i]) j.f.uid) i)
      ∧ s'.work.flights = (begun s (startsClause [i]) j.f.uid).work.flights
      ∧ s'.mem = s.mem ∧ s'.tenants = s.tenants ∧ ∀ q, q ≠ m.k → s'.cluster q = s.cluster q := by
  obtain ⟨hmem, htenants, hclusters, _⟩ := begun_keeps s (startsClause [i]) j.f.uid
  obtain ⟨y, hwant, hy⟩ := wantedTile_of_pumpWork hwork (List.mem_singleton.mpr rfl) (hm ▸ List.mem_singleton.mpr rfl)
  obtain ⟨ts, ls, hexec⟩ := exec_landsOne hwork hm htouches hok
  generalize hcells : landCells s m i.slot (itemReads (begun s (startsClause [i]) j.f.uid) i) = cells at hexec
  have hwhole : (addedCopy m i.l2 i.slot cells (s.cluster m.k)).whole = false := (addedCopy_copies ..).2.2.trans hpartial
  have hown := mayOwn_begun s (startsClause [i]) j.f.uid
  have hheld := fun c v => bufferHeld_begun s (startsClause [i]) j.f.uid m.k v c
  generalize begun s (startsClause [i]) j.f.uid = a at *
  have hsame : (noted ts ls a).cluster = s.cluster := funext (cluster_congr hclusters)
  have hlanded : landedFor ((landedOne ts ls a m i.l2 i.slot cells).cluster m.k) m.f.uid i.l2
      = some (addedCopy m i.l2 i.slot cells (s.cluster m.k)) := by
    unfold landedOne
    rw [State.cluster_modCluster_same, hsame, landedFor_addCopy]
  rw [checkLanded_of_partial hlanded hwhole, startTile_landedOne ts ls cells hclusters hown hheld hwant hy hwhole] at hexec
  refine ⟨_, cells, hexec, hlanded, rfl, rfl, hmem, htenants, fun q hq => ?_⟩
  exact (State.cluster_modCluster_other _ _ _ _ hq).trans (congrFun hsame q)

/-! ## A tile that has landed (R161, R163, R183) -/

theorem currentJob_parts {s : State} {k : Nat} {sl : Slot} {j : Job} (h : currentJob s k = some (sl, j)) :
    currentSlot s k = some sl ∧ sl.uid = j.f.uid ∧ j.k = k ∧ (s.cluster k).awake = true := by
  unfold currentJob at h
  split at h
  · cases h
  · next sl' hslot =>
    split at h
    · cases h
    · next j' hjob =>
      split at h
      · next hcond =>
        cases h
        obtain ⟨huid, hk⟩ := jobOf_parts hjob
        exact ⟨hslot, huid.symm, hk, (Bool.and_eq_true _ _ ▸ hcond).2⟩
      · cases h

section
variable {s : State} {k : Fin 1680} {sl : Slot} {j : Job} {t : Tile} {l : Landed}

/-- With nothing to land, the clause whose turn it is comes to its next tile. -/
theorem exec_startsTile (hwork : pumpWork s k = none) (hjob : currentJob s k = some (sl, j)) (hrun : runningTile (s.cluster k) sl.uid = none)
    (ht : tileFrom j sl.l2 = some t) : exec (.landingComplete k .clean) s = .next (startTile s j) := by
  refine Eq.trans (b := execLandingComplete k .clean s) rfl ?_
  unfold execLandingComplete
  rw [hwork]
  refine congrArg Host.Outcome.next ?_
  unfold landNothing
  rw [hjob]
  dsimp only
  rw [hrun, ht]
  rfl

/-- A whole tile starts, or raises what its landing met. -/
theorem startTile_of_whole (hjob : currentJob s k = some (sl, j)) (hrun : runningTile (s.cluster k) sl.uid = none) (ht : tileFrom j sl.l2 = some t)
    (hl : landedFor (s.cluster k) j.f.uid t.l2 = some l) (hwhole : l.whole = true) :
    (l.bad = none → startTile s j = s.modCluster k (fun c => { c.modSlot j.f.uid (fun sl => { sl with l2 := t.l2 }) with
      run := some { stageTile (landedView s l) j t with settled := keptSettlements j t (s.cluster k).settled } }))
    ∧ (∀ v, l.bad = some v → startTile s j = faultMember s k j.f.uid (atTile v t.l2)) := by
  obtain ⟨hslot, huid, hk, hawake⟩ := currentJob_parts hjob
  unfold startTile
  dsimp only
  rw [hk, hslot]
  dsimp only
  rw [huid] at hrun
  rw [hrun, hawake, if_neg (by simp [huid]), ht]
  dsimp only
  rw [hl]
  dsimp only
  rw [hwhole]
  constructor
  · intro hgood
    rw [hgood]
    rfl
  · intro v hbad
    rw [hbad]
    rfl

end

/-- A member whose clause stops has dropped it. -/
theorem faultMember_dropped {s : State} {k uid : Nat} (v : Verdict) (hforming : (s.cluster k).forming = []) :
    ∃ c, (faultMember s k uid v).cluster k = droppedCluster uid c := by
  have hdrop : ∀ a : State, (a.cluster k).forming = [] → (dropMember a k uid).cluster k = droppedCluster uid (a.cluster k) := fun a ha => by
    rw [dropMember_of_none_forming uid ha]
    exact State.cluster_modCluster_same _ _ _
  have hfirst := discardTile_forming uid v.l2Tile (s := stopClause s uid v) hforming
  unfold faultMember
  dsimp only
  generalize discardTile (stopClause s uid v) k uid v.l2Tile = a at hfirst ⊢
  split
  · next l2 _ => exact ⟨_, hdrop _ (discardTile_forming uid l2 hfirst)⟩
  · exact ⟨_, hdrop a hfirst⟩

theorem droppedCluster_idle (uid : Nat) (c : Cluster) : runningTile (droppedCluster uid c) uid = none ∧ (droppedCluster uid c).owner ≠ some uid := by
  refine ⟨?_, ?_⟩
  · unfold runningTile droppedCluster clusterRelease
    dsimp only
    cases hrun : c.run with
    | none => simp
    | some r =>
      by_cases hr : r.uid = uid
      · simp [hr]
      · by_cases ho : c.owner = some uid <;> simp [hr, ho]
  · unfold droppedCluster
    dsimp only
    split <;> simp_all

end Sys2Proof.Machine

/-!
Weight blocks load and passes issue in their order (R64 to R70, R150 to R154, R335).
-/

namespace Sys2Proof.Machine

/-! ## The next pass (R68, R118, R119) -/

/-- What seeking the next pass leaves of a run: all but its place in the order and the count of skipped passes. -/
def SeeksOnly (r q : TileRun) : Prop :=
  ∃ pos window nextVec skipped, q = { r with pos := pos, window := window, nextVec := nextVec, skipped := skipped }

theorem SeeksOnly.refl (r : TileRun) : SeeksOnly r r := ⟨_, _, _, _, rfl⟩

theorem SeeksOnly.trans {a b c : TileRun} (hab : SeeksOnly a b) (hbc : SeeksOnly b c) : SeeksOnly a c := by
  obtain ⟨p, w, n, sk, rfl⟩ := hab
  obtain ⟨p', w', n', sk', rfl⟩ := hbc
  exact ⟨p', w', n', sk', rfl⟩

theorem refill_seeksOnly (n : Nat) : ∀ r, SeeksOnly r (refill r n) := by
  induction n with
  | zero => exact fun r => SeeksOnly.refl r
  | succ n ih =>
    intro r
    unfold refill
    dsimp only
    split
    · exact SeeksOnly.trans ⟨_, _, _, _, rfl⟩ (ih _)
    · split
      · exact SeeksOnly.trans ⟨_, _, _, _, rfl⟩ (ih _)
      · exact SeeksOnly.refl r

theorem seekPass_seeksOnly (r : TileRun) : SeeksOnly r (seekPass r) := by
  unfold seekPass
  split
  · exact refill_seeksOnly _ r
  · split
    · exact SeeksOnly.refl r
    · exact ⟨_, _, _, _, rfl⟩

/-- Where a run stands in time, and what it has in flight, issued and loaded, stays while it seeks its next pass. -/
theorem seekPass_keeps (r : TileRun) : (seekPass r).cycle = r.cycle ∧ (seekPass r).inFlight = r.inFlight ∧ (seekPass r).issued = r.issued
    ∧ (seekPass r).loadFrom = r.loadFrom ∧ (seekPass r).loadCycles = r.loadCycles ∧ (seekPass r).shadowOf = r.shadowOf := by
  obtain ⟨_, _, _, _, heq⟩ := seekPass_seeksOnly r
  rw [heq]
  exact ⟨rfl, rfl, rfl, rfl, rfl, rfl⟩

/-! ## Loading (R64, R70) -/

/-- The run after a load into the shadow register. -/
theorem loadShadow_loads {c : Cluster} {r : TileRun} {b : Nat}
    (h : if r.unstructured then setToLoad r = some b else blockToLoad (seekPass r) = some b ∧ r.shadowOf ≠ some b) :
    ∃ r', (loadShadow c r).run = some r' ∧ r'.shadowOf = some b ∧ r'.weightsOf = r.weightsOf
      ∧ (loadShadow c r).shadow = (if r.unstructured then laneSet r b else { block := b, cells := blockCells r b })
      ∧ (loadShadow c r).weights = c.weights ∧ r'.inFlight = r.inFlight ∧ r'.cycle = r.cycle := by
  unfold loadShadow
  split at h
  · next hun =>
    rw [if_pos hun, if_pos hun, h]
    exact ⟨_, rfl, rfl, rfl, rfl, rfl, rfl, rfl⟩
  · next hun =>
    rw [if_neg hun, if_neg hun, h.1]
    dsimp only
    rw [if_neg h.2]
    exact ⟨_, rfl, rfl, rfl, rfl, rfl, rfl, rfl⟩

theorem exec_loads {k : Fin 1680} {j : Job} {r : TileRun} {s : State} (hrun : currentRun s k = some (j, r))
    (hgoes : runFinished j (s.cluster k) r = false) : exec (.weightBlockLoad k) s = .next (s.setCluster k (loadShadow (s.cluster k) r)) := by
  refine Eq.trans (b := execWeightBlockLoad k s) rfl ?_
  unfold execWeightBlockLoad
  rw [hrun]
  dsimp only
  rw [hgoes]
  rfl

/-! ## Issuing a pass (R65, R183) -/

/-- A pass reads the weight register. -/
theorem issuePass_issues {c : Cluster} {r : TileRun} {p : PassRef} (hflight : r.inFlight = []) :
    ∃ r', (issuePass c r p).run = some r' ∧ r'.inFlight = [withUpdates c.weights r { p with cycle := r.cycle + 1 }]
      ∧ r'.issued = r.issued + 1 ∧ r'.cycle = r.cycle + 1 ∧ r'.weightsOf = r.weightsOf ∧ r'.shadowOf = r.shadowOf := by
  unfold issuePass issued
  dsimp only
  rw [hflight]
  split <;> exact ⟨_, rfl, rfl, rfl, rfl, rfl, rfl⟩

/-- A run with nothing in flight and no settlement has no other event due. -/
theorem nothing_due {c : Cluster} {r : TileRun} (hflight : r.inFlight = []) (hsettled : r.settled = []) :
    ((dueCommit c r).isSome || dueSettlement r) = false := by
  unfold dueCommit dueSettlement
  rw [hflight, hsettled]
  rfl

section
variable {c : Cluster} {r : TileRun} (hflight : r.inFlight = []) (hsettled : r.settled = [])
include hflight hsettled

section
variable {p : PassRef} (hlock : r.unstructured = false) (hnext : nextPass (seekPass r) = some p)
include hlock hnext

/-- The next pass issues from the block that the weight register holds. -/
theorem issueOne_same (hswap : needsSwap (seekPass r) p = false) : issueOne c r = issuePass c (seekPass r) p := by
  unfold issueOne
  rw [nothing_due hflight hsettled, hlock]
  dsimp only
  rw [hnext]
  dsimp only
  rw [hswap]
  rfl

/-- The next pass issues after the block in the shadow register has been swapped in. -/
theorem issueOne_swapped (hswap : needsSwap (seekPass r) p = true) (hshadow : shadowHolds (seekPass r) p.block = true) : issueOne c r
    = issuePass (swapWeights c (seekPass r) (passCycle (seekPass r) p - 1)).1 (swapWeights c (seekPass r) (passCycle (seekPass r) p - 1)).2 p := by
  unfold issueOne
  rw [nothing_due hflight hsettled, hlock]
  dsimp only
  rw [hnext]
  dsimp only
  rw [hswap, hshadow]
  rfl

end

/-- Every lane that can issues its next pass. -/
theorem issueOne_lanes {n : Nat} (hun : r.unstructured = true) (hleft : nothingLeft r = false) (hcycle : laneCycle [] r = some n) :
    issueOne c r = issueLanes [] n c r := by
  have hheld : heldLanes r = [] := by
    unfold heldLanes
    rw [hflight]
    rfl
  unfold issueOne
  rw [nothing_due hflight hsettled, hun, hheld, hleft, hcycle]
  rfl

end

theorem issueOne_lanes_issues {c : Cluster} {r : TileRun} (hflight : r.inFlight = []) (n : Nat) :
    ∃ r', (issueLanes [] n c r).run = some r' ∧ r'.cycle = n ∧ r'.lanes = (lanesAt [] r n).map (fun o => o.1)
      ∧ r'.inFlight = ((lanesAt [] r n).filterMap (fun o => o.2.1)).map (withUpdates (issueLanes [] n c r).weights r)
      ∧ r'.issued = r.issued + r'.inFlight.length := by
  unfold issueLanes
  dsimp only
  rw [hflight]
  exact ⟨_, rfl, rfl, rfl, rfl, rfl⟩

/-! ## The clause takes the cluster (R183) -/

/-- From s to s' the weights of cluster k, every other cluster and every tenant are as they were. -/
def WeightsKept (k : Nat) (s s' : State) : Prop :=
  s'.tenants = s.tenants ∧ (∀ q, q ≠ k → s'.cluster q = s.cluster q) ∧ (s'.cluster k).weights = (s.cluster k).weights
    ∧ (s'.cluster k).shadow = (s.cluster k).shadow

theorem WeightsKept.trans {k : Nat} {a b c : State} (hab : WeightsKept k a b) (hbc : WeightsKept k b c) : WeightsKept k a c := by
  obtain ⟨ht, hq, hw, hsh⟩ := hab
  obtain ⟨ht', hq', hw', hsh'⟩ := hbc
  exact ⟨ht'.trans ht, fun q h => (hq' q h).trans (hq q h), hw'.trans hw, hsh'.trans hsh⟩

theorem MemOnly.weightsKept {s s' : State} (h : MemOnly s s') (k : Nat) : WeightsKept k s s' :=
  ⟨h.tenants, fun q _ => h.cluster q, by rw [h.cluster], by rw [h.cluster]⟩

theorem setCluster_weightsKept {s : State} {k : Nat} {c : Cluster} (hw : c.weights = (s.cluster k).weights) (hsh : c.shadow = (s.cluster k).shadow) :
    WeightsKept k s (s.setCluster k c) :=
  ⟨rfl, fun q hq => State.cluster_setCluster_other s k q c hq, by rw [State.cluster_setCluster_same]; exact hw,
    by rw [State.cluster_setCluster_same]; exact hsh⟩

theorem saveHeld_weightsKept (s : State) (k : Nat) (h : Held) : WeightsKept k s (saveHeld s k h) := by
  have hsave := fun r bs => (putAll_memOnly s [(gCis s.sys.waferNumber k (saveSlotOff r h.prio) * 8, 8 * List.length bs, leNat bs)])
  refine ((hsave _ _).weightsKept k).trans (setCluster_weightsKept ?_ ?_)
  · rw [(hsave _ _).cluster]
  · rw [(hsave _ _).cluster]

/-- The owner that a clause becomes when nothing is held for it. -/
def ownedCluster (j : Job) (c : Cluster) : Cluster :=
  { c with owner := some j.f.uid, unit := { isHash := cTarget j.c = 1, rankK := if cDecision j.c = 3 then cK j.c else 0 }
           merged := [], settled := [], forming := [], drainDone := false }

/-- A clause that becomes the owner with nothing held for it. -/
def newOwner (s : State) (j : Job) : State :=
  if cTarget j.c = 1 then spillHeader (s.modCluster j.k (ownedCluster j)) j.region j.k 0 0 0 else s.modCluster j.k (ownedCluster j)

theorem newOwner_weightsKept (s : State) (j : Job) : WeightsKept j.k s (newOwner s j) := by
  have hmod : WeightsKept j.k s (s.modCluster j.k (ownedCluster j)) := setCluster_weightsKept rfl rfl
  unfold newOwner
  split
  · exact hmod.trans ((spillHeader_memOnly ..).weightsKept _)
  · exact hmod

theorem newOwner_owner (s : State) (j : Job) : ((newOwner s j).cluster j.k).owner = some j.f.uid := by
  have hmod : ((s.modCluster j.k (ownedCluster j)).cluster j.k).owner = some j.f.uid := by
    rw [State.cluster_modCluster_same]
    rfl
  unfold newOwner
  split
  · rw [(spillHeader_memOnly ..).cluster]
    exact hmod
  · exact hmod

theorem takeOwner_takes (s : State) (j : Job) : WeightsKept j.k s (takeOwner s j) ∧ ((takeOwner s j).cluster j.k).owner = some j.f.uid := by
  unfold takeOwner
  dsimp only
  split
  · next howner => exact ⟨⟨rfl, fun _ _ => rfl, rfl, rfl⟩, howner⟩
  · split
    · exact ⟨newOwner_weightsKept s j, newOwner_owner s j⟩
    · next h _ =>
      split
      · exact ⟨setCluster_weightsKept rfl rfl, by rw [State.cluster_setCluster_same]⟩
      · exact ⟨(saveHeld_weightsKept s j.k h).trans (newOwner_weightsKept _ j), newOwner_owner _ j⟩

section
variable {k : Fin 1680} {j : Job} {r : TileRun} {t : Tile} {s : State}

/-- A run without a gated decision issues from the cluster that its clause owns. -/
theorem exec_issues (hrun : currentRun s k = some (j, r)) (ht : tileAt j r.l2 r.l1 = some t) (hdecision : r.decision = 0) :
    ∃ a, WeightsKept k s a ∧ (a.cluster k).owner = some j.f.uid ∧ exec (.passIssue k) s = .next (a.setCluster k (issueOne (a.cluster k) r)) := by
  obtain ⟨hk, huid⟩ := currentRun_parts hrun
  obtain ⟨htakes, howner⟩ := takeOwner_takes (markStarted s r.uid) j
  rw [hk] at htakes howner
  refine ⟨(takeOwner (markStarted s r.uid) j).modCluster k (fun c => { c with
        unit := { c.unit with vectors := if c.unit.isHash then 0 else r.vecs } }), htakes.trans (setCluster_weightsKept rfl rfl), ?_, ?_⟩
  · rw [State.cluster_modCluster_same]
    exact howner
  · refine Eq.trans (b := execPassIssue k s) rfl ?_
    unfold execPassIssue
    rw [hrun]
    dsimp only
    rw [ht]
    dsimp only
    rw [show ∀ c, firstTest j t c r = r from fun c => if_pos (by rw [hdecision]; rfl)]

/-- Of a cluster that issues, the owner stays, and so do the other clusters and the tenants. -/
theorem issued_keeps {a : State} {c : Cluster} (hkept : WeightsKept k s a) :
    (a.setCluster k c).tenants = s.tenants ∧ ∀ q, q ≠ k.val → (a.setCluster k c).cluster q = s.cluster q :=
  ⟨hkept.1, fun q hq => (State.cluster_setCluster_other a k q c hq).trans (hkept.2.1 q hq)⟩

end

/-! ## The three ways to issue -/

section
variable {k : Fin 1680} {j : Job} {r : TileRun} {t : Tile} {s : State} (hrun : currentRun s k = some (j, r)) (ht : tileAt j r.l2 r.l1 = some t)
  (hflight : r.inFlight = []) (hsettled : r.settled = []) (hdecision : r.decision = 0)
include hrun ht hflight hsettled hdecision

section
variable {p : PassRef} (hlock : r.unstructured = false) (hnext : nextPass (seekPass r) = some p)
include hlock hnext

theorem passIssue_same (hswap : needsSwap (seekPass r) p = false) :
    ∃ s' r', exec (.passIssue k) s = .next s' ∧ (s'.cluster k).owner = some j.f.uid ∧ (s'.cluster k).run = some r'
      ∧ r'.inFlight = [withUpdates (s.cluster k).weights (seekPass r) { p with cycle := r.cycle + 1 }]
      ∧ r'.issued = r.issued + 1 ∧ r'.cycle = r.cycle + 1 ∧ (s'.cluster k).weights = (s.cluster k).weights
      ∧ s'.tenants = s.tenants ∧ ∀ q, q ≠ k.val → s'.cluster q = s.cluster q := by
  obtain ⟨a, hkept, howner, hexec⟩ := exec_issues hrun ht hdecision
  obtain ⟨hcycle, hfl, hissued, _, _, _⟩ := seekPass_keeps r
  obtain ⟨r', hrun', hflight', hissued', hcycle', _⟩ := issuePass_issues (c := a.cluster k) (p := p) (hfl.trans hflight)
  obtain ⟨htenants, hother⟩ := issued_keeps (c := issueOne (a.cluster k) r) hkept
  refine ⟨_, r', hexec, ?_, ?_, ?_, hissued'.trans (congrArg (· + 1) hissued), hcycle'.trans (congrArg (· + 1) hcycle), ?_, htenants, hother⟩
  · rw [State.cluster_setCluster_same, issueOne_same hflight hsettled hlock hnext hswap]
    exact howner
  · rw [State.cluster_setCluster_same, issueOne_same hflight hsettled hlock hnext hswap]
    exact hrun'
  · rw [hflight', hcycle, hkept.2.2.1]
  · rw [State.cluster_setCluster_same, issueOne_same hflight hsettled hlock hnext hswap]
    exact hkept.2.2.1

theorem passIssue_swapped (hswap : needsSwap (seekPass r) p = true) (hshadow : shadowHolds (seekPass r) p.block = true) :
    ∃ s' r', exec (.passIssue k) s = .next s' ∧ (s'.cluster k).owner = some j.f.uid ∧ (s'.cluster k).run = some r'
      ∧ r.cycle < r'.cycle ∧ r.loadFrom + r.loadCycles < r'.cycle
      ∧ r'.inFlight = [withUpdates (s.cluster k).shadow (seekPass r) { p with cycle := r'.cycle }]
      ∧ r'.issued = r.issued + 1 ∧ (s'.cluster k).weights = (s.cluster k).shadow ∧ r'.weightsOf = some p.block ∧ r'.shadowOf = none
      ∧ s'.tenants = s.tenants ∧ ∀ q, q ≠ k.val → s'.cluster q = s.cluster q := by
  obtain ⟨a, hkept, howner, hexec⟩ := exec_issues hrun ht hdecision
  obtain ⟨hcycle, hfl, hissued, hfrom, hload, _⟩ := seekPass_keeps r
  have hlate : r.cycle + 1 ≤ passCycle (seekPass r) p ∧ r.loadFrom + r.loadCycles + 1 ≤ passCycle (seekPass r) p := by
    unfold passCycle
    dsimp only
    rw [hswap, hcycle, hfrom, hload]
    simp only [Bool.not_true, Bool.false_eq_true, if_false]
    split <;> omega
  obtain ⟨r', hrun', hflight', hissued', hcycle', hweights', hshadow'⟩ := issuePass_issues
    (c := (swapWeights (a.cluster k) (seekPass r) (passCycle (seekPass r) p - 1)).1)
    (r := (swapWeights (a.cluster k) (seekPass r) (passCycle (seekPass r) p - 1)).2) (p := p) (hfl.trans hflight)
  obtain ⟨htenants, hother⟩ := issued_keeps (c := issueOne (a.cluster k) r) hkept
  have hcyc : r'.cycle = passCycle (seekPass r) p := by
    rw [hcycle']
    exact Nat.sub_add_cancel (by omega)
  refine ⟨_, r', hexec, ?_, ?_, by omega, by omega, ?_, hissued'.trans (congrArg (· + 1) hissued), ?_, ?_, hshadow', htenants, hother⟩
  · rw [State.cluster_setCluster_same, issueOne_swapped hflight hsettled hlock hnext hswap hshadow]
    exact howner
  · rw [State.cluster_setCluster_same, issueOne_swapped hflight hsettled hlock hnext hswap hshadow]
    exact hrun'
  · rw [hflight', hcycle', ← hkept.2.2.2]
    rfl
  · rw [State.cluster_setCluster_same, issueOne_swapped hflight hsettled hlock hnext hswap hshadow]
    exact hkept.2.2.2
  · exact hweights'.trans (of_decide_eq_true hshadow)

end

theorem passIssue_lanes {n : Nat} (hun : r.unstructured = true) (hleft : nothingLeft r = false) (hcycle : laneCycle [] r = some n) :
    ∃ s' r', exec (.passIssue k) s = .next s' ∧ (s'.cluster k).owner = some j.f.uid ∧ (s'.cluster k).run = some r' ∧ r'.cycle = n
      ∧ r'.lanes = (lanesAt [] r n).map (fun o => o.1)
      ∧ r'.inFlight = ((lanesAt [] r n).filterMap (fun o => o.2.1)).map (withUpdates (s'.cluster k).weights r)
      ∧ r'.issued = r.issued + r'.inFlight.length ∧ s'.tenants = s.tenants ∧ ∀ q, q ≠ k.val → s'.cluster q = s.cluster q := by
  obtain ⟨a, hkept, howner, hexec⟩ := exec_issues hrun ht hdecision
  obtain ⟨r', hrun', hcycle', hlanes', hflight', hissued'⟩ := issueOne_lanes_issues (c := a.cluster k) hflight n
  obtain ⟨htenants, hother⟩ := issued_keeps (c := issueOne (a.cluster k) r) hkept
  have hcluster := (State.cluster_setCluster_same a k (issueOne (a.cluster k) r)).trans
    (issueOne_lanes (c := a.cluster k) hflight hsettled hun hleft hcycle)
  refine ⟨_, r', hexec, ?_, ?_, hcycle', hlanes', ?_, hissued', htenants, hother⟩
  · rw [hcluster]
    exact howner
  · rw [hcluster]
    exact hrun'
  · rw [hcluster]
    exact hflight'

end

/-! ## The obligation -/

/-- Settles O28: while its copy is not whole the member's next tile is the one that lands, and nothing starts; a pass issues in the cycle after the
run's, or after the load whose block it swaps in. -/
theorem tilesLandAndPassesIssue : Obligations.TilesLandAndPassesIssue := by
  unfold Obligations.TilesLandAndPassesIssue
  refine ⟨?_, ?_, ?_⟩
  · intro k j m i s hwork hm htouches l0 hpartial s1 hok
    obtain ⟨s', cells, hexec, hlanded, hcells, hflights, hmem, htenants, hother⟩ := landing_lands hwork hm htouches hpartial hok
    obtain ⟨hcopies, hall, hwhole⟩ := addedCopy_copies m i.l2 i.slot cells (s.cluster m.k)
    refine ⟨s', _, hexec, hlanded, hcopies, hwhole.trans hpartial, fun e he => ?_, fun e he => ?_, fun hslot b hb n hn => ?_, fun hstart f hf => ?_,
      hmem, htenants, hother⟩
    · rw [hall, List.mem_append] at he
      exact he.symm.imp_right (fun h => landCells_byte (hcells ▸ h))
    · rw [hall]
      exact List.mem_append_right _ he
    · rw [hall, hcells]
      exact List.mem_append_left _ (landCells_all hslot hb hn)
    · rw [flightOf_congr hflights] at hf
      exact flightOf_begun s _ _ hstart hf
  · intro k sl j t l s hwork hjob hrun ht hl hwhole
    obtain ⟨hgood, hbad⟩ := startTile_of_whole hjob hrun ht hl hwhole
    have hexec := exec_startsTile hwork hjob hrun ht
    refine ⟨fun hnone => ?_, fun v f hv hforming hf hstop => ?_⟩
    · rw [hgood hnone] at hexec
      refine ⟨_, _, hexec, by rw [State.cluster_modCluster_same], rfl, rfl, rfl, rfl, rfl, rfl, rfl, rfl, fun q hq => ?_⟩
      exact State.cluster_modCluster_other _ _ _ _ hq
    · rw [hbad v hv] at hexec
      obtain ⟨hflight, cs, fl, hrest⟩ := faultMember_of_none_forming (atTile v t.l2) hf hstop hforming
      obtain ⟨c, hc⟩ := faultMember_dropped (uid := j.f.uid) (atTile v t.l2) hforming
      obtain ⟨hidle, howner⟩ := droppedCluster_idle j.f.uid c
      refine ⟨_, _, hexec, hflight, rfl, ?_, ?_, by rw [hrest]⟩
      · rw [hc]
        exact hidle
      · rw [hc]
        exact howner
  · intro k j r t s hrun ht
    refine ⟨fun b hgoes hload => ?_, fun hflight hsettled hdecision => ⟨fun p hlock hnext => ⟨?_, ?_⟩, ?_⟩⟩
    · obtain ⟨r', hrun', hshadow, hweights, hregister, hheld, hflight, hcycle⟩ := loadShadow_loads (c := s.cluster k) hload
      refine ⟨_, r', exec_loads hrun hgoes, ?_, hshadow, hweights, ?_, ?_, hflight, hcycle, rfl, rfl, fun q hq => ?_⟩
      · rw [State.cluster_setCluster_same]
        exact hrun'
      · rw [State.cluster_setCluster_same]
        exact hregister
      · rw [State.cluster_setCluster_same]
        exact hheld
      · exact State.cluster_setCluster_other _ _ _ _ hq
    · exact passIssue_same hrun ht hflight hsettled hdecision hlock hnext
    · exact passIssue_swapped hrun ht hflight hsettled hdecision hlock hnext
    · intro n
      exact passIssue_lanes hrun ht hflight hsettled hdecision

end Sys2Proof.Machine

/-!
PUMPHOUSE_VISIT (R352, R354, R355, R403): the request rings are copied out and settled, then each class is served, and slots are filled.
-/

namespace Sys2Proof.Machine

/-! ## Folds that act at one place only -/

theorem foldl_of_fixed {α β : Type} (g : α → β → α) (s : α) (l : List β) (h : ∀ b ∈ l, g s b = s) : l.foldl g s = s := by
  induction l with
  | nil => rfl
  | cons b l ih =>
    rw [List.foldl_cons, h b List.mem_cons_self]
    exact ih (fun c hc => h c (List.mem_cons_of_mem _ hc))

theorem foldl_of_only {α β : Type} [DecidableEq β] (g : α → β → α) (s : α) (b : β) (l : List β) (hl : l.Nodup) (hb : b ∈ l)
    (hbefore : ∀ c ∈ l, c ≠ b → g s c = s) (hafter : ∀ c ∈ l, c ≠ b → g (g s b) c = g s b) : l.foldl g s = g s b := by
  induction l with
  | nil => cases hb
  | cons c l ih =>
    obtain ⟨hnot, hl'⟩ := List.nodup_cons.mp hl
    rw [List.foldl_cons]
    by_cases hc : c = b
    · subst hc
      exact foldl_of_fixed g _ l (fun d hd => hafter d (List.mem_cons_of_mem _ hd) (fun h => hnot (h ▸ hd)))
    · rw [hbefore c List.mem_cons_self hc]
      exact ih hl' ((List.mem_cons.mp hb).resolve_left (fun h => hc h.symm)) (fun d hd => hbefore d (List.mem_cons_of_mem _ hd))
        (fun d hd => hafter d (List.mem_cons_of_mem _ hd))

/-- A fold whose steps each change one tenant, by a relation, changes the tenants of the list by it. -/
theorem foldl_tenants (g : State → Nat → State) (hg : ∀ s t, OtherTenants s (g s t) t) (R : Tenant → Tenant → Prop)
    (hR : ∀ s t, R (s.tenant t) ((g s t).tenant t)) (l : List Nat) : ∀ (s : State) (t : Nat), l.Nodup → t ∈ l →
      R (s.tenant t) ((l.foldl g s).tenant t) := by
  have hother : ∀ (l : List Nat) (s : State) (t : Nat), t ∉ l → (l.foldl g s).tenant t = s.tenant t := by
    intro l
    induction l with
    | nil => exact fun _ _ _ => rfl
    | cons u l ih =>
      intro s t ht
      rw [List.mem_cons, not_or] at ht
      obtain ⟨hne, hnot⟩ := ht
      exact (ih _ t hnot).trans (hg s u t hne)
  induction l with
  | nil => exact fun _ _ _ h => absurd h List.not_mem_nil
  | cons u l ih =>
    intro s t hl ht
    obtain ⟨hnot, hl'⟩ := List.nodup_cons.mp hl
    rw [List.foldl_cons]
    by_cases htu : t = u
    · rw [htu, hother l _ u hnot]
      exact hR s u
    · have h := ih (g s u) t hl' ((List.mem_cons.mp ht).resolve_left htu)
      rwa [hg s u t htu] at h

/-! ## Filling slots changes clusters only (R379) -/

/-- From s to s' nothing but clusters has changed. -/
def ClustersOnly (s s' : State) : Prop := ∃ cs, s' = { s with clusters := cs }

theorem fillSlots_clustersOnly (s : State) : ClustersOnly s (fillSlots s) := by
  have hstep : ∀ (a b c : State), ClustersOnly a b → ClustersOnly b c → ClustersOnly a c := by
    rintro a b c ⟨cs, rfl⟩ ⟨cs', rfl⟩
    exact ⟨cs', rfl⟩
  refine foldl_keeps (ClustersOnly s) _ (fun a f h => hstep s a _ h ?_) _ _ ⟨s.clusters, rfl⟩
  refine foldl_keeps (ClustersOnly a) _ (fun b k hb => hstep a b _ hb ?_) _ _ ⟨a.clusters, rfl⟩
  split
  · exact ⟨_, rfl⟩
  · exact ⟨b.clusters, rfl⟩

/-! ## Settling (R354, R355) -/

/-- A tenant whose head message has been dropped as a gap. -/
def gapOpened (x : Tenant) : Tenant := { discardHead x with gap := true }

theorem settle_of_accepted {s : State} {t : Nat} (h : ∀ m ∈ (s.tenant t).copied.head?, acceptable (s.tenant t) m = true) (n : Nat) :
    settle s t n = s := by
  cases n with
  | zero => rfl
  | succ n =>
    unfold settle
    dsimp only
    split
    · rfl
    · next m rest hcopied => exact if_pos (h m (by rw [hcopied]; rfl))

section
variable {s : State} {t : Nat} {m : List Word} {rest : List (List Word)} (hcopied : (s.tenant t).copied = m :: rest)
  (hnot : acceptable (s.tenant t) m = false)
include hcopied hnot

theorem settle_drops (h : (unheard (s.tenant t) m || decide (32768 ≤ seqDistance (s.tenant t) m) || (s.tenant t).gap) = true) (n : Nat) :
    settle s t (n + 1) = settle (s.setTenant t (discardHead (s.tenant t))) t n := by
  rw [settle]
  dsimp only
  rw [hcopied]
  dsimp only
  rw [hnot, h]
  rfl

theorem settle_opensGap (h : (unheard (s.tenant t) m || decide (32768 ≤ seqDistance (s.tenant t) m) || (s.tenant t).gap) = false) (n : Nat) :
    settle s t (n + 1) = settle (postNotice (s.setTenant t (gapOpened (s.tenant t))) t
      (messageNotice (mSeq m) 1 (mType m) (s.tenant t).expected.toNat)) t n := by
  rw [settle]
  dsimp only
  rw [hcopied]
  dsimp only
  rw [hnot, h]
  rfl

end

/-- From s to s' messages of a tenant's ring have been settled: no other tenant and no request ring has changed. -/
def SettledFor (t : Nat) (s s' : State) : Prop := OtherTenants s s' t ∧ (s'.tenant t).requestRing = (s.tenant t).requestRing

theorem settle_settledFor (t n : Nat) : ∀ s, SettledFor t s (settle s t n) := by
  induction n with
  | zero => exact fun s => ⟨otherTenants_refl s t, rfl⟩
  | succ n ih =>
    intro s
    cases hcopied : (s.tenant t).copied with
    | nil =>
      rw [settle_of_accepted (by rw [hcopied]; exact fun m hm => by cases hm)]
      exact ⟨otherTenants_refl s t, rfl⟩
    | cons m rest =>
      cases hnot : acceptable (s.tenant t) m with
      | true =>
        rw [settle_of_accepted (by rw [hcopied]; exact fun m hm => by cases hm; exact hnot)]
        exact ⟨otherTenants_refl s t, rfl⟩
      | false =>
        cases h : unheard (s.tenant t) m || decide (32768 ≤ seqDistance (s.tenant t) m) || (s.tenant t).gap with
        | true =>
          rw [settle_drops hcopied hnot h]
          obtain ⟨hother, hring⟩ := ih (s.setTenant t (discardHead (s.tenant t)))
          exact ⟨(otherTenants_setTenant s t _).trans hother, hring.trans (by rw [State.tenant_setTenant_same]; rfl)⟩
        | false =>
          rw [settle_opensGap hcopied hnot h]
          generalize messageNotice (mSeq m) 1 (mType m) (s.tenant t).expected.toNat = body
          obtain ⟨hother, hring⟩ := ih (postNotice (s.setTenant t (gapOpened (s.tenant t))) t body)
          have hposted := of_besideMail Tenant.requestRing (fun _ => rfl) (besideMail_postNotice (s.setTenant t (gapOpened (s.tenant t))) t body t)
          refine ⟨((otherTenants_setTenant s t _).trans (otherTenants_postNotice _ t body)).trans hother, (hring.trans hposted).trans ?_⟩
          rw [State.tenant_setTenant_same]
          rfl

/-! ## Copying a request ring (R352) -/

/-- A tenant whose request ring has been copied out. -/
def ringCopied (x : Tenant) : Tenant := { x with requestRing := [], copied := x.copied ++ x.requestRing.map (leWords 16) }

theorem copyRing_eq (s : State) (t : Nat) (h : (s.tenant t).requestRing ≠ []) :
    copyRing s t = settleAll (s.setTenant t (ringCopied (s.tenant t))) t := by
  unfold copyRing
  dsimp only
  exact if_neg (by simpa using h)

theorem copyRing_of_empty {s : State} {t : Nat} (hring : (s.tenant t).requestRing = []) : copyRing s t = settleAll s t := by
  unfold copyRing
  dsimp only
  rw [hring]
  rfl

/-- A tenant with nothing in its request ring and nothing copied has nothing to settle. -/
theorem copyRing_of_none {s : State} {t : Nat} (hring : (s.tenant t).requestRing = []) (hcopied : (s.tenant t).copied = []) :
    copyRing s t = s := by
  rw [copyRing_of_empty hring]
  exact settle_of_accepted (by rw [hcopied]; exact fun m hm => by cases hm) _

/-- What copying makes of a tenant: its request ring is empty, and messages that begin with an accepted one all wait in their order. -/
def CopiedFrom (x y : Tenant) : Prop :=
  y.requestRing = [] ∧ (x.copied = [] → (∀ e ∈ x.requestRing.head?, acceptable x (leWords 16 e) = true) → y.copied = x.requestRing.map (leWords 16))

theorem copyRing_copies (s : State) (t : Nat) : OtherTenants s (copyRing s t) t ∧ CopiedFrom (s.tenant t) ((copyRing s t).tenant t) := by
  by_cases hempty : (s.tenant t).requestRing = []
  · rw [copyRing_of_empty hempty]
    obtain ⟨hother, hring⟩ := settle_settledFor t ((s.tenant t).copied.length + 1) s
    refine ⟨hother, hring.trans hempty, fun hcopied _ => ?_⟩
    rw [hempty, ← copyRing_of_empty hempty, copyRing_of_none hempty hcopied, hcopied]
    rfl
  · rw [copyRing_eq s t hempty]
    have hset := s.tenant_setTenant_same t (ringCopied (s.tenant t))
    obtain ⟨hother, hring⟩ := settle_settledFor t (((s.setTenant t (ringCopied (s.tenant t))).tenant t).copied.length + 1)
      (s.setTenant t (ringCopied (s.tenant t)))
    refine ⟨(otherTenants_setTenant s t _).trans hother, hring.trans (by rw [hset]; rfl), fun hcopied hhead => ?_⟩
    have hwait : (ringCopied (s.tenant t)).copied = (s.tenant t).requestRing.map (leWords 16) := by
      unfold ringCopied
      dsimp only
      rw [hcopied, List.nil_append]
    unfold settleAll
    rw [settle_of_accepted, hset, hwait]
    intro m hm
    rw [hset, hwait, List.head?_map] at hm
    obtain ⟨e, he, rfl⟩ := Option.map_eq_some_iff.mp hm
    rw [hset]
    exact hhead e he

end Sys2Proof.Machine

/-!
Admission (R230, R289, R403 to R408, R443): the head clause of a ring is rejected, completed at once or put in flight, and the tenants of a class
are served in their order.
-/

namespace Sys2Proof.Machine

/-! ## The head clause (R289, R405) -/

section
variable (s : State) (t prio : Nat) (c : Clause)

/-- The flight that the head clause of a ring becomes. -/
def headFlight : Flight :=
  { tenant := t, tag := cTag (s.tenant t).bl c, prio := prio, words := c, uid := s.work.nextUid, sentence := ((s.tenant t).ring prio).sentence
    first := ((s.tenant t).ring prio).atStart
    before := if ((s.tenant t).ring prio).atStart then none else ((s.tenant t).ring prio).lastUid
    extents := extentsFor ((s.tenant t).plan.getD {}) ((s.tenant t).ring prio) (cMap c)
    waiting := runners ((s.tenant t).plan.getD {}) c
    done := (runners ((s.tenant t).plan.getD {}) c).isEmpty && decide (cVerb c < 0x0C ∨ 0x0E < cVerb c), admittedAt := s.nowUs }

/-- The head clause is a BIND that its ring takes. -/
def headBinds : Bool := decide (cVerb c = 0x0B) && (rejectReason s t c).isNone && !regionFenced s ((s.tenant t).plan.getD {}) c

/-- The records of BIND in the ring after its head clause. -/
def bindsAfter : List BindRec :=
  if headBinds s t c then
    { map := cMap c, extents := bindExtents ((s.tenant t).plan.getD {}) ((s.tenant t).ring prio) c }
      :: ((s.tenant t).ring prio).binds.filter (fun b => b.map ≠ cMap c)
  else ((s.tenant t).ring prio).binds

/-- The tenant whose ring has lost its head clause. -/
def tenantTaken : Tenant := (s.tenant t).modRing prio (fun r => ringAfter r c s.work.nextUid (bindsAfter s t prio c))

/-- The state in which the head clause has been taken from its ring. -/
def headTaken : State := ({ s with work := { s.work with nextUid := s.work.nextUid + 1 } } : State).setTenant t (tenantTaken s t prio c)

end

section
variable {s : State} {t prio : Nat} {c : Clause} {rest : List Clause} (h : ((s.tenant t).ring prio).waiting = c :: rest)
include h

theorem admitHead_rejected {code : Nat} (hwhy : rejectReason s t c = some code) :
    admitHead s t prio = completeClause (headTaken s t prio c) (headFlight s t prio c) { status := stRejected, reason := code } := by
  unfold admitHead
  dsimp only
  rw [h]
  simp only [hwhy]
  unfold headTaken tenantTaken bindsAfter headBinds
  rw [hwhy]
  rfl

theorem admitHead_fenced (hwhy : rejectReason s t c = none) (hfence : regionFenced s ((s.tenant t).plan.getD {}) c = true) :
    admitHead s t prio = completeClause (headTaken s t prio c) (headFlight s t prio c) { status := stAbsent } := by
  unfold admitHead
  dsimp only
  rw [h]
  simp only [hwhy]
  unfold headTaken tenantTaken bindsAfter headBinds
  rw [hwhy]
  exact if_pos hfence

theorem admitHead_bound (hwhy : rejectReason s t c = none) (hfence : regionFenced s ((s.tenant t).plan.getD {}) c = false)
    (hverb : cVerb c = 0x0B) : admitHead s t prio = completeClause (headTaken s t prio c) (headFlight s t prio c) {} := by
  unfold admitHead
  dsimp only
  rw [h]
  simp only [hwhy]
  unfold headTaken tenantTaken bindsAfter headBinds
  rw [hwhy]
  refine (if_neg (Bool.eq_false_iff.mp hfence)).trans (if_pos ?_)
  rw [show regionFenced _ ((s.tenant t).plan.getD {}) c = false from hfence, hverb]
  rfl

theorem admitHead_flown (hwhy : rejectReason s t c = none) (hfence : regionFenced s ((s.tenant t).plan.getD {}) c = false)
    (hverb : cVerb c ≠ 0x0B) : admitHead s t prio
      = setFlights (headTaken s t prio c) (s.work.flights ++ [headFlight s t prio c]) := by
  unfold admitHead
  dsimp only
  rw [h]
  simp only [hwhy]
  unfold headTaken tenantTaken bindsAfter headBinds
  rw [hwhy]
  refine (if_neg (Bool.eq_false_iff.mp hfence)).trans (if_neg ?_)
  rw [decide_eq_false hverb]
  exact Bool.false_ne_true

end

/-- Nothing but mail has changed of the tenants once the head clause has been taken. -/
theorem admitHead_mail {s : State} {t prio : Nat} {c : Clause} {rest : List Clause} (h : ((s.tenant t).ring prio).waiting = c :: rest) (u : Nat) :
    TenantMail ((headTaken s t prio c).tenant u) ((admitHead s t prio).tenant u) := by
  cases hwhy : rejectReason s t c with
  | some code =>
    rw [admitHead_rejected h hwhy]
    exact (completeClause_clauseFrame _ _ _).tenants u
  | none =>
    cases hfence : regionFenced s ((s.tenant t).plan.getD {}) c with
    | true =>
      rw [admitHead_fenced h hwhy hfence]
      exact (completeClause_clauseFrame _ _ _).tenants u
    | false =>
      by_cases hverb : cVerb c = 0x0B
      · rw [admitHead_bound h hwhy hfence hverb]
        exact (completeClause_clauseFrame _ _ _).tenants u
      · rw [admitHead_flown h hwhy hfence hverb]
        exact .refl _

/-! ## Serving the tenants (R403) -/

/-- From x to y nothing of a tenant but its rings and its mail has changed. -/
def RingsMail (x y : Tenant) : Prop := ∃ rs, TenantMail { x with rings := rs } y

theorem RingsMail.refl (x : Tenant) : RingsMail x x := ⟨x.rings, .refl x⟩

theorem RingsMail.trans {x y z : Tenant} (hxy : RingsMail x y) (hyz : RingsMail y z) : RingsMail x z := by
  obtain ⟨rs, _, _, _, _, _, _, _, _, _, _, _, _, rfl⟩ := hxy
  obtain ⟨rs', _, _, _, _, _, _, _, _, _, _, _, _, rfl⟩ := hyz
  exact ⟨rs', _, _, _, _, _, _, _, _, _, _, _, _, rfl⟩

theorem RingsMail.messages {x y : Tenant} (h : RingsMail x y) : y.requestRing = x.requestRing ∧ y.copied = x.copied := by
  obtain ⟨rs, _, _, _, _, _, _, _, _, _, _, _, _, rfl⟩ := h
  exact ⟨rfl, rfl⟩

theorem serveTenant_ringsMail (s : State) (t prio u : Nat) : RingsMail (s.tenant u) ((serveTenant s t prio).tenant u) := by
  have hserved : (serveTenant s t prio).tenant u = (admitHead s t prio).tenant u := rfl
  rw [hserved]
  cases hwaiting : ((s.tenant t).ring prio).waiting with
  | nil =>
    have hsame : admitHead s t prio = s := by
      unfold admitHead
      dsimp only
      rw [hwaiting]
    rw [hsame]
    exact .refl _
  | cons c rest =>
    have hmail := admitHead_mail hwaiting u
    by_cases hu : u = t
    · subst hu
      rw [show (headTaken s u prio c).tenant u = tenantTaken s u prio c from State.tenant_setTenant_same _ _ _] at hmail
      exact ⟨_, hmail⟩
    · rw [show (headTaken s t prio c).tenant u = s.tenant u from State.tenant_setTenant_other _ _ _ _ hu] at hmail
      exact ⟨_, hmail⟩

theorem serveFrom_ringsMail (prio n : Nat) : ∀ (left : List Nat) (s : State) (u : Nat),
    RingsMail (s.tenant u) ((serveFrom prio n left s).tenant u) := by
  induction n with
  | zero => exact fun _ _ _ => .refl _
  | succ n ih =>
    intro left s u
    unfold serveFrom
    split
    · exact .refl _
    · next t _ => exact (serveTenant_ringsMail s t prio u).trans (ih _ _ u)

/-- Serving every class leaves the messages of every tenant. -/
theorem serveClasses_ringsMail (l : List Nat) (s : State) (u : Nat) : RingsMail (s.tenant u) ((l.foldl serveClass s).tenant u) :=
  foldl_keeps (fun a => RingsMail (s.tenant u) (a.tenant u)) _ (fun a prio h => h.trans (serveFrom_ringsMail prio 16 _ a u)) l s (.refl _)

/-! ## When no ring, or one ring, can be served -/

/-- No clause of a class can be admitted. -/
def NoneToServe (s : State) (prio : Nat) : Prop := ∀ u, u < 16 → canAdmit s u prio = false

theorem mem_serviceOrder {s : State} {prio u : Nat} : u ∈ serviceOrder s prio ↔ u < 16 ∧ canAdmit s u prio = true ∧ headDeadline s u prio < 8 := by
  unfold serviceOrder
  simp only [List.mem_flatMap, List.mem_filter, List.mem_map, List.mem_range, Bool.and_eq_true, decide_eq_true_eq]
  generalize s.work.lastServed.getD prio 15 = last
  constructor
  · rintro ⟨d, hd, ⟨r, _, rfl⟩, hcan, hdeadline⟩
    exact ⟨Nat.mod_lt _ (by omega), hcan, hdeadline ▸ hd⟩
  · rintro ⟨hu, hcan, hdeadline⟩
    exact ⟨_, hdeadline, ⟨(u + (16 - (last + 1) % 16)) % 16, by omega, by omega⟩, hcan, rfl⟩

theorem serviceOrder_nil {s : State} {prio : Nat} (h : NoneToServe s prio) : serviceOrder s prio = [] := by
  refine List.eq_nil_iff_forall_not_mem.mpr (fun u hu => ?_)
  obtain ⟨hlt, hcan, _⟩ := mem_serviceOrder.mp hu
  rw [h u hlt] at hcan
  cases hcan

theorem serveFrom_of_none {s : State} {prio : Nat} (h : NoneToServe s prio) (n : Nat) (left : List Nat) : serveFrom prio n left s = s := by
  cases n with
  | zero => rfl
  | succ n =>
    unfold serveFrom
    rw [serviceOrder_nil h]
    rfl

/-- Of one tenant that can be served alone, its head clause is admitted. -/
theorem serveClass_of_one {s : State} {t prio : Nat} (ht : t < 16) (hcan : canAdmit s t prio = true) (hdeadline : headDeadline s t prio < 8)
    (halone : ∀ u, u < 16 → u ≠ t → canAdmit s u prio = false) (hafter : NoneToServe (serveTenant s t prio) prio) :
    serveClass s prio = serveTenant s t prio := by
  have hfind : (serviceOrder s prio).find? (fun u => (List.range 16).contains u) = some t := by
    cases hf : (serviceOrder s prio).find? (fun u => (List.range 16).contains u) with
    | none =>
      have hnot := List.find?_eq_none.mp hf t (mem_serviceOrder.mpr ⟨ht, hcan, hdeadline⟩)
      exact absurd (by simpa using ht) hnot
    | some u =>
      obtain ⟨hu, hcanu, _⟩ := mem_serviceOrder.mp (List.mem_of_find?_eq_some hf)
      by_contra hne
      rw [halone u hu (fun h => hne (congrArg some h))] at hcanu
      cases hcanu
  unfold serveClass serveFrom
  rw [hfind]
  exact serveFrom_of_none hafter _ _

end Sys2Proof.Machine

/-!
A visit empties the request rings (R352); a single message that is not accepted is consumed and counted, or opens a gap (R354, R355, R364).
-/

namespace Sys2Proof.Machine

theorem exec_visits {s : State} (hready : ready s = true) : exec .pumphouseVisit s
    = .next (fillSlots ((List.range 4).foldl serveClass ((List.range 16).foldl copyRing s))) := by
  refine Eq.trans (b := execPumphouseVisit s) rfl ?_
  unfold execPumphouseVisit
  exact if_pos hready

/-- What a visit leaves of a tenant's messages is what copying its ring left. -/
theorem visit_copies (s : State) {t : Nat} (ht : t < 16) :
    CopiedFrom (s.tenant t) ((fillSlots ((List.range 4).foldl serveClass ((List.range 16).foldl copyRing s))).tenant t) := by
  have hcopied := foldl_tenants copyRing (fun s t => (copyRing_copies s t).1) CopiedFrom (fun s t => (copyRing_copies s t).2) (List.range 16) s t
    List.nodup_range (List.mem_range.mpr ht)
  generalize (List.range 16).foldl copyRing s = a at hcopied ⊢
  obtain ⟨hring, hmessages⟩ := (serveClasses_ringsMail (List.range 4) a t).messages
  generalize (List.range 4).foldl serveClass a = b at hring hmessages ⊢
  obtain ⟨cs, hslots⟩ := fillSlots_clustersOnly b
  rw [hslots]
  exact ⟨hring.trans hcopied.1, fun hnone hhead => hmessages.trans (hcopied.2 hnone hhead)⟩

/-! ## One message that is not accepted -/

theorem canAdmit_congr {s s' : State} {u : Nat} (prio : Nat) (hflights : s'.work.flights = s.work.flights)
    (henabled : (s'.tenant u).enabled = (s.tenant u).enabled) (hrings : (s'.tenant u).rings = (s.tenant u).rings)
    (hhalted : (s'.tenant u).halted = (s.tenant u).halted) : canAdmit s' u prio = canAdmit s u prio := by
  unfold canAdmit tenantFlights Tenant.ring
  dsimp only
  rw [hflights, henabled, hrings, hhalted]

/-- With messages of one tenant only, the rings are copied by copying that tenant's. -/
theorem foldl_copyRing_of_one {s : State} {t : Nat} (ht : t < 16)
    (halone : ∀ u, u < 16 → u ≠ t → (s.tenant u).requestRing = [] ∧ (s.tenant u).copied = []) :
    (List.range 16).foldl copyRing s = copyRing s t := by
  refine foldl_of_only copyRing s t _ List.nodup_range (List.mem_range.mpr ht) (fun u hu hne => ?_) (fun u hu hne => ?_)
  · obtain ⟨hring, hcopied⟩ := halone u (List.mem_range.mp hu) hne
    exact copyRing_of_none hring hcopied
  · obtain ⟨hring, hcopied⟩ := halone u (List.mem_range.mp hu) hne
    rw [← (copyRing_copies s t).1 u hne] at hring hcopied
    exact copyRing_of_none hring hcopied

/-- With nothing that can be admitted a visit serves nobody. -/
theorem foldl_serveClass_of_none {s : State} (h : ∀ prio, prio < 4 → NoneToServe s prio) : (List.range 4).foldl serveClass s = s :=
  foldl_of_fixed serveClass s _ (fun prio hprio => serveFrom_of_none (h prio (List.mem_range.mp hprio)) _ _)

section
variable {s : State} {t : Nat} {e : List Byte} (hring : (s.tenant t).requestRing = [e]) (hcopied : (s.tenant t).copied = [])
  (hnot : acceptable (s.tenant t) (leWords 16 e) = false)
include hring hcopied

theorem ringCopied_copied : (ringCopied (s.tenant t)).copied = [leWords 16 e] := by
  unfold ringCopied
  rw [hring, hcopied]
  rfl

include hnot

/-- A duplicate, a message in gap mode and one that nobody hears are dropped. -/
theorem copyRing_drops
    (h : (unheard (s.tenant t) (leWords 16 e) || decide (32768 ≤ seqDistance (s.tenant t) (leWords 16 e)) || (s.tenant t).gap) = true) :
    copyRing s t = s.setTenant t (discardHead (ringCopied (s.tenant t))) := by
  have hset := s.tenant_setTenant_same t (ringCopied (s.tenant t))
  have hone := ringCopied_copied hring hcopied
  rw [copyRing_eq s t (by rw [hring]; exact List.cons_ne_nil _ _)]
  unfold settleAll
  rw [hset, hone, settle_drops (by rw [hset]; exact hone) (by rw [hset]; exact hnot) (by rw [hset]; exact h), hset, State.setTenant_setTenant]
  refine settle_of_accepted (fun m hm => ?_) _
  rw [State.tenant_setTenant_same, show (discardHead (ringCopied (s.tenant t))).copied = _ from congrArg (List.drop 1) hone] at hm
  cases hm

/-- A message ahead of the sequence opens a gap. -/
theorem copyRing_opensGap
    (h : (unheard (s.tenant t) (leWords 16 e) || decide (32768 ≤ seqDistance (s.tenant t) (leWords 16 e)) || (s.tenant t).gap) = false) :
    copyRing s t = postNotice (s.setTenant t (gapOpened (ringCopied (s.tenant t)))) t
      (messageNotice (mSeq (leWords 16 e)) 1 (mType (leWords 16 e)) (s.tenant t).expected.toNat) := by
  have hset := s.tenant_setTenant_same t (ringCopied (s.tenant t))
  have hone := ringCopied_copied hring hcopied
  rw [copyRing_eq s t (by rw [hring]; exact List.cons_ne_nil _ _)]
  unfold settleAll
  rw [hset, hone, settle_opensGap (by rw [hset]; exact hone) (by rw [hset]; exact hnot) (by rw [hset]; exact h), hset, State.setTenant_setTenant,
    show (ringCopied (s.tenant t)).expected = (s.tenant t).expected from rfl]
  generalize messageNotice (mSeq (leWords 16 e)) 1 (mType (leWords 16 e)) (s.tenant t).expected.toNat = body
  have hposted := of_besideMail Tenant.copied (fun _ => rfl)
    (besideMail_postNotice (s.setTenant t (gapOpened (ringCopied (s.tenant t)))) t body t)
  rw [State.tenant_setTenant_same] at hposted
  refine settle_of_accepted (fun m hm => ?_) _
  rw [hposted, show (gapOpened (ringCopied (s.tenant t))).copied = _ from congrArg (List.drop 1) hone] at hm
  cases hm

end

/-- Copying a single message that is not accepted leaves the flights, and of the tenant's rings, HALTED and enabling. -/
theorem copyRing_admission {s a : State} {t : Nat} {x : Tenant} (hother : OtherTenants s a t) (hflights : a.work.flights = s.work.flights)
    (hx : besideMail (a.tenant t) = besideMail x) (henabled : x.enabled = (s.tenant t).enabled) (hrings : x.rings = (s.tenant t).rings)
    (hhalted : x.halted = (s.tenant t).halted) (u prio : Nat) : canAdmit a u prio = canAdmit s u prio := by
  by_cases hu : u = t
  · subst hu
    exact canAdmit_congr prio hflights ((of_besideMail Tenant.enabled (fun _ => rfl) hx).trans henabled)
      ((of_besideMail Tenant.rings (fun _ => rfl) hx).trans hrings) ((of_besideMail Tenant.halted (fun _ => rfl) hx).trans hhalted)
  · exact canAdmit_congr prio hflights (by rw [hother u hu]) (by rw [hother u hu]) (by rw [hother u hu])

/-- A visit with one message, which is not accepted, and nothing that can be admitted copies the message's ring. -/
theorem visit_of_one {s : State} {t : Nat} {e : List Byte} (hready : ready s = true) (ht : t < 16)
    (halone : ∀ u, u < 16 → u ≠ t → (s.tenant u).requestRing = [] ∧ (s.tenant u).copied = [])
    (hnone : ∀ u prio, u < 16 → prio < 4 → canAdmit s u prio = false) (hcopied : (s.tenant t).copied = [])
    (hring : (s.tenant t).requestRing = [e]) (hnot : acceptable (s.tenant t) (leWords 16 e) = false) :
    ∃ cs, exec .pumphouseVisit s = .next { copyRing s t with clusters := cs } := by
  have hcan : ∀ u prio, canAdmit (copyRing s t) u prio = canAdmit s u prio := by
    cases h : unheard (s.tenant t) (leWords 16 e) || decide (32768 ≤ seqDistance (s.tenant t) (leWords 16 e)) || (s.tenant t).gap with
    | true =>
      rw [copyRing_drops hring hcopied hnot h]
      exact copyRing_admission (otherTenants_setTenant s t _) rfl (congrArg besideMail (State.tenant_setTenant_same _ _ _)) rfl rfl rfl
    | false =>
      rw [copyRing_opensGap hring hcopied hnot h]
      generalize messageNotice _ 1 _ _ = body
      have hbeside := besideMail_postNotice (s.setTenant t (gapOpened (ringCopied (s.tenant t)))) t body t
      rw [State.tenant_setTenant_same] at hbeside
      refine copyRing_admission ((otherTenants_setTenant s t _).trans (otherTenants_postNotice _ t body)) ?_ hbeside rfl rfl rfl
      obtain ⟨_, _, _, _, _, heq⟩ := (postNotice_mailFrame (s.setTenant t (gapOpened (ringCopied (s.tenant t)))) t body).rest
      rw [heq]
      rfl
  obtain ⟨cs, hslots⟩ := fillSlots_clustersOnly (copyRing s t)
  refine ⟨cs, ?_⟩
  rw [exec_visits hready, foldl_copyRing_of_one ht halone,
    foldl_serveClass_of_none (fun prio hprio u hu => (hcan u prio).trans (hnone u prio hu hprio)), hslots]

section
variable {s : State} {t : Nat} {e : List Byte} (hcopied : (s.tenant t).copied = []) (hring : (s.tenant t).requestRing = [e])
  (hnot : acceptable (s.tenant t) (leWords 16 e) = false)
include hcopied hring hnot

/-- A message that is dropped is counted, and changes no memory and no notice. -/
theorem dropped_counted
    (h : (unheard (s.tenant t) (leWords 16 e) || decide (32768 ≤ seqDistance (s.tenant t) (leWords 16 e)) || (s.tenant t).gap) = true) :
    ((copyRing s t).tenant t).copied = [] ∧ ((copyRing s t).tenant t).expected = (s.tenant t).expected
      ∧ ((copyRing s t).tenant t).discarded = min 0xFFFF ((s.tenant t).discarded + 1)
      ∧ (copyRing s t).mem = s.mem ∧ ((copyRing s t).tenant t).gap = (s.tenant t).gap ∧ ((copyRing s t).tenant t).tail = (s.tenant t).tail := by
  rw [copyRing_drops hring hcopied hnot h, State.tenant_setTenant_same]
  exact ⟨congrArg (List.drop 1) (ringCopied_copied hring hcopied), rfl, rfl, rfl, rfl, rfl⟩

/-- A message that opens a gap is counted and noticed. -/
theorem gapped_counted
    (h : (unheard (s.tenant t) (leWords 16 e) || decide (32768 ≤ seqDistance (s.tenant t) (leWords 16 e)) || (s.tenant t).gap) = false) :
    ((copyRing s t).tenant t).copied = [] ∧ ((copyRing s t).tenant t).expected = (s.tenant t).expected
      ∧ ((copyRing s t).tenant t).discarded = min 0xFFFF ((s.tenant t).discarded + 1) ∧ ((copyRing s t).tenant t).gap = true
      ∧ (CanNotify s t → Notified s (copyRing s t) t
          (messageNotice (mSeq (leWords 16 e)) 1 (mType (leWords 16 e)) (s.tenant t).expected.toNat)) := by
  rw [copyRing_opensGap hring hcopied hnot h]
  generalize hbody : messageNotice (mSeq (leWords 16 e)) 1 (mType (leWords 16 e)) (s.tenant t).expected.toNat = body
  have hbeside := besideMail_postNotice (s.setTenant t (gapOpened (ringCopied (s.tenant t)))) t body t
  rw [State.tenant_setTenant_same] at hbeside
  refine ⟨?_, ?_, ?_, ?_, fun hcan => ?_⟩
  · exact (of_besideMail Tenant.copied (fun _ => rfl) hbeside).trans (congrArg (List.drop 1) (ringCopied_copied hring hcopied))
  · exact (of_besideMail Tenant.expected (fun _ => rfl) hbeside).trans rfl
  · exact (of_besideMail Tenant.discarded (fun _ => rfl) hbeside).trans rfl
  · exact (of_besideMail Tenant.gap (fun _ => rfl) hbeside).trans rfl
  · have hcan' : CanNotify (s.setTenant t (gapOpened (ringCopied (s.tenant t)))) t := canNotify_setTenant hcan rfl
    refine notified_of_setTenant (x := gapOpened (ringCopied (s.tenant t))) rfl ?_
    rw [postNotice_writes body hcan']
    exact notified_writeSlot hcan'.2.2.2 (by rw [← hbody, messageNotice_length]) rfl rfl

end

/-! ## The obligation -/

/-- Settles O6: copying settles each ring by its own tenant, and serving leaves messages alone. -/
theorem visitSortsMessages : Obligations.VisitSortsMessages := by
  unfold Obligations.VisitSortsMessages
  refine ⟨fun s hready => ?_, fun t m e s hready halone hnone hcopied hring hm hnot => ?_⟩
  · refine ⟨_, exec_visits hready, fun t => (visit_copies s t.isLt).1, fun t es hcopied hes hhead => ?_⟩
    subst hes
    exact (visit_copies s t.isLt).2 hcopied hhead
  · subst hm
    obtain ⟨cs, hexec⟩ := visit_of_one hready t.isLt (fun u hu hne => halone ⟨u, hu⟩ (fun h => hne (congrArg Fin.val h)))
      (fun u prio hu hprio => hnone ⟨u, hu⟩ ⟨prio, hprio⟩) hcopied hring hnot
    cases h : unheard (s.tenant t) (leWords 16 e) || decide (32768 ≤ seqDistance (s.tenant t) (leWords 16 e)) || (s.tenant t).gap with
    | true =>
      obtain ⟨hdone, hexpected, hdiscarded, hmem, hgap, htail⟩ := dropped_counted hcopied hring hnot h
      refine ⟨_, hexec, hdone, hexpected, hdiscarded, fun _ => ⟨hmem, hgap, htail⟩, fun hheard hahead hopen _ => ?_⟩
      rw [hheard, hopen, decide_eq_false (Nat.not_le.mpr hahead)] at h
      cases h
    | false =>
      obtain ⟨hdone, hexpected, hdiscarded, hgap, hnotified⟩ := gapped_counted hcopied hring hnot h
      refine ⟨_, hexec, hdone, hexpected, hdiscarded, fun hcases => ?_, fun _ _ _ hcan => ⟨hgap, hnotified hcan⟩⟩
      simp only [Bool.or_eq_false_iff, decide_eq_false_iff_not] at h
      obtain ⟨⟨hheard, hahead⟩, hopen⟩ := h
      simp [hheard, hahead, hopen] at hcases

end Sys2Proof.Machine

/-!
The head clause of an open ring leaves it (R229): put in flight (R405), rejected with HALTED and a notice (R289, R408), or a BIND whose extents hold
from then on (R280).
-/

namespace Sys2Proof.Machine

/-! ## The ring without its head clause (R229, R280) -/

section
variable {s : State} {t prio : Nat} {c : Clause} {rest : List Clause} (h : ((s.tenant t).ring prio).waiting = c :: rest)
include h

/-- A ring with a clause is one of the tenant's rings. -/
theorem ring_of_waiting : prio < (s.tenant t).rings.length := by
  by_contra hge
  unfold Tenant.ring at h
  rw [List.getD_eq_default _ _ (Nat.le_of_not_lt hge)] at h
  cases h

theorem tenantTaken_ring :
    (tenantTaken s t prio c).ring prio = ringAfter ((s.tenant t).ring prio) c s.work.nextUid (bindsAfter s t prio c) :=
  Tenant.ring_modRing_same _ _ _ (ring_of_waiting h)

/-- After admission a ring waits with what came behind its head clause, and every other ring is as it was. -/
theorem admitHead_ring (u q : Nat) : ((admitHead s t prio).tenant u).ring q
    = if u = t ∧ q = prio then ringAfter ((s.tenant t).ring prio) c s.work.nextUid (bindsAfter s t prio c) else (s.tenant u).ring q := by
  obtain ⟨_, _, _, _, _, _, _, _, _, _, _, _, hmail⟩ := admitHead_mail h u
  have hring : ((admitHead s t prio).tenant u).ring q = ((headTaken s t prio c).tenant u).ring q := by
    rw [hmail]
    rfl
  rw [hring]
  unfold headTaken
  by_cases hu : u = t
  · rw [hu, State.tenant_setTenant_same]
    by_cases hq : q = prio
    · rw [hq, if_pos ⟨rfl, rfl⟩]
      exact tenantTaken_ring h
    · rw [if_neg (fun hboth => hq hboth.2)]
      exact Tenant.ring_modRing_other _ _ _ _ hq
  · rw [State.tenant_setTenant_other _ _ _ _ hu, if_neg (fun hboth => hu hboth.1)]
    rfl

end

theorem ringAfter_waiting (r : SubRing) (c : Clause) (uid : Nat) (binds : List BindRec) : (ringAfter r c uid binds).waiting = r.waiting.drop 1 := by
  unfold ringAfter
  dsimp only
  split <;> rfl

/-! ## A clause that ends at admission (R289, R408) -/

section
variable {s : State} {t prio : Nat} {c : Clause}

theorem canNotify_headTaken (hcan : CanNotify s t) : CanNotify (headTaken s t prio c) t :=
  canNotify_congr (s := s) (by
    unfold headTaken
    rw [State.tenant_setTenant_same]
    rfl) rfl rfl hcan

theorem notified_of_headTaken {s' : State} {body : List Byte} (h : Notified (headTaken s t prio c) s' t body) : Notified s s' t body :=
  notified_congr (by
    unfold headTaken
    rw [State.tenant_setTenant_same]
    rfl) h

theorem headTaken_clears (hclears : (s.tenant t).clears = []) : ((headTaken s t prio c).tenant t).clears = [] := by
  unfold headTaken
  rw [State.tenant_setTenant_same]
  exact hclears

end

/-- A clause of a halting status, the only one of its tenant, leaves flight with its notice, and its ring is HALTED. -/
theorem completeClause_halts {s : State} {f : Flight} {v : Verdict} (hcan : CanNotify s f.tenant) (hclears : (s.tenant f.tenant).clears = [])
    (hstatus : v.status ≠ 0) (hhalts : halts v.status = true) (hnone : tenantFlights s f.tenant = []) (hprio : f.prio < 4) :
    Notified s (completeClause s f v) f.tenant (clauseNotice f v)
      ∧ (completeClause s f v).work.flights = s.work.flights.filter (fun g => g.uid ≠ f.uid)
      ∧ bit ((completeClause s f v).tenant f.tenant).halted.toNat f.prio = true := by
  obtain ⟨hended, hafter, _⟩ := endClause_ends (v := v) hcan hclears (by rw [decide_eq_false hstatus]; rfl)
  have hflights := endClause_flights s f v
  have hleft : (endClause s f v).work.flights.filter (fun g => g.tenant = f.tenant) = [] := by
    rw [hflights]
    exact Sublist_filter_nil List.filter_sublist hnone
  obtain ⟨hmem, hwork, owed, hhalted⟩ := haltRing_of_none_left (prio := f.prio) hleft
  have heq : completeClause s f v = haltRing (endClause s f v) f.tenant f.prio := if_pos hhalts
  rw [heq]
  refine ⟨(hended.of_halted hmem hwork hhalted).notified, (congrArg Work.flights hwork).trans hflights, ?_⟩
  rw [hhalted]
  exact bit_or_shift _ hprio

/-! ## A visit with one clause that can be admitted -/

theorem canAdmit_of_none_waiting {s : State} {u q : Nat} (h : ((s.tenant u).ring q).waiting = []) : canAdmit s u q = false := by
  unfold canAdmit
  dsimp only
  rw [h]
  simp

section
variable {s : State} {t prio : Nat} {c : Clause} (hone : ((s.tenant t).ring prio).waiting = [c])
  (halone : ∀ u q, u < 16 → q < 4 → (u ≠ t ∨ q ≠ prio) → ((s.tenant u).ring q).waiting = [])
include hone halone

/-- Once the one clause has left its ring no ring has any. -/
theorem served_none {u q : Nat} (hu : u < 16) (hq : q < 4) : (((serveTenant s t prio).tenant u).ring q).waiting = [] := by
  rw [show (serveTenant s t prio).tenant u = (admitHead s t prio).tenant u from rfl, admitHead_ring hone u q]
  split
  · rw [ringAfter_waiting, hone]
    rfl
  · next hnot => exact halone u q hu hq (by tauto)

/-- The visit admits that clause. -/
theorem visit_admits (hready : ready s = true) (ht : t < 16) (hprio : prio < 4)
    (hmessages : ∀ u, u < 16 → (s.tenant u).requestRing = [] ∧ (s.tenant u).copied = []) (hcan : canAdmit s t prio = true)
    (hdeadline : headDeadline s t prio < 8) : ∃ cs, exec .pumphouseVisit s = .next { serveTenant s t prio with clusters := cs } := by
  have hnone : ∀ q, q < 4 → NoneToServe (serveTenant s t prio) q := fun q hq u hu => canAdmit_of_none_waiting (served_none hone halone hu hq)
  have hclass : serveClass s prio = serveTenant s t prio := serveClass_of_one ht hcan hdeadline
    (fun u hu hne => canAdmit_of_none_waiting (halone u prio hu hprio (.inl hne))) (hnone prio hprio)
  have hclasses : (List.range 4).foldl serveClass s = serveClass s prio := by
    refine foldl_of_only serveClass s prio _ List.nodup_range (List.mem_range.mpr hprio) (fun q hq hne => ?_) (fun q hq _ => ?_)
    · exact serveFrom_of_none (fun u hu => canAdmit_of_none_waiting (halone u q hu (List.mem_range.mp hq) (.inr hne))) _ _
    · rw [hclass]
      exact serveFrom_of_none (hnone q (List.mem_range.mp hq)) _ _
  have hcopied : (List.range 16).foldl copyRing s = s := foldl_of_fixed copyRing s _ (fun u hu => by
    obtain ⟨hring, hcopied⟩ := hmessages u (List.mem_range.mp hu)
    exact copyRing_of_none hring hcopied)
  obtain ⟨cs, hslots⟩ := fillSlots_clustersOnly (serveTenant s t prio)
  exact ⟨cs, by rw [exec_visits hready, hcopied, hclasses, hclass, hslots]⟩

end

/-! ## BIND (R280) -/

section
variable {t : Fin 16} {p : Fin 4} {c : Clause} {rest : List Clause} {s : State}

theorem exec_binds (hready : ready s = true) (hwaiting : ((s.tenant t).ring p).waiting = c :: rest) (hcan : canAdmit s t p = true)
    (hverb : cVerb c = 0x0B) : exec (.bind t p) s = .next (admitHead s t p) := by
  refine Eq.trans (b := execBind t p s) rfl ?_
  unfold execBind
  rw [hwaiting]
  exact if_pos (by rw [hready, hverb, hcan]; rfl)

/-- A BIND that does not close its sentence gives its extents from then on. -/
theorem extentsFor_ringAfter {uid : Nat} {q : Nat} (hend : cEnd c = false) (hbinds : headBinds s t c = true) (r : SubRing) (plan : Plan) :
    extentsFor plan (ringAfter r c uid (bindsAfter s t q c)) (cMap c)
      = bindExtents ((s.tenant t).plan.getD {}) ((s.tenant t).ring q) c := by
  unfold extentsFor ringAfter bindsAfter
  dsimp only
  rw [hend, hbinds]
  simp

/-- A BIND that closes its sentence begins a new one without records. -/
theorem ringAfter_end {uid : Nat} (hend : cEnd c = true) (r : SubRing) (binds : List BindRec) :
    (ringAfter r c uid binds).binds = [] ∧ (ringAfter r c uid binds).sentence = r.sentence + 1 := by
  unfold ringAfter
  dsimp only
  rw [hend]
  exact ⟨rfl, rfl⟩

end

/-- A QUIET clause that completes OK writes nothing. -/
theorem endClause_quiet {s : State} {f : Flight} (hclears : (s.tenant f.tenant).clears = []) (hquiet : cQuiet f.words = true) :
    (endClause s f {}).mem = s.mem := by
  have hgone := clauseGone_workOnly s f
  have hend : endClause s f {} = finishClears (clauseGone s f) f.tenant := by
    unfold endClause
    dsimp only
    rw [hquiet]
    rfl
  rw [hend, finishClears_of_none (by rw [hgone.tenant]; exact hclears)]
  obtain ⟨cs, w, heq⟩ := hgone
  rw [heq]

/-! ## The obligation -/

/-- Settles O7: one clause that can be admitted is served alone and leaves by the branch of admission that its checks choose. -/
theorem visitAdmitsClauses : Obligations.VisitAdmitsClauses := by
  unfold Obligations.VisitAdmitsClauses
  refine ⟨fun t p c s hready hmessages hone hcan halone hdeadline => ?_, fun t p c rest s hready hwaiting hcan hverb hwhy hfence hclears => ?_⟩
  · have halone' : ∀ u q, u < 16 → q < 4 → (u ≠ t.val ∨ q ≠ p.val) → ((s.tenant u).ring q).waiting = [] := fun u q hu hq hne =>
      halone ⟨u, hu⟩ ⟨q, hq⟩ (hne.imp (fun h => fun heq => h (congrArg Fin.val heq)) (fun h => fun heq => h (congrArg Fin.val heq)))
    obtain ⟨cs, hexec⟩ := visit_admits hone halone' hready t.isLt p.isLt (fun u hu => hmessages ⟨u, hu⟩) hcan hdeadline
    refine ⟨_, hexec, served_none hone halone' t.isLt p.isLt, fun hwhy hverb hfence => ?_, fun code hwhy hnotify hflights hclears => ?_⟩
    · have hflown := admitHead_flown hone hwhy hfence hverb
      refine ⟨headFlight s t p c, ?_, rfl, rfl, rfl, rfl, rfl, rfl, rfl, ?_⟩
      · exact (congrArg (fun a : State => a.work.flights) hflown).trans rfl
      · exact (congrArg (fun a : State => a.mem) hflown).trans rfl
    · have hrejected := admitHead_rejected hone hwhy
      obtain ⟨hnotified, hgone, hhalted⟩ := completeClause_halts (s := headTaken s t p c) (f := headFlight s t p c)
        (v := { status := stRejected, reason := code }) (canNotify_headTaken hnotify) (headTaken_clears hclears) Nat.one_ne_zero rfl
        hflights p.isLt
      rw [← hrejected] at hnotified hgone hhalted
      exact ⟨hgone, hhalted, headFlight s t p c, rfl, rfl, rfl, rfl, rfl, rfl, rfl, rfl, notified_of_headTaken hnotified⟩
  · have hbinds : headBinds s t c = true := by
      unfold headBinds
      rw [hverb, hwhy, hfence]
      rfl
    have hbound := (admitHead_bound hwaiting hwhy hfence hverb).trans (completeClause_of_ok _ _)
    have hring := (admitHead_ring hwaiting t p).trans (if_pos ⟨rfl, rfl⟩)
    have hclears' := headTaken_clears (prio := p) (c := c) hclears
    refine ⟨_, exec_binds hready hwaiting hcan hverb, ?_, ?_, fun hend => ?_, fun hend => ?_, fun hquiet hnotify => ?_, fun hquiet => ?_⟩
    · rw [hring, ringAfter_waiting, hwaiting]
      rfl
    · rw [hbound]
      exact endClause_flights _ _ _
    · rw [hring]
      exact extentsFor_ringAfter hend hbinds _ _
    · rw [hring]
      exact ringAfter_end hend _ _
    · obtain ⟨hended, _⟩ := endClause_ends (s := headTaken s t p c) (f := headFlight s t p c) (v := {}) (canNotify_headTaken hnotify) hclears'
        (by rw [show (headFlight s t p c).words = c from rfl, hquiet]; rfl)
      rw [hbound]
      exact ⟨headFlight s t p c, rfl, rfl, rfl, rfl, rfl, rfl, rfl, rfl, notified_of_headTaken hended.notified⟩
    · rw [hbound]
      exact endClause_quiet hclears' hquiet

end Sys2Proof.Machine
